-- ==== Sys2Proof/Word.lean ====
section
/-! DEFINITION. The word types of the RZ5120 model and the plain containers its state is made of
(R9: registers and mailbox payload words are 32 bits wide, bit 0 least significant). -/

namespace Sys2Proof

/-- One byte (R9, R10). -/
abbrev Byte := BitVec 8

/-- A register or a mailbox payload word of 32 bits (R9). -/
abbrev Word := BitVec 32

/-- The word a natural number stands for, modulo 2^32. -/
abbrev w32 (n : Nat) : Word := BitVec.ofNat 32 n

/-- A sparse table: pairs of a key and a value, keys rising. What an absent key means is said where a table is used. -/
abbrev Table (α : Type) := List (Nat × α)

end Sys2Proof
end

