-- ==== Sys2Proof/Operand.lean ====
section
/-! DEFINITION. The operand types of the commands that are not mailbox commands: what arrives at the block's pins,
lanes, links and checkers, as plain data. -/

namespace Sys2Proof

/-- Mailbox numbers (R7). -/
abbrev Mbx := Fin 16

/-- Line, fabric and Varric lanes (R3). -/
inductive LaneId where
  | ll (i : Fin 256)
  | fl (i : Fin 256)
  | vl (i : Fin 8)
  deriving DecidableEq, Repr

/-- What a received or transmitted frame belongs to: an alignment process of a port (by PROC of R448: 0 the port frame,
1 to 32 a lane process, 33 to 48 an OTUC instance), an ODU channel and instance, or a VC-4 channel. `eg` is the
egress direction. -/
inductive FrameObj where
  | proc (p : Fin 256) (proc : Fin 49)
  | odu (eg : Bool) (ch : Fin 16384) (inst : Fin 16)
  | vc (eg : Bool) (ch : Fin 16384)
  deriving DecidableEq, Repr

/-- A received frame at its expected position: the six FAS bytes, MFAS (LLM on an OTL lane), overhead bytes by the index of
R104 or R113, the bytes over which its parity is computed (R107; `range2` for B2), the received B2 bytes, the AU-4 pointer
words of a VC-4 channel, and the arrival of the lane in ns. -/
structure RxFrame where
  sig : List Byte := []
  mfas : Byte := 0
  oh : Table Byte := []
  range : List Byte := []
  range2 : List Byte := []
  b2 : List Byte := []
  ptr : List (BitVec 16) := []
  arrival : Nat := 0
  deriving DecidableEq, Repr

/-- A transmitted frame: the bytes over which its parity is computed, the overhead bytes that the carried signal brings by
index (a transparent level), and how many 504-byte units the frame draws from the leaf's FIFO. -/
structure TxFrame where
  range : List Byte := []
  range2 : List Byte := []
  pass : Table Byte := []
  draw : Nat := 0
  deriving DecidableEq, Repr

/-- A lane whose receiver has locked, and the coefficients that its initial adaptation has trained (R62). -/
structure LockedLane where
  lane : LaneId
  coefs : List Int := []
  deriving DecidableEq, Repr

/-- The FAS bytes found where a candidate is checked, and their arrival in ns (R78, R84). -/
structure FasSeen where
  bytes : List Byte := []
  arrival : Nat := 0
  deriving DecidableEq, Repr

/-- The identity that a FlexO marker carries: the interface's PID and the lane within the interface (R54). -/
structure FlexoIdent where
  pid : Fin 256
  lane : Fin 8
  deriving DecidableEq, Repr

/-- A 512-byte frame of the Hagil fabric interface or of the Varric link (R175, R355). -/
structure HagilFrame where
  type : Byte
  flags : Byte := 0
  channel : BitVec 24 := 0
  seq : BitVec 16 := 0
  payload : List Byte := []
  deriving DecidableEq, Repr

/-- A heartbeat payload (R356), times in 1/65,536 ns. -/
structure Heartbeat where
  version : Byte
  role : Fin 8
  strap : Bool
  paired : Bool
  ready : Bool
  follow : Bool
  seq : BitVec 16
  txTime : Nat
  echoTx : Nat
  echoRx : Nat
  phase0 : Int
  phase1 : Int
  activeSince : Nat
  handoverAt : Nat
  request : Bool
  ack : Bool
  txnApplied : Word
  deriving DecidableEq, Repr

/-- A command in a mirrored transaction or configuration (R368, R380). -/
structure TxnCmd where
  code : BitVec 16
  req : List Word
  deriving DecidableEq, Repr

/-- A mirrored decision (R370). -/
inductive Decision where
  | prot (g : Fin 2048) (sel bridge : Bool) (top : Fin 16) (remote : Bool) (aps : Word) (wtrLeft : Nat) (ext : Fin 8)
  | welt (w : Fin 4096) (bsn : BitVec 32) (sel : Bool)
  | braid (g : Fin 256) (tx : Bool) (nStar : Nat) (suspended : BitVec 64)
  | lcas (eg : Bool) (ch : Fin 16384) (carrying : Bool)
  | flexe (slice : Fin 32) (grp : Fin 2) (cal : Fin 2)
  deriving DecidableEq, Repr

/-- A closed second of one point as the active twin judged it (R370). -/
structure Snapshot where
  start : Nat
  neEs : Bool
  neSes : Bool
  neBbe : Nat
  feNa : Bool
  feEs : Bool
  feSes : Bool
  feBbe : Nat
  deriving DecidableEq, Repr

/-- The FlexE overhead of one frame that the model acts on (R88, R169, R170). -/
structure FlexOh where
  found : Bool
  omf : Bool
  group : Nat
  phys : List Nat
  inUse : Bool
  ca : Bool
  deriving DecidableEq, Repr

/-- What a GFP-F frame carries after its core header (R163): UPI and PTI, the extension header's CID, whether the type and
extension headers pass their HEC, whether a payload FCS passes, and the client bytes. -/
structure GfpFrame where
  upi : Byte := 1
  pti : BitVec 3 := 0
  cid : Byte := 0
  hecOk : Bool := true
  fcsOk : Bool := true
  bytes : List Byte := []
  deriving DecidableEq, Repr

/-- A group or pair whose engine reads its queues, with the cells that prove uncorrectable as they are read (R246). -/
structure EngineRead (n : Nat) where
  id : Fin n
  ue : List (Fin 503316480) := []
  deriving DecidableEq, Repr

/-- Bytes that a slice's datapath has delivered to a fabric-connected ingress channel since the last frame slot, with the
packet's end and bad marks for a packet channel. -/
structure Arrival where
  ch : Fin 16384
  bytes : List Byte
  eop : Bool := false
  bad : Bool := false
  deriving DecidableEq, Repr

/-- The content of a received XFEED frame (R29): its bytes, and what the framers of the slice that it enters find in it for each ingress
channel of the port. -/
structure Xfeed where
  bytes : List Byte
  found : List Arrival := []
  deriving DecidableEq, Repr

/-- A receiver that orders Hagil frames by SEQ (R179): an egress leaf, or a queue written from the fabric. -/
inductive SeqReceiver where
  | leaf (ch : Fin 16384)
  | queue (q : Fin 1048576)
  deriving DecidableEq, Repr

/-- One candidate at a second boundary (R292): activity and the TDC sample in 1/65,536 ns. -/
structure OffsetMeas where
  c : Fin 42
  active : Bool
  phase : Int
  deriving DecidableEq, Repr

/-- What the TMC measures at a second boundary: the candidates, and XO_IN against OCXO_IN in units of 10^-15 (R288). -/
structure SecondMeas where
  cands : List OffsetMeas := []
  ocxo : Int := 0
  deriving DecidableEq, Repr

/-- The TDC samples of one candidate since the last front-sample instant, oldest first, in 1/65,536 ns (R328). -/
structure TdcRun where
  c : Fin 42
  xs : List Int
  deriving DecidableEq, Repr

/-- What a checker observed in a check (R395): a real event with no injection, the pure-injection syndrome, an injection
and a real error together, or an injection that a real error cancelled. -/
inductive CheckObs where
  | real | inj | injReal | missed
  deriving DecidableEq, Repr

/-- The object of a pattern checker (R449): a lane, or an ingress ODU channel. -/
inductive PrbsTarget where
  | lane (l : LaneId)
  | chan (ch : Fin 16384)
  deriving DecidableEq, Repr

/-! ### What the bulk copy of a resynchronisation carries (R370, R380) -/

/-- One record of PM counts (R144, R150). Bins are numbered by their start second. -/
structure PmRec where
  suspect : Bool := false
  neUnavail : Bool := false
  feUnavail : Bool := false
  elapsed : Nat := 0
  start : Nat := 0
  neEs : Nat := 0
  neSes : Nat := 0
  neUas : Nat := 0
  neBbe : Nat := 0
  feEs : Nat := 0
  feSes : Nat := 0
  feUas : Nat := 0
  feBbe : Nat := 0
  viol : BitVec 64 := 0
  bei : BitVec 64 := 0
  corr : Nat := 0
  uncorr : Nat := 0
  deriving DecidableEq, Repr

/-- CSTATE of R321. -/
inductive CState where
  | unused | waiting | qualified | disqualified
  deriving DecidableEq, Repr

/-- DPLL states with the STATE codes of R321 in order. -/
inductive DState where
  | freeRun | locking | locked | holdover | bridge | dco
  deriving DecidableEq, Repr

/-- A record of the timing history (R315, R322) of one DPLL. -/
structure DpllHist where
  st : DState
  sel : Nat
  gap : Bool
  sticky : BitVec 8
  dco : Int
  err : Int
  start : Nat
  /-- The number of the second; in a copied history, its AGE. -/
  sec : Int := 0
  deriving DecidableEq, Repr

/-- A history record of one candidate. -/
structure CandHist where
  off1 : Int
  st : CState
  actLost : Bool
  dissent0 : Bool
  gap : Bool
  start : Nat
  /-- As in a DPLL's record. -/
  sec : Int := 0
  deriving DecidableEq, Repr

/-- The current PM bins of one point, by its address word, as the active twin holds them. -/
structure PmCopy where
  addr : Word
  cur15 : PmRec
  cur24 : PmRec
  deriving DecidableEq, Repr

/-- The closed PM bins of one point, newest first, as the active twin holds them. -/
structure PmHistCopy where
  addr : Word
  hist15 : List PmRec
  hist24 : List PmRec
  deriving DecidableEq, Repr

/-- The timing history of one DPLL or candidate, newest first, as the active twin holds it. -/
inductive TimingCopy where
  | dpll (d : Fin 4) (recs : List DpllHist)
  | cand (c : Fin 42) (recs : List CandHist)
  deriving DecidableEq, Repr

end Sys2Proof
end

