-- ==== Sys2Proof/Syntax.lean ====
section
/-! DEFINITION. The 229 commands of the block: one constructor per row of spec/opcode_table.json.
A command of the mailbox command index (R438) carries the mailbox it is sent on, its tag and its request words; the header
word is made from them (R415). The other rows are host bus accesses, pin events and the events of the block's own
engines, each with the operands that come from outside the state. -/

namespace Sys2Proof

/-- The commands of the RZ5120, one per row of the opcode table. -/
inductive Instr where
  /-- R442: Returns the device identity, firmware release, unique ID, core voltage setpoint, strap, retired count, fatal flag, boot count and uptime -/
  | sysInfo (m : Mbx) (tag : Byte) (req : List Word)
  /-- R443: Starts a reset of a lane, slice, engine domain, candidate TDC and front, or the MP, with the quiesce mask applied -/
  | sysResetBlock (m : Mbx) (tag : Byte) (req : List Word)
  /-- R444: Powers a switchable domain on, isolates it and powers it off, or reads its state -/
  | sysPowerDomain (m : Mbx) (tag : Byte) (req : List Word)
  /-- R309: Sets device time at the next whole-second crossing (OP 1), or steps it by an offset (OP 2) -/
  | sysTimeSet (m : Mbx) (tag : Byte) (req : List Word)
  /-- R445: Masks, unmasks or reads the mask of one event code -/
  | sysEventMask (m : Mbx) (tag : Byte) (req : List Word)
  /-- R437: Returns the bus-violation log, oldest first, with its displaced count, and then empties both -/
  | sysViolationRead (m : Mbx) (tag : Byte) (req : List Word)
  /-- R441: Returns the next 255-word part of a held long response on the same mailbox -/
  | sysContinue (m : Mbx) (tag : Byte) (req : List Word)
  /-- R446: Sets or reads the polarity, freeze, readapt, margin and transmit taps of a line, fabric or Varric lane -/
  | laneConfig (m : Mbx) (tag : Byte) (req : List Word)
  /-- R447: Returns a lane's state, defects, SNR, pre-FEC errors and counts -/
  | laneStatus (m : Mbx) (tag : Byte) (req : List Word)
  /-- R68: Creates a port on its lanes and starts its idle signal, once the command is checked -/
  | portCreate (m : Mbx) (tag : Byte) (req : List Word)
  /-- R69: Deletes an unreferenced port and returns its lanes to OFF -/
  | portDelete (m : Mbx) (tag : Byte) (req : List Word)
  /-- R448: Returns a port's state, lane skews, logical lane map and alignment counts for a chosen process -/
  | portStatus (m : Mbx) (tag : Byte) (req : List Word)
  /-- R97: Sets the MFAS qualifier or the GFP delineation parameters, or forces a rehunt -/
  | alignConfig (m : Mbx) (tag : Byte) (req : List Word)
  /-- R125: Returns overhead bytes captured from one frame, with that frame's MFAS and start time -/
  | ohRead (m : Mbx) (tag : Byte) (req : List Word)
  /-- R127: Writes overhead bytes, a maintenance signal or the downstream-insertion setting, effective at the next transmitted frame -/
  | ohWrite (m : Mbx) (tag : Byte) (req : List Word)
  /-- R116: Sets a transmitted trace, or an expected trace and its comparison mode -/
  | ttiSet (m : Mbx) (tag : Byte) (req : List Word)
  /-- R118: Returns the transmitted, expected or accepted trace, with its format and dTIM -/
  | ttiRead (m : Mbx) (tag : Byte) (req : List Word)
  /-- R148: Returns a monitoring point's declared, reported, failure and sticky defect words and its suppressor, optionally clearing STICKY -/
  | defectRead (m : Mbx) (tag : Byte) (req : List Word)
  /-- R149: Sets a point's event enables, failure timers and degrade parameters -/
  | defectConfig (m : Mbx) (tag : Byte) (req : List Word)
  /-- R150: Returns a point's last closed second or its current 15-minute or 24-hour bin -/
  | pmRead (m : Mbx) (tag : Byte) (req : List Word)
  /-- R151: Sets DAY_OFFSET, or sets a point's thresholds and optionally resets its current bins -/
  | pmConfig (m : Mbx) (tag : Byte) (req : List Word)
  /-- R150: Returns a closed 15-minute or 24-hour bin of a point, selected by age -/
  | pmHistory (m : Mbx) (tag : Byte) (req : List Word)
  /-- R182: Creates a channel in the channel tree, with its mapping, slots, modes and optional fabric connection -/
  | chanCreate (m : Mbx) (tag : Byte) (req : List Word)
  /-- R183: Disables an unused channel, removes its fabric connection, frees its slots and deletes it -/
  | chanDelete (m : Mbx) (tag : Byte) (req : List Word)
  /-- R184: Modifies the mutable fields of a channel, enables or disables it, or reads its configuration or status -/
  | chanModify (m : Mbx) (tag : Byte) (req : List Word)
  /-- R173: Connects a leaf to the fabric, a hairpin leaf or a queue, effective at the next frame or packet boundary -/
  | xcConnect (m : Mbx) (tag : Byte) (req : List Word)
  /-- R185: Removes a leaf's connection, effective at the next frame or packet boundary -/
  | xcDisconnect (m : Mbx) (tag : Byte) (req : List Word)
  /-- R170: Creates or deletes a FlexE group, writes or reads a calendar, or starts a calendar switch -/
  | flexeCalendar (m : Mbx) (tag : Byte) (req : List Word)
  /-- R215: Creates or deletes a Braid group, or adds or removes its clients -/
  | braidCreate (m : Mbx) (tag : Byte) (req : List Word)
  /-- R206: Starts adding a receive or transmit member to a Braid group, completing later by event -/
  | braidMemberAdd (m : Mbx) (tag : Byte) (req : List Word)
  /-- R207: Starts removing a member from a Braid group, or removes a receive member at once with FORCE -/
  | braidMemberRemove (m : Mbx) (tag : Byte) (req : List Word)
  /-- R217: Returns a Braid side's state, defects, capacity, suspended clients, counts and per-member state and delays -/
  | braidStatus (m : Mbx) (tag : Byte) (req : List Word)
  /-- R255: Creates, modifies, deletes or reads a host queue -/
  | queueConfig (m : Mbx) (tag : Byte) (req : List Word)
  /-- R252: Returns a queue's kind, owner, cells, limit, items and loss counts from one reading of its entry -/
  | queueCount (m : Mbx) (tag : Byte) (req : List Word)
  /-- R239: Requests a whole-queue flush, which takes effect at the writer's next cell boundary -/
  | queueFlush (m : Mbx) (tag : Byte) (req : List Word)
  /-- R253: Returns the changed and non-empty bitmaps of a block of 1,024 queues, optionally clearing CHANGED -/
  | queueScan (m : Mbx) (tag : Byte) (req : List Word)
  /-- R254: Returns the pool's retired set, cell counts, budget, load and error totals -/
  | poolStatus (m : Mbx) (tag : Byte) (req : List Word)
  /-- R280: Creates, deletes, modifies or reads a linear protection group -/
  | protGroupCreate (m : Mbx) (tag : Byte) (req : List Word)
  /-- R281: Applies an external protection command such as clear, lockout, forced, manual or exercise -/
  | protCommand (m : Mbx) (tag : Byte) (req : List Word)
  /-- R282: Returns a protection group's top request, selector, bridge, failures, APS bytes and switch counts -/
  | protStatus (m : Mbx) (tag : Byte) (req : List Word)
  /-- R283: Creates, deletes, modifies or realigns a Welt pair, or creates or deletes a Welt bridge -/
  | weltCreate (m : Mbx) (tag : Byte) (req : List Word)
  /-- R284: Returns a Welt pair's state, copy states, delay, holds and merge counts -/
  | weltStatus (m : Mbx) (tag : Byte) (req : List Word)
  /-- R317: Configures or reads a timing candidate -/
  | tmcRefConfig (m : Mbx) (tag : Byte) (req : List Word)
  /-- R318: Configures a DPLL, forces or releases a candidate or holdover, reads the DPLL settings, or configures OCXO_IN -/
  | tmcSelect (m : Mbx) (tag : Byte) (req : List Word)
  /-- R321: Returns a DPLL's state and sticky bits, or one candidate's state, optionally clearing the sticky bits -/
  | tmcStatus (m : Mbx) (tag : Byte) (req : List Word)
  /-- R307: Sets or adjusts a DPLL's DCO word, or adjusts its output phase -/
  | tmcDcoSteer (m : Mbx) (tag : Byte) (req : List Word)
  /-- R320: Configures or reads a clock or pulse output -/
  | tmcOutputConfig (m : Mbx) (tag : Byte) (req : List Word)
  /-- R322: Returns per-second DPLL or candidate history records -/
  | tmcHistory (m : Mbx) (tag : Byte) (req : List Word)
  /-- R347: Configures the front device-wide or a DPLL's resampler ratio, resets one candidate's front, or reads these settings -/
  | temperConfig (m : Mbx) (tag : Byte) (req : List Word)
  /-- R339: Stages coefficient segments and commits them, or copies a bank, into a candidate's inactive bank -/
  | temperBankLoad (m : Mbx) (tag : Byte) (req : List Word)
  /-- R342: Starts or queues a cross-fade to the inactive bank, or cancels a pending swap -/
  | temperBankSwap (m : Mbx) (tag : Byte) (req : List Word)
  /-- R348: Returns a candidate's Temper bank state, or a DPLL's resampler state -/
  | temperStatus (m : Mbx) (tag : Byte) (req : List Word)
  /-- R374: Sets the twin mode and options, sets port homing, or reads them -/
  | twinConfig (m : Mbx) (tag : Byte) (req : List Word)
  /-- R375: Returns the twin role, partner state, link and heartbeat state, and counts -/
  | twinStatus (m : Mbx) (tag : Byte) (req : List Word)
  /-- R376: Starts a handover, yield, take or rejoin, as its OP selects -/
  | twinSwitch (m : Mbx) (tag : Byte) (req : List Word)
  /-- R368: Starts a pair-wide commit transaction, discards the staging, or reads the commit state -/
  | twinCommit (m : Mbx) (tag : Byte) (req : List Word)
  /-- R401: Returns one fault source's state, a scan of non-idle sources, or the fault summary -/
  | faultRead (m : Mbx) (tag : Byte) (req : List Word)
  /-- R402: Returns SEVERE or HELD sources to IDLE, ending holds and clearing PATH and SILENT -/
  | faultClear (m : Mbx) (tag : Byte) (req : List Word)
  /-- R382: Sets or reads a fault group's class, threshold, window, grace, action and TWIN_FIRST -/
  | faultPolicy (m : Mbx) (tag : Byte) (req : List Word)
  /-- R395: Injects check-bit inversions or a rail fault into a source's checker -/
  | faultInject (m : Mbx) (tag : Byte) (req : List Word)
  /-- R405: Sets FAULT_ASSERT, clears REPLACE reasons, sets the host reason, or reads the reason set -/
  | faultPin (m : Mbx) (tag : Byte) (req : List Word)
  /-- R449: Starts or stops a lane or channel pattern generator or checker -/
  | prbsConfig (m : Mbx) (tag : Byte) (req : List Word)
  /-- R449: Returns a checker's lock state and counts, optionally clearing them -/
  | prbsRead (m : Mbx) (tag : Byte) (req : List Word)
  /-- R484: Sets a lane to no loopback, near-end loopback or far-end loopback -/
  | loopbackSet (m : Mbx) (tag : Byte) (req : List Word)
  /-- R487: Starts a March C- self-test of an HBM pseudo-channel or of a slice's SRAMs -/
  | bistRun (m : Mbx) (tag : Byte) (req : List Word)
  /-- R452: Starts an eye scan on a lane, or reads its completed result -/
  | eyeScan (m : Mbx) (tag : Byte) (req : List Word)
  /-- R429: Erases, writes or checks the inactive firmware slot -/
  | fwStage (m : Mbx) (tag : Byte) (req : List Word)
  /-- R431: Activates the staged slot hitlessly, selects it for the next start-up, confirms the running image, or activates the other slot -/
  | fwActivate (m : Mbx) (tag : Byte) (req : List Word)
  /-- R436: Returns the firmware state, slot contents, anti-rollback counter and the last check result -/
  | fwStatus (m : Mbx) (tag : Byte) (req : List Word)
  /-- R437: Returns firmware log entries from a given sequence number -/
  | logRead (m : Mbx) (tag : Byte) (req : List Word)
  /-- R416: A host write of 1 to a doorbell bit hands mailbox n to the device and clears its DONE bit -/
  | mbxDoorbellRing (v : Word)
  /-- R419: The host sets ENABLE from 0 to 1, which zeroes HEAD and TAIL and starts delivery to the ring -/
  | evtRingEnable (v : Word)
  /-- R419: The host clears ENABLE, and delivery stops once the record in progress is complete -/
  | evtRingDisable (v : Word)
  /-- R419: The host writes HEAD to free ring entries it has read -/
  | evtRingHeadWrite (v : Word) (be : BitVec 4)
  /-- R423: A read of VIOL_INFO returns the first violation and the count, then clears them and VIOL_ADDR -/
  | violInfoRead
  /-- R423: A read touching an unimplemented BAR0 offset completes with Unsupported Request and is logged -/
  | unimplementedRead (off : BitVec 17) (bes : List (BitVec 4))
  /-- R423: A write to an unimplemented BAR0 offset is dropped and logged -/
  | unimplementedWrite (off : BitVec 17) (v : Word) (be : BitVec 4)
  /-- R423: A host write to a mailbox in BUSY is dropped and logged -/
  | busyMailboxWrite (off : BitVec 17) (v : Word) (be : BitVec 4)
  /-- R412: A host write to an implemented register or mailbox request area with no behaviour of its own stores the enabled bytes -/
  | registerWrite (off : BitVec 17) (v : Word) (be : BitVec 4)
  /-- R417: Prihegen takes a rung mailbox's command in doorbell order, checks the code and length, and runs it -/
  | commandTake
  /-- R421: The oldest held event record is written to the ring when the ring is enabled and has room, and TAIL advances -/
  | eventDelivery
  /-- R420: At the end of the 10 µs hold-off, vector 0 is sent if records were written since the last message -/
  | msixVector0HoldoffEnd
  /-- R423: At most once per millisecond, an event reports the violations counted since the last one -/
  | busViolationEventTimer
  /-- R460: Assertion of PORST_N resets the device apart from the fatal latch and holds the pins as the start-up table states -/
  | porstNAssert
  /-- R462: Release of PORST_N samples PAIR_ID and starts the start-up phases -/
  | porstNRelease (strap : Bool)
  /-- R410: PERST_N resets the PCIe endpoint and BAR0, sets every mailbox IDLE and disables the event ring -/
  | perstNAssert
  /-- R459: Release of PERST_N readies the endpoint for link training and configuration requests -/
  | perstNRelease
  /-- R399: Every rail below 0.1 V for 100 ms clears the fatal latch and the tick counter -/
  | supplyRemoval
  /-- R462: With fuses read, the FC and TMC started and the endpoint enabled, the boot record is read and the image loaded -/
  | startupPhase1End
  /-- R462: With the image checked, Prihegen starts and reads the configuration journal, or the device enters RECOVERY -/
  | startupPhase2End
  /-- R462: With the journal taken up, the switchable domains are powered, or the device enters FATAL -/
  | startupPhase3End
  /-- R462: With the domains powered, HBM training and lane calibration start in parallel -/
  | startupPhase4End
  /-- R462: HBM training and initialisation of the queue table, free lists and history region complete -/
  | startupPhase5aEnd (pcs : BitVec 64) (stackBits : BitVec 2)
  /-- R462: Calibration of the fabric, Varric and port line lanes completes -/
  | startupPhase5bEnd (failed : List LaneId)
  /-- R465: With the journal's objects re-created, the release phase starts -/
  | startupPhase6End
  /-- R462: The twin logic is released, FW_STATE becomes READY and held doorbells are taken -/
  | startupPhase7End
  /-- R428: If an image does not reach READY within 8 s, the boot ROM runs the other slot -/
  | bootReadyTimeout
  /-- R468: A domain's power switches open, completing its removal from service -/
  | domainSwitchesOpen (d : Fin 36)
  /-- R469: A powered domain completes bring-up, its objects are re-created and it is reported on -/
  | domainBringUpComplete (d : Fin 36)
  /-- R474: A block's reset time ends and it resumes as the block-reset table states -/
  | blockResetEnd (blk : Fin 8) (idx : Fin 256)
  /-- R20: The MP returns to READY, resumes paused tasks and flushes held events to the ring -/
  | mpRestartComplete
  /-- R73: Signal detect with transitions for 100 µs clears dLOS and moves the lane from IDLE to ACQUIRE -/
  | signalDetectPresent (l : LaneId)
  /-- R73: Signal detect absent for 20 µs declares dLOS and returns the lane to IDLE -/
  | signalDetectAbsent (l : LaneId)
  /-- R62: CDR lock and converged adaptation move the lane to TRACK and clear dLOL -/
  | cdrLockAcquired (l : LockedLane)
  /-- R62: The acquisition limit elapses in ACQUIRE; the lane returns to IDLE and ACQ_FAIL is incremented -/
  | acquisitionLimitExpiry (l : LaneId)
  /-- R62: Loss of CDR lock in TRACK returns the lane to ACQUIRE -/
  | cdrLockLost (l : LaneId)
  /-- R75: An elastic buffer overflow or underflow recentres the buffer, counts BUF_SLIP and declares dLOL -/
  | laneBufferSlip (l : LaneId)
  /-- R75: The 100 µs dLOL declared at a buffer slip ends -/
  | slipDlolExpiry (l : LaneId)
  /-- R64: Adaptation steps one receive coefficient of one tracking lane by at most one step -/
  | continuousAdaptationVisit (l : LaneId) (coef : Fin 34) (step : Fin 3) (snr : Fin 65536)
  /-- R78: A match of the opening pattern opens a candidate in a free slot, or counts SLOT_FULL -/
  | fasPatternMatch (p : Fin 256) (proc : Fin 49) (pos : Nat) (sig : List Byte) (qual : Byte)
  /-- R78: One frame period after opening, a candidate is confirmed and may win, or it closes and counts IMITATION -/
  | fasCandidateCheck (p : Fin 256) (proc : Fin 49) (slot : Fin 16) (seen : FasSeen) (qual : Byte)
  /-- R80: A received frame is checked at the expected frame position, and its multiframe, overhead and parity are processed -/
  | rxFrame (o : FrameObj) (f : RxFrame)
  /-- R81: The port OOF condition persisting for 3 ms declares dLOF -/
  | dlofDeclare (p : Fin 256) (proc : Fin 49)
  /-- R81: The port OOF condition absent for 3 ms clears dLOF -/
  | dlofClear (p : Fin 256) (proc : Fin 49)
  /-- R81: A per-lane OOF or unlocked condition persisting for 3 ms declares dLOFLANE -/
  | dloflaneDeclare (p : Fin 256) (proc : Fin 49)
  /-- R81: A per-lane process in frame for 3 ms clears dLOFLANE -/
  | dloflaneClear (p : Fin 256) (proc : Fin 49)
  /-- R83: OOM persisting for 3 ms declares dLOM -/
  | dlomDeclare (p : Fin 256) (proc : Fin 49)
  /-- R83: IM persisting for 3 ms clears dLOM -/
  | dlomClear (p : Fin 256) (proc : Fin 49)
  /-- R86: A FlexO frame's alignment marker and OMFI are checked for lane lock and multiframe -/
  | flexoFrame (p : Fin 256) (lane : Fin 8) (am : Bool) (ident : FlexoIdent) (omfi : Byte) (arrival : Nat)
  /-- R87: An Ethernet PCS lane's block and alignment-marker lock advance under IEEE 802.3 -/
  | pcsAlignmentMarker (p : Fin 256) (pcs : Fin 32) (sync : List Bool) (am : Bool) (lane : Fin 32) (arrival : Nat)
  /-- R88: A FlexE overhead frame is checked for frame and multiframe lock -/
  | flexeOverheadFrame (p : Fin 256) (inst : Fin 16) (f : FlexOh)
  /-- R90: A GFP core header at the examined position moves the delineation between HUNT, PRESYNC and SYNC -/
  | gfpCoreHeader (ch : Fin 16384) (hdr : Word) (f : GfpFrame)
  /-- R90: A Hagil header at the examined position moves the fabric lane's delineation -/
  | hagilHeader (l : Fin 256) (hdr : List Byte)
  /-- R92: A decoded RS(544,514) codeword advances codeword boundary search, lock or loss -/
  | fabricCodeword (l : Fin 256) (oks : BitVec 16)
  /-- R110: A transmitted frame starts and carries the inserted overhead, remote indications, replacements and written bytes -/
  | txFrame (o : FrameObj) (f : TxFrame)
  /-- R120: Every 100 ms during replacement, a GFP client management frame for loss of client signal is sent -/
  | gfpCmfTimer (eg : Bool) (ch : Fin 16384)
  /-- R135: A defect reported for T_DECLARE becomes a failure -/
  | failureDeclareExpiry (addr : Word) (bit : Fin 20)
  /-- R135: A defect unreported for T_CLEAR clears its failure -/
  | failureClearExpiry (addr : Word) (bit : Fin 20)
  /-- R33: The TMC pulse closes the one-second PM interval in every block at one slice-clock edge -/
  | oneSecondPulse
  /-- R141: Prihegen judges each closed second per point, updates availability and commits the second from 10 s before into its bins -/
  | pmSecondEvaluation (addr : Word)
  /-- R177: A fabric lane's frame slot takes the oldest complete frame, or sends IDLE -/
  | hagilSlotTx (sl : Fin 32) (arr : List Arrival)
  /-- R179: A received Hagil frame is ordered by SEQ for its egress leaf or queue, or discarded and counted -/
  | hagilFrameRx (l : Fin 256) (f : HagilFrame)
  /-- R179: After a later frame has waited 200 ns for a missing SEQ, that SEQ is skipped and SEQ_GAP counted -/
  | seqSkipTimeout (r : SeqReceiver)
  /-- R168: A VCAT member without failure for WTR seconds returns to the group -/
  | lcasWtrExpiry (eg : Bool) (ch : Fin 16384)
  /-- R170: The far end's acknowledgement of a calendar request arrives -/
  | flexeCrAck (sl : Fin 32) (grp : Fin 2)
  /-- R170: The transmit calendar switches at the overhead multiframe boundary after the acknowledgement -/
  | flexeCalendarSwitch (sl : Fin 32) (grp : Fin 2)
  /-- R170: No acknowledgement within 1 s ends the switch attempt with TIMEOUT, and nothing changes -/
  | flexeAckTimeout (sl : Fin 32) (grp : Fin 2)
  /-- R194: A received BGO with good CRC is accepted, giving the member's delay, health, MST and defects -/
  | bgoAccept (g : Fin 256) (midx : Fin 64) (bgo : List Byte) (ts : Nat)
  /-- R200: A received stitch is checked and queued, or discarded and counted -/
  | stitchSlotRx (g : Fin 256) (midx : Fin 64) (bytes : List Byte)
  /-- R203: Once every healthy working member holds its stitches of a round, the round is read out to the clients -/
  | braidRoundRead (g : EngineRead 256)
  /-- R197: The source forms a round at ROUND_RATE and gives its positions to clients by deficit -/
  | braidRoundFormed (g : EngineRead 256)
  /-- R205: At round N*, both ends switch to the new schedule table -/
  | braidSwitchRound (g : Fin 256) (tx : Bool)
  /-- R206: A member addition not completed within 10 s completes with TIMEOUT and is withdrawn -/
  | braidAddTimeout (g : Fin 256) (tx : Bool) (midx : Fin 64)
  /-- R208: A failed member reported healthy for WTR seconds becomes a spare or returns as WORKING -/
  | braidMemberWtrExpiry (g : Fin 256) (midx : Fin 64)
  /-- R209: On a side with no opposite side, a member change takes effect 2 s after the command -/
  | braidSoloSideDelay (g : Fin 256) (tx : Bool) (midx : Fin 64)
  /-- R207: A removed member is withdrawn 2 sub-multiframe periods after N* -/
  | braidMemberWithdrawn (g : Fin 256) (midx : Fin 64)
  /-- R200: 1 ms without a data stitch puts a receive client into server signal fail -/
  | braidClientDataTimeout (g : Fin 256) (cidx : Fin 64)
  /-- R202: No BGO accepted for 3 sub-multiframe periods fails the member -/
  | bgoAbsence (g : Fin 256) (midx : Fin 64)
  /-- R232: A slice writes one writer word into a queue, allocating and packing cells -/
  | writerWord (q : Fin 1048576) (bytes : List Byte) (first : Bool) (last : Bool) (bad : Bool)
  /-- R240: At the writer's cell boundary or after 1 µs, the queue's cells are freed, its counts updated and EPOCH incremented -/
  | flushTakesEffect (q : Fin 1048576)
  /-- R243: A reader takes a cell or packet from a queue under the scheduler and frees it -/
  | queueRead (q : Fin 1048576) (ue : Bool)
  /-- R246: The patrol scrub checks stored cells and marks uncorrectable ones BAD -/
  | patrolScrub (cell : Fin 503316480) (ue : Bool)
  /-- R249: Within 10 ms, every queue holding a cell in the retired channel is flushed, and the budget is reduced -/
  | retirementEvaluation
  /-- R272: A block's WSO is accepted, and the block is judged in or out of range and the copy state updated -/
  | wsoAccept (w : Fin 4096) (copy : Fin 2) (reps : List (List Byte)) (start : BitVec 64) (frac : BitVec 16) (ended : Bool)
  /-- R276: At a block's playout point, both copies are graded and the best is played -/
  | weltPlayout (w : EngineRead 4096)
  /-- R275: Three block periods without an accepted WSO make a copy ABSENT -/
  | weltAbsentTimer (w : Fin 4096) (copy : Fin 2)
  /-- R277: WINDOW − T_dec after the first accepted WSO, the pair anchors playout and enters RUN -/
  | weltAcquireTimer (w : Fin 4096)
  /-- R277: No copy IN for 1 s returns the pair to ACQUIRE -/
  | weltNoCopyIn (w : Fin 4096)
  /-- R277: With REALIGN_AUTO, 10 s of dWELT_RANGE while the other copy is IN triggers realignment -/
  | weltRealignAuto (w : Fin 4096)
  /-- R263: At hold-off expiry, a still-present SF or SD becomes a local protection request -/
  | holdOffExpiry (g : Fin 2048) (k : Fin 4)
  /-- R265: At WTR expiry the request becomes NR and the selector returns to working -/
  | protWtrExpiry (g : Fin 2048)
  /-- R266: A bridged-signal mismatch lasting 50 ms declares FOP_NR -/
  | fopNrTimer (g : Fin 2048)
  /-- R297: Offsets are updated, candidates evaluated, consensus formed and references selected for each DPLL -/
  | tmcSecondBoundary (meas : SecondMeas)
  /-- R290: Loss of a candidate's activity disqualifies it, and selection runs at once if it was selected -/
  | candidateActivityLoss (c : Fin 42)
  /-- R292: A phase sample beyond PJ_THR disqualifies the candidate -/
  | candidatePhaseJump (c : Fin 42) (phase : Int)
  /-- R293: A candidate that completes QUAL_INIT or WTR without fault becomes QUALIFIED -/
  | candidateWaitExpiry (c : Fin 42)
  /-- R299: Phase and frequency error within limits for 2 s move the DPLL from LOCKING to LOCKED -/
  | dpllLockDetect (d : Fin 4)
  /-- R299: Phase error above 4 × LOCK_THR for 1 s returns the DPLL to LOCKING -/
  | dpllLockLoss (d : Fin 4)
  /-- R303: A reference switch completes with build-out applied, and the DPLL leaves BRIDGE -/
  | switchCompletion (d : Fin 4) (phi : Int)
  /-- R289: 60 s of OCXO_IN activity within ±50 ppm qualifies it for base correction -/
  | ocxoQualify
  /-- R289: A missing edge or an out-of-range OCXO_IN freezes the correction -/
  | ocxoDisqualify
  /-- R331: At each loop update, the resampler delivers the filtered phase to the DPLL loop -/
  | loopUpdate (d : Fin 4) (sub : Fin 327680)
  /-- R329: Every candidate front produces its filtered output at a front-sample instant, advancing any fade -/
  | frontSample (xs : List TdcRun)
  /-- R341: A cross-fade reaches its last sample, the new bank becomes active and any pending swap starts -/
  | fadeComplete (c : Fin 42)
  /-- R307: At the end of the spread time, a DCO-mode phase adjustment returns its offset to zero -/
  | phaseAdjSpreadEnd (d : Fin 4)
  /-- R310: A pulse output produces its rising edge, slewing toward its target in anneal mode -/
  | pulseEdge (k : Fin 4)
  /-- R313: After up to 100 µs held low, a reconfigured output restarts at its new setting -/
  | clkoutRestart (n : Fin 20)
  /-- R309: At a whole-second crossing, a waiting SYS_TIME_SET OP 1 value is taken and its commands complete -/
  | wholeSecondCrossing
  /-- R308: With TIME_LOCK, a reference pulse edge is measured against device time and time alignment steps or slews device time -/
  | pulseReferenceEdge (c : Fin 8) (sub : Fin 327680)
  /-- R356: Every 10 µs a twin sends a HEARTBEAT frame and toggles HBX_OUT -/
  | heartbeatTimer
  /-- R356: A received HEARTBEAT frame updates link delay, partner state and handover flags, and resolves dual activity -/
  | heartbeatRx (h : Heartbeat)
  /-- R357: An edge on HBX_IN is received as one heartbeat -/
  | hbxEdge
  /-- R357: 50 µs without an accepted HEARTBEAT frame loses the Varric heartbeat -/
  | varricHeartbeatLoss
  /-- R357: 50 µs without an HBX edge loses the HBX heartbeat -/
  | hbxHeartbeatLoss
  /-- R353: ARB_CLAIM reads released after 1 µs high, which may start a claim wait -/
  | arbClaimReleased
  /-- R353: ARB_CLAIM reads asserted, moving a twin from STARTUP, CLAIM_WAIT or YIELD to STANDBY -/
  | arbClaimAsserted
  /-- R358: At the end of the claim delay D, the recheck makes the twin ACTIVE or STANDBY -/
  | claimDelayExpiry
  /-- R363: At HANDOVER_AT, a standby that accepted the request becomes ACTIVE and sends a heartbeat -/
  | handoverAtReached
  /-- R358: At HANDOVER_AT + 9 µs, the old active twin goes to STANDBY, or returns to ACTIVE with TIMEOUT -/
  | handoverRelease
  /-- R358: After 1 ms in YIELD, the twin reclaims and TWIN_SWITCH completes with TIMEOUT -/
  | yieldTimeout
  /-- R355: All eight Varric lanes reach SYNC within the skew bound, and the link comes up -/
  | varricLinkUp
  /-- R355: The loss of any Varric lane takes the link down, stopping mirroring and cross-feed -/
  | varricLinkDown
  /-- R365: 1 ms with both heartbeats lost and the line asserted reports ARB_FAULT and allows a take -/
  | arbFaultTimer
  /-- R368: The standby receives a transaction, checks it, and replies PREPARED or mismatch -/
  | mirrorTransactionRx (num : Word) (cmds : List TxnCmd)
  /-- R368: The active twin receives PREPARED, sets T_apply and sends COMMIT -/
  | preparedRx (ok : Bool)
  /-- R368: The standby receives COMMIT and answers COMMIT_ACK -/
  | commitRx (tApply : Nat)
  /-- R368: The active twin receives COMMIT_ACK in time to apply at T_apply -/
  | commitAckRx
  /-- R368: At T_apply, both twins apply every staged command in staging order, and TWIN_COMMIT completes -/
  | tApplyReached
  /-- R369: PREPARED or COMMIT_ACK not arriving in time completes TWIN_COMMIT with TIMEOUT -/
  | twinCommitTimeout
  /-- R370: The standby receives a mirrored protection, Welt, Braid, LCAS or FlexE decision and applies it -/
  | decisionFrameRx (dec : Decision)
  /-- R370: The standby receives closed one-second PM judgements and writes them into its bins -/
  | snapshotFrameRx (addr : Word) (j : Snapshot)
  /-- R29: A cross-fed frame of a single-homed port enters the partner's slice after PCS and FEC decode -/
  | xfeedFrameRx (p : Fin 256) (x : Xfeed)
  /-- R380: A resynchronisation starts, copying the active twin's configuration to the standby as one commit -/
  | resyncStart (cfg : List TxnCmd)
  /-- R380: The resynchronisation completes and the standby reports READY -/
  | resyncReady (bins : List PmCopy)
  /-- R380: The bulk copy of PM and timing history completes and HIST_SYNC is set -/
  | histSyncComplete (pm : List PmHistCopy) (tim : List TimingCopy)
  /-- R386: A rail inversion from a checker is counted and classified, and may raise the source -/
  | faultSourceEvent (a : Fin 4096) (obs : CheckObs)
  /-- R384: A source's rails equal for over 100 ns declare a path fault and raise a PATH fault -/
  | railPathFault (a : Fin 4096)
  /-- R384: Rails differing for 1 ms end the path fault -/
  | railPathRecovery (a : Fin 4096)
  /-- R385: A group's tumbling window ends and its sources' window counts restart at 0 -/
  | faultWindowEnd (g : Fin 20)
  /-- R387: A raised source's grace expires and the FC carries out the group's action -/
  | faultGraceExpiry (a : Fin 4096)
  /-- R388: 250 µs after a twin switchover action, the group's own action is carried out -/
  | twinFirstDelay (a : Fin 4096)
  /-- R389: 10 s after a block reset, the source is no longer armed for its repeat action -/
  | armedExpiry (a : Fin 4096)
  /-- R391: The quiesce mask over a reset block's sources ends -/
  | quiesceMaskEnd (a : Fin 4096)
  /-- R392: A FAULT_N pulse ends and the pin returns to FAULT_ASSERT -/
  | faultNPulseEnd
  /-- R396: Prihegen injects one check into a source every 10 s to prove its checker -/
  | checkerExercise (a : Fin 4096) (seen : Option CheckObs)
  /-- R396: A check that recorded no INJ is retried after 1 ms, and a second miss raises a SILENT fault -/
  | exerciseRetry (a : Fin 4096) (seen : Option CheckObs)
  /-- R429: The erase of the inactive slot completes and EVT_FW is raised -/
  | fwEraseDone (ok : Bool)
  /-- R429: The validity check of the staged slot completes and EVT_FW carries the result -/
  | fwCheckDone
  /-- R431: A newly activated image adopts the running configuration and reaches READY -/
  | activationReady
  /-- R431: An activated image not at READY 1.8 s after restart is replaced by the previous slot -/
  | activationFallback
  /-- R425: When a journal sector fills, Prihegen rotates and compacts the configuration journal -/
  | journalCompaction
  /-- R487: A pseudo-channel or slice self-test completes, possibly retiring or isolating it -/
  | bistDone (fails : Nat) (multi : Bool) (first : Nat)
  /-- R486: An eye scan completes its grid or is aborted -/
  | eyeScanDone (l : LaneId) (pts : List Nat)
  /-- R383: The rails rise into tolerance and the fatal-latch domain powers up, starting the fault timebase tick counter from 0 -/
  | supplyPowerUp
  /-- R404: A FAULT_INJECT whose injected checks have not all been evaluated completes 1 ms after it was taken -/
  | faultInjectTimeout
  /-- R480: A lane or channel checker locks after 128 consecutive received bits match its seeded pattern, and starts counting -/
  | prbsCheckerLock (t : PrbsTarget) (cmp : Nat) (err : Nat)
  /-- R480: When 64 of 256 compared bits differ, the checker loses lock, sets LOST, counts a lock loss and seeds again -/
  | prbsCheckerLockLoss (t : PrbsTarget) (cmp : Nat) (err : Nat)
  /-- R489: A TCK edge advances the IEEE 1149.1 test access port, shifting instructions and the boundary, IDCODE or bypass registers -/
  | jtagTckEdge (rising : Bool) (tms : Bool) (tdi : Bool)
  /-- R489: Assertion of TRST_N resets the test access port and selects IDCODE, the reset default instruction -/
  | trstNAssert
  deriving DecidableEq, Repr

end Sys2Proof
end

