-- ==== Sys2Proof/WellFormed.lean ====
section
/-! DEFINITION. When a command is well formed: what its operands can be on the block's pins and buses. The dispatch gives a
meaning to every command all the same. -/

namespace Sys2Proof

/-- A request carries at most 255 payload words (R415). -/
def reqOk (req : List Word) : Bool := decide (req.length ≤ 255)

/-- The length a frame's signature has: six FAS bytes or the SDH pattern bytes (R76). -/
def RxFrame.ok (f : RxFrame) : Bool := decide (f.sig.length ≤ 6) && decide (f.b2.length ≤ 768) && decide (f.ptr.length ≤ 256)

/-- A Hagil frame's payload is 504 bytes (R175). -/
def HagilFrame.ok (f : HagilFrame) : Bool := decide (f.payload.length ≤ 504)

/-- The request words of a mailbox command. -/
def Instr.request? (i : Instr) : Option (List Word) :=
  match i with
  | .sysInfo _ _ r => some r
  | .sysResetBlock _ _ r => some r
  | .sysPowerDomain _ _ r => some r
  | .sysTimeSet _ _ r => some r
  | .sysEventMask _ _ r => some r
  | .sysViolationRead _ _ r => some r
  | .sysContinue _ _ r => some r
  | .laneConfig _ _ r => some r
  | .laneStatus _ _ r => some r
  | .portCreate _ _ r => some r
  | .portDelete _ _ r => some r
  | .portStatus _ _ r => some r
  | .alignConfig _ _ r => some r
  | .ohRead _ _ r => some r
  | .ohWrite _ _ r => some r
  | .ttiSet _ _ r => some r
  | .ttiRead _ _ r => some r
  | .defectRead _ _ r => some r
  | .defectConfig _ _ r => some r
  | .pmRead _ _ r => some r
  | .pmConfig _ _ r => some r
  | .pmHistory _ _ r => some r
  | .chanCreate _ _ r => some r
  | .chanDelete _ _ r => some r
  | .chanModify _ _ r => some r
  | .xcConnect _ _ r => some r
  | .xcDisconnect _ _ r => some r
  | .flexeCalendar _ _ r => some r
  | .braidCreate _ _ r => some r
  | .braidMemberAdd _ _ r => some r
  | .braidMemberRemove _ _ r => some r
  | .braidStatus _ _ r => some r
  | .queueConfig _ _ r => some r
  | .queueCount _ _ r => some r
  | .queueFlush _ _ r => some r
  | .queueScan _ _ r => some r
  | .poolStatus _ _ r => some r
  | .protGroupCreate _ _ r => some r
  | .protCommand _ _ r => some r
  | .protStatus _ _ r => some r
  | .weltCreate _ _ r => some r
  | .weltStatus _ _ r => some r
  | .tmcRefConfig _ _ r => some r
  | .tmcSelect _ _ r => some r
  | .tmcStatus _ _ r => some r
  | .tmcDcoSteer _ _ r => some r
  | .tmcOutputConfig _ _ r => some r
  | .tmcHistory _ _ r => some r
  | .temperConfig _ _ r => some r
  | .temperBankLoad _ _ r => some r
  | .temperBankSwap _ _ r => some r
  | .temperStatus _ _ r => some r
  | .twinConfig _ _ r => some r
  | .twinStatus _ _ r => some r
  | .twinSwitch _ _ r => some r
  | .twinCommit _ _ r => some r
  | .faultRead _ _ r => some r
  | .faultClear _ _ r => some r
  | .faultPolicy _ _ r => some r
  | .faultInject _ _ r => some r
  | .faultPin _ _ r => some r
  | .prbsConfig _ _ r => some r
  | .prbsRead _ _ r => some r
  | .loopbackSet _ _ r => some r
  | .bistRun _ _ r => some r
  | .eyeScan _ _ r => some r
  | .fwStage _ _ r => some r
  | .fwActivate _ _ r => some r
  | .fwStatus _ _ r => some r
  | .logRead _ _ r => some r
  | _ => none

/-- Well-formed commands: a mailbox request fits its area, and every list an operand carries has the length the spec
gives it. -/
def Instr.wf (i : Instr) : Bool :=
  (match i.request? with | some r => reqOk r | none => true) &&
  match i with
  | .rxFrame _ f => f.ok
  | .hagilFrameRx _ f => f.ok
  | .hagilHeader _ h => decide (h.length = 8)
  | .bgoAccept _ _ b _ => decide (b.length = 32)
  | .stitchSlotRx _ _ b => decide (b.length = 240)
  | .writerWord _ b _ _ _ => decide (b.length ≤ 32)
  | .wsoAccept _ _ r _ _ _ => decide (r.length ≤ 16) && r.all (fun b => decide (b.length = 8))
  | .xfeedFrameRx _ x => decide (x.bytes.length ≤ 504)
  | _ => true

end Sys2Proof
end

