-- ==== Sys2Proof/Config.lean ====
section
/-! DEFINITION. What one device fixes and what the spec leaves open. Every constant here has no body: nothing in Lean can
evaluate it, so a statement that holds, holds whatever its value is. -/

namespace Sys2Proof.Config

/-- DESIGN CHOICE (log 3): the free values. The n-th open value a run meets is read here with n taken from State.free. -/
opaque freeNat : Nat → Nat
/-- DESIGN CHOICE (log 3): as freeNat, for an open bit. -/
opaque freeBit : Nat → Bool
/-- DESIGN CHOICE (log 3): as freeNat, for an open byte. -/
opaque freeByte : Nat → Byte
/-- DESIGN CHOICE (log 3): as freeNat, for an open signed number. -/
opaque freeInt : Nat → Int

/-- The 64-bit die identifier (R442). -/
opaque uniqueId : BitVec 64
/-- The part's VDD_CORE setpoint above 700 mV, taken modulo 101 (R442 bounds CORE_MV to 700 to 800). -/
opaque coreMvAbove700 : Nat
/-- The minimum SNR, in 0.1 dB, of lane mode 0, 1 or 2 for the pre-FEC bit error ratio of R66. -/
opaque minSnr : Nat → Nat
/-- Whether the SHA-384 of an image's PUBKEY bytes equals the key hash in a fuse set (R427). -/
opaque keyHashOk : Nat → List Byte → Bool
/-- Whether an image's SIGNATURE verifies over header bytes 0 to 255 (R426). -/
opaque signatureOk : List Byte → List Byte → Bool
/-- Whether the SHA-384 of a slot's body equals BODY_DIGEST: body length, digest, slot words. -/
opaque digestOk : Nat → List Byte → Table Word → Bool
/-- The source block number of a firmware log entry (R437). -/
opaque logSource : Nat → BitVec 16
/-- The code number of a firmware log entry (R437). -/
opaque logCode : Nat → BitVec 16
/-- Argument word i of a firmware log entry about a cause with its subject (R437). -/
opaque logArg : Nat → Nat → Nat → BitVec 32
/-- Coefficient i of a factory bank: false the linear-phase bank, true the minimum-phase bank (R338). -/
opaque factoryCoef : Bool → Nat → BitVec 24
/-- The length of the boundary register (R490). -/
opaque boundaryLength : Nat
/-- The 100 Hz filter of a Welt pair's measured block period (R274): the period held and the one measured, in 1/65,536 ns. -/
opaque blockFilter : Nat → Nat → Nat
/-- The loop filter that the TMC designs from BW_EFF in mHz, PEAK and GD_total in ns (R336): its integrator after an update, from the phase
error and the integrator before. -/
opaque loopIntegral : Nat → Bool → Nat → Int → Int → Int
/-- The loop filter's proportional path: what it adds to the integrator for a phase error. -/
opaque loopProportional : Nat → Bool → Nat → Int → Int
/-- Whether a bank, by its coefficients, TYPE and declared GD, is unstable at a BW_EFF (R340). -/
opaque bankUnstable : List Int → Bool → Nat → Nat → Bool
/-- The 0.1 Hz filter of XO_IN measured against OCXO_IN (R288): the value held and the one measured, in units of 10^-15. -/
opaque ocxoFilter : Int → Int → Int
/-- Coefficient i of the symmetric half-band filter, 0 to 15, in units of 2^-23 (R330). -/
opaque halfCoef : Nat → BitVec 24
/-- Tap i of the fixed resampler prototype, 0 to 1,023, in units of 2^-23 (R331). -/
opaque protoTap : Nat → BitVec 24
/-- The first-order filter of 100 Hz from which a GMP source derives Cm (R161): the Cm sent last and the fill less what it is kept at, in
bytes. -/
opaque gmpFilter : Nat → Int → Nat
/-- As gmpFilter, ΣCnD. -/
opaque gmpResidue : Nat → Int → Nat
/-- JC1 to JC6 of a GMP client in an OPUCn (G.709): the Cm sent last, the new one and ΣCnD. -/
opaque gmpWriteCn : Nat → Nat → Nat → List Byte
/-- The Cm that JC1 to JC6 of an OPUCn spell, given the last accepted one; none when the CRC fails. -/
opaque gmpReadCn : Nat → List Byte → Option Nat
/-- The group identification bit of an LCAS control packet (G.7042), by multiframe. -/
opaque groupId : Nat → Bool
/-- Whether a history or log record, by its kind, subject and time, lies in a pseudo-channel (R44). -/
opaque histIn : Nat → Nat → Nat → Nat → Bool

end Sys2Proof.Config
end

