-- ==== Sys2Proof/Machine/State.lean ====
section
/-! DEFINITION. The state of the RZ5120 as plain data: every register, buffer, counter, mode and pin the spec names, and
the queue of waiting commands. Field defaults are the values after reset; the assumption log says which of them the
spec does not give. -/

namespace Sys2Proof.Machine

/-! ### Host interface (14_host_interface_and_firmware.md) -/

/-- The mailbox states of R416. -/
inductive MbxState where
  | idle | busy | done
  deriving DecidableEq, Repr

/-- A response too long for one mailbox, held for SYS_CONTINUE: the original command's code and all its words (R441). -/
structure HeldResp where
  code : Nat
  words : List Word
  /-- The last PART asked for. -/
  last : Nat := 0
  deriving DecidableEq, Repr

/-- One mailbox of R415 and R416: the request area (word 0 the header, words 1 to 255 the payload) and the response area
(word 0 the header, word 1 STATUS, words 2 to 256 the payload); an absent word reads 0. -/
structure Mailbox where
  st : MbxState := .idle
  req : Table Word := []
  resp : Table Word := []
  held : Option HeldResp := none
  deriving DecidableEq, Repr

/-- An event record (R11, R422): code, class, object kind and number, the time in nanoseconds, and detail words 4 to 7. -/
structure EvRec where
  code : Nat
  cls : Nat
  kind : Nat
  num : Nat
  ns : Nat
  d4 : Word := 0
  d5 : Word := 0
  d6 : Word := 0
  d7 : Word := 0
  deriving DecidableEq, Repr

/-- One bus violation (R423): its BAR0 offset, TYPE, mailbox, byte enables and device time. -/
structure Viol where
  off : Nat
  typ : Nat
  mbx : Nat
  be : Nat
  ns : Nat
  deriving DecidableEq, Repr

/-- What the last host access got back over the bus. -/
inductive BusOut where
  | none
  | written
  | read (v : Word)
  | unsupported
  deriving DecidableEq, Repr

/-- A command that has released the processor while it waits for the hardware (R417), and what completes it. -/
inductive WaitKind where
  | resetBlock (blk idx : Nat)
  | domain (d : Nat) (on : Bool)
  | timeSet
  | flush (q : Nat)
  | inject (id : Nat)
  | commit
  | switch (op : Nat)
  deriving DecidableEq, Repr

/-- A waiting command: the mailbox it came on and is answered on (absent once PERST_N discarded its response, R410,
or when the command was applied from a twin transaction), and what it waits for. -/
structure Waiting where
  mbx : Option Nat
  kind : WaitKind
  deriving DecidableEq, Repr

/-- The configuration space of the endpoint (R409): identity, and of the MSI-X capability its table size less one, enable and function
mask. No row of the table writes it. -/
structure PcieConfig where
  vendor : BitVec 16 := 0x1F5C
  device : BitVec 16 := 0x5120
  classCode : BitVec 24 := 0x028000
  /-- BAR0 is the only BAR; its size in bytes. -/
  bar0Size : Nat := 131072
  msixLast : Nat := 16
  msixEnable : Bool := true
  msixMaskAll : Bool := false
  deriving DecidableEq, Repr

/-- The PCIe endpoint, BAR0 and the event buffer. -/
structure HostIf where
  cfg : PcieConfig := {}
  mbx : Table Mailbox := []
  bells : List Nat := []
  waiting : List Waiting := []
  ringEnable : Bool := false
  ringLo : Word := 0
  ringHi : Word := 0
  ringHead : BitVec 12 := 0
  ringTail : BitVec 12 := 0
  /-- The words the device has written to host memory, by host address. -/
  ringMem : Table Word := []
  /-- The ring left by a change of address under ENABLE (R424), and whether HEAD has been written past TAIL. -/
  ringOld : Option Nat := none
  ringWild : Bool := false
  violFirst : Option Viol := none
  violCount : Nat := 0
  violLog : List Viol := []
  violDisplaced : Nat := 0
  violSinceEvt : Nat := 0
  violEvtFirst : Option Viol := none
  violEvtAt : Option Nat := none
  /-- The held event records, oldest first: the newest 8,192 lie in the event buffer, older ones in the overflow store. -/
  evHeld : List EvRec := []
  evDiscarded : Nat := 0
  evMasked : List Nat := []
  vec0At : Option Nat := none
  vec0Due : Bool := false
  msixTable : Table Word := []
  msixPending : List Nat := []
  msixSent : Table Nat := []
  busOut : BusOut := .none
  deriving DecidableEq, Repr

/-! ### Firmware, flash and log -/

/-- The fields of an image header (R426) that the model uses after the image has been checked. -/
structure ImgHdr where
  major : Nat
  minor : Nat
  patch : Nat
  svn : Nat
  mirror : Nat
  hitMajor : Nat
  hitMinor : Nat
  deriving DecidableEq, Repr

/-- A flash slot: the image programmed at manufacture until it is erased, the words staged since the last erase
(by word index in the slot; an absent word is erased), and the progress of R429: 0 none, 1 erased, 2 written,
3 checked valid. -/
structure Slot where
  factory : Option ImgHdr := none
  data : Table Word := []
  staged : Nat := 0
  deriving DecidableEq, Repr

/-- One copy of the boot record (R425). -/
structure BootRec where
  active : Nat
  confirmed : Bool
  seq : Nat
  deriving DecidableEq, Repr

/-- A journal entry (R508): the command that made the setting, as its code and request words. -/
structure JEntry where
  code : Nat
  req : List Word
  deriving DecidableEq, Repr

/-- What a firmware log entry is about. The source block and code numbers of R437 are opaque constants of Config. -/
inductive LogCause where
  | pcTraining | stackTraining | laneCalibration | image | recreate | braidRealign | other
  deriving DecidableEq, Repr

/-- A firmware log entry (R437). -/
structure LogEntry where
  seq : Nat
  ns : Nat
  cause : LogCause
  arg : Nat
  deriving DecidableEq, Repr

/-- An activation in progress (R431): the FW_ACTIVATE OP that started it, the slot left and the restart's instant. -/
structure Activation where
  op : Nat
  prev : Nat
  at_ : Nat
  deriving DecidableEq, Repr

/-- FW_STATE, the running image, the boot flash and the log. -/
structure Firmware where
  /-- 0 BOOT, 1 READY, 2 RESTART, 3 FATAL, 4 RECOVERY (R413). -/
  state : Nat := 0
  slot : Nat := 0
  confirmed : Bool := true
  running : ImgHdr := { major := 3, minor := 4, patch := 0, svn := 0, mirror := 1, hitMajor := 3, hitMinor := 0 }
  rec0 : Option BootRec := some { active := 0, confirmed := true, seq := 1 }
  rec1 : Option BootRec := some { active := 0, confirmed := true, seq := 0 }
  slotA : Slot := { factory := some { major := 3, minor := 4, patch := 0, svn := 0, mirror := 1, hitMajor := 3, hitMinor := 0 } }
  slotB : Slot := {}
  journal : List JEntry := []
  journalSector : Nat := 0
  counter : Nat := 0
  revoked : Nat := 0
  lastResult : Nat := 0
  erasing : Bool := false
  checking : Bool := false
  /-- The slot was written after the check in progress began. -/
  wrote : Bool := false
  activation : Option Activation := none
  restartAt : Option Nat := none
  log : List LogEntry := []
  logSeq : Nat := 0
  deriving DecidableEq, Repr

/-! ### Pins, start-up and power domains (16_startup_and_power_domains.md) -/

/-- The control pins the device reads: true is the high level. -/
structure Pins where
  railsOk : Bool := true
  porstN : Bool := false
  perstN : Bool := false
  /-- PAIR_ID as sampled at the release of PORST_N: false is strap A, true strap B (R352). -/
  strap : Bool := false
  deriving DecidableEq, Repr

/-- The start-up phases of R462. -/
inductive Phase where
  | held | always | image | firmware | domains | memLanes | config | release | finished
  deriving DecidableEq, Repr

/-- Start-up progress. -/
structure Boot where
  phase : Phase := .held
  memDone : Bool := false
  lanesDone : Bool := false
  porstAt : Nat := 0
  /-- The instant the boot ROM started the running image. -/
  imageAt : Nat := 0
  fellBack : Bool := false
  endpoint : Bool := false
  boots : Word := 0
  /-- Pseudo-channels recorded as retired (R249, R508): bit p for PCp. -/
  retired : BitVec 64 := 0
  deriving DecidableEq, Repr

/-- STATE of R444. -/
inductive DomState where
  | on | offCmd | isoFc | isoFatal
  deriving DecidableEq, Repr

/-- A switching in progress (R444, R468, R469). -/
inductive Switching where
  | out (dest : DomState)
  | into
  deriving DecidableEq, Repr

/-- One switchable power domain: its recorded STATE, whether it has power and is reported on, and a switching in
progress. A domain absent from the table has STATE on and has not been powered since PORST_N. -/
structure Domain where
  st : DomState := .on
  up : Bool := false
  sw : Option Switching := none
  deriving DecidableEq, Repr

/-- The switchable domains 0 to 35 and the SYS_POWER_DOMAIN switchings that wait for a place (R470). -/
structure Power where
  dom : Table Domain := []
  queue : List (Nat × Bool) := []
  deriving DecidableEq, Repr

/-- A block reset in progress: BLOCK and INDEX of R443 and the instant its reset time ends (R391). -/
structure BlockReset where
  blk : Nat
  idx : Nat
  until_ : Nat
  deriving DecidableEq, Repr

/-! ### Fault collection (13_fault_collection.md) -/

/-- The source states of R386. -/
inductive SrcState where
  | idle | severe | held | isolated | fatal
  deriving DecidableEq, Repr

/-- A group's policy (R381, R403): CLASS, N, W in ms, GRACE in units of 10 µs, ACTION and TWIN_FIRST. -/
structure Policy where
  cls : Nat
  n : Nat
  w : Nat
  grace : Nat
  action : Nat
  twinFirst : Bool
  deriving DecidableEq, Repr

/-- A policy set by FAULT_POLICY, and the one it replaces until the tick at which it takes effect (R382). -/
structure PolicySet where
  old : Policy
  new : Policy
  from_ : Nat
  gen : Nat
  deriving DecidableEq, Repr

/-- One fault source (R386, R401). Ticks are those of the fault timebase. -/
structure Src where
  st : SrcState := .idle
  path : Bool := false
  silent : Bool := false
  win : Nat := 0
  /-- The policy generation and window number `win` belongs to. -/
  winKey : Nat × Nat := (0, 0)
  total : Word := 0
  masked : Word := 0
  inj : Word := 0
  realInj : Word := 0
  missed : Word := 0
  actions : Word := 0
  lastTick : Nat := 0
  /-- When the source last reported: further events within 100 ns are merged into that one (R383). -/
  lastAt : Option Nat := none
  /-- The expiry ticks of the running grace timers: the source's own raise, a PATH raise and a SILENT raise. -/
  grace : Option Nat := none
  pathGrace : Option Nat := none
  silentGrace : Option Nat := none
  /-- The raise was a promotion from class CORR (reason 4) or a SEVERE event (reason 9). -/
  promoted : Bool := false
  /-- The tick 250 µs after a twin switchover action, when the group's ACTION follows (R388). -/
  twinAt : Option Nat := none
  armedUntil : Option Nat := none
  /-- The raise came while the source was armed: its repeat action follows (R389). -/
  again : Bool := false
  maskUntil : Option Nat := none
  /-- The hardware action of the latest raise, not cleared since, has started (ACTED of R402). -/
  acted : Bool := false
  /-- A repeat action holds the lane or TDC in reset (R389). -/
  holds : Bool := false
  railsEqual : Bool := false
  /-- The checker exercise found no INJ and retries at this instant (R396). -/
  retryAt : Option Nat := none
  /-- When its next exercise is due. -/
  exerciseAt : Nat := 0
  deriving DecidableEq, Repr

/-- A FAULT_INJECT in progress (R404). -/
structure Inject where
  id : Nat
  addr : Nat
  mode : Nat
  classify : Bool
  left : Nat
  inj : Word := 0
  real : Word := 0
  missed : Word := 0
  until_ : Nat
  deriving DecidableEq, Repr

/-- The fault collector and the fatal latch. -/
structure FaultColl where
  src : Table Src := []
  policy : Table PolicySet := []
  /-- The injections in progress, oldest first, and the number of the next. -/
  inject : List Inject := []
  injectSeq : Nat := 0
  /-- The REPLACE reasons held: (reason, object) (R393). -/
  reasons : List (Nat × Nat) := []
  faultAssert : Bool := false
  /-- Retirements that fell due during the evaluation of another (R408): a pseudo-channel, or 64 + h for half h. -/
  defer : List Nat := []
  /-- FAULT_N is held low by a pulse until this instant. -/
  pulseUntil : Option Nat := none
  /-- The fatal latch: source address and tick (R398). -/
  latch : Option (Nat × Nat) := none
  /-- The instant the fatal-latch domain powered up: tick 0 (R383). -/
  tickBase : Nat := 0
  /-- The correspondence of R36: a tick and the device time sampled with it. -/
  corrTick : Nat := 0
  corrNs : Nat := 0
  deriving DecidableEq, Repr

/-! ### Twin pair (12_twin_pair.md) -/

/-- The roles of R358. -/
inductive Role where
  | startup | standby | claimWait | active | handover | yield | out
  deriving DecidableEq, Repr

/-- A command of a twin transaction: its code and request words. -/
structure Staged where
  code : Nat
  req : List Word
  deriving DecidableEq, Repr

/-- What arrives from the partner for the management processor (R368, R370, R380): a transaction and the replies and commands of its
commit, a decision, a snapshot, and the parts of a resynchronisation. -/
inductive MirrorFrame where
  | txn (num : Word) (cmds : List TxnCmd)
  | prepared (ok : Bool)
  | commit (tApply : Nat)
  | commitAck
  | decision (dec : Decision)
  | snapshot (addr : Word) (j : Snapshot)
  | config (cfg : List TxnCmd)
  | bins (l : List PmCopy)
  | history (pm : List PmHistCopy) (tim : List TimingCopy)
  deriving DecidableEq, Repr

/-- The progress of a transaction on the active twin (R368). -/
inductive CommitPhase where
  | none
  | prepared (deadline : Nat)
  | ack (tApply : Nat)
  | apply (tApply : Nat)
  deriving DecidableEq, Repr

/-- The transmit side of a Varric lane (R355): its scrambler, the bytes of the last frame it took, and when that frame has left. -/
structure VarricTx where
  scr : BitVec 43 := 0
  last : List Byte := []
  until_ : Nat := 0
  deriving DecidableEq, Repr

/-- The twin logic and the pair's staging. Device times are in nanoseconds. -/
structure Twin where
  /-- The twin-logic domain has left reset (R476). -/
  run : Bool := false
  role : Role := .startup
  paired : Bool := false
  follow : Bool := true
  claimUnsync : Bool := true
  homing : Table Nat := []
  arbAsserted : Bool := false
  arbDrive : Bool := false
  /-- This twin holds ACTIVE_N low. -/
  activeN : Bool := false
  claimFromStandby : Bool := false
  claimUntil : Option Nat := none
  linkUp : Bool := false
  vhbOk : Bool := false
  hbxOk : Bool := false
  vhbAt : Option Nat := none
  hbxAt : Option Nat := none
  /-- Both heartbeat paths have been lost since this instant (R365, R376). -/
  bothLostAt : Option Nat := none
  arbFault : Bool := false
  strapConflict : Bool := false
  /-- The last heartbeat received, and the local device time of its receipt in 1/65,536 ns, as all times of heartbeats below. -/
  partner : Option Heartbeat := none
  partnerRx : Nat := 0
  hbSeq : BitVec 16 := 0
  hbNextAt : Nat := 0
  hbxOut : Bool := false
  hbSent : Option Heartbeat := none
  /-- TX_TIME of the latest heartbeats sent, newest first, since the last step of device time or link-down (R356). -/
  hbTimes : List Nat := []
  /-- The transmit side of each Varric lane, and the lane that takes the next frame (R355). -/
  vtx : Table VarricTx := []
  vnext : Nat := 0
  /-- The partner's last report: 0 absent, 1 present, 2 READY, 3 resynchronising (R375). -/
  partnerSt : Nat := 0
  ready : Bool := false
  /-- Readiness at the last partner heartbeat (R360). -/
  readyAtHb : Bool := false
  histSync : Bool := false
  resyncing : Bool := false
  /-- The last resynchronisation is complete (R371), and device time has been stepped to the partner's (R364). -/
  resynced : Bool := false
  aligned : Bool := false
  resyncAt : Option Nat := none
  handoverAt : Option Nat := none
  /-- A standby has accepted a handover request for this device time. -/
  accepted : Option Nat := none
  /-- The old active twin saw a partner heartbeat with ROLE ACTIVE since HANDOVER_AT. -/
  seenActive : Bool := false
  yieldUntil : Option Nat := none
  activeSince : Nat := 0
  /-- The one-way link delay (R356), and the partner's device time less this twin's in ps. -/
  linkDelay : Int := 0
  timeOffset : Int := 0
  txn : Word := 0
  staging : List Staged := []
  commit : CommitPhase := .none
  /-- The staged commands that the transaction under way holds. -/
  commitLen : Nat := 0
  tApply : Nat := 0
  /-- A transaction the standby holds PREPARED, and the T_apply it acknowledged. -/
  rxTxn : List Staged := []
  rxTxnNum : Word := 0
  rxPrepared : Bool := false
  rxApply : Option Nat := none
  roleTime : Nat := 0
  switchovers : Word := 0
  hbLost : Word := 0
  resyncs : Word := 0
  /-- What arrived from the partner while the MP was not running, oldest first: mirroring is paused (R17, R20). -/
  mirrorHeld : List MirrorFrame := []
  /-- Frames sent over the Varric link, by TYPE (R355), counted: SEQ. -/
  sentFrames : Table Nat := []
  /-- The latest cross-fed frame content of each single-homed port, as received from the partner and as sent to it (R29,
  R373). -/
  xfed : Table (List Byte) := []
  xout : Table (List Byte) := []
  deriving DecidableEq, Repr

/-! ### Test and diagnostics (17_test_and_diagnostics.md) -/

/-- A pattern generator and checker pair (R449, R479, R480). -/
structure Prbs where
  gen : Bool := false
  chk : Bool := false
  pattern : Nat := 0
  inv : Bool := false
  lock : Bool := false
  lost : Bool := false
  errored : BitVec 64 := 0
  compared : BitVec 64 := 0
  losses : Word := 0
  deriving DecidableEq, Repr

/-- An eye scan of a lane (R452, R486). -/
structure Scan where
  running : Bool
  setup : Word
  points : List Nat := []
  done : Bool := false
  deriving DecidableEq, Repr

/-- A self-test in progress (R451). -/
structure Bist where
  target : Nat
  index : Nat
  deriving DecidableEq, Repr

/-- The sixteen states of the IEEE 1149.1 test access port. -/
inductive Tap where
  | reset | idle | selDr | capDr | shDr | ex1Dr | paDr | ex2Dr | upDr | selIr | capIr | shIr | ex1Ir | paIr | ex2Ir | upIr
  deriving DecidableEq, Repr

/-- Boundary scan (R489, R490). -/
structure Jtag where
  tap : Tap := .reset
  ir : BitVec 6 := 1
  irShift : BitVec 6 := 0
  bypass : Bool := false
  idShift : Word := 0
  /-- The boundary shift stage and the update latches. -/
  bsr : List Bool := []
  latch : List Bool := []
  tdo : Option Bool := none
  deriving DecidableEq, Repr

/-- Generators and checkers by target and number, loopbacks and scans by lane key, the running self-test, JTAG. -/
structure Test where
  prbs : Table Prbs := []
  loop : Table Nat := []
  scans : Table Scan := []
  bist : Option Bist := none
  jtag : Jtag := {}
  deriving DecidableEq, Repr

/-! ### Lanes, ports and alignment (02_lanes_and_ports.md, 03_frame_alignment.md) -/

/-- The lane states of R62. -/
inductive LaneState where
  | off | idle | acquire | track
  deriving DecidableEq, Repr

/-- One line, fabric or Varric lane. The transmit taps reset to R61's values. -/
structure LaneRec where
  st : LaneState := .off
  held : Bool := false
  rxInv : Bool := false
  txInv : Bool := false
  freeze : Bool := false
  /-- MARGIN as written (R446): 0 is the default of 1.5 dB. -/
  margin : Nat := 0
  pre2 : Nat := 0
  pre1 : Nat := 4
  main : Nat := 52
  post1 : Nat := 7
  /-- Receive equaliser coefficients, in steps from their reset values. -/
  coef : Table Int := []
  los : Bool := false
  /-- The end of the dLOL that a buffer slip declares (R75). -/
  slipUntil : Option Nat := none
  acqSince : Nat := 0
  snr : Nat := 0
  below : Nat := 0
  marginRaised : Bool := false
  acqFail : Word := 0
  bufSlip : Word := 0
  preFecErr : Word := 0
  badType : Word := 0
  unknownCh : Word := 0
  deriving DecidableEq, Repr

/-- A FAS hunter candidate (R78): its bit position in the frame period, the opening qualifier byte, and whether its
check one frame period later has fallen due. -/
structure Cand where
  pos : Nat
  qual : Byte
  deriving DecidableEq, Repr

/-- The states of a FAS hunter or of a lock (R80, R86 to R88): a lock uses hunt for unlocked and inFrame for locked. -/
inductive HuntState where
  | hunt | inFrame | oof
  deriving DecidableEq, Repr

/-- An alignment process of a port, by the PROC number of R448, with its multiframe process (R82) and its counts (R98). -/
structure Proc where
  st : HuntState := .hunt
  slots : Table Cand := []
  pos : Nat := 0
  barred : Option Nat := none
  bad : Nat := 0
  good : Nat := 0
  /-- The lane identity found: LLM mod 20, PCS lane number, or eight times the PHY number (PID) plus the FlexO lane marker's
  lane within the interface. -/
  ident : Option Nat := none
  /-- Block lock of a PCS lane (R87), the synchronisation headers judged in the present window and the bad ones among them. -/
  blk : Bool := false
  shCnt : Nat := 0
  shBad : Nat := 0
  arrival : Nat := 0
  qualOn : Bool := true
  mfIm : Bool := false
  mfExp : Byte := 0
  mfLast : Option Byte := none
  mfBad : Nat := 0
  /-- Bits of the FlexE overhead multiframe (R88): frames since the last 0→1 transition of OMF, and its last value. -/
  omfCount : Nat := 0
  omfLast : Bool := false
  /-- BIP checks still to be skipped (R108). -/
  skip : Nat := 0
  oofSince : Option Nat := none
  okSince : Option Nat := none
  oomSince : Option Nat := none
  imSince : Option Nat := none
  lof : Bool := false
  lom : Bool := false
  oofEvents : Word := 0
  realign : Word := 0
  imitation : Word := 0
  slotFull : Word := 0
  oomEvents : Word := 0
  deriving DecidableEq, Repr

/-- The overhead of a transmitted FlexO lane (R54, R106): group identifier, PHY number, the lane within its interface, the remote PHY fault
bit and a byte of the management channel. -/
structure FlexoTx where
  gid : Nat
  pid : Nat
  lane : Nat
  rpf : Bool
  mgmt : Byte := 0
  deriving DecidableEq, Repr

/-- What a port's signal carries (R68, R159): its channels; ODU-OCI; all AU-4s unequipped; PCS idle, with FlexE overhead for a PHY of a
group; or MS-AIS (R120). -/
inductive PortFill where
  | channels | oduOci | unequipped | pcsIdle | flexeIdle | msAis
  deriving DecidableEq, Repr

/-- What a line lane sends: nothing, what it receives (far-end loopback), a test pattern, the partner's stream of a cross-fed port, or its own
port's stream at a port lane position. -/
inductive LineSignal where
  | dark
  | received
  | pattern (code : Nat) (inv : Bool)
  | crossFed
  | own (pos : Nat) (flexo : Option FlexoTx) (fill : PortFill)
  deriving DecidableEq, Repr

/-- A port: its PORT_CREATE words (R67) and its alignment. -/
structure Port where
  width : Nat
  proto : Nat
  fec : Nat
  foicM : Nat := 0
  foicK : Nat := 0
  flexePhy : Bool := false
  txMap : Nat := 0
  rxMap : Nat := 0
  mfasQual : Bool := true
  procs : Table Proc := []
  lof : Bool := true
  oofSince : Option Nat := none
  okSince : Option Nat := none
  skewBad : Bool := false
  skewFail : Word := 0
  acqTime : Word := 0
  lastTrackAt : Nat := 0
  /-- What each lane sent with the last transmitted frame. -/
  sent : List LineSignal := []
  deriving DecidableEq, Repr

/-- The delineation states of R90. -/
inductive Delin where
  | hunt | presync | sync
  deriving DecidableEq, Repr

/-- A header-check process (R90): byte positions count from the entry into HUNT. -/
structure HdrProc where
  st : Delin := .hunt
  pos : Nat := 0
  cand : Nat := 0
  conf : Nat := 0
  bad : Nat := 0
  delta : Nat := 1
  maxPli : Nat := 65535
  imitation : Word := 0
  lossEvents : Word := 0
  deriving DecidableEq, Repr

/-- The receive framing of a fabric lane: codeword lock (R92) and Hagil delineation. While it searches, `off` is the first of the
16 bit offsets under test and `good` the consecutive good codewords at each of them; once locked, `off` is the boundary. -/
structure FabRx where
  lock : Bool := false
  off : Nat := 0
  good : Table Nat := []
  bad : Nat := 0
  hag : HdrProc := { delta := 3 }
  deriving DecidableEq, Repr

/-! ### Overhead (04_overhead_and_parity.md) -/

/-- Acceptance over consecutive frames (R114): the accepted value, the candidate and its count. -/
structure Acc where
  val : Option Nat := none
  cand : Nat := 0
  cnt : Nat := 0
  deriving DecidableEq, Repr

/-- A trail trace at one layer (R115 to R118). -/
structure Trace where
  tx : List Byte := []
  txNext : Option (List Byte × Nat) := none
  txFormat : Nat := 0
  exp : List Byte := []
  expFormat : Nat := 0
  timMode : Nat := 0
  acc : Option (List Byte) := none
  accFormat : Nat := 0
  cand : List Byte := []
  candFormat : Nat := 0
  cnt : Nat := 0
  /-- The bytes received since the last trace multiframe boundary, newest last, and for SDH the recent bytes in which
  the format and boundary are found. -/
  collect : List Byte := []
  recent : List Byte := []
  deriving DecidableEq, Repr

/-- A frame of overhead as captured for OH_READ (R125). -/
structure Captured where
  mfas : Byte
  ns : Nat
  bytes : Table Byte
  deriving DecidableEq, Repr

/-- The overhead context of one layer object and instance: a port's section, an ODU channel or a VC-4 channel of one
direction. `lvl` keys: 0 PM (or SM, RS, path), 1 to 6 TCM, 8 MS. -/
structure Oh where
  rx : Option Captured := none
  tx : Option Captured := none
  everInFrame : Bool := false
  /-- Host-written transmit bytes, and those waiting for the next transmitted frame (R127). -/
  written : Table Byte := []
  waiting : Table Byte := []
  ftfl : Table Byte := []
  ftflWaiting : Table Byte := []
  ftflRx : Table Byte := []
  maint : Nat := 1
  dsDis : Bool := false
  maintWaiting : Option Nat := none
  dsWaiting : Option Bool := none
  acc : Table Acc := []
  psi : Table Acc := []
  trace : Table Trace := []
  /-- The parity computed over the latest received frames, newest first (R107), and the same for transmit. -/
  bip : List Byte := []
  bip2 : List (List Byte) := []
  txBip : List Byte := []
  txBip2 : List (List Byte) := []
  skip : Nat := 0
  /-- Backward accumulators by level (R110). -/
  back : Table Nat := []
  dm : Byte := 0
  txMfas : Byte := 255
  /-- The multiframe count of an ODU4's or ODUC's justification control (R161), as last sent. -/
  txOmfi : Nat := 0
  iaeFrames : Nat := 0
  /-- The replacement on the object's output: 0 none, else as `Repl` of Overhead.lean numbers it. -/
  repl : Nat := 0
  cmfAt : Option Nat := none
  deriving DecidableEq, Repr

/-! ### Defects and performance monitoring (05_defects_and_performance.md) -/

/-- The counts and flags of one second at one point (R139, R140). -/
structure SecCount where
  nb : Nat := 0
  neEb : Nat := 0
  feEb : Nat := 0
  neDef : Bool := false
  feDef : Bool := false
  corr : Nat := 0
  uncorr : Nat := 0
  deriving DecidableEq, Repr

/-- A closed second: its counts, its start in device time, the instants at which it started and closed, and the cumulative
values at its end. -/
structure ClosedSec where
  c : SecCount
  start : Nat
  begins : Nat
  closes : Nat
  viol : BitVec 64
  bei : BitVec 64
  deriving DecidableEq, Repr

/-- The judgement of one second at one end (R141): `na` is a far-end second that is not evaluated. -/
structure Judge where
  na : Bool
  es : Bool
  ses : Bool
  bbe : Nat
  unavail : Bool
  second : ClosedSec
  deriving DecidableEq, Repr

/-- The availability evaluation of one end. -/
structure EndEval where
  avail : Bool := true
  run : Nat := 0
  buf : List Judge := []
  deriving DecidableEq, Repr

/-- A bin: its record, the instants at which it opened and closed, the instant before which closed seconds do not
count (R151), and the thresholds already reported. -/
structure Bin where
  data : PmRec := {}
  opened : Nat := 0
  closed : Option Nat := none
  from_ : Nat := 0
  tca : List Nat := []
  deriving DecidableEq, Repr

/-- A monitoring point (R129) by its address word. -/
structure Mon where
  /-- Defects declared here that no other field of the state gives: acceptance, pointer, trace and degrade defects. -/
  raw : BitVec 20 := 0
  declared : BitVec 20 := 0
  reported : BitVec 20 := 0
  failure : BitVec 20 := 0
  sticky : BitVec 20 := 0
  /-- The µs of the point's timer clock at which a running declaration or clearing timer ends, by defect bit (R135, R137). -/
  declAt : Table Nat := []
  clearAt : Table Nat := []
  evtDefect : Bool := false
  evtFail : Bool := true
  tDeclare : Nat := 0
  tClear : Nat := 0
  degM : Nat := 0
  degThr : Nat := 0
  badSecs : Nat := 0
  goodSecs : Nat := 0
  degRestart : Bool := false
  sec : SecCount := {}
  closed : List ClosedSec := []
  ne : EndEval := {}
  fe : EndEval := {}
  last : Option PmRec := none
  cur15 : Bin := {}
  cur24 : Bin := {}
  open15 : List Bin := []
  open24 : List Bin := []
  hist15 : List PmRec := []
  hist24 : List PmRec := []
  thr : Table Nat := []
  viol : BitVec 64 := 0
  bei : BitVec 64 := 0
  corr : BitVec 64 := 0
  uncorr : BitVec 64 := 0
  deriving DecidableEq, Repr

/-- Device-wide PM settings (R143). -/
structure PmGlobal where
  dayOffset : Nat := 0
  dayPending : Option Nat := none
  secStart : Nat := 0
  /-- The instant at which the second in progress began. -/
  secAt : Nat := 0
  deriving DecidableEq, Repr

/-! ### Mapping, multiplexing and the cross-connect (06_mapping_and_multiplexing.md) -/

/-- A connection of a leaf (R173): KIND 1 fabric, 2 hairpin, 3 queue, 4 Varric cross-feed, and its target. -/
structure Conn where
  kind : Nat
  target : Nat
  deriving DecidableEq, Repr

/-- The pointer interpreter states of R171. -/
inductive PtrState where
  | norm | ais | lop
  deriving DecidableEq, Repr

/-- An AU-4 pointer interpreter. -/
structure Pointer where
  st : PtrState := .norm
  cur : Nat := 0
  cand : Nat := 0
  candCnt : Nat := 0
  allOnes : Nat := 0
  invalid : Nat := 0
  ndf : Nat := 0
  sinceAdj : Nat := 3
  noConc : Nat := 0
  conc : Nat := 0
  concLop : Bool := false
  deriving DecidableEq, Repr

/-- The fabric counts and adaptation counts of R184, 32 bits each. -/
structure ChanCounts where
  framesTx : Word := 0
  framesRx : Word := 0
  seqGap : Word := 0
  seqLate : Word := 0
  seqOut : Word := 0
  seqResync : Word := 0
  adaptPos : Word := 0
  adaptNeg : Word := 0
  adaptErr : Word := 0
  fifoSlip : Word := 0
  gfpFrames : Word := 0
  gfpChecCorr : Word := 0
  gfpHecErr : Word := 0
  gfpFcsErr : Word := 0
  gfpDiscard : Word := 0
  gfpCmf : Word := 0
  pktDrop : Word := 0
  deriving DecidableEq, Repr

/-- The receive ordering of an egress leaf or of a queue written from the fabric (R179). -/
structure SeqRx where
  exp : Option Nat := none
  /-- Held frames by SEQ, each with its arrival. -/
  held : Table (Nat × HagilFrame) := []
  outLast : Option Nat := none
  discard : Bool := false
  deriving DecidableEq, Repr

/-- The LCAS state of a VCAT member (R168). Egress: the CTRL that the source sends and whether the far sink reports the member OK.
Ingress: the CTRL of the last good control packet, the member's own status and the nibbles or bytes of the packet being
received. On a group: the sequence acknowledgement received (egress) or sent (ingress). -/
structure Lcas where
  ctrl : Nat := 5
  ok : Bool := false
  ack : Bool := false
  packet : List Nat := []
  deriving DecidableEq, Repr

/-- What a leaf is to have from its next frame or packet boundary on (R174): EN and connections. -/
structure Pending where
  en : Bool
  conns : List Conn
  deriving DecidableEq, Repr

/-- A channel: its CHAN_CREATE words (R181) and its running state. -/
structure Chan where
  words : List Word
  en : Bool := false
  conns : List Conn := []
  counts : ChanCounts := {}
  txSeq : BitVec 16 := 0
  /-- Bytes waiting to complete a frame, and complete frames waiting for a slot with their arrival order. -/
  txBytes : List Byte := []
  txSop : Bool := true
  /-- EN and the connections commanded, until they take effect (R174). -/
  next : Option Pending := none
  rx : SeqRx := {}
  fifo : List (List Byte) := []
  fifoRun : Bool := false
  /-- The bytes drawn from the FIFO that the output has yet to send: of a communication channel (R123). -/
  out : List Byte := []
  /-- A packet leaf's buffered bytes (R180) and the bytes of the packet in progress. -/
  pktBuf : Nat := 0
  pktCur : Nat := 0
  pktDropping : Bool := false
  /-- Bytes the leaf has delivered to its output. -/
  delivered : Nat := 0
  ptr : Pointer := {}
  gfp : HdrProc := {}
  gfpDelta : Nat := 1
  gfpMaxPli : Nat := 65535
  /-- VCAT: whether a member carries traffic, when it last became healthy, the phase at which its multiframe arrives (in ns), whether
  the multiframe is lost, the last received multiframe count with how often it has run on, and the count sent (R166 to R168). -/
  carrying : Bool := true
  dnuSince : Option Nat := none
  vcPhase : Nat := 0
  vcLom : Bool := true
  vcLast : Option Nat := none
  vcGood : Nat := 0
  vcTx : Nat := 0
  lcas : Lcas := {}
  /-- The accepted multiplex structure differs from the configuration (R165). -/
  msiBad : Bool := false
  /-- GMP (R161): the Cm last accepted or sent and the ΣCnD sent. AMP: the justification control last decided or sent. -/
  gmpCm : Nat := 0
  gmpCnd : Nat := 0
  amp : Nat := 0
  /-- Frames until the next pointer movement is allowed (R172), the pointer sent and the H1, H2 word of the last frame, and whether
  the next one carries NDF enabled. -/
  justifyWait : Nat := 0
  txPtr : Nat := 0
  txPtrWord : BitVec 16 := 0
  ndfNext : Bool := false
  deriving DecidableEq, Repr

/-- A PHY of a FlexE group: its port and PHY number, and the instances of its overhead that last told of another group number or PHY map
(R169). -/
structure FlexPhy where
  port : Nat
  num : Nat
  bad : List Nat := []
  deriving DecidableEq, Repr

/-- A FlexE group engine's group (R169): calendars by instance × 2 + CAL, 20 slots each. -/
structure FlexGroup where
  num : Nat
  phys : List FlexPhy
  cal : Table (List Nat) := []
  active : Nat := 0
  rxActive : Nat := 0
  /-- A switch in progress: the calendar requested, the end of the acknowledgement wait, and whether CA has arrived. -/
  switching : Option (Nat × Nat × Bool) := none
  deriving DecidableEq, Repr

/-- The Hagil transmit side of a slice (R177): the next lane of the rotation and the complete frames, oldest first. -/
structure SliceTx where
  next : Nat := 0
  frames : List (Nat × HagilFrame) := []
  deriving DecidableEq, Repr

/-- The self-synchronous scrambler of a fabric lane (R176), and the last frame sent. -/
structure FabTx where
  scr : BitVec 43 := 0
  last : Option HagilFrame := none
  deriving DecidableEq, Repr

/-! ### Braid groups (07_braid_groups.md) -/

/-- A client of a Braid side (R189, R215). -/
structure Client where
  cidx : Nat
  /-- true: transmit client. -/
  tx : Bool
  type : Nat
  n : Nat
  ch : Nat
  slice : Nat
  fabricCh : Nat
  /-- The stream queue of a transmit client (R212). -/
  queue : Nat := 0
  deficit : Int := 0
  suspended : Bool := false
  /-- Receive client: the next SEQ and the bytes that wait to complete a frame. -/
  txSeq : BitVec 16 := 0
  txBytes : List Byte := []
  /-- A receive client's last data stitch, and whether it is in server signal fail (R200). -/
  lastData : Option Nat := none
  ssf : Bool := true
  /-- The replacement on a receive client's output (R120, R200). -/
  repl : Nat := 0
  deriving DecidableEq, Repr

/-- The MSTATE of R217. -/
inductive MState where
  | adding | working | spare
  deriving DecidableEq, Repr

/-- A schedule position: round and place in the round. -/
structure SPos where
  round : Nat
  pos : Nat
  deriving DecidableEq, Repr

/-- A member of one side of a Braid group. `st` is MSTATE: working while its STATE in the active table is WORKING, spare when it
is a spare or, on the receive side, not in the schedule, else adding, which a transmit member that waits to return also is. -/
structure Member where
  midx : Nat
  ch : Nat
  st : MState := .adding
  spareRole : Bool := false
  /-- Waiting to complete BRAID_MEMBER_ADD or REMOVE by EVT_BRAID_MEMBER. -/
  adding : Bool := true
  removing : Bool := false
  /-- The removals that wait (R216). -/
  removes : Nat := 0
  /-- The end of the 10 s of R206, or the 2 s of R209. -/
  until_ : Option Nat := none
  soloAt : Option Nat := none
  /-- Receive side: failed (R202). Transmit side: the far sink reports it failed. -/
  fail : Bool := true
  seqDef : Bool := false
  skewDef : Bool := false
  /-- The weight in the active table, and in the one that takes effect at the pending switch. A member removed at once whose positions
  stay lost until the next change (R207) stands at MIDX + 64 until then, on no channel. -/
  weight : Nat := 0
  weightNext : Nat := 0
  /-- DELAY and DELAY_MAX in 100 ps, the apparent delay in 1/65,536 ns. -/
  delay : Nat := 0
  delayMax : Nat := 0
  apparent : Option Nat := none
  /-- Receive: timestamp and TX_TIME of the last 1,024 accepted BGOs, oldest first, in 1/65,536 ns (R201). -/
  pairs : List (Nat × Nat) := []
  /-- Receive: a sample whose apparent delay has jumped, with its TX_TIME on the scale of the samples before, until the engine knows why (R220). -/
  jump : Option (Nat × Nat × Nat) := none
  /-- The frame sequence number of the last accepted BGO (receive) or of the present sub-multiframe (transmit). -/
  fsn : BitVec 32 := 0
  /-- BGOs received since the last accepted one. -/
  subs : Nat := 0
  /-- The last accepted ANCHOR, the first since entry to ACQUIRE, the position expected at frame 0 of the present sub-multiframe,
  and the schedule stitches received since that frame. -/
  anchor : Option SPos := none
  firstAnchor : Option SPos := none
  mark : Option SPos := none
  schedSince : Nat := 0
  /-- The schedule stitches received since frame 0 of the sub-multiframe of the last accepted BGO, and how many of them came before the
  present frame 0 (R210). -/
  anchorCnt : Nat := 0
  markCnt : Nat := 0
  bgoAt : Option Nat := none
  rxWork : Bool := false
  /-- STATE of the pending table: WORKING or not. -/
  pendWork : Option Bool := none
  tag : Nat := 0
  tagCnt : Nat := 0
  crcFails : Nat := 0
  sposFails : Nat := 0
  hecSkips : Nat := 0
  goodBgos : Nat := 0
  skewGood : Nat := 0
  queue : Nat := 0
  /-- Receive: the positions of the schedule stitches queued, oldest first, once these are known; their bytes are the queue's. Transmit:
  the stitches formed and waiting for a slot. -/
  stitches : List (SPos × List Byte) := []
  /-- Transmit: the 63 slots of the frame being sent (R190). -/
  slots : List (List Byte) := []
  nextPos : Option SPos := none
  /-- Transmit: the last MST value and how often it came, whether the far sink reports the member healthy, since when, and whether
  a spare took its place. -/
  mstCand : Option Bool := none
  mstCnt : Nat := 0
  far : Bool := false
  healthySince : Option Nat := none
  wtrUntil : Option Nat := none
  replaced : Bool := false
  /-- Transmit: the ANCHOR and the 32 BGO bytes of the sub-multiframe being sent. -/
  txAnchor : SPos := { round := 0, pos := 0 }
  bgo : List Byte := []
  withdrawAt : Option Nat := none
  deriving DecidableEq, Repr

/-- The receive states of R203. -/
inductive BraidState where
  | idle | acquire | aligned
  deriving DecidableEq, Repr

/-- One side of a group. -/
structure Side where
  members : List Member := []
  clients : List Client := []
  st : BraidState := .idle
  schedAct : Bool := false
  schedPend : Bool := false
  nStar : Option Nat := none
  /-- The round of the last switch, until every member has passed it: BGOs whose ANCHOR lies before it still announce it (R205). -/
  lastN : Option Nat := none
  /-- Requests waiting for the change after the pending one: member indices and their new working state. -/
  requests : List (Nat × Bool) := []
  /-- The clients that the partner suspends at the pending change (R370). -/
  givenSus : Option Nat := none
  start : Option Nat := none
  round : Nat := 0
  pos : Nat := 0
  lost : Word := 0
  hec : Word := 0
  bgoErr : Word := 0
  realign : Word := 0
  discardUntil : Option Nat := none
  deriving DecidableEq, Repr

/-- A Braid group. -/
structure Braid where
  rx : Option Side := none
  tx : Option Side := none
  tagTx : Nat := 0
  tagExp : Nat := 0
  maxDd : Nat := 0
  wtr : Nat := 0
  deriving DecidableEq, Repr

/-! ### The queue pool (08_queue_pool.md) -/

/-- A queue-table entry (R229) with the queue's configuration words (R255) and the running state of its writer and reader.
An absent entry is a free queue. `chain` is the queue's list of cells, oldest first: HEAD, TAIL and CELLS are its first
element, its last element and its length, and RWMARK is the first of its last `openCells` elements. -/
structure Queue where
  /-- 1 packet, 2 stream. -/
  kind : Nat
  /-- 0 host, 1 Braid group, 2 Welt pair. -/
  owner : Nat := 0
  ownerId : Nat := 0
  cfg : List Word := []
  chain : List Nat := []
  open_ : Bool := false
  epoch : BitVec 7 := 0
  discard : Bool := false
  limit : Nat := 0
  items : Nat := 0
  lost : Word := 0
  poolDrop : Word := 0
  flushDiscard : Word := 0
  oversizeDrop : Word := 0
  badDrop : Word := 0
  rateDrop : Word := 0
  flushed : Word := 0
  eccDrop : Word := 0
  changed : Bool := false
  /-- The cells of the open packet. -/
  openCells : Nat := 0
  /-- The bytes of the partly filled cell and the bytes of the open packet. -/
  partialBytes : List Byte := []
  pktBytes : Nat := 0
  droppedBytes : Nat := 0
  /-- Bytes of the oldest cell that a Braid or Welt reader has already taken. -/
  readOff : Nat := 0
  /-- Admission meter in units of 10^-6 bytes, and when it was last filled (R235). -/
  meter : Int := 0
  meterAt : Nat := 0
  deficit : Int := 0
  /-- The reader has begun the oldest packet, is dropping the rest of it, and has started on a stream; a stream reader's
  leaf has underrun. -/
  reading : Bool := false
  dropping : Bool := false
  holdMet : Bool := false
  underrun : Bool := false
  /-- The connected ingress leaf, by number, and whether the egress leaf is connected. -/
  writer : Option Nat := none
  rdConn : Bool := false
  /-- A pending flush: the instant it takes effect at the latest (R239), and where it is no host command's, REASON and pseudo-channel
  of its loss event; REASON 0 has none (R242). -/
  flushAt : Option Nat := none
  lossWhy : Option (Nat × Nat) := none
  stopped : Bool := false
  rx : SeqRx := {}
  /-- Fabric reader: the next SEQ, the bytes waiting to complete a frame, and whether the next frame is a packet's first. -/
  txSeq : BitVec 16 := 0
  txBytes : List Byte := []
  txSop : Bool := true
  /-- Fabric writer: the bytes that wait to complete a writer word, whether the next word is a packet's first (R232), and whether a frame of the
  packet in progress has marked it bad (R175). -/
  wordBytes : List Byte := []
  wordFirst : Bool := false
  fabBad : Bool := false
  deriving DecidableEq, Repr

/-- A retirement whose evaluation runs (R249): the channel, S before it, and the evaluation's last instant. -/
structure Retiring where
  pc : Nat
  before : List Nat
  until_ : Nat
  /-- A retirement, not a half that goes off by command (R471). -/
  permanent : Bool
  deriving DecidableEq, Repr

/-- The queue pool. `mem` is the HBM as bytes at logical addresses (R42). -/
structure Pool where
  q : Table Queue := []
  mem : List Host.Cell := []
  /-- Cells returned to each pseudo-channel's free list, and how many of its cells have ever been taken. -/
  freed : Table (List Nat) := []
  taken : Table Nat := []
  /-- The backlogged queues of each scheduler set in round order, by the reader's channel (R247). -/
  active : Table (List Nat) := []
  retiring : List Retiring := []
  /-- The allocatable set after each evaluation that renewed copies of queue-table entries, oldest first (R43). -/
  renewed : List (List Nat) := []
  /-- The fraction at which packet queues are admitted, numerator and denominator (R41). -/
  admitRate : Nat × Nat := (1, 1)
  /-- The uncorrectable cells (false) and descriptor errors (true) met within the present step and not yet reported, each with its
  pseudo-channel (R228, R246). -/
  seen : List (Nat × Bool) := []
  poolDropTotal : Word := 0
  descErr : Word := 0
  scrubPasses : Word := 0
  trained : Bool := false
  /-- Queues of Braid groups and Welt pairs flushed within the present step, on which their owner has yet to act (R250). -/
  lostQ : List Nat := []
  deriving DecidableEq, Repr

/-! ### Line protection and Welt merges (09_welt_and_line_protection.md) -/

/-- A protection group (R259 to R266): the PROT_GROUP_CREATE words and the running state. -/
structure Prot where
  words : List Word
  holdOff : Nat
  wtr : Nat
  /-- External command, CMD code of R281; 0 none. -/
  ext : Nat := 0
  /-- SF and SD of the legs as declared, and as local requests after hold-off: working then protection. -/
  sfRaw : Bool × Bool := (false, false)
  sdRaw : Bool × Bool := (false, false)
  sf : Bool × Bool := (false, false)
  sd : Bool × Bool := (false, false)
  /-- Running hold-off timers: 0 SF-W, 1 SF-P, 2 SD-W, 3 SD-P, with their ends. -/
  hold : Table Nat := []
  top : Nat := 0
  topRemote : Bool := false
  sel : Bool := false
  bridge : Bool := false
  wtrUntil : Option Nat := none
  dnr : Bool := false
  apsTx : Word := 0
  apsRx : Option Nat := none
  fopPm : Bool := false
  fopPmCnt : Nat := 0
  fopNr : Bool := false
  nrSince : Option Nat := none
  switches : Word := 0
  lastSwitch : Nat := 0
  deriving DecidableEq, Repr

/-- A Welt bridge (R269), named by LEG0. -/
structure Bridge where
  leg1 : Nat
  fabricCh : Nat
  wtag : Nat
  /-- The BSN of the block that LEG0 sends, and that LEG1 sends. -/
  bsn : BitVec 32 := 0
  bsn1 : BitVec 32 := 0
  deriving DecidableEq, Repr

/-- The copy states of R275. -/
inductive CopyState where
  | absent | isIn | isOut
  deriving DecidableEq, Repr

/-- A block accepted by a copy: its BSN and start (device time in 1/65,536 ns, R11), whether it is in range, failed, has a skipped BIP check,
its violations, whether the copy's queue holds it, and whether consecutive blocks count anew from it (R275). -/
structure Block where
  bsn : Nat
  start : Nat
  inRange : Bool
  failed : Bool := false
  skipped : Bool := false
  viol : Nat := 0
  held : Bool := true
  cut : Bool := false
  deriving DecidableEq, Repr

/-- One copy of a Welt pair. -/
structure Copy where
  ch : Nat
  queue : Nat := 0
  st : CopyState := .absent
  inRun : Nat := 0
  outRun : Nat := 0
  lastBsn : Option Nat := none
  lastStart : Nat := 0
  /-- The instant of the last accepted WSO. -/
  lastAt : Option Nat := none
  tag : Nat := 0
  tagCnt : Nat := 0
  mismatch : Bool := false
  /-- Whether a signal-fail defect holds at the copy, and the device time (1/65,536 ns) at which one last held. -/
  sf : Bool := false
  sfLast : Option Nat := none
  blocks : List Block := []
  /-- The PM BIP-8 violations of the block whose checks arrive now, whether one of them was skipped, and whether its WSO is accepted (R276). -/
  viol : Nat := 0
  skip : Bool := true
  counting : Bool := false
  /-- The BSN and start of accepted blocks that the other copy may still accept (R279). -/
  starts : List (Nat × Nat) := []
  /-- Playout minus block start of the last played block, in µs, and the blocks played. -/
  hold : Nat := 0
  played : Word := 0
  deriving DecidableEq, Repr

/-- The states of R277. -/
inductive WeltState where
  | acquire | run | disabled
  deriving DecidableEq, Repr

/-- A Welt pair. -/
structure Welt where
  c0 : Copy
  c1 : Copy
  fabricCh : Nat
  window : Nat
  wtag : Nat
  auto : Bool
  st : WeltState := .acquire
  /-- DISABLED under R41: the pair counts nothing. -/
  byBudget : Bool := false
  prev : Bool := false
  last : Bool := false
  readAlt : Bool := false
  firstAt : Option Nat := none
  /-- Playout: the next block to play, its playout point and the block period, in 1/65,536 ns of device time. -/
  nextBsn : Nat := 0
  playAt : Option Nat := none
  period : Nat := 0
  noInSince : Option Nat := none
  rangeSince : Option Nat := none
  range : Bool := false
  delay : Int := 0
  delayMax : Nat := 0
  switches : Word := 0
  rescued : Word := 0
  unrecovered : Word := 0
  aisBlocks : Word := 0
  early : Word := 0
  late : Word := 0
  seqErr : Word := 0
  wsoErr : Word := 0
  mergeEs : Word := 0
  esNow : Bool := false
  realign : Word := 0
  /-- The merged output's next SEQ and the bytes that wait to complete a frame. -/
  seq : BitVec 16 := 0
  txBytes : List Byte := []
  /-- The partner's selection for a block (R370). -/
  decided : Option (Nat × Bool) := none
  deriving DecidableEq, Repr

/-! ### Timing core (10_timing_core.md) and Temper chain (11_temper_chain.md) -/

/-- A coefficient bank (R337): absent coefficients are the factory bank's. -/
structure Bank where
  factory : Bool := true
  coef : List Int := []
  typ : Bool := false
  gd : Nat := 0
  deriving DecidableEq, Repr

/-- A cross-fade in progress: its length and the samples done (R341). -/
structure Fade where
  len : Nat
  done : Nat
  deriving DecidableEq, Repr

/-- A stamped pulse edge (R333), in 1/65,536 ns: its instant, its phase against the base, and device time there less the nearest whole
second (R308). -/
structure PulseStamp where
  at_ : Nat
  phase : Int
  err : Int
  deriving DecidableEq, Repr

/-- The candidate front and its banks (R328 to R345). -/
structure Front where
  bankA : Bank := {}
  bankB : Bank := { typ := true, gd := 4608 }
  /-- The active bank: false A, true B; during a fade, the incoming bank. -/
  active : Bool := false
  fade : Option Fade := none
  pend : Option Nat := none
  staged : Table Int := []
  /-- The TDC samples, the CIC outputs, the half-band outputs and the front outputs, each newest first, as far as the next stage looks back. -/
  tdc : List Int := []
  cic : List Int := []
  line : List Int := []
  outs : List Int := []
  /-- TDC samples since the last reset, and how many outputs of each stage up to its latest were valid (R345). -/
  tdcCnt : Nat := 0
  cicOk : Nat := 0
  halfOk : Nat := 0
  outCnt : Nat := 0
  /-- A synchronising reset waits for the next front-sample instant (R344). -/
  resetDue : Bool := false
  /-- Pulse stamps, newest first. -/
  pulses : List PulseStamp := []
  held : Bool := false
  deriving DecidableEq, Repr

/-- A timing candidate (R290 to R295): TMC_REF_CONFIG words 1 to 7 and its state. -/
structure Candidate where
  words : List Word := [0, 0, 0, 0, 0, 0, 0]
  pulse : Bool := false
  st : CState := .unused
  timerUntil : Option Nat := none
  timerLen : Nat := 0
  timerLeft : Nat := 0
  activity : Bool := false
  actLost : Bool := false
  off1 : Int := 0
  off10 : Int := 0
  /-- The latest unwrapped TDC sample, the phase it gives and its instant, in 1/65,536 ns (R292, R329). -/
  tdc : Option Int := none
  phase : Int := 0
  phaseAt : Nat := 0
  /-- The phases at the last second boundaries with their instants, newest first (R292). -/
  bounds : List (Nat × Int) := []
  faults : Word := 0
  /-- DISSENT for DPLL0 to DPLL3. -/
  dissent : BitVec 4 := 0
  front : Front := {}
  deriving DecidableEq, Repr

/-- A reference switch in progress: target, the candidate left and the cause of R316. -/
structure Switch where
  target : Nat
  from_ : Nat
  cause : Nat
  prevLocked : Bool
  deriving DecidableEq, Repr

/-- A PHASE_ADJ spread in DCO mode (R307): the amount in 1/65,536 ns, its start, its length and its end (ns). -/
structure Spread where
  amount : Int
  start : Nat
  len : Nat
  deriving DecidableEq, Repr

/-- A span over which a DPLL ran with one word (R302, R335): its start (1/65,536 ns), the DCO word, the OCXO correction, the phase error,
whether the word is that of a valid update in LOCKING or LOCKED, and the output phase at its start in 10^-15/65,536 ns. -/
structure DcoSeg where
  at_ : Nat := 0
  word : Int := 0
  corr : Int := 0
  err : Int := 0
  good : Bool := false
  acc : Int := 0
  deriving DecidableEq, Repr

/-- A DPLL and its resampler. DCO words are in units of 10^-15, phases in 1/65,536 ns. -/
structure Dpll where
  cfg : List Word := [4, 0, 0, 0]
  st : DState := .freeRun
  sel : Option Nat := none
  forced : Option Nat := none
  hoForced : Bool := false
  disagree : Bool := false
  sticky : BitVec 8 := 0
  secSticky : BitVec 8 := 0
  dco : Int := 0
  /-- The loop filter's integrator, and whether the DCO word is that of a valid update in LOCKING or LOCKED (R302, R336). -/
  integ : Int := 0
  wordGood : Bool := false
  err : Int := 0
  b : Int := 0
  switch : Option Switch := none
  pendSelect : Option (Nat × Nat) := none
  heldAdj : Int := 0
  spread : Option Spread := none
  /-- Since when the lock criteria, and the loss criterion, have held. -/
  lockSince : Option Nat := none
  lossSince : Option Nat := none
  /-- Spans of LOCKED operation by start, end and DCO word, newest first, the start of the span in progress, and the
  instant at which LOCKED was last left (R301). -/
  spans : List (Nat × Nat × Int) := []
  spanAt : Nat := 0
  unlockedAt : Nat := 0
  /-- The output-phase history of the last 2 s, newest first (R335). -/
  segs : List DcoSeg := []
  /-- The last update's instant, and whether time alignment has stepped device time since LOCKING was entered (R308). -/
  updAt : Nat := 0
  stepped : Bool := false
  /-- The resampler: ρ in units of 2^-48, P likewise, updates with VALID = 0, validity of the last update. -/
  rho : Nat := 281474976710656
  p : Nat := 0
  heldCnt : Word := 0
  valid : Bool := false
  linear : Bool := false
  hist : List DpllHist := []
  following : Bool := false
  deriving DecidableEq, Repr

/-- A clock output or pulse output (R310 to R313): TMC_OUTPUT_CONFIG words 0 to 5. -/
structure Output where
  words : List Word := [0, 0, 0, 0, 0, 0]
  /-- Held low for a restart since this instant. -/
  restartUntil : Option Nat := none
  /-- Pulse outputs: the device-time position of the present edge modulo PERIOD (1/65,536 ns), whether aligned, and
  the rising edges produced. -/
  pos : Nat := 0
  aligned : Bool := true
  edges : Nat := 0
  /-- Pulse outputs: what device time had advanced by at the last rising edge, and at the last one since a jump. -/
  rise : Option Nat := none
  last : Option Nat := none
  /-- Clock outputs: the words the output runs at, and those it changes to at an instant (1/65,536 ns). -/
  run : List Word := [0, 0, 0, 0, 0, 0]
  turn : Option (Nat × List Word) := none
  /-- Clock outputs: whether the clock passes to the pin from gateAt (1/65,536 ns) on; before, the opposite. -/
  gate : Bool := false
  gateAt : Nat := 0
  deriving DecidableEq, Repr

/-- The timing core. `waitingTime` is the value of a SYS_TIME_SET OP 1 that waits for its crossing (R309). -/
structure Tmc where
  /-- Device time in units of 2^-48 ns (R308). -/
  dt : BitVec 112 := 0
  /-- What device time has advanced by, its steps left out, in units of 2^-48 ns (R135). -/
  lapse : Nat := 0
  waitingTime : Option Nat := none
  ocxoCfg : Nat := 0
  ocxoActive : Bool := false
  ocxoSince : Option Nat := none
  /-- The OCXO correction, in units of 10^-15. -/
  corr : Int := 0
  /-- The correction is moving from its frozen value after a requalification (R289). -/
  ocxoSlew : Bool := false
  /-- The filtered measurement of XO_IN against OCXO_IN, in units of 10^-15 (R288). -/
  ocxoFilt : Int := 0
  /-- CIC_R and FIR_D in use, and those that the next front-sample instant brings with a device-wide reset (R344). -/
  cicR : Nat := 250
  firD : Nat := 10
  rateDue : Option (Nat × Nat) := none
  /-- Front samples since the last device-wide reset, and the instant of that reset (ns). -/
  frontCnt : Nat := 0
  frontAt : Nat := 0
  cand : Table Candidate := []
  dpll : Table Dpll := []
  outs : Table Output := []
  candHist : Table (List CandHist) := []
  /-- Closed seconds written to the hardware ring and not yet moved (R315). -/
  ring : Nat := 0
  /-- Closed seconds, and the instant at which the last one closed (1/65,536 ns). -/
  secs : Nat := 0
  secAt : Nat := 0
  gapNow : Bool := false
  deriving DecidableEq, Repr

/-! ### The whole state -/

/-- The state of the block. Tables are keyed as their docstrings in Ops.lean say; `now` is the time in ns since the model's
origin, `free` counts the free values drawn. -/
structure State where
  pending : List Instr := []
  now : Nat := 0
  free : Nat := 0
  pins : Pins := {}
  boot : Boot := {}
  power : Power := {}
  resets : List BlockReset := []
  host : HostIf := {}
  fw : Firmware := {}
  fault : FaultColl := {}
  twin : Twin := {}
  test : Test := {}
  lane : Table LaneRec := []
  port : Table Port := []
  fabRx : Table FabRx := []
  fabTx : Table FabTx := []
  sliceTx : Table SliceTx := []
  oh : Table Oh := []
  mon : Table Mon := []
  pm : PmGlobal := {}
  chan : Table Chan := []
  flex : Table FlexGroup := []
  braid : Table Braid := []
  pool : Pool := {}
  prot : Table Prot := []
  bridge : Table Bridge := []
  welt : Table Welt := []
  tmc : Tmc := {}
  deriving DecidableEq, Repr

/-- The block held in reset: PORST_N and PERST_N low, rails in tolerance, nothing configured, nothing waiting. -/
def State.reset : State := {}

/-- Why a step stops with a fault. Nothing in this block does: every command has an effect, so there is no reason. -/
inductive Fault where
  deriving DecidableEq, Repr

/-- Why a command has no meaning. -/
inductive Refusal where
  /-- Raised by a dispatch arm whose command has no meaning yet; safe, because the machine stops. -/
  | notModelled (mnemonic : String)
  deriving DecidableEq, Repr

end Sys2Proof.Machine
end

