-- ==== Sys2Proof/Machine/Ops.lean ====
section
/-! DEFINITION. The named operations over the state that every family uses: sparse tables, the HBM as canonical byte memory,
free values, time, and the event buffer. -/

namespace Sys2Proof.Machine

/-! ### Sparse tables -/

/-- The value at key k, if any. -/
def tget? {α : Type} (t : Table α) (k : Nat) : Option α :=
  match t with
  | [] => none
  | (k', v) :: r => if k' = k then some v else tget? r k

/-- The value at key k, or d. -/
def tget {α : Type} (t : Table α) (d : α) (k : Nat) : α := (tget? t k).getD d

/-- t with v at key k, keys kept rising. -/
def tset {α : Type} (t : Table α) (k : Nat) (v : α) : Table α :=
  match t with
  | [] => [(k, v)]
  | (k', v') :: r => if k' = k then (k, v) :: r else if k < k' then (k, v) :: (k', v') :: r else (k', v') :: tset r k v

/-- t without key k. -/
def tdel {α : Type} (t : Table α) (k : Nat) : Table α := t.filter (fun e => e.1 != k)

/-- t with the value at k (or d) changed by f. -/
def tmod {α : Type} (t : Table α) (d : α) (k : Nat) (f : α → α) : Table α := tset t k (f (tget t d k))

/-- t with the value at k changed by f where k is present. -/
def tupd {α : Type} (t : Table α) (k : Nat) (f : α → α) : Table α :=
  t.map (fun e => if e.1 = k then (e.1, f e.2) else e)

/-- Whether k is present. -/
def thas {α : Type} (t : Table α) (k : Nat) : Bool := (tget? t k).isSome

/-! ### HBM as bytes (R42): addresses strictly rising, no byte equal to 0, an unlisted byte reads 0 (DESIGN CHOICE, log 4) -/

/-- The byte at address a. -/
def memByte (m : List Host.Cell) (a : Nat) : Byte :=
  match m with
  | [] => 0
  | (k, v) :: r => if k = a then v else if a < k then 0 else memByte r a

/-- m with byte b at address a, in canonical form. -/
def memSet (m : List Host.Cell) (a : Nat) (b : Byte) : List Host.Cell :=
  match m with
  | [] => if b = 0 then [] else [(a, b)]
  | (k, v) :: r =>
    if k = a then (if b = 0 then r else (a, b) :: r)
    else if a < k then (if b = 0 then (k, v) :: r else (a, b) :: (k, v) :: r)
    else (k, v) :: memSet r a b

/-- m with the bytes bs from address a on. -/
def memWrite (m : List Host.Cell) (a : Nat) (bs : List Byte) : List Host.Cell :=
  match bs with
  | [] => m
  | b :: r => memWrite (memSet m a b) (a + 1) r

/-- The n bytes from address a on. -/
def memRead (m : List Host.Cell) (a n : Nat) : List Byte :=
  match n with
  | 0 => []
  | k + 1 => memByte m a :: memRead m (a + 1) k

/-- The canonical form, above every address below lo. -/
def memWfFrom (m : List Host.Cell) (lo : Nat) : Bool :=
  match m with
  | [] => true
  | (k, v) :: r => decide (lo ≤ k) && (v != 0) && memWfFrom r (k + 1)

/-- The canonical form: addresses strictly rising and no entry equal to what an unlisted address reads as. -/
def Memory.wf (m : List Host.Cell) : Bool := memWfFrom m 0

/-- The cells of m whose address does not lie in pseudo-channel content that p judges lost. -/
def memDrop (m : List Host.Cell) (p : Nat → Bool) : List Host.Cell := m.filter (fun c => !p c.1)

/-! ### Free values and time -/

/-- Draw an open natural number (log 3). -/
def drawNat (s : State) : Nat × State := (Config.freeNat s.free, { s with free := s.free + 1 })
/-- Draw an open bit (log 3). -/
def drawBit (s : State) : Bool × State := (Config.freeBit s.free, { s with free := s.free + 1 })
/-- Draw an open signed number (log 3). -/
def drawInt (s : State) : Int × State := (Config.freeInt s.free, { s with free := s.free + 1 })

/-- Device time in whole nanoseconds, 64 bits (R11, R308). -/
def devNs (s : State) : Nat := s.tmc.dt.toNat / 2 ^ 48 % 2 ^ 64
/-- The 16 fraction bits that reports carry (R308). -/
def devFrac (s : State) : Nat := s.tmc.dt.toNat / 2 ^ 32 % 2 ^ 16
/-- Device time in units of 1/65,536 ns. -/
def devFine (s : State) : Nat := s.tmc.dt.toNat / 2 ^ 32
/-- Whole seconds of device time. -/
def devSec (s : State) : Nat := devNs s / 1000000000
/-- The low and high words of a 64-bit nanosecond time, as responses carry it (R11). -/
def nsWords (ns : Nat) : List Word := [w32 ns, w32 (ns / 2 ^ 32)]
/-- The present tick of the fault timebase (R383): 1 µs since the fatal-latch domain powered up. -/
def tickNow (s : State) : Nat := (s.now - s.fault.tickBase) / 1000
/-- A fault-timebase tick as device time, by the correspondence sampled once per second (R36). -/
def tickNs (s : State) (t : Nat) : Nat := (s.fault.corrNs + 1000 * t - 1000 * s.fault.corrTick) % 2 ^ 64
/-- Whether a timer that ends at the given instant, if it runs, has ended. -/
def due (t : Option Nat) (s : State) : Bool := match t with | some d => decide (d ≤ s.now) | none => false

/-! ### Events (R421, R422) -/

/-- Retired and switched-off pseudo-channels: those whose half is off by command or isolated, or that are retired. -/
def halfState (s : State) (h : Nat) : Domain := tget s.power.dom {} (32 + h)
/-- Whether pseudo-channel p is recorded as retired. -/
def pcRetired (s : State) (p : Nat) : Bool := s.boot.retired.getLsbD p
/-- Whether deep-path half h is off by command (R471). -/
def halfOffCmd (s : State) (h : Nat) : Bool := (halfState s h).st == .offCmd
/-- The allocatable set S (R230), ascending. -/
def allocSet (s : State) : List Nat :=
  (List.range 64).filter (fun p => !(pcRetired s p) && (halfState s (p / 32)).st == .on)
/-- r of R40: pseudo-channels outside S. -/
def outsideS (s : State) : Nat := 64 - (allocSet s).length
/-- The history and log region in bytes with r pseudo-channels retired (R44). -/
def histRegion (r : Nat) : Nat :=
  (64 * (64 - r) + min (64 * r) (128 - 4 * r) - (if r ≤ 32 then 0 else 4 * r - 128)) * 1048576
/-- What the PM history leaves of it for the timing history (R44, R144). -/
def timingRoom (r : Nat) : Nat := histRegion r - 177537024
/-- The records of each DPLL that the region holds: 16 bytes for each of the four (R44, R315). -/
def dpllDepth (r : Nat) : Nat := min 604800 (timingRoom r / 64)
/-- The records of each candidate: 8 bytes for each of the 42, shortened before the DPLLs' (R44, R315). -/
def candDepth (r : Nat) : Nat := min 86400 ((timingRoom r - 38707200) / 336)
/-- The overflow store's capacity in records (R421, R44): at most 4,194,304, within the firmware log capacity. -/
def overflowCap (s : State) : Nat := min 4194304 ((histRegion (outsideS s) - 245274624) / 32)
/-- Records in the overflow store: all held records beyond the 8,192 of the buffer. -/
def overflowHeld (s : State) : Nat := s.host.evHeld.length - 8192

/-- Place a record in the event buffer (R421): a masked code is not placed; a record other than EVT_QUEUE_LOSS is discarded
and counted while the overflow store is half full or more; EVT_QUEUE_LOSS displaces a log entry when the store is full. -/
def raiseRec (r : EvRec) (s : State) : State :=
  if s.host.evMasked.contains r.code then s
  else if r.code == 0x0701 then
    let s := if overflowCap s ≤ overflowHeld s then { s with fw.log := s.fw.log.drop 1 } else s
    { s with host.evHeld := s.host.evHeld ++ [r] }
  else if 8192 ≤ s.host.evHeld.length && overflowCap s ≤ 2 * overflowHeld s then
    { s with host.evDiscarded := s.host.evDiscarded + 1 }
  else { s with host.evHeld := s.host.evHeld ++ [r] }

/-- The eight words of a record (R11, R422): the code and class, the object, the time in nanoseconds low word first, the detail. -/
def EvRec.toWords (r : EvRec) : List Word :=
  [w32 (65536 * r.code + r.cls % 65536), w32 (16777216 * r.kind + r.num % 16777216)] ++ nsWords r.ns ++ [r.d4, r.d5, r.d6, r.d7]

/-- Raise an event now: code, class, object kind and number, detail words 4 to 7. -/
def raise (code cls kind num d4 d5 d6 d7 : Nat) (s : State) : State :=
  raiseRec { code := code, cls := cls, kind := kind, num := num, ns := devNs s,
             d4 := w32 d4, d5 := w32 d5, d6 := w32 d6, d7 := w32 d7 } s

/-- Raise an event with a given device time. -/
def raiseAt (ns code cls kind num d4 d5 d6 d7 : Nat) (s : State) : State :=
  raiseRec { code := code, cls := cls, kind := kind, num := num, ns := ns,
             d4 := w32 d4, d5 := w32 d5, d6 := w32 d6, d7 := w32 d7 } s

/-- Class codes of R422. -/
def clsState : Nat := 1
/-- COMPLETION. -/
def clsCompletion : Nat := 2
/-- ALARM. -/
def clsAlarm : Nat := 4
/-- LOSS. -/
def clsLoss : Nat := 8
/-- SYSTEM. -/
def clsSystem : Nat := 16

/-- The firmware log entries that fit beside the histories and the overflow store, 32 bytes each (R44; the size is DEDUCED from R437,
log 26). -/
def logDepth (s : State) : Nat := (histRegion (outsideS s) - 245274624) / 32 - overflowHeld s

/-- Append a firmware log entry (R437); the oldest make room (log 26). -/
def logAdd (cause : LogCause) (arg : Nat) (s : State) : State :=
  let l := s.fw.log ++ [{ seq := s.fw.logSeq, ns := devNs s, cause := cause, arg := arg }]
  { s with fw.log := l.drop (l.length - logDepth s), fw.logSeq := s.fw.logSeq + 1 }

/-! ### Lists -/

/-- Left fold of state changes over a list. -/
def foldS {α : Type} (l : List α) (f : α → State → State) (s : State) : State := l.foldl (fun s a => f a s) s

/-- The element of a list with the least key, the first on a tie. -/
def minBy {α : Type} (f : α → Nat) (l : List α) : Option α :=
  match l with
  | [] => none
  | a :: r => match minBy f r with
    | none => some a
    | some b => if f b < f a then some b else some a

/-- The element of a list with the greatest key, the first on a tie. -/
def maxBy {α : Type} (f : α → Int) (l : List α) : Option α :=
  match l with
  | [] => none
  | a :: r => match maxBy f r with
    | none => some a
    | some b => if f a < f b then some b else some a

/-! ### Power domains (R444, R467) -/

/-- Whether a switchable domain is on and reported on. -/
def domUp (s : State) (d : Nat) : Bool := (tget s.power.dom {} d).up
/-- Whether the management processor runs its tasks: FW_STATE READY or FATAL (R20, R413). -/
def mpRuns (s : State) : Bool := s.fw.state == 1 || s.fw.state == 3
/-- Whether the slice that owns port, lane or fabric lane number n is on. -/
def sliceUp (s : State) (k : Nat) : Bool := domUp s k
/-- Whether the fatal latch is set. -/
def fatalSet (s : State) : Bool := s.fault.latch.isSome

end Sys2Proof.Machine
end

