-- ==== Sys2Proof/Machine/Operands.lean ====
section
/-! DEFINITION. Operand forms: fields of request words, byte packing, keys of the state's tables, and the check codes the
spec's headers use. -/

namespace Sys2Proof.Machine

/-- Field [hi:lo] of a word (R9). -/
def fld (w : Word) (hi lo : Nat) : Nat := w.toNat / 2 ^ lo % 2 ^ (hi + 1 - lo)
/-- Bit i of a word. -/
def bitOf (w : Word) (i : Nat) : Bool := w.toNat / 2 ^ i % 2 == 1
/-- Word i of a request, 0 beyond its end. -/
def wd (req : List Word) (i : Nat) : Word := req.getD i 0
/-- Whether any of the reserved fields listed as (word, hi, lo) is not zero (R14). -/
def resBad (req : List Word) (l : List (Nat × Nat × Nat)) : Bool := l.any (fun f => fld (wd req f.1) f.2.1 f.2.2 != 0)
/-- Whether any word from i on, n of them, is not zero. -/
def wordsBad (req : List Word) (i n : Nat) : Bool := (List.range n).any (fun k => wd req (i + k) != 0)
/-- 0 or 1. -/
def b2n (b : Bool) : Nat := if b then 1 else 0
/-- A two's-complement number of n bits. -/
def sx (n v : Nat) : Int := if 2 ^ (n - 1) ≤ v % 2 ^ n then (v % 2 ^ n : Int) - 2 ^ n else (v % 2 ^ n : Int)
/-- The n-bit two's-complement code of an integer. -/
def unsx (n : Nat) (v : Int) : Nat := (v % (2 ^ n : Int)).toNat
/-- v kept within lo and hi. -/
def clampI (lo hi v : Int) : Int := if v < lo then lo else if hi < v then hi else v
/-- The four bytes of a word, lowest first (R9). -/
def wordBytes (w : Word) : List Byte := (List.range 4).map (fun i => BitVec.ofNat 8 (w.toNat / 2 ^ (8 * i)))
/-- The word of four bytes, lowest first; missing bytes are 0. -/
def bytesWord (bs : List Byte) : Word :=
  w32 ((bs.getD 0 0).toNat + 256 * (bs.getD 1 0).toNat + 65536 * (bs.getD 2 0).toNat + 16777216 * (bs.getD 3 0).toNat)
/-- Bytes packed into n words, four to a word, lowest first. -/
def packWords (bs : List Byte) (n : Nat) : List Word :=
  (List.range n).map (fun i => bytesWord ((bs.drop (4 * i)).take 4))
/-- The bytes of words i to i + n − 1 of a request. -/
def reqBytes (req : List Word) (i n : Nat) : List Byte := (List.range n).flatMap (fun k => wordBytes (wd req (i + k)))
/-- A number from bytes, most significant first. -/
def beNat (bs : List Byte) : Nat := bs.foldl (fun a b => 256 * a + b.toNat) 0
/-- The n bytes of a number, most significant first. -/
def natBe (n v : Nat) : List Byte := (List.range n).map (fun i => BitVec.ofNat 8 (v / 256 ^ (n - 1 - i)))
/-- The n bytes of a number, least significant first. -/
def natLe (n v : Nat) : List Byte := (List.range n).map (fun i => BitVec.ofNat 8 (v / 256 ^ i))
/-- A number from bytes, least significant first. -/
def leNat (bs : List Byte) : Nat := beNat bs.reverse
/-- ITU-T bit k of a byte: bit 1 is the most significant (R10). -/
def ituBit (b : Byte) (k : Nat) : Bool := b.getLsbD (8 - k)
/-- ITU-T bits j to k of a byte as a number. -/
def ituBits (b : Byte) (j k : Nat) : Nat := b.toNat / 2 ^ (8 - k) % 2 ^ (k + 1 - j)

/-- Number of one bits of a byte. -/
def popByte (b : Byte) : Nat := ((List.range 8).filter (fun i => b.getLsbD i)).length
/-- The exclusive or of bytes: their BIP-8. -/
def xorBytes (bs : List Byte) : Byte := bs.foldl (fun a b => a ^^^ b) 0
/-- The exclusive or of bytes column by column, n columns: a BIP of 8n bits. -/
def xorCols (n : Nat) (bs : List Byte) : List Byte :=
  (List.range n).map (fun j => (List.range ((bs.length + n - 1) / n)).foldl (fun a i => a ^^^ bs.getD (n * i + j) 0) 0)
/-- Differing bits of two byte strings. -/
def diffBits (a b : List Byte) : Nat := ((List.range a.length).map (fun i => popByte (a.getD i 0 ^^^ b.getD i 0))).foldl (· + ·) 0

/-- One byte into a CRC of width n with the given polynomial, most significant bit first. -/
def crcByte (n poly : Nat) (c : Nat) (b : Byte) : Nat :=
  (List.range 8).foldl (fun c i =>
    let top := c / 2 ^ (n - 1) % 2
    let bit := b.toNat / 2 ^ (7 - i) % 2
    let c := c * 2 % 2 ^ n
    if (top + bit) % 2 = 1 then Nat.xor c poly else c) c
/-- A CRC over bits, most significant first. -/
def crcBits (n poly init : Nat) (bits : List Bool) : Nat :=
  bits.foldl (fun c b =>
    let top := c / 2 ^ (n - 1) % 2
    let c := c * 2 % 2 ^ n
    if (top + b2n b) % 2 = 1 then Nat.xor c poly else c) init
/-- The CRC-8 x^8 + x^2 + x + 1 with remainder XORed with 0x55 (R175, R191, R193, R271). -/
def crc8 (bs : List Byte) : Byte := BitVec.ofNat 8 (Nat.xor (bs.foldl (crcByte 8 0x07) 0) 0x55)
/-- The CRC-16 x^16 + x^12 + x^5 + 1 of G.7041, initial value 0 (R90). -/
def crc16 (bs : List Byte) : Nat := bs.foldl (crcByte 16 0x1021) 0
/-- The most significant n bits of a number first, as bits. -/
def bitsOf (n v : Nat) : List Bool := (List.range n).map (fun i => v / 2 ^ (n - 1 - i) % 2 == 1)
/-- The descriptor CRC (R227): over the cell index [28:0] and descriptor bits [63:16]. -/
def descCrc (cell hi48 : Nat) : Nat := crcBits 16 0x1021 0xFFFF (bitsOf 29 cell ++ bitsOf 48 hi48)
/-- One byte into the reflected CRC-32 of IEEE 802.3. -/
def crc32Byte (c : Nat) (b : Byte) : Nat :=
  (List.range 8).foldl (fun c _ => if c % 2 = 1 then Nat.xor (c / 2) 0xEDB88320 else c / 2) (Nat.xor c b.toNat)
/-- The CRC-32 of IEEE 802.3 (R348). -/
def crc32 (bs : List Byte) : Nat := Nat.xor (bs.foldl crc32Byte 0xFFFFFFFF) 0xFFFFFFFF

/-! ### Keys -/

/-- The key of a lane in the lane tables: LL n is n, FL n is 256 + n, VL n is 512 + n. -/
def laneKey (l : LaneId) : Nat := match l with | .ll i => i.val | .fl i => 256 + i.val | .vl i => 512 + i.val
/-- The lane key of KIND and LANE (R446). -/
def kindLane (kind lane : Nat) : Nat := if kind = 1 then lane else if kind = 2 then 256 + lane else 512 + lane
/-- The power domain of a lane: its slice, or 35 for a Varric lane. -/
def laneDomain (k : Nat) : Nat := if k < 256 then k / 8 else if k < 512 then (k - 256) / 8 else 35
/-- The key of a channel: its number, plus 16,384 for egress (R5). -/
def chKey (eg : Bool) (ch : Nat) : Nat := if eg then 16384 + ch else ch
/-- The key of an overhead context: 0 a port, 1 an ODU channel, 2 a VC-4 channel, with its instance. -/
def ohKey (cls obj inst : Nat) : Nat := (cls * 65536 + obj) * 16 + inst
/-- A monitoring point's address word (R129). -/
def monAddr (layer dir id inst level : Nat) : Nat := layer + 16 * dir + 256 * id + 4194304 * inst + 67108864 * level
/-- LAYER of an address word. -/
def aLayer (a : Nat) : Nat := a % 16
/-- DIR of an address word. -/
def aDir (a : Nat) : Nat := a / 16 % 2
/-- ID of an address word. -/
def aId (a : Nat) : Nat := a / 256 % 16384
/-- INST of an address word. -/
def aInst (a : Nat) : Nat := a / 4194304 % 16
/-- LEVEL of an address word. -/
def aLevel (a : Nat) : Nat := a / 67108864 % 8
/-- The key of a pattern checker: TARGET of R449 and number. -/
def prbsKey (t id : Nat) : Nat := t * 16384 + id
/-- The key of a PrbsTarget's checker. -/
def prbsTargetKey (t : PrbsTarget) : Nat :=
  match t with
  | .lane (.ll i) => prbsKey 1 i.val
  | .lane (.fl i) => prbsKey 2 i.val
  | .lane (.vl i) => prbsKey 3 i.val
  | .chan c => prbsKey 5 c.val

end Sys2Proof.Machine
end

