-- ==== Sys2Proof/Machine/Flags.lean ====
section
/-! DEFINITION. Command status: the codes of R15, and the ladder of conditions by which a status table picks the first
applicable status (R440). -/

namespace Sys2Proof.Machine

/-- The status codes of R15. -/
inductive Status where
  | ok | busy | invalid | noRes | notFound | wrongState | denied | unsupported | deferred | timeout
  deriving DecidableEq, Repr

/-- The code of a status. -/
def Status.code (t : Status) : Nat :=
  match t with
  | .ok => 0 | .busy => 1 | .invalid => 2 | .noRes => 3 | .notFound => 4
  | .wrongState => 5 | .denied => 6 | .unsupported => 7 | .deferred => 8 | .timeout => 9

/-- What a command's body answers: a status with its response words, or that it waits for the hardware (R417). -/
inductive Reply where
  | done (st : Status) (words : List Word)
  | waits (k : WaitKind)
  deriving DecidableEq, Repr

/-- What the surroundings of a command add to its own status table: the twin-role check (R367), the FW_STATE restriction
(R440), and the mailbox it came on. -/
structure Ctx where
  denied : Bool := false
  gate : Bool := false
  mbx : Option Nat := none
  deriving DecidableEq, Repr

/-- A command body's result. -/
abbrev CmdOut := Reply × State

/-- The first applicable status of a table, or the command's effect. -/
def ladder (l : List (Bool × Status)) (s : State) (k : Unit → CmdOut) : CmdOut :=
  match l.find? (fun e => e.1) with
  | some e => (.done e.2 [], s)
  | none => k ()

/-- Complete with OK and response words. -/
def okWith (ws : List Word) (s : State) : CmdOut := (.done .ok ws, s)
/-- Complete with OK and no words. -/
def okNone (s : State) : CmdOut := (.done .ok [], s)

/-- OK, DEFERRED or waiting: the command is accepted. -/
def Reply.accepted (r : Reply) : Bool :=
  match r with
  | .done .ok _ => true
  | .done .deferred _ => true
  | .done _ _ => false
  | .waits _ => true

end Sys2Proof.Machine
end

