-- ==== Sys2Proof/Machine/Tick.lean ====
section
/-! DEFINITION. The block's clock: what one 200 MHz cycle of the timing core does with nothing commanded. -/

namespace Sys2Proof.Machine

/-- The DCO word's range, ±500 ppm in units of 10^-15 (R307). -/
def dcoMax : Int := 500000000000

/-- The offset of a DPLL's DCO word while a PHASE_ADJ spread runs (R307): the amount over the spread time, in 10^-15. -/
def spreadWord (d : Dpll) : Int :=
  match d.spread with
  | some x => if x.len = 0 then 0 else x.amount * 1000000000000000 / (65536 * (x.len : Int))
  | none => 0

/-- The DCO word in use: the word with the offset of a running spread, within its range (R307). -/
def dcoUse (d : Dpll) : Int := clampI (-dcoMax) dcoMax (d.dco + spreadWord d)

/-- y0, DPLL0's fractional frequency with the OCXO correction, in units of 10^-15 (R308). -/
def y0 (s : State) : Int := dcoUse (tget s.tmc.dpll {} 0) + s.tmc.corr

/-- The advance of device time in one cycle, in units of 2^-48 ns: 5 ns × (1 + y0), rounded down (R308). -/
def dtStep (s : State) : Int := 5 * 281474976710656 * (1000000000000000 + y0 s) / 1000000000000000

/-- Whether the TMC has left reset (R308, R462): the always-on domain has, and PORST_N is high. -/
def tmcRuns (s : State) : Bool :=
  match s.boot.phase with
  | .held => false
  | .always => false
  | _ => true

/-- One cycle of the 200 MHz clock: 5 ns pass, and device time advances by 5 ns × (1 + y0) while the TMC runs
(R308; DESIGN CHOICE, log 1). -/
def tick (s : State) : State :=
  if tmcRuns s then { s with now := s.now + 5, tmc.dt := BitVec.ofInt 112 (s.tmc.dt.toNat + dtStep s),
                                  tmc.lapse := s.tmc.lapse + (dtStep s).toNat }
  else { s with now := s.now + 5 }

end Sys2Proof.Machine
end

