-- ==== Sys2Proof/Machine/Host.lean ====
section
/-! DEFINITION. The host interface (14_host_interface_and_firmware.md): BAR0, mailboxes, MSI-X, the event ring and bus violations. -/

namespace Sys2Proof.Machine

/-- Whether the endpoint answers: the always-on domain has brought it up and PERST_N is high (R410, R459). -/
def endpointUp (s : State) : Bool := s.boot.endpoint && s.pins.perstN

/-- Mailbox m. -/
def mbxOf (s : State) (m : Nat) : Mailbox := tget s.host.mbx {} m
/-- s with mailbox m changed by f. -/
def modMbx (m : Nat) (f : Mailbox → Mailbox) (s : State) : State := { s with host.mbx := tmod s.host.mbx {} m f }

/-! ### MSI-X (R409, R420) -/

/-- Whether vector v is masked: by the function mask, or by bit 0 of its vector control word, 1 at reset (PRESUMED, log 14: PCI Express). -/
def msixMasked (s : State) (v : Nat) : Bool := s.host.cfg.msixMaskAll || bitOf (tget s.host.msixTable 1 (4 * v + 3)) 0
/-- Send vector v, or note it pending while it is masked; nothing leaves while MSI-X is disabled. The 10 µs of R420 run from a vector 0 that
was sent. -/
def msixSend (v : Nat) (s : State) : State :=
  if !s.host.cfg.msixEnable then s
  else if msixMasked s v then
    { s with host.msixPending := if s.host.msixPending.contains v then s.host.msixPending else s.host.msixPending ++ [v] }
  else
    let s := { s with host.msixSent := tmod s.host.msixSent 0 v (· + 1) }
    if v = 0 then { s with host.vec0At := some s.now, host.vec0Due := false } else s
/-- Vectors that are pending and no longer masked are sent. -/
def msixFlush (s : State) : State :=
  let go := s.host.msixPending.filter (fun v => !(msixMasked s v))
  foldS go msixSend { s with host.msixPending := s.host.msixPending.filter (fun v => msixMasked s v) }

/-! ### Responses (R415, R416, R439, R441) -/

/-- The request header of a mailbox. -/
def mbxHdr (s : State) (m : Nat) : Word := tget (mbxOf s m).req 0 0
/-- Response areas as a table: the header, STATUS and the payload. -/
def respTable (hdr : Word) (st : Status) (ws : List Word) : Table Word :=
  ([w32 (hdr.toNat / 256 * 256 + ws.length), w32 st.code] ++ ws).zipIdx.map (fun e => (e.2, e.1))
/-- Complete the command of mailbox m: the response, DONE and its vector. A response beyond 255 words is held (R441). -/
def respond (m : Nat) (st : Status) (ws : List Word) (s : State) : State :=
  let ws := if st = .ok then ws else []
  let hdr := mbxHdr s m
  if endpointUp s && (mbxOf s m).st == .busy then
    msixSend (m + 1) (modMbx m (fun x => { x with
      st := .done, resp := respTable hdr st (ws.take 255)
      held := if 255 < ws.length then some { code := fld hdr 31 16, words := ws } else x.held }) s)
  else s
/-- Complete the waiting commands whose kind p accepts. -/
def finishWaiting (p : WaitKind → Bool) (st : Status) (ws : List Word) (s : State) : State :=
  let go := s.host.waiting.filter (fun w => p w.kind)
  foldS go (fun w s => match w.mbx with | some m => respond m st ws s | none => s)
    { s with host.waiting := s.host.waiting.filter (fun w => !(p w.kind)) }
/-- The newest valid copy of the boot record (R425, R428). -/
def bootRec (f : Firmware) : Option BootRec :=
  match f.rec0, f.rec1 with
  | some a, some b => if a.seq < b.seq then some b else some a
  | some a, none => some a
  | none, r => r
/-- The boot record written: over the older or invalid copy, or both where neither is valid (R430). -/
def bootWrite (active : Nat) (confirmed : Bool) (f : Firmware) : Firmware :=
  let r : BootRec := { active := active, confirmed := confirmed, seq := (match bootRec f with | some x => x.seq + 1 | none => 1) }
  match f.rec0, f.rec1 with
  | some a, some b => if a.seq < b.seq then { f with rec0 := some r } else { f with rec1 := some r }
  | some _, none => { f with rec1 := some r }
  | none, some _ => { f with rec0 := some r }
  | none, none => { f with rec0 := some r, rec1 := some r }
/-- A restart of the MP that was asked for begins once every command already taken has completed (R431, R474): held responses go
(R441), and an activation sets the boot record. -/
def restartSettle (s : State) : State :=
  if s.fw.restartAt.isSome && s.fw.state == 1 && s.host.waiting.isEmpty then
    let s := { s with fw.state := 2, host.mbx := s.host.mbx.map (fun (e : Nat × Mailbox) => (e.1, { e.2 with held := none })) }
    match s.fw.activation with
    | some a => { s with fw := { bootWrite (1 - a.prev) false s.fw with activation := some { a with at_ := s.now } } }
    | none => s
  else s
/-- Whether a command of this kind waits. -/
def isWaiting (s : State) (p : WaitKind → Bool) : Bool := s.host.waiting.any (fun w => p w.kind)

/-! ### Violations (R423) -/

/-- Log one violating DWORD. -/
def violation (off typ mbx be : Nat) (s : State) : State :=
  let v : Viol := { off := off, typ := typ, mbx := mbx, be := be, ns := devNs s }
  let full := 64 ≤ s.host.violLog.length
  { s with
    host.violFirst := some (s.host.violFirst.getD v)
    host.violCount := s.host.violCount + 1
    host.violLog := (if full then s.host.violLog.drop 1 else s.host.violLog) ++ [v]
    host.violDisplaced := if full then min 65535 (s.host.violDisplaced + 1) else s.host.violDisplaced
    host.violSinceEvt := s.host.violSinceEvt + 1
    host.violEvtFirst := some (s.host.violEvtFirst.getD v) }
/-- VIOL_INFO of a first violation and a count. -/
def violInfo (v : Option Viol) (n : Nat) : Word :=
  match v with
  | none => 0
  | some x => w32 (x.typ + 4 * x.mbx + 64 * b2n (255 < n) + 256 * min 255 n + 65536 * x.be)

/-! ### BAR0 (R411 to R415) -/

/-- Whether REPLACE_N is low: the fatal latch is set, or from the end of configuration re-creation any REPLACE reason holds (R393, R460). -/
def replaceLow (s : State) : Bool :=
  fatalSet s || ((s.boot.phase == .release || s.boot.phase == .finished) && !s.fault.reasons.isEmpty)
/-- Whether FAULT_N is low (R392). -/
def faultLow (s : State) : Bool := s.fault.faultAssert || s.fault.pulseUntil.isSome
/-- DEV_STATUS. -/
def devStatus (s : State) : Word :=
  w32 (b2n (s.fw.state == 1) + 2 * b2n (fatalSet s) + 4 * b2n (replaceLow s) + 8 * b2n (faultLow s) + 16 * b2n s.twin.activeN +
    32 * b2n s.twin.paired)
/-- FW_STATE. -/
def fwState (s : State) : Word :=
  w32 (s.fw.state + 16 * s.fw.slot + 32 * b2n s.fw.confirmed + 256 * s.fw.running.minor + 65536 * s.fw.running.major +
    16777216 * s.fw.running.patch)
/-- MBX_DONE. -/
def mbxDone (s : State) : Word := w32 (((List.range 16).map (fun m => if (mbxOf s m).st == .done then 2 ^ m else 0)).foldl (· + ·) 0)
/-- The word of EVT_RING_BASE_LO. -/
def ringBaseLo (s : State) : Word := w32 (s.host.ringLo.toNat / 4096 * 4096 + b2n s.host.ringEnable)

/-- Whether a DWORD offset of BAR0 is implemented (R411). -/
def barImpl (off : Nat) : Bool :=
  [0x0, 0x4, 0x8, 0x100, 0x104, 0x200, 0x204, 0x208, 0x20C, 0x300, 0x304, 0x1800, 0x1804].contains off ||
    (decide (0x1000 ≤ off) && decide (off < 0x1110)) || decide (0x10000 ≤ off)
/-- The mailbox of an offset in the mailbox area. -/
def barMbx (off : Nat) : Nat := (off - 0x10000) / 0x1000
/-- Whether a read at off returns a response area before DONE, whose value is open (R424). -/
def earlyRead (s : State) (off : Nat) : Bool :=
  decide (0x10000 ≤ off) && decide (0x800 ≤ off % 0x1000) && decide (off % 0x1000 < 0xC04) && (mbxOf s (barMbx off)).st != .done
/-- The value of an implemented DWORD. -/
def barWord (s : State) (off : Nat) : Word :=
  if 0x10000 ≤ off then
    let o := off % 0x1000
    if o < 0x400 then tget (mbxOf s (barMbx off)).req 0 (o / 4)
    else if 0x800 ≤ o && o < 0xC04 then tget (mbxOf s (barMbx off)).resp 0 ((o - 0x800) / 4)
    else 0
  else if 0x1000 ≤ off && off < 0x1110 then tget s.host.msixTable (if off % 16 = 12 then 1 else 0) ((off - 0x1000) / 4)
  else match off with
    | 0x0 => 0x00A15120
    | 0x4 => devStatus s
    | 0x8 => fwState s
    | 0x104 => mbxDone s
    | 0x200 => ringBaseLo s
    | 0x204 => s.host.ringHi
    | 0x208 => w32 s.host.ringHead.toNat
    | 0x20C => w32 s.host.ringTail.toNat
    | 0x300 => w32 (match s.host.violFirst with | some v => v.off | none => 0)
    | 0x304 => violInfo s.host.violFirst s.host.violCount
    | 0x1800 => w32 ((s.host.msixPending.map (fun v => 2 ^ v)).foldl (· + ·) 0)
    | _ => 0
/-- The DWORDs of a read request that are not implemented, with their byte enables: the request is for DWORDs from off on, one byte enable
each. -/
def unimplOf (off : Nat) (bes : List Nat) : List (Nat × Nat) :=
  (bes.zipIdx.map (fun e => (off / 4 * 4 + 4 * e.2, e.1))).filter (fun e => !(barImpl e.1))
/-- A read request that touches an unimplemented DWORD (R412, R423): it completes with Unsupported Request as a whole, and each DWORD in
violation is logged. -/
def readRefused (off : Nat) (bes : List Nat) (s : State) : State :=
  foldS (unimplOf off bes) (fun e => violation e.1 1 0 e.2) { s with host.busOut := .unsupported }
/-- One implemented DWORD read, or a request of one. -/
def busRead (off be : Nat) (s : State) : State :=
  let off := off / 4 * 4
  if !(endpointUp s) then s
  else if !(barImpl off) then readRefused off [be] s
  else if earlyRead s off then { s with host.busOut := .read (w32 (Config.freeNat s.free)), free := s.free + 1 }
  else
    let s := { s with host.busOut := .read (barWord s off) }
    if off = 0x304 then { s with host.violFirst := none, host.violCount := 0 } else s

/-- A read request of several DWORDs (R412): each is handled on its own, unless one of them is not implemented. -/
def busReads (off : Nat) (bes : List Nat) (s : State) : State :=
  if endpointUp s && !(unimplOf off bes).isEmpty then readRefused off bes s
  else foldS bes.zipIdx (fun e => busRead (off + 4 * e.2) e.1) s

/-- A word with the enabled bytes of v (R412). -/
def mergeBytes (old v : Word) (be : Nat) : Word :=
  bytesWord ((List.range 4).map (fun i => if be / 2 ^ i % 2 = 1 then (wordBytes v).getD i 0 else (wordBytes old).getD i 0))

/-- A doorbell write (R416): IDLE and DONE mailboxes become BUSY, and their bells wait in ascending order. Whether a BUSY one's
command runs once or twice is open (R424). A held response goes unless the command is the SYS_CONTINUE for it (R441). -/
def ringBell (m : Nat) (s : State) : State :=
  let x := mbxOf s m
  if x.st == .busy then
    let r := drawBit s
    if r.1 then { r.2 with host.bells := r.2.host.bells ++ [m] } else r.2
  else
    let keep := fld (mbxHdr s m) 31 16 == 0x0107 && (match x.held with | some h => fld (tget x.req 0 1) 15 0 == h.code | none => false)
    let s := modMbx m (fun x => { x with st := .busy, held := if keep then x.held else none }) s
    { s with host.bells := s.host.bells ++ [m] }
/-- The bells of one doorbell write. -/
def ringBells (v : Word) (s : State) : State := foldS ((List.range 16).filter (fun m => bitOf v m)) ringBell s

/-- The address of the ring's entry 0 in host memory. -/
def ringAddr (s : State) : Nat := s.host.ringHi.toNat * 4294967296 + s.host.ringLo.toNat
/-- A write to the ring base: ENABLE from 0 to 1 zeroes HEAD and TAIL; a changed address under ENABLE leaves them open, and to
which of the two rings a record goes (R419, R424). -/
def ringBase (lo hi : Word) (s : State) : State :=
  let en := bitOf lo 0
  let addr := w32 (lo.toNat / 4096 * 4096)
  let moved := s.host.ringEnable && en && (addr != s.host.ringLo || hi != s.host.ringHi)
  let s1 := { s with host.ringLo := addr, host.ringHi := hi, host.ringEnable := en }
  if !en then { s1 with host.ringOld := none }
  else if !s.host.ringEnable then { s1 with host.ringHead := 0, host.ringTail := 0, host.ringOld := none, host.ringWild := false }
  else if moved then
    { s1 with
      host.ringHead := BitVec.ofNat 12 (Config.freeNat s.free), host.ringTail := BitVec.ofNat 12 (Config.freeNat (s.free + 1)), free := s.free + 2
      host.ringOld := some (ringAddr s) }
  else s1
/-- A write of HEAD (R419). Past TAIL it takes in entries not yet written, and leaves the contents of ring entries open (R424). -/
def ringHead (h : BitVec 12) (s : State) : State :=
  { s with host.ringHead := h, host.ringWild := s.host.ringWild || decide ((s.host.ringTail - s.host.ringHead).toNat < (h - s.host.ringHead).toNat) }

/-- One DWORD write. Of an MSI-X vector control word only the mask, bit 0, is not reserved (R13). -/
def busWrite (off : Nat) (v : Word) (be : Nat) (s : State) : State :=
  let off := off / 4 * 4
  if !(endpointUp s) then s
  else
    let s := { s with host.busOut := .written }
    if !(barImpl off) then violation off 2 0 be s
    else if 0x10000 ≤ off then
      let m := barMbx off
      let o := off % 0x1000
      if (mbxOf s m).st == .busy then violation off 3 m be s
      else if o < 0x400 then modMbx m (fun x => { x with req := tset x.req (o / 4) (mergeBytes (tget x.req 0 (o / 4)) v be) }) s
      else s
    else if 0x1000 ≤ off && off < 0x1110 then
      let i := (off - 0x1000) / 4
      let w := mergeBytes (tget s.host.msixTable (if i % 4 = 3 then 1 else 0) i) v be
      msixFlush { s with host.msixTable := tset s.host.msixTable i (if i % 4 = 3 then w &&& 1 else w) }
    else match off with
      | 0x100 => ringBells (mergeBytes 0 v be) s
      | 0x200 => ringBase (mergeBytes (ringBaseLo s) v be) s.host.ringHi s
      | 0x204 => ringBase (ringBaseLo s) (mergeBytes s.host.ringHi v be) s
      | 0x208 => ringHead (BitVec.ofNat 12 (mergeBytes (w32 s.host.ringHead.toNat) v be).toNat) s
      | _ => s

/-! ### Events (R419 to R421) -/

/-- Words written to host memory from address a on. -/
def hostWrite (a : Nat) (ws : List Word) (s : State) : State :=
  { s with host.ringMem := ws.zipIdx.foldl (fun t e => tset t (a + 4 * e.2) e.1) s.host.ringMem }
/-- The ring that the next record goes to: the one left by a change of address, or the new one, is open (R424). -/
def ringTarget (s : State) : Nat × State :=
  match s.host.ringOld with
  | some old => ((if Config.freeBit s.free then old else ringAddr s), { s with free := s.free + 1 })
  | none => (ringAddr s, s)
/-- The words of a record as they land in the ring: open once HEAD has been written past TAIL (R424). -/
def ringWords (r : EvRec) (s : State) : List Word × State :=
  if s.host.ringWild then ((List.range 8).map (fun i => w32 (Config.freeNat (s.free + i))), { s with free := s.free + 8 })
  else (r.toWords, s)
/-- Write one record at TAIL and advance it; vector 0 follows, or waits for the end of the 10 µs. -/
def ringPut (r : EvRec) (s : State) : State :=
  let t := ringTarget s
  let ws := ringWords r t.2
  let s := hostWrite (t.1 + 32 * s.host.ringTail.toNat) ws.1 ws.2
  let s := { s with host.ringTail := s.host.ringTail + 1 }
  let wait := match s.host.vec0At with | some t => decide (s.now < t + 10000) | none => false
  if wait then { s with host.vec0Due := true } else msixSend 0 { s with host.vec0Due := false }
/-- Whether the ring is enabled and has room, and delivery runs (R20: not during an MP restart or before READY). -/
def ringOpen (s : State) : Bool :=
  endpointUp s && s.host.ringEnable && s.host.ringTail + 1 != s.host.ringHead && s.fw.state != 0 && s.fw.state != 2
/-- Deliver one record: EVT_RING_OVERFLOW first once room has returned, else the oldest held. -/
def deliver (s : State) : State :=
  if !(ringOpen s) then s
  else if s.host.evDiscarded != 0 && 2 * overflowHeld s < overflowCap s then
    ringPut { code := 0x0101, cls := clsSystem, kind := 0, num := 0, ns := devNs s, d4 := w32 s.host.evDiscarded } { s with host.evDiscarded := 0 }
  else match s.host.evHeld with
    | [] => s
    | r :: rest => ringPut r { s with host.evHeld := rest }

/-! ### The commands on the bus -/

/-- MBX_DOORBELL_RING (R416). -/
def execMbxDoorbellRing (v : Word) (s : State) : Host.Outcome State Fault Refusal := .next (busWrite 0x100 v 15 s)
/-- EVT_RING_ENABLE (R419): a write of EVT_RING_BASE_LO with ENABLE set. -/
def execEvtRingEnable (v : Word) (s : State) : Host.Outcome State Fault Refusal := .next (busWrite 0x200 (v ||| 1) 15 s)
/-- EVT_RING_DISABLE (R419): a write of EVT_RING_BASE_LO with ENABLE clear. -/
def execEvtRingDisable (v : Word) (s : State) : Host.Outcome State Fault Refusal := .next (busWrite 0x200 (v &&& ~~~1) 15 s)
/-- EVT_RING_HEAD_WRITE (R419). -/
def execEvtRingHeadWrite (v : Word) (be : BitVec 4) (s : State) : Host.Outcome State Fault Refusal := .next (busWrite 0x208 v be.toNat s)
/-- VIOL_INFO_READ (R423): the register is read and cleared, and VIOL_ADDR with it. -/
def execViolInfoRead (s : State) : Host.Outcome State Fault Refusal := .next (busRead 0x304 15 s)
/-- UNIMPLEMENTED_READ (R412, R423): a read request for DWORDs from an offset on. -/
def execUnimplementedRead (off : BitVec 17) (bes : List (BitVec 4)) (s : State) : Host.Outcome State Fault Refusal :=
  .next (busReads off.toNat (bes.map (·.toNat)) s)
/-- UNIMPLEMENTED_WRITE (R423). -/
def execUnimplementedWrite (off : BitVec 17) (v : Word) (be : BitVec 4) (s : State) : Host.Outcome State Fault Refusal :=
  .next (busWrite off.toNat v be.toNat s)
/-- BUSY_MAILBOX_WRITE (R423). -/
def execBusyMailboxWrite (off : BitVec 17) (v : Word) (be : BitVec 4) (s : State) : Host.Outcome State Fault Refusal :=
  .next (busWrite off.toNat v be.toNat s)
/-- REGISTER_WRITE (R412). -/
def execRegisterWrite (off : BitVec 17) (v : Word) (be : BitVec 4) (s : State) : Host.Outcome State Fault Refusal :=
  .next (busWrite off.toNat v be.toNat s)
/-- EVENT_DELIVERY (R421). -/
def execEventDelivery (s : State) : Host.Outcome State Fault Refusal := .next (deliver s)
/-- MSIX_VECTOR0_HOLDOFF_END (R420). -/
def execMsixVector0HoldoffEnd (s : State) : Host.Outcome State Fault Refusal :=
  .next (if s.host.vec0Due && (match s.host.vec0At with | some t => decide (t + 10000 ≤ s.now) | none => true) then
    msixSend 0 { s with host.vec0Due := false } else s)
/-- BUS_VIOLATION_EVENT_TIMER (R423, R455). -/
def execBusViolationEventTimer (s : State) : Host.Outcome State Fault Refusal :=
  .next (match s.host.violEvtFirst with
    | none => s
    | some v =>
      if (match s.host.violEvtAt with | some t => decide (s.now < t + 1000000) | none => false) then s
      else
        raise 0x0102 clsSystem (if v.typ = 3 then 14 else 0) (if v.typ = 3 then v.mbx else 0) s.host.violSinceEvt v.off
          (v.typ + 4 * v.mbx + 65536 * v.be) 0
          { s with host.violSinceEvt := 0, host.violEvtFirst := none, host.violEvtAt := some s.now })

end Sys2Proof.Machine
end

