-- ==== Sys2Proof/Machine/Lanes.lean ====
section
/-! DEFINITION. Operations on lanes and ports (02_lanes_and_ports.md): protocols, lane membership, lane states, and the tests
and loopbacks a lane carries. -/

namespace Sys2Proof.Machine

/-- The record of lane k; an absent record is a lane in OFF. -/
def laneOf (s : State) (k : Nat) : LaneRec := tget s.lane {} k
/-- s with lane k's record. -/
def setLane (k : Nat) (l : LaneRec) (s : State) : State := { s with lane := tset s.lane k l }
/-- s with lane k's record changed by f. -/
def modLane (k : Nat) (f : LaneRec → LaneRec) (s : State) : State := setLane k (f (laneOf s k)) s
/-- dLOL of a lane (R74, R75): dLOS clear and the lane in IDLE or ACQUIRE, or the 100 µs after a buffer slip. -/
def laneLol (l : LaneRec) : Bool :=
  !l.los && (l.st == .idle || l.st == .acquire || l.slipUntil.isSome)
/-- dLOS or dLOL. -/
def laneBad (l : LaneRec) : Bool := l.los || laneLol l

/-- The port that lane n belongs to, with its number. -/
def portOfLane (s : State) (n : Nat) : Option (Nat × Port) :=
  s.port.find? (fun e => decide (e.1 ≤ n) && decide (n < e.1 + e.2.width))
/-- Port p. -/
def portAt (s : State) (p : Nat) : Option Port := tget? s.port p
/-- s with port p changed by f, where it exists. -/
def updPort (p : Nat) (f : Port → Port) (s : State) : State := { s with port := tupd s.port p f }
/-- The lanes of a port. -/
def portLanes (p : Nat) (q : Port) : List Nat := (List.range q.width).map (fun i => p + i)

/-! ### Protocols (R51, R53) -/

/-- The lane mode of a port's lanes: 0 NRZ, 1 PAM4-100, 2 PAM4-200 (R45, R51, R53). -/
def protoMode (proto width m k : Nat) : Nat :=
  match proto with
  | 0x04 => if m = 1 && k = 4 then 0 else if m = 4 && k = 2 then 2 else 1
  | 0x12 => if width = 4 then 0 else 1
  | 0x13 => if width = 1 then 2 else 1
  | 0x14 => if width = 2 then 2 else 1
  | 0x15 => if width = 4 then 2 else 1
  | 0x16 => 2
  | _ => 0

/-- The widths a protocol allows with a FEC code (R51). -/
def protoOk (proto width fec : Nat) : Bool :=
  match proto with
  | 0x01 => width == 1 && (fec == 0 || fec == 3)
  | 0x02 => width == 1 && (fec == 0 || fec == 3)
  | 0x03 => width == 4 && (fec == 0 || fec == 3)
  | 0x04 => fec == 2
  | 0x05 => width == 1 && fec == 0
  | 0x06 => width == 4 && fec == 0
  | 0x10 => width == 1 && fec == 0
  | 0x11 => width == 1 && (fec == 0 || fec == 1)
  | 0x12 => (width == 4 && (fec == 0 || fec == 1)) || ((width == 2 || width == 1) && fec == 2)
  | 0x13 => (width == 4 || width == 2 || width == 1) && fec == 2
  | 0x14 => (width == 8 || width == 4 || width == 2) && fec == 2
  | 0x15 => (width == 8 || width == 4) && fec == 2
  | 0x16 => width == 8 && fec == 2
  | _ => false

/-- The FlexO interface types of R53 by m, k and port width. -/
def foicOk (m k width : Nat) : Bool :=
  ((m == 1 && (k == 4 || k == 2)) || (m == 2 && (k == 4 || k == 2)) || (m == 4 && (k == 8 || k == 4 || k == 2)))
    && decide (k ≤ width) && width % k == 0

/-- n of an OTUCn port (R53). -/
def otucN (q : Port) : Nat := q.foicM * q.width / q.foicK
/-- OTN ports. -/
def isOtn (q : Port) : Bool := decide (1 ≤ q.proto) && decide (q.proto ≤ 4)
/-- SDH ports. -/
def isSdh (q : Port) : Bool := q.proto == 5 || q.proto == 6
/-- Ethernet ports and FlexE PHYs. -/
def isEth (q : Port) : Bool := decide (0x10 ≤ q.proto)
/-- The 100G FlexE instances of a PHY (R88, R169). -/
def flexeInst (q : Port) : Nat :=
  if q.flexePhy then (if q.proto = 0x12 then 1 else if q.proto = 0x13 then 2 else 4) else 0
/-- PCS lanes of an Ethernet port (PRESUMED from IEEE 802.3, log 11). -/
def pcsLanes (q : Port) : Nat :=
  match q.proto with
  | 0x12 => 20 | 0x13 => 8 | 0x14 => 16 | 0x15 => 32 | 0x16 => 16 | _ => 1
/-- Whether the PCS lanes of a port carry alignment markers (PRESUMED, log 11). -/
def hasAm (q : Port) : Bool := decide (0x12 ≤ q.proto)
/-- OTU section instances of a port: the OTUC instances, else one. -/
def sectionInst (q : Port) : Nat := if q.proto = 4 then otucN q else 1

/-- A lane's mode: its port's for a line lane, PAM4-200 for fabric and Varric lanes (R45); a line lane without a port has
none. -/
def laneMode (s : State) (k : Nat) : Option Nat :=
  if 256 ≤ k then some 2
  else match portOfLane s k with
    | some (_, q) => some (protoMode q.proto q.width q.foicM q.foicK)
    | none => none

/-- The acquisition limit of a mode in ns (R62). -/
def acqLimit (mode : Nat) : Nat := if mode = 0 then 50000000 else if mode = 1 then 200000000 else 600000000

/-- Whether a lane's protocol has FEC (R447). -/
def laneFec (s : State) (k : Nat) : Bool :=
  if 256 ≤ k then true else match portOfLane s k with | some (_, q) => q.fec != 0 | none => false

/-- The KIND code of a lane (R446) and its number. -/
def laneKind (k : Nat) : Nat × Nat := if k < 256 then (1, k) else if k < 512 then (2, k - 256) else (3, k - 512)
/-- The key of a lane's pattern pair. -/
def lanePrbs (k : Nat) : Nat := prbsKey (laneKind k).1 (laneKind k).2

/-! ### Tests on a lane (R480, R483, R486, R491) -/

/-- Abort a lane's running eye scan with RESULT 2 (R486): no result is left. -/
def eyeAbort (k : Nat) (s : State) : State :=
  match tget? s.test.scans k with
  | some sc =>
    if sc.running then
      raise 0x0D01 clsCompletion 0 0 (0x0D05 + 65536 * (laneKind k).1 + 16777216 * (laneKind k).2) 2 0 0
        { s with test.scans := tdel s.test.scans k }
    else s
  | none => s

/-- A checker loses lock (R480): LOST is set and the loss counted. -/
def prbsUnlock (p : Prbs) : Prbs := if p.lock then { p with lock := false, lost := true, losses := p.losses + 1 } else p

/-- The lane leaves TRACK or its data ends: its scan is aborted and its checker loses lock (R486, R491). -/
def laneTestsLost (k : Nat) (s : State) : State :=
  let s := eyeAbort k s
  { s with test.prbs := tupd s.test.prbs (lanePrbs k) prbsUnlock }

/-- Generators, checkers and loopback of a lane are cleared without an event, and its scan is aborted (R483, R485). -/
def laneTestsClear (k : Nat) (s : State) : State :=
  let s := eyeAbort k s
  { s with test.prbs := tdel s.test.prbs (lanePrbs k), test.loop := tdel s.test.loop k }

/-! ### Lane states (R62, R63) -/

/-- To IDLE from any state: the lane buffers are held in reset; a lane that leaves TRACK loses its tests. -/
def laneIdle (k : Nat) (s : State) : State :=
  let s := if (laneOf s k).st == .track then laneTestsLost k s else s
  modLane k (fun l => { l with st := .idle, slipUntil := none }) s

/-- To ACQUIRE: initial adaptation starts with the equaliser at its reset values. -/
def laneAcquire (k : Nat) (s : State) : State :=
  let s := if (laneOf s k).st == .track then laneTestsLost k s else s
  modLane k (fun l => { l with st := .acquire, slipUntil := none, coef := [], acqSince := s.now, below := 0 }) s

/-- From OFF to IDLE, with dLOS declared (R62, R63, R73). -/
def laneOn (k : Nat) (s : State) : State := modLane k (fun l => { l with st := .idle, los := true, slipUntil := none }) s

/-- HOMING of port p: 0 dual, 1 strap A, 2 strap B (R373). -/
def homingOf (s : State) (p : Nat) : Nat := tget s.twin.homing 0 p
/-- Whether port p's optics belong to the partner, which feeds it by XFEED frames (R373). -/
def portFed (s : State) (p : Nat) : Bool := homingOf s p == (if s.pins.strap then 1 else 2)
/-- Whether lane k belongs to such a port. -/
def laneFed (s : State) (k : Nat) : Bool :=
  decide (k < 256) && (match portOfLane s k with | some (p, _) => portFed s p | none => false)
/-- A lane of a port is started: a cross-fed one stays OFF, with dLOS declared while the link is down (R373). -/
def laneStart (k : Nat) (s : State) : State :=
  if laneFed s k then modLane k (fun l => { l with los := !s.twin.linkUp }) s else laneOn k s

/-- To OFF: LANE_CONFIG settings and counts are kept, its tests and loopback are cleared (R62, R69, R483). A hold outlasts the
port (R389). DESIGN CHOICE (log 22): the lane may raise EVT_LANE_MARGIN again once a port or its domain takes it anew, without the recovery
that R66 asks of one operation. -/
def laneOff (k : Nat) (s : State) : State :=
  modLane k (fun l => { l with st := .off, los := false, slipUntil := none, coef := [], below := 0, marginRaised := false }) (laneTestsClear k s)

/-- A hold ends; the lane proceeds from IDLE (R63, R389). -/
def laneRelease (k : Nat) (s : State) : State := modLane k (fun l => { l with held := false }) s

/-- A lane block reset (R474): CDR, equaliser and buffers are cleared; the lane is in IDLE. -/
def laneReset (k : Nat) (s : State) : State :=
  if (laneOf s k).st == .off then s
  else modLane k (fun l => { l with coef := [], slipUntil := none }) (laneIdle k s)

/-- Whether a lane carries its signal: it is in TRACK, or cross-fed with the link up. -/
def laneCarries (s : State) (k : Nat) : Bool := if laneFed s k then s.twin.linkUp else (laneOf s k).st == .track
/-- Whether a lane carries its signal and its domain is on. -/
def laneTracks (s : State) (k : Nat) : Bool := laneCarries s k && domUp s (laneDomain k)

/-- The margin threshold in use, 0.1 dB (R66, R446). -/
def marginThreshold (s : State) (k : Nat) : Nat :=
  Config.minSnr ((laneMode s k).getD 0) + (if (laneOf s k).margin = 0 then 15 else (laneOf s k).margin)

/-- Transmit taps as LANE_CONFIG word 2 (R446). -/
def tapsWord (l : LaneRec) : Word := w32 (l.pre2 + 256 * l.pre1 + 65536 * l.main + 16777216 * l.post1)

/-- Whether every lane of a port carries its signal. -/
def portTracks (s : State) (p : Nat) (q : Port) : Bool := (portLanes p q).all (laneCarries s)
/-- Port dLOS (R76). -/
def portLos (s : State) (p : Nat) (q : Port) : Bool := (portLanes p q).any (fun k => (laneOf s k).los)
/-- Port dLOL (R76). -/
def portLol (s : State) (p : Nat) (q : Port) : Bool :=
  !portLos s p q && (portLanes p q).any (fun k => laneLol (laneOf s k))

end Sys2Proof.Machine
end

