-- ==== Sys2Proof/Machine/Varric.lean ====
section
/-! DEFINITION. What the transmit side of a fabric or Varric lane carries (R30, R63, R355): frame headers, the scrambler, tests and loopbacks, and
the frames that the twin logic hands to the Varric lanes. -/

namespace Sys2Proof.Machine

/-- The self-synchronous scrambler x^43 + 1 over payload bytes, the state being the last 43 output bits (R176). -/
def scramble (st : BitVec 43) (bs : List Byte) : List Byte × BitVec 43 :=
  bs.foldl (fun (a : List Byte × BitVec 43) b =>
    let o := b ^^^ (a.2 >>> 35).setWidth 8
    (a.1 ++ [o], (a.2 <<< 8) ||| o.setWidth 43)) ([], st)

/-- Whether a lane generator runs on lane key k. -/
def laneGen (s : State) (k : Nat) : Bool := (tget s.test.prbs {} (lanePrbs k)).gen

/-- Whether lane key k is in far-end loopback (R484): it retransmits what it receives, and its own transmit data is discarded. -/
def laneLooped (s : State) (k : Nat) : Bool := tget s.test.loop 0 k == 2
/-- Whether lane key k is in near-end loopback (R484): its receiver gets its own transmit data, and the balls are ignored. -/
def laneNear (s : State) (k : Nat) : Bool := tget s.test.loop 0 k == 1

/-- The header of a Hagil or Varric frame with its HEC (R175). -/
def frameHeader (f : HagilFrame) : List Byte :=
  let h := [f.type, f.flags] ++ natBe 3 f.channel.toNat ++ natBe 2 f.seq.toNat
  h ++ [crc8 h]

/-! ### The Varric lanes (R355) -/

/-- What a Varric lane sends: nothing, the data it receives (R484), a test pattern (R479), or frames, IDLE ones between those that wait. -/
inductive VarricSignal where
  | dark
  | received
  | pattern (code : Nat) (inv : Bool)
  | idle
  | frame (bytes : List Byte)
  deriving DecidableEq, Repr
/-- What Varric lane j sends (R30, R63). -/
def varricSends (s : State) (j : Nat) : VarricSignal :=
  let k := 512 + j
  let g := tget s.test.prbs {} (lanePrbs k)
  let x := tget s.twin.vtx {} j
  if !(domUp s 35) || (laneOf s k).st == .off then .dark
  else if laneLooped s k then .received
  else if g.gen then .pattern g.pattern g.inv
  else if x.until_ ≤ s.now then .idle else .frame x.last
/-- Whether Varric lane j carries this twin's frames. -/
def varricOwn (s : State) (j : Nat) : Bool :=
  match varricSends s j with | .idle => true | .frame _ => true | _ => false
/-- The lane that takes the next frame, in rotation. -/
def varricNext (s : State) : Option Nat := ((List.range 8).map (fun i => (s.twin.vnext + i) % 8)).find? (varricOwn s)
/-- A frame of a TYPE leaves for the partner (R355), SEQ counting per TYPE: the first byte follows what its lane still sends, and its slot takes the
20 ns that 504 bytes last at 211.0142 Gbit/s. The scrambler's state after IDLE frames is open (DESIGN CHOICE, log 31): the receiver is
self-synchronous. Where no lane carries frames, none is sent. -/
def sendVarric (typ ch : Nat) (payload : List Byte) (s : State) : State :=
  match varricNext s with
  | none => s
  | some j =>
    let x := tget s.twin.vtx {} j
    let f : HagilFrame := { type := BitVec.ofNat 8 typ, channel := BitVec.ofNat 24 ch, seq := BitVec.ofNat 16 (tget s.twin.sentFrames 0 typ), payload := payload }
    let p := scramble (if x.until_ < s.now then BitVec.ofNat 43 (Config.freeNat s.free) else x.scr) payload
    { s with
      free := s.free + 1
      twin.vtx := tset s.twin.vtx j { scr := p.2, last := frameHeader f ++ p.1, until_ := max s.now x.until_ + 20 }
      twin.vnext := (j + 1) % 8
      twin.sentFrames := tmod s.twin.sentFrames 0 typ (· + 1) }
/-- n frames of a TYPE whose payload format the spec does not give (R355): MIRROR and SNAPSHOT. Their CHANNEL is 0 (DESIGN CHOICE, log 31). -/
def sendFrames (typ n : Nat) (s : State) : State :=
  foldS (List.range n) (fun _ s =>
    sendVarric typ 0 ((List.range 504).map (fun i => Config.freeByte (s.free + i))) { s with free := s.free + 504 }) s
/-- Content of port p for the partner (R29, R373), as XFEED frames of 504 bytes, a last one filled with zeros (DESIGN CHOICE, log 31). -/
def sendXfeed (p : Nat) (bs : List Byte) (s : State) : State :=
  foldS (List.range ((bs.length + 503) / 504)) (fun i => sendVarric 0x13 p (((bs.drop (504 * i)).take 504 ++ List.replicate 504 0).take 504))
    { s with twin.xout := tset s.twin.xout p bs }

/-- Whether this twin mirrors to its partner (R370): its MP runs (R20). -/
def mirrorsOut (s : State) : Bool := s.twin.run && s.twin.paired && s.twin.linkUp && s.twin.role == .active && mpRuns s
/-- A decision frame of the active twin (R370); it goes as MIRROR (DEDUCED, log 31). -/
def sendDecision (s : State) : State := if mirrorsOut s then sendFrames 0x11 1 s else s

end Sys2Proof.Machine
end

