-- ==== Sys2Proof/Machine/Align.lean ====
section
/-! DEFINITION. Frame alignment (03_frame_alignment.md): the processes of a port, the FAS hunter, the multiframe process, the
alignment of lanes, and header-check delineation. -/

namespace Sys2Proof.Machine

/-! ### Processes of a port (R72) -/

/-- The FAS hunter instances of R77. -/
inductive Hunter where
  | otu | otl | sdh
  deriving DecidableEq, Repr

/-- The hunter that process number i of a port is, if any. -/
def hunterKind (q : Port) (i : Nat) : Option Hunter :=
  match q.proto with
  | 0x01 => if i = 0 then some .otu else none
  | 0x02 => if i = 0 then some .otu else none
  | 0x03 => if 1 ≤ i && i ≤ 20 then some .otl else none
  | 0x04 => if 33 ≤ i && i < 33 + otucN q then some .otu else none
  | 0x05 => if i = 0 then some .sdh else none
  | 0x06 => if 1 ≤ i && i ≤ 4 then some .sdh else none
  | _ => none

/-- The frame period in bits (R77). -/
def framePeriod (q : Port) : Nat :=
  match q.proto with | 0x04 => 122368 | 0x05 => 1244160 | 0x06 => 1244160 | _ => 130560

/-- The number of per-lane processes of a port: 1 to this. -/
def laneProcs (q : Port) : Nat :=
  match q.proto with
  | 0x03 => 20 | 0x04 => q.width | 0x06 => 4
  | _ => if isEth q then pcsLanes q else 0

/-- The number of instance processes of a port: 33 on. -/
def instProcs (q : Port) : Nat := if q.proto = 4 then otucN q else flexeInst q

/-- The process numbers of a port, by PROC of R448. -/
def procList (q : Port) : List Nat :=
  0 :: ((List.range (laneProcs q)).map (· + 1) ++ (List.range (instProcs q)).map (· + 33))

/-- Whether a process carries a multiframe (R82, R83, R86, R88). -/
def hasMf (q : Port) (i : Nat) : Bool :=
  (i == 0 && (q.proto == 1 || q.proto == 2 || q.proto == 3 || q.proto == 4)) || decide (33 ≤ i)

/-- Whether a process's own state has its own dLOF or dLOFLANE: per-lane processes and FlexE instances. -/
def hasOwnLof (q : Port) (i : Nat) : Bool := (decide (1 ≤ i) && decide (i ≤ 32)) || (decide (33 ≤ i) && isEth q)

/-- The processes of a port that starts: every one in HUNT, its defects declared (R81, R83, R99). -/
def freshProcs (q : Port) (now : Nat) : Table Proc :=
  (procList q).map (fun i => (i, {
    lof := hasOwnLof q i, lom := hasMf q i, oofSince := some now,
    oomSince := if hasMf q i then some now else none, qualOn := q.mfasQual }))

/-- Process i of a port. -/
def procOf (q : Port) (i : Nat) : Proc := tget q.procs {} i
/-- q with process i changed by f. -/
def updProc (i : Nat) (f : Proc → Proc) (q : Port) : Port := { q with procs := tupd q.procs i f }

/-- The position that a lane map word gives physical lane i (R60). -/
def mapEntry (map i : Nat) : Nat := if map = 0 then i else map / 8 ^ i % 8

/-- The lanes that feed process i of port p. Those of an OTUC instance are the lanes that show the PID of the interface that carries
it: m instances to an interface (R54, R86). -/
def procLanes (p : Nat) (q : Port) (i : Nat) : List Nat :=
  if 1 ≤ i && i ≤ 32 then
    match q.proto with
    | 0x03 => [p + (i - 1) / 5]
    | 0x04 => [p + (i - 1)]
    | 0x06 => (portLanes p q).filter (fun k => mapEntry q.rxMap (k - p) == i - 1)
    | _ => [p + (i - 1) * q.width / pcsLanes q]
  else if 33 ≤ i && q.proto == 4 then
    ((List.range q.width).filter (fun j => (tget q.procs {} (j + 1)).ident.any (fun d => d / 8 == (i - 33) / q.foicM + 1))).map (p + ·)
  else portLanes p q

/-- A process back in HUNT: its slots closed, its multiframe out (R80, R82), MFAS_QUAL taken as it stands (R97). DESIGN CHOICE (log 37): a
multiframe that goes out with its frame, here or at a realignment, is not counted in OOM_EVENTS, for the row of R82 that ends it has no
such action. -/
def toHunt (q : Port) (r : Proc) : Proc :=
  { r with st := .hunt, slots := [], bad := 0, good := 0, mfIm := false, mfLast := none, mfBad := 0, qualOn := q.mfasQual,
           blk := false, shCnt := 0, shBad := 0 }

/-- Process i goes to HUNT because what is under it fails: a per-lane lock that is lost counts in OOF_EVENTS (R98), a hunter's IF does not,
and a FlexE overhead instance, which is neither, has no such count. -/
def dropProc (q : Port) (i : Nat) (r : Proc) : Proc :=
  { toHunt q r with
    oofEvents := if r.st == .inFrame && (hunterKind q i).isNone && 1 ≤ i && i ≤ 32 then r.oofEvents + 1 else r.oofEvents }

/-- Every process of port p that physical lane k feeds goes to HUNT (R80, R99). -/
def huntLane (k : Nat) (s : State) : State :=
  match portOfLane s k with
  | none => s
  | some (p, _) => updPort p (fun q =>
      { q with procs := q.procs.map (fun e =>
          if (procLanes p q e.1).contains k && (laneProcs q = 0 || e.1 != 0) then (e.1, dropProc q e.1 e.2) else e) }) s

/-- The fault collector holds the lane in reset: IDLE with its receiver off, dLOS declared, its tests cleared, and the processes it
feeds in HUNT (R63, R80, R389). A line lane in OFF is marked held, and stays so when a port takes it. -/
def laneHold (k : Nat) (s : State) : State :=
  if (laneOf s k).st == .off then modLane k (fun l => { l with held := true }) s
  else huntLane k (modLane k (fun l => { l with held := true, los := true }) (laneIdle k (laneTestsClear k s)))

/-! ### The FAS hunter (R77 to R80) -/

/-- The six bytes of the pattern. -/
def fasBytes : List Byte := [0xF6, 0xF6, 0xF6, 0x28, 0x28, 0x28]
/-- The opening and confirming pattern of an instance (R77). -/
def patternOk (h : Hunter) (sig : List Byte) : Bool :=
  match h with
  | .otl => sig.take 5 == fasBytes.take 5 && decide (sig.length = 6) && decide ((sig.getD 5 0).toNat < 240)
  | _ => sig == fasBytes
/-- The qualifier on confirmation (R77): `on` is MFAS_QUAL as it stood at the entry to HUNT. -/
def qualOk (h : Hunter) (on : Bool) (opening qual : Byte) : Bool :=
  match h with
  | .otu => !on || qual == opening + 1
  | .otl => decide (qual.toNat = (opening.toNat + 20) % 240)
  | .sdh => true
/-- The in-frame check: bytes 2 to 5 of the pattern (R80). -/
def midOk (sig : List Byte) : Bool := (sig.drop 1).take 4 == (fasBytes.drop 1).take 4

/-- The lowest free slot, if any. -/
def freeSlot (r : Proc) : Option Nat := (List.range 16).find? (fun i => !(thas r.slots i))

/-- A match of the opening pattern (R78, R79): it opens a candidate in a free slot, unless its position is barred; with no
free slot SLOT_FULL counts. DESIGN CHOICE (log 37): a match at the barred position, or where a slot already lies open, opens nothing
and is not counted, with free slots or without. -/
def fasOpen (r : Proc) (pos : Nat) (qual : Byte) : Proc :=
  if r.st == .inFrame || r.barred == some pos || r.slots.any (fun e => e.2.pos == pos) then r
  else match freeSlot r with
    | some i => { r with slots := tset r.slots i { pos := pos, qual := qual } }
    | none => { r with slotFull := r.slotFull + 1 }

/-- A candidate wins (R78, R80, R82): the hunter is in frame at its position, and all slots close. From OOF at the former
position nothing moves; elsewhere REALIGN counts and the multiframe is lost. The first BIP checks are skipped (R108). The frame's
arrival against the other lanes is measured with the win (R84, R85). DESIGN CHOICE (log 37): the other candidates, which another's win
closes, are not counted in IMITATION, which R78 ties to a failed check; those that REHUNT or a lost lane closes are not either. -/
def fasWin (h : Hunter) (r : Proc) (pos : Nat) (qual : Byte) (arr : Nat) : Proc :=
  let same := r.st == .oof && pos == r.pos
  let r' : Proc := { r with st := .inFrame, slots := [], pos := pos, barred := none, bad := 0, arrival := arr,
                            ident := if h = .otl then some (qual.toNat % 20) else r.ident }
  if same then r'
  else { r' with
    realign := if r.st == .oof then r.realign + 1 else r.realign, mfIm := false, mfLast := some qual,
    mfBad := 0, skip := if h = .sdh then 1 else 2 }

/-- The check of slot i one frame period after its opening (R78). -/
def fasCheck (h : Hunter) (r : Proc) (i : Nat) (sig : List Byte) (qual : Byte) (arr : Nat) : Proc :=
  if r.st == .inFrame then r
  else match tget? r.slots i with
    | none => r
    | some c =>
      if patternOk h sig && qualOk h r.qualOn c.qual qual then fasWin h r c.pos qual arr
      else { r with slots := tdel r.slots i, imitation := r.imitation + 1 }

/-- The in-frame check of one frame (R80): the fifth consecutive bad frame enters OOF with slot 0 opened at the former
position, while delivery goes on. -/
def frameCheck (r : Proc) (sig : List Byte) (qual : Byte) : Proc :=
  if r.st != .inFrame then r
  else if midOk sig then { r with bad := 0 }
  else if r.bad + 1 < 5 then { r with bad := r.bad + 1 }
  else { r with st := .oof, bad := 0, oofEvents := r.oofEvents + 1, slots := [(0, { pos := r.pos, qual := qual })] }

/-- The multiframe process over one received frame (R82, R86): in IF and in OOF alike, five consecutive frames that differ lose it and
the expected value counts on. -/
def mfStep (r : Proc) (mfas : Byte) : Proc :=
  if r.mfIm then
    if mfas = r.mfExp then { r with mfExp := r.mfExp + 1, mfBad := 0 }
    else if r.mfBad + 1 < 5 then { r with mfExp := r.mfExp + 1, mfBad := r.mfBad + 1 }
    else { r with mfIm := false, mfBad := 0, mfLast := some mfas, oomEvents := r.oomEvents + 1 }
  else if r.mfLast = some (mfas - 1) then { r with mfIm := true, mfExp := mfas + 1, mfBad := 0 }
  else { r with mfLast := some mfas }

/-- REHUNT (R80, R97): the former position is barred, unless the hunter was already in HUNT. -/
def rehunt (q : Port) (r : Proc) : Proc :=
  { toHunt q r with barred := if r.st == .hunt then none else some r.pos }

/-! ### Locks (R86 to R88) -/

/-- A FlexO interface lane's marker over one frame (R86): locked after 2 found, lost after 4 wrong. -/
def amStep (r : Proc) (found : Bool) : Proc :=
  if r.st == .inFrame then
    if found then { r with bad := 0 }
    else if r.bad + 1 < 4 then { r with bad := r.bad + 1 }
    else { r with st := .hunt, bad := 0, good := 0, oofEvents := r.oofEvents + 1 }
  else if !found then { r with good := 0 }
  else if r.good + 1 < 2 then { r with good := r.good + 1 }
  else { r with st := .inFrame, good := 0, bad := 0 }

/-- The FlexE overhead frame over one frame (R88): in frame after 2 found, out after 5 consecutive mismatches. An instance is neither a FAS
hunter nor a per-lane process, so it has no OOF_EVENTS (R98). -/
def ohFrameStep (q : Port) (r : Proc) (found : Bool) : Proc :=
  if r.st == .inFrame then
    if found then { r with bad := 0 }
    else if r.bad + 1 < 5 then { r with bad := r.bad + 1 }
    else { toHunt q r with omfCount := 0, omfLast := false }
  else if !found then { r with good := 0 }
  else if r.good + 1 < 2 then { r with good := r.good + 1 }
  else { r with st := .inFrame, good := 0, bad := 0, mfIm := false, mfBad := 0, omfCount := 0, omfLast := false, mfLast := none }

/-- The FlexE overhead multiframe (R88): the first 0→1 of OMF sets the position (`mfLast` holds it is set), the next one exactly 32
frames later locks and any other is a new first one, two transitions at unexpected positions lose it. -/
def omfStep (r : Proc) (omf : Bool) : Proc :=
  let rise := omf && !r.omfLast
  let n := r.omfCount + 1
  let r := { r with omfLast := omf }
  if r.st != .inFrame then r
  else if !rise then { r with omfCount := n }
  else match r.mfLast with
    | none => { r with mfLast := some 0, omfCount := 0 }
    | some _ =>
      if !r.mfIm then { r with mfIm := n == 32, mfBad := 0, omfCount := 0 }
      else if n % 32 = 0 then { r with omfCount := 0 }
      else if r.mfBad + 1 < 2 then { r with mfBad := r.mfBad + 1, omfCount := n }
      else { r with mfIm := false, mfBad := 0, mfLast := some 0, omfCount := 0, oomEvents := r.oomEvents + 1 }

/-- The headers in a window over which block lock is judged, and the bad ones in it that lose it (PRESUMED from IEEE 802.3, log 11):
64 and 16 at 10 and 25 Gbit/s, 1,024 and 65 at 100 Gbit/s. -/
def shWindow (q : Port) : Nat × Nat := if q.proto = 0x10 || q.proto = 0x11 then (64, 16) else (1024, 65)

/-- One synchronisation header of a PCS lane (R87; PRESUMED from IEEE 802.3, log 11): 64 good ones in a row lock, a bad one starts the
count over; a window with too many bad ones loses lock at the last of them. -/
def shStep (q : Port) (r : Proc) (good : Bool) : Proc :=
  let w := shWindow q
  if !r.blk then
    if !good then { r with shCnt := 0 }
    else if r.shCnt + 1 < 64 then { r with shCnt := r.shCnt + 1 }
    else { r with blk := true, shCnt := 0, shBad := 0 }
  else
    let bad := if good then r.shBad else r.shBad + 1
    if w.2 ≤ bad then { r with blk := false, shCnt := 0, shBad := 0 }
    else if r.shCnt + 1 < w.1 then { r with shCnt := r.shCnt + 1, shBad := bad }
    else { r with shCnt := 0, shBad := 0 }

/-- The blocks of a PCS lane since its last report. Behind RS-FEC the codeword boundary aligns the blocks and there is no header to find
(PRESUMED from IEEE 802.3, log 11). -/
def blockStep (q : Port) (r : Proc) (sync : List Bool) : Proc :=
  if q.fec = 0 then sync.foldl (shStep q) r else { r with blk := true }

/-- A PCS lane's report (R87): its blocks, then its alignment marker; without markers, block lock alone. A lane without block lock has no
marker lock. -/
def pcsStep (q : Port) (sync : List Bool) (am : Bool) (lane arrival : Nat) (r : Proc) : Proc :=
  let r := blockStep q { r with arrival := arrival } sync
  if !r.blk then { r with st := .hunt, bad := 0, good := 0, oofEvents := if r.st == .inFrame then r.oofEvents + 1 else r.oofEvents }
  else if hasAm q then { amStep r am with ident := if am then some lane else r.ident }
  else { r with st := .inFrame }

/-! ### Aligning the lanes of a port (R84 to R89) -/

/-- The identities that the lane processes of a port must show, each once: LLM, PCS lane, or PID and lane within the interface (R54). -/
def identsOk (q : Port) : Bool :=
  let ids := (List.range (laneProcs q)).map (fun i => (procOf q (i + 1)).ident)
  match q.proto with
  | 0x06 => true
  | 0x04 => (List.range (q.width / q.foicK)).all (fun j =>
      (List.range q.foicK).all (fun m => (ids.filter (fun d => d == some (8 * (j + 1) + m))).length == 1))
  | _ => !(hasAm q || q.proto == 3) || (List.range (laneProcs q)).all (fun j => (ids.filter (fun d => d == some j)).length == 1)

/-- The skew tolerance in ns (R84 to R87). -/
def skewTol (q : Port) : Nat := if q.proto = 6 then 100 else 180
/-- The arrivals of the lane processes that are in frame or in flywheel. -/
def arrivals (q : Port) : List Nat :=
  ((List.range (laneProcs q)).filter (fun i => (procOf q (i + 1)).st != .hunt)).map (fun i => (procOf q (i + 1)).arrival)
/-- The greatest difference of arrival. -/
def skewOf (q : Port) : Nat := (arrivals q).foldl max 0 - (arrivals q).foldl min ((arrivals q).foldl max 0)
/-- Whether the skew exceeds the tolerance. -/
def skewOver (q : Port) : Bool := decide (1 < laneProcs q) && decide (skewTol q < skewOf q)
/-- All lane processes in frame or locked. -/
def lanesIn (q : Port) : Bool := (List.range (laneProcs q)).all (fun i => (procOf q (i + 1)).st == .inFrame)
/-- No lane process in HUNT. -/
def lanesFly (q : Port) : Bool := (List.range (laneProcs q)).all (fun i => (procOf q (i + 1)).st != .hunt)

/-- ACQ_TIME set at an entry to IF (R98): from the last lane's entry to TRACK, in 0.1 µs. -/
def setAcq (now : Nat) (q : Port) : Port := { q with acqTime := w32 (min 4294967295 ((now - q.lastTrackAt) / 100)) }
/-- A port after the check of a slot of its process i: ACQ_TIME is set by the win of a port's one hunter, and on an OTUCn port by the one
that brings the last instance to IF (R98). -/
def fasChecked (h : Hunter) (i slot : Nat) (sig : List Byte) (qual : Byte) (arr now : Nat) (q : Port) : Port :=
  let r := fasCheck h (procOf q i) slot sig qual arr
  let u := updProc i (fun _ => r) q
  if (procOf q i).st != .inFrame && r.st == .inFrame &&
      (i = 0 || u.proto = 4 && (List.range (otucN u)).all (fun j => (procOf u (33 + j)).st == .inFrame)) then setAcq now u
  else u

/-- Process 0 of a port without a hunter of its own follows its lanes (R84 to R87): aligned when all are in frame, their
identities complete and their skew within tolerance; while a lane flywheels, so does the frame. It is neither a hunter nor a lane
process, so it has no OOF_EVENTS (R98). The entry to IF of an OTUCn port is that of its instances, not of the group.
DESIGN CHOICE (log 37): the group's loss moves no OTUC hunter. R80 sends a hunter to HUNT for a lane under it alone; one whose lanes are good
keeps its state while the group is out, and gets no frames meanwhile. So does a FlexE overhead process while the Ethernet port under it
is out of alignment with no lane defect (R88). A lane that comes back from OOF skips the BIP checks of the
reassembled frame as a realignment does (R108). -/
def alignFrame (now : Nat) (q : Port) : Port :=
  if laneProcs q = 0 then q
  else
    let r := procOf q 0
    let ok := identsOk q && !skewOver q
    if lanesIn q && ok then
      if r.st == .inFrame then q
      else
        let q := if q.proto = 4 then q else setAcq now q
        if r.st == .oof then updProc 0 (fun r => { r with st := .inFrame }) q
        else updProc 0 (fun r => { toHunt q r with st := .inFrame, skip := if isSdh q then 1 else 2 }) q
    else if lanesFly q && ok && (q.proto == 3 || q.proto == 6) && r.st != .hunt then
      if r.st == .oof then q else updProc 0 (fun r => { r with st := .oof }) q
    else if r.st == .hunt then q
    else updProc 0 (toHunt q) q

/-- The port OOF condition (R81). -/
def portOof (q : Port) : Bool :=
  (procOf q 0).st != .inFrame || !lanesIn q || (decide (1 < laneProcs q) && (!identsOk q || skewOver q)) ||
    (q.proto == 4 && (List.range (otucN q)).any (fun i => (procOf q (33 + i)).st != .inFrame))

/-- The instants since when a condition has held and has been absent. -/
def sinceTrack (cond : Bool) (now : Nat) (bad good : Option Nat) : Option Nat × Option Nat :=
  if cond then (if bad.isSome then bad else some now, none)
  else (none, if good.isSome then good else some now)

/-- The instants of a process's own conditions, for the 3 ms integrations of R81 and R83. -/
def procTimes (now : Nat) (q : Port) (i : Nat) (r : Proc) : Proc :=
  let a := sinceTrack (r.st != .inFrame) now r.oofSince r.okSince
  let b := if hasMf q i then sinceTrack (!r.mfIm) now r.oomSince r.imSince else (none, none)
  { r with oofSince := a.1, okSince := a.2, oomSince := b.1, imSince := b.2 }

/-- One port after any alignment event: its frame follows its lanes, SKEW_FAIL counts, and the conditions are timed. -/
def alignPort (now : Nat) (q : Port) : Port :=
  let ovr := skewOver q
  let q := { q with skewFail := if ovr && !q.skewBad then q.skewFail + 1 else q.skewFail, skewBad := ovr }
  let q := alignFrame now q
  let q := { q with procs := q.procs.map (fun e => (e.1, procTimes now q e.1 e.2)) }
  let a := sinceTrack (portOof q) now q.oofSince q.okSince
  { q with oofSince := a.1, okSince := a.2 }

/-- Every port after any alignment event. -/
def alignSettle (s : State) : State := { s with port := s.port.map (fun e => (e.1, alignPort s.now e.2)) }

/-- Whether a condition that holds since an instant has held for 3 ms (R81, R83). -/
def held3ms (t : Option Nat) (now : Nat) : Bool := match t with | some x => decide (x + 3000000 ≤ now) | none => false

/-- The STATE of PORT_STATUS (R70): 0 ACQUIRING, 1 ALIGNING, 2 UP. -/
def portState (s : State) (p : Nat) (q : Port) : Nat :=
  if !portTracks s p q then 0 else if portOof q then 1 else 2

/-- The physical lane that carries port lane i: the receive lane map's on STM-256, where no marker undoes the order (R56, R60). -/
def rxLane (p : Nat) (q : Port) (i : Nat) : Nat :=
  if q.proto = 6 then p + ((List.range q.width).find? (fun j => mapEntry q.rxMap j == i)).getD i else p + i

/-- The skew of each port lane against the earliest, ns (R89): the lane's first process stands for it. -/
def laneSkew (p : Nat) (q : Port) (i : Nat) : Nat :=
  let lo := (arrivals q).foldl min ((arrivals q).foldl max 0)
  match (List.range (laneProcs q)).find? (fun j => (procLanes p q (j + 1)).contains (rxLane p q i) && (procOf q (j + 1)).st != .hunt) with
  | some j => ((procOf q (j + 1)).arrival - lo) % 65536
  | none => 0

/-! ### Header-check delineation (R90) -/

/-- One header at the current byte of the process (R90). `ok` the check passes without correction, `corr` it passes with
a single-bit correction, `len` the distance to the next header if the received length field is valid, and `dist` the distance
that a passing header gives. -/
def hdrStep (r : HdrProc) (ok corr : Bool) (len : Option Nat) (dist : Nat) : HdrProc :=
  match r.st with
  | .hunt =>
    match ok, len with
    | true, some d => { r with st := .presync, cand := r.pos, conf := 0, pos := r.pos + d }
    | _, _ => { r with pos := r.pos + 1 }
  | .presync =>
    match ok, len with
    | true, some d =>
      if r.conf + 1 = r.delta then { r with st := .sync, bad := 0, pos := r.pos + d }
      else { r with conf := r.conf + 1, pos := r.pos + d }
    | _, _ => { r with st := .hunt, pos := r.cand + 1, imitation := r.imitation + 1 }
  | .sync =>
    if ok || corr then { r with bad := 0, pos := r.pos + dist }
    else match len with
      | some d =>
        if r.bad + 1 < 7 then { r with bad := r.bad + 1, pos := r.pos + d }
        else { r with st := .hunt, pos := r.pos + 1, lossEvents := r.lossEvents + 1 }
      | none => { r with st := .hunt, pos := r.pos + 1, lossEvents := r.lossEvents + 1 }

/-- The process forced to HUNT, counting a loss where it leaves SYNC (R90, R98). DESIGN CHOICE (log 37): a candidate in PRESYNC that a server
signal fail or a REHUNT drops is not counted in IMITATION, which R90 ties to a failed header. -/
def hdrHunt (r : HdrProc) : HdrProc :=
  if r.st == .hunt then r
  else { r with st := .hunt, pos := 0, lossEvents := if r.st == .sync then r.lossEvents + 1 else r.lossEvents }

/-- The 16 offsets from off on, over one codeword each (R92): their counts of good codewords in a row. -/
def offsetCounts (r : FabRx) (oks : BitVec 16) : List Nat :=
  (List.range 16).map (fun i => if oks.getLsbD i then tget r.good 0 i + 1 else 0)

/-- One codeword of a fabric lane (R92). While it searches, `oks` tells which of the 16 offsets under test decodes: four good ones in a
row lock an offset, the lowest first, and once no offset under test has a good one the next 16 of the 5,440 are tested. Once locked, bit 0
tells of the boundary: 8 uncorrectable codewords in a row lose it, and the search starts over at it. -/
def codewordStep (r : FabRx) (oks : BitVec 16) : FabRx :=
  if r.lock then
    if oks.getLsbD 0 then { r with bad := 0 }
    else if r.bad + 1 < 8 then { r with bad := r.bad + 1 }
    else { r with lock := false, bad := 0, good := [], hag := hdrHunt r.hag }
  else
    let cs := offsetCounts r oks
    match (List.range 16).find? (fun i => decide (4 ≤ cs.getD i 0)) with
    | some i => { r with lock := true, off := (r.off + i) % 5440, good := [], bad := 0 }
    | none =>
      if cs.all (· == 0) then { r with off := (r.off + 16) % 5440, good := [] }
      else { r with good := cs.zipIdx.map (fun e => (e.2, e.1)) }

/-- The fabric receive framing of lane n (0 to 255). -/
def fabRxOf (s : State) (n : Nat) : FabRx := tget s.fabRx {} n
/-- Whether fabric lane n is in SYNC and its lane in TRACK. -/
def fabSync (s : State) (n : Nat) : Bool := laneTracks s (256 + n) && (fabRxOf s n).hag.st == .sync

end Sys2Proof.Machine
end

