-- ==== Sys2Proof/Machine/Chans.lean ====
section
/-! DEFINITION. Channels (06_mapping_and_multiplexing.md): the fields of their words, the server tree, types and rates. -/

namespace Sys2Proof.Machine

/-! ### Fields of CHAN_CREATE's words (R181) -/

/-- TYPE. -/
def cType (w : List Word) : Nat := fld (wd w 0) 23 16
/-- SERVER. -/
def cServer (w : List Word) : Nat := fld (wd w 1) 13 0
/-- SRV_CH. -/
def cSrvCh (w : List Word) : Bool := bitOf (wd w 1) 14
/-- PROC. -/
def cProc (w : List Word) : Nat := fld (wd w 1) 19 16
/-- SUB. -/
def cSub (w : List Word) : Nat := fld (wd w 1) 23 20
/-- N. -/
def cN (w : List Word) : Nat := fld (wd w 2) 8 0
/-- TPN. -/
def cTpn (w : List Word) : Nat := fld (wd w 2) 17 9
/-- The slots or AU-4s of MAP, 1-based, ascending. -/
def cMap (w : List Word) : List Nat :=
  ((List.range 320).filter (fun i => bitOf (wd w (3 + i / 32)) (i % 32))).map (· + 1)
/-- The mode of a level of an ODU channel: 0 TRANSPARENT, 1 MONITOR, 2 TERMINATE; level 0 is PM (R101). -/
def cMode (w : List Word) (lvl : Nat) : Nat :=
  if lvl = 0 then (if bitOf (wd w 13) 0 then 2 else 1) else fld (wd w 13) (2 * lvl + 1) (2 * lvl)
/-- RETURN_CH, where RET_VALID is set. -/
def cRet (w : List Word) : Option Nat := if bitOf (wd w 14) 14 then some (fld (wd w 14) 13 0) else none
/-- The VCAT group of a member. -/
def cVcg (w : List Word) : Option Nat :=
  if cType w != 0x12 && bitOf (wd w 17) 14 then some (fld (wd w 17) 13 0) else none
/-- SQ of a VCAT member. -/
def cSq (w : List Word) : Nat := fld (wd w 17) 22 15
/-- MAX_DD of a VCAT group in units of 8 µs. -/
def cMaxDd (w : List Word) : Nat := fld (wd w 16) 24 16
/-- LCAS of a VCAT group. -/
def cLcas (w : List Word) : Bool := bitOf (wd w 16) 25
/-- WTR of a VCAT group in seconds (R168). -/
def cWtr (w : List Word) : Nat := if fld (wd w 17) 9 0 = 0 then 300 else fld (wd w 17) 9 0
/-- PT_EXP. -/
def cPtExp (w : List Word) : Nat := fld (wd w 18) 7 0
/-- FLEXE_CLIENT. -/
def cFlexe (w : List Word) : Nat := fld (wd w 18) 31 16

/-- ODU types. -/
def isOdu (t : Nat) : Bool := decide (1 ≤ t) && decide (t ≤ 8)
/-- VC-4 and VC-4-Xc. -/
def isVc (t : Nat) : Bool := t == 0x10 || t == 0x11
/-- Packet channels. -/
def isPkt (t : Nat) : Bool := t == 0x30
/-- GFP-F mapped packet channels. -/
def isGfp (w : List Word) : Bool := cType w == 0x30 && cProc w == 5

/-- The channel of a direction. -/
def chanAt (s : State) (eg : Bool) (ch : Nat) : Option Chan := tget? s.chan (chKey eg ch)
/-- s with the channel at key k changed by f. -/
def updChan (k : Nat) (f : Chan → Chan) (s : State) : State := { s with chan := tupd s.chan k f }
/-- The direction of a channel key: true egress. -/
def keyEg (k : Nat) : Bool := decide (16384 ≤ k)
/-- The number of a channel key. -/
def keyCh (k : Nat) : Nat := k % 16384

/-! ### The server tree -/

/-- What a channel hangs on. -/
inductive Server where
  | port (p : Nat)
  | chan (k : Nat)
  | group (k : Nat)
  | none
  deriving DecidableEq, Repr

/-- The server of the channel at key k: for a VCAT member also its port or channel; a VCAT group has none (R155, R166). -/
def serverOf (k : Nat) (w : List Word) : Server :=
  if cType w = 0x12 then .none
  else if cSrvCh w then .chan (chKey (keyEg k) (cServer w))
  else .port (cServer w)

/-- The keys of the channels whose server is the channel at key k. -/
def servedBy (s : State) (k : Nat) : List Nat :=
  (s.chan.filter (fun e => serverOf e.1 e.2.words == .chan k)).map (·.1)
/-- The keys of a direction's channels on port p. -/
def onPort (s : State) (eg : Bool) (p : Nat) : List Nat :=
  (s.chan.filter (fun e => keyEg e.1 == eg && serverOf e.1 e.2.words == .port p)).map (·.1)
/-- The keys of the members of the VCAT group at key k. -/
def vcatMembers (s : State) (k : Nat) : List Nat :=
  (s.chan.filter (fun e => keyEg e.1 == keyEg k && cVcg e.2.words == some (keyCh k))).map (·.1)

/-- The root port of the channel at key k, followed through its servers; a VCAT group has its first member's. -/
def rootPort (s : State) (fuel : Nat) (k : Nat) : Option Nat :=
  match fuel with
  | 0 => none
  | f + 1 =>
    match tget? s.chan k with
    | none => none
    | some c =>
      match serverOf k c.words with
      | .port p => some p
      | .chan k' => rootPort s f k'
      | _ => match vcatMembers s k with | m :: _ => rootPort s f m | [] => none

/-- Whether port p carries an STM-64 CBR client in a direction: CBR mode (R156), in which the multiplex section and the AU-4s pass. -/
def cbrPort (s : State) (eg : Bool) (p : Nat) : Bool :=
  (onPort s eg p).any (fun k => match tget? s.chan k with | some c => cType c.words == 0x22 | none => false)

/-- The depth bound of the server tree: a client, a VCAT group, a member, two lower-order ODUs, the top ODU. -/
def treeDepth : Nat := 8

/-- The slice of a channel. -/
def chanSlice (s : State) (k : Nat) : Option Nat := (rootPort s treeDepth k).map (· / 8)
/-- All channels, by key, whose root port is p. -/
def portChans (s : State) (p : Nat) : List Nat :=
  (s.chan.filter (fun e => rootPort s treeDepth e.1 == some p)).map (·.1)
/-- Whether a channel serves others or maps a client: it is a server channel (R155). -/
def isServer (s : State) (k : Nat) : Bool :=
  match tget? s.chan k with
  | some c => c.words.length != 0 && ((servedBy s k).any (fun j => match tget? s.chan j with
      | some d => cType d.words != 0x40 | none => false) || cType c.words == 0x12)
  | none => false
/-- Whether an ODU is the top ODU of its port: its server is a port. -/
def isTopOdu (k : Nat) (c : Chan) : Bool :=
  isOdu (cType c.words) && (match serverOf k c.words with | .port _ => true | _ => false)

/-- The port whose section feeds the channels of port p: the protection port of an MSP group that has selected it (R261). -/
def mspPort (s : State) (p : Nat) : Nat :=
  match s.prot.find? (fun e => decide (4 ≤ fld (wd e.2.words 0) 19 16) && fld (wd e.2.words 1) 13 0 == p && e.2.sel) with
  | some e => fld (wd e.2.words 1) 29 16
  | none => p

/-! ### Rates at the cross-connect, in kbit/s (R156) -/

/-- The rate of an Ethernet client by port protocol. -/
def ethRate (proto : Nat) : Nat :=
  match proto with
  | 0x10 => 10312500 | 0x11 => 25781250 | 0x12 => 103125000 | 0x13 => 206250000 | 0x14 => 412500000
  | 0x15 => 825000000 | 0x16 => 1650000000 | _ => 0

/-- The slots that FlexE client id occupies in a calendar of a group. -/
def flexeSlots (g : FlexGroup) (cal id : Nat) : Nat :=
  (g.cal.map (fun e => if e.1 % 2 = cal then (e.2.filter (· == id)).length else 0)).foldl (· + ·) 0

/-- MISMATCH of a group: some instance of some PHY receives another group number or PHY map (R169). -/
def FlexGroup.mismatch (g : FlexGroup) : Bool := g.phys.any (fun x => !x.bad.isEmpty)
/-- The FlexE group whose lowest-numbered PHY is port p. -/
def flexeGroupOf (s : State) (p : Nat) : Option (Nat × FlexGroup) :=
  s.flex.find? (fun e => (minBy (·.num) e.2.phys).map (·.port) == some p)

/-- The rate of a FlexE client of the group of port p, by the calendar in use in its direction (R170). -/
def flexeRate (s : State) (eg : Bool) (p id : Nat) : Nat :=
  match flexeGroupOf s p with | some (_, g) => 5156250 * flexeSlots g (if eg then g.active else g.rxActive) id | none => 0

/-- The rate that TYPE, N and the server give, where the server's own rate is not needed. -/
def typeRate (t n : Nat) : Nat :=
  match t with
  | 0x01 => 1244160 | 0x02 => 2498775 | 0x03 => 10037274 | 0x04 => 10399525 | 0x05 => 104794446
  | 0x06 => n * 1249177 | 0x07 => n * 5177915 | 0x08 => n * 105258138
  | 0x10 => 150336 | 0x11 => n * 150336 | 0x22 => 9953280
  | _ => 0

/-- The payload rate of a server: OPU columns 17 to 3824 of an ODU, C-4 of a VC-4 (DEDUCED, log 12). -/
def payloadOf (t n : Nat) : Nat :=
  if isOdu t then typeRate t n * 238 / 239 else if isVc t then typeRate t n * 260 / 261 else 0

/-- The rate of a communication channel (R123). Where the table has no row, two bytes a frame at the frame rate of the server, its rate over
122,368 bits (DEDUCED, log 12). -/
def gccRate (s : State) (eg : Bool) (w : List Word) : Nat :=
  match cSub w with
  | 4 => 192
  | 5 => 576
  | 1 => match portAt s (cServer w) with
    | some q => if q.proto = 3 then 13710 else if q.proto = 4 then otucN q * 105258138 * 16 / 122368
                else if q.proto = 2 then 10399525 * 16 / 122368 else 1312
    | none => 0
  | _ => match tget? s.chan (chKey eg (cServer w)) with
    | some v => typeRate (cType v.words) (cN v.words) * 16 / 122368
    | none => 0

/-- The rate of the channel with words w at key k, in kbit/s. -/
def rateOf (s : State) (k : Nat) (w : List Word) : Nat :=
  let srv := if cSrvCh w then (tget? s.chan (chKey (keyEg k) (cServer w))).map (·.words) else none
  match cType w with
  | 0x12 => ((vcatMembers s k).map (fun m => match tget? s.chan m with
      | some c => typeRate (cType c.words) (cN c.words) | none => 0)).foldl (· + ·) 0
  | 0x20 => match srv with
    | some v => if cType v = 4 then 10312500 else if cType v = 5 then 103125000
                else if cN v = 5 then 25781250 else cN v * 5156250
    | none => match portAt s (cServer w) with | some q => ethRate q.proto | none => 0
  | 0x21 => match srv with | some v => cN v * 5156250 | none => flexeRate s (keyEg k) (cServer w) (cFlexe w)
  | 0x30 => match srv with
    | some v =>
      if cType v = 0x12 then
        ((vcatMembers s (chKey (keyEg k) (cServer w))).map (fun m => match tget? s.chan m with
          | some c => payloadOf (cType c.words) (cN c.words) | none => 0)).foldl (· + ·) 0
      else payloadOf (cType v) (cN v)
    | none => match portAt s (cServer w) with | some q => ethRate q.proto * 64 / 66 | none => 0
  | 0x40 => gccRate s (keyEg k) w
  | t => typeRate t (cN w)

/-- The rate of a channel by key. -/
def chanRate (s : State) (k : Nat) : Nat := match tget? s.chan k with | some c => rateOf s k c.words | none => 0

/-! ### The multiframe of virtual concatenation (R166, R167; lengths PRESUMED, log 39) -/

/-- The frames of a VCAT multiframe: 4,096 for VC-4, 2^24 for an ODU. -/
def vcFrames (w : List Word) : Nat := if isVc (cType w) then 4096 else 16777216
/-- The duration of n frames of a member, in ns: 125 µs each, or 122,368 bits at the ODU's rate. -/
def vcOffset (w : List Word) (n : Nat) : Nat :=
  if isVc (cType w) then 125000 * n else n * 122368000000 / (typeRate (cType w) (cN w))
/-- The duration of the multiframe. -/
def vcPeriod (w : List Word) : Nat := vcOffset w (vcFrames w)

/-! ### Connections -/

/-- The fabric channel of a leaf, 0 for none. -/
def fabricOf (c : Chan) : Nat := match c.conns.find? (fun x => x.kind == 1) with | some x => x.target | none => 0
/-- The running state of a leaf whose source or sink changes: counts stay, SEQ starts at 0, E is unset, FIFO and packets in progress are
dropped. -/
def restartLeaf (c : Chan) : Chan :=
  { c with txSeq := 0, txBytes := [], txSop := true, next := none, rx := {}, fifo := [], fifoRun := false, out := [], pktCur := 0, pktDropping := false }
/-- EN as commanded. -/
def cEn (c : Chan) : Bool := match c.next with | some p => p.en | none => c.en
/-- The connections as commanded. -/
def cConns (c : Chan) : List Conn := match c.next with | some p => p.conns | none => c.conns
/-- The fabric channel of a leaf as commanded. -/
def cFabric (c : Chan) : Nat := match (cConns c).find? (fun x => x.kind == 1) with | some x => x.target | none => 0
/-- Whether a leaf stands between two Hagil frames of a stream, or between two packets (R174). An ingress stream is cut into frames only
while it is connected; an egress stream takes whole frames. -/
def atEdge (k : Nat) (c : Chan) : Bool :=
  if isPkt (cType c.words) then c.pktCur = 0 && !c.pktDropping else keyEg k || c.txBytes.isEmpty
/-- EN and connections as commanded, in effect (R174, R177, R179): SEQ, E and the buffers start anew where the fabric connection of an
ingress leaf or the source of an egress leaf changes; at enable the first frame accepted sets E, an egress VC-4 sends NDF, and an
egress packet leaf waits for a packet's first frame. -/
def applyNext (k : Nat) (c : Chan) : Chan :=
  match c.next with
  | none => c
  | some p =>
    let moved := if keyEg k then p.conns != c.conns else cFabric c != fabricOf c
    let c' := if moved then restartLeaf c else { c with next := none }
    let on := p.en && !c.en
    let c' := if on then { c' with rx := {}, fifo := [], fifoRun := false, pktCur := 0, pktDropping := false, ndfNext := keyEg k && isVc (cType c.words) }
              else if c.en && !p.en then { c' with txBytes := [], txSop := true, pktCur := 0 } else c'
    { c' with en := p.en, conns := p.conns, rx := if keyEg k && (moved || on) then { c'.rx with discard := isPkt (cType c.words) } else c'.rx }
/-- The ingress leaf connected to fabric channel f. -/
def ingressOf (s : State) (f : Nat) : Option Nat :=
  (s.chan.find? (fun e => !(keyEg e.1) && fabricOf e.2 == f && f != 0)).map (·.1)
/-- Whether this twin sends the traffic of port p to its partner (R22, R29, R373): the fourth place of a leaf, the Varric cross-feed stage,
to which Prihegen connects every leaf of a port of its own optics while the link is up. -/
def crossFeeds (s : State) (p : Nat) : Bool :=
  s.twin.paired && s.twin.linkUp && tget s.twin.homing 0 p == (if s.pins.strap then 2 else 1)
/-- Whether the channel at key k hangs on a port whose traffic this twin, as the owner of its optics, sends to its partner: the Varric
cross-feed stage is then one of its places. -/
def crossHomed (s : State) (k : Nat) : Bool :=
  s.twin.paired && (match rootPort s treeDepth k with | some p => tget s.twin.homing 0 p == (if s.pins.strap then 2 else 1) | none => false)
/-- The places that the leaf at key k feeds or is fed from: its connections, and the Varric cross-feed stage (KIND 4, its port); never more
than two (R22). -/
def leafPlaces (s : State) (k : Nat) (c : Chan) : List Conn :=
  (c.conns ++ (match rootPort s treeDepth k with | some p => if crossFeeds s p then [{ kind := 4, target := p }] else [] | none => [])).take 2
/-- The egress leaves of slice sl connected to fabric channel f. -/
def egressOf (s : State) (sl f : Nat) : List Nat :=
  (s.chan.filter (fun e => keyEg e.1 && fabricOf e.2 == f && f != 0 && chanSlice s e.1 == some sl)).map (·.1)

/-- The fabric load of a slice's direction, in kbit/s (R178): a fabric channel shared by egress leaves counts once, the packet
channels of one server count once. -/
def fabricLoad (s : State) (sl : Nat) (eg : Bool) : Nat :=
  let cs := s.chan.filter (fun e => keyEg e.1 == eg && cFabric e.2 != 0 && chanSlice s e.1 == some sl)
  let pick := cs.filter (fun e =>
    (cs.find? (fun d => cFabric d.2 == cFabric e.2)).map (·.1) == some e.1 &&
    (!(isPkt (cType e.2.words)) ||
      (cs.find? (fun d => isPkt (cType d.2.words) && serverOf d.1 d.2.words == serverOf e.1 e.2.words)).map (·.1) == some e.1))
  (pick.map (fun e => chanRate s e.1)).foldl (· + ·) 0

/-- The limit of R178 in kbit/s. -/
def fabricLimit : Nat := 1686400000

end Sys2Proof.Machine
end

