-- ==== Sys2Proof/Machine/Defects.lean ====
section
/-! DEFINITION. Defects (05_defects_and_performance.md): what is declared at each monitoring point, what covers it, what is
reported, and the failures that follow. -/

namespace Sys2Proof.Machine

/-! ### Bits and ranks (R131) -/

/-- The rank of a defect bit. -/
def rankOf (b : Nat) : Nat :=
  match b with
  | 0 => 1 | 1 => 2 | 2 => 3 | 3 => 3 | 4 => 3 | 5 => 4 | 6 => 4 | 7 => 4 | 8 => 5 | 9 => 6 | 10 => 6 | 11 => 6
  | 12 => 6 | 13 => 7 | 14 => 7 | _ => 8
/-- A set of defect bits. -/
def mask (l : List Nat) : BitVec 20 := l.foldl (fun m b => m ||| (1#20 <<< b)) 0
/-- The signal-fail defects: ranks 1 to 7 (R131). -/
def sfMask : BitVec 20 := mask (List.range 15)
/-- A bit of a condition. -/
def dbit (b : Nat) (c : Bool) : BitVec 20 := if c then 1#20 <<< b else 0
/-- The raw defects of a point that acceptance, pointers, traces and degrade declare. -/
def rawOf (s : State) (addr : Nat) : BitVec 20 := match tget? s.mon addr with | some m => m.raw | none => 0
/-- Declare or clear a raw defect of a point. -/
def setRaw (addr b : Nat) (v : Bool) (s : State) : State :=
  { s with mon := tupd s.mon addr (fun m =>
      { m with raw := if v then m.raw ||| (1#20 <<< b) else m.raw &&& ~~~(1#20 <<< b) }) }
/-- s with the point changed by f, where it exists. -/
def updMon (addr : Nat) (f : Mon → Mon) (s : State) : State := { s with mon := tupd s.mon addr f }

/-! ### What fails a signal (R119, R120, R90) -/

/-- The section defects that fail every channel of a port (R120): of an OTN, an SDH or an Ethernet port. -/
def sectionMask (q : Port) : BitVec 20 :=
  if isOtn q then mask [0, 1, 2, 3, 5, 13] else if isSdh q then mask [0, 1, 2, 3, 13] else mask [0, 1, 2, 3]

/-- The defects declared at a port section point (R72, R76, R81, R83). -/
def sectionDecl (s : State) (p : Nat) (q : Port) (inst lvl : Nat) : BitVec 20 :=
  let raw := rawOf s (monAddr 2 0 p inst lvl)
  if lvl = 1 then raw
  else
    raw ||| dbit 0 (portLos s p q) ||| dbit 1 (portLol s p q) ||| dbit 2 q.lof |||
      dbit 3 ((List.range (laneProcs q)).any (fun i => (procOf q (i + 1)).lof)) |||
      dbit 5 (if q.proto = 4 then (procOf q 0).lom || (procOf q (33 + inst)).lom
              else hasMf q 0 && (procOf q 0).lom)

/-- Whether a port's section fails its channels (R120): any instance, and on SDH the multiplex section's dAIS; in CBR mode the multiplex
section passes untouched (R156). -/
def sectionFail (s : State) (p : Nat) (q : Port) : Bool :=
  (List.range (sectionInst q)).any (fun i => sectionDecl s p q i 0 &&& sectionMask q != 0) ||
    (isSdh q && !(cbrPort s false p) && rawOf s (monAddr 2 0 p 0 1) &&& mask [8] != 0)

/-- The address of an ODU channel's level, or a VC-4 channel's path. -/
def chanPoint (k : Nat) (t inst lvl : Nat) : Nat :=
  if isVc t then monAddr 4 (b2n (keyEg k)) (keyCh k) 0 0 else monAddr 3 (b2n (keyEg k)) (keyCh k) inst lvl

/-- The defects of a channel that fail what it carries (R120): an ODU's at PM, dTIM only at TERMINATE; a VC-4 path's dAIS
and dLOP. -/
def carrierMask (w : List Word) : BitVec 20 :=
  if isVc (cType w) then mask [4, 8] else if cMode w 0 = 2 then mask [8, 9, 10, 13, 14] else mask [8, 9, 10, 14]

/-- By how much the multiframe of member m arrives behind that of member j, in ns, around the multiframe's length. -/
def vcBehind (m j : Chan) : Nat := (m.vcPhase + vcPeriod m.words - j.vcPhase) % vcPeriod m.words
/-- Whether a received VCAT member has lost its multiframe or arrives more than MAX_DD behind the earliest member (R167). -/
def vcatOut (s : State) (grp : List Nat) (maxDd : Nat) (m : Nat) : Bool :=
  !(keyEg m) && (match tget? s.chan m with
  | some c => c.vcLom || grp.any (fun j => match tget? s.chan j with
      | some d => !d.vcLom && decide (8000 * maxDd < vcBehind c d) && decide (2 * vcBehind c d < vcPeriod c.words)
      | none => false)
  | none => true)

/-- Server signal fail of the channel at key k (R119, R120, R165, R168): its multiplex structure is wrong, or what carries
it fails. -/
def chanSsf (s : State) (fuel : Nat) (k : Nat) : Bool :=
  match fuel with
  | 0 => false
  | f + 1 =>
    match tget? s.chan k with
    | none => false
    | some c =>
      c.msiBad ||
      (match serverOf k c.words with
       | .port p => !keyEg k && ((match portAt s (mspPort s p) with | some q => sectionFail s (mspPort s p) q | none => false) ||
           (cType c.words == 0x21 && (match flexeGroupOf s p with | some (_, g) => g.mismatch | none => false)))
       | .chan k' =>
         (match tget? s.chan k' with
          | some d => rawOf s (chanPoint k' (cType d.words) 0 0) &&& carrierMask d.words != 0
          | none => false) || chanSsf s f k'
       | _ =>
         cType c.words == 0x12 &&
           (let ms := vcatMembers s k
            let bad := fun m =>
              (match tget? s.chan m with
               | some d => rawOf s (chanPoint m (cType d.words) 0 0) &&& sfMask != 0
               | none => false) || chanSsf s f m || vcatOut s ms (cMaxDd c.words) m
            if cLcas c.words then !(ms.any (fun m => match tget? s.chan m with | some d => d.carrying | none => false))
            else ms.any bad))

/-- Server signal fail of a channel. -/
def ssf (s : State) (k : Nat) : Bool := chanSsf s treeDepth k
/-- A signal-fail defect at a channel's own point (PM or path) or server signal fail. -/
def chanSf (s : State) (k : Nat) : Bool :=
  ssf s k || (match tget? s.chan k with
    | some c => rawOf s (chanPoint k (cType c.words) 0 0) &&& sfMask != 0
    | none => true)
/-- Whether a VCAT member has failed (R168). -/
def vcatBad (s : State) (g m : Nat) : Bool :=
  chanSf s m || (match tget? s.chan g with | some c => vcatOut s (vcatMembers s g) (cMaxDd c.words) m | none => false)

/-- Server signal fail of GFP-F delineation (R90): dLOS, dLOL, dLOF, dLOFLANE, dLOM or dAIS on a layer that carries the
channel at key k; a VCAT group's by R168. -/
def gfpCarrierFail (s : State) (fuel : Nat) (k : Nat) : Bool :=
  match fuel with
  | 0 => false
  | f + 1 =>
    match tget? s.chan k with
    | none => false
    | some c =>
      match serverOf k c.words with
      | .port p0 =>
        let p := mspPort s p0
        (match portAt s p with
        | some q => (List.range (sectionInst q)).any (fun i => sectionDecl s p q i 0 &&& mask [0, 1, 2, 3, 5] != 0) ||
            rawOf s (monAddr 2 0 p 0 1) &&& mask [8] != 0
        | none => true)
      | .chan k' =>
        (match tget? s.chan k' with
         | some d => (List.range 7).any (fun l => rawOf s (chanPoint k' (cType d.words) 0 l) &&& mask [8] != 0)
         | none => true) || (if (tget? s.chan k').map (fun d => cType d.words) == some 0x12 then ssf s k' else gfpCarrierFail s f k')
      | _ => false

/-- Fabric lane n's server signal fail (R90): dLOS, dLOL or no codeword lock. -/
def fabSsf (s : State) (n : Nat) : Bool := laneBad (laneOf s (256 + n)) || !(fabRxOf s n).lock

/-! ### Declared defects of a point -/

/-- The member-level defects of a Braid member that are reported (R133): a signal-fail defect of the member suppresses
them. -/
def memberRep (s : State) (m : Member) : BitVec 20 :=
  if chanSf s (chKey false m.ch) then 0 else dbit 6 m.seqDef ||| dbit 7 m.skewDef

/-- The declared defects of a monitoring point (R131, R133). -/
def declaredOf (s : State) (addr : Nat) : BitVec 20 :=
  let id := aId addr
  match aLayer addr with
  | 1 => dbit 0 (laneOf s id).los ||| dbit 1 (laneLol (laneOf s id))
  | 2 => match portAt s id with | some q => sectionDecl s id q (aInst addr) (aLevel addr) | none => 0
  | 3 => rawOf s addr ||| (if aLevel addr = 0 && aInst addr = 0 then
      (match tget? s.chan (chKey (aDir addr == 1) id) with | some c => dbit 14 c.msiBad | none => 0) else 0)
  | 4 => rawOf s addr
  | 5 => match tget? s.chan (chKey (aDir addr == 1) id) with
    | some c => if aDir addr = 0 then dbit 2 (c.gfp.st != .sync) else 0
    | none => 0
  | 6 => match portAt s id with
    | some q => dbit 2 (procOf q (33 + aInst addr)).lof ||| dbit 5 (procOf q (33 + aInst addr)).lom
    | none => 0
  | 7 => match tget? s.braid id with
    | some b => (match b.rx with
      | some r => r.members.foldl (fun m x => m ||| memberRep s x) 0
      | none => 0)
    | none => 0
  | 8 => match tget? s.welt id with | some w => dbit 19 w.range | none => 0
  | 9 =>
    let l := laneOf s (256 + id)
    dbit 0 l.los ||| dbit 1 (laneLol l) ||| dbit 2 (l.st != .off && (fabRxOf s id).hag.st != .sync)
  | _ => 0

/-! ### What covers a point (R132) -/

/-- The lane points of a port, with the defects that cover. -/
def laneCover (p : Nat) (q : Port) : List (Nat × BitVec 20) :=
  (portLanes p q).map (fun k => (monAddr 1 0 k 0 0, mask [0, 1]))

/-- Two chains of levels joined by their distance. -/
def levelsJoin {α : Type} (a b : List (List α)) : List (List α) :=
  match a, b with
  | [], l => l
  | l, [] => l
  | x :: r, y :: t => (x ++ y) :: levelsJoin r t

/-- The points that a channel depends on, nearest first, each level with the defects that replace the channel's signal; a VCAT
group's are those of its members, unless LCAS carries it on without them (R168). -/
def chanCover (s : State) (fuel : Nat) (k : Nat) : List (List (Nat × BitVec 20)) :=
  match fuel with
  | 0 => []
  | f + 1 =>
    match tget? s.chan k with
    | none => []
    | some c =>
      match serverOf k c.words with
      | .port p0 =>
        let p := mspPort s p0
        if keyEg k then [] else
        (match portAt s p with
         | some q =>
           if isSdh q then [[(monAddr 2 0 p 0 1, mask [8])], [(monAddr 2 0 p 0 0, sectionMask q)], laneCover p q]
           else [(List.range (sectionInst q)).map (fun i => (monAddr 2 0 p i 0, sectionMask q)), laneCover p q]
         | none => [])
      | .chan k' =>
        (match tget? s.chan k' with
         | some d =>
           if cType d.words = 0x12 then
             if cLcas d.words && !(ssf s k') then []
             else (vcatMembers s k').foldl (fun a m =>
               levelsJoin a ([(chanPoint m (cType ((tget? s.chan m).map (·.words) |>.getD [])) 0 0, sfMask)] :: chanCover s f m)) []
           else [[(chanPoint k' (cType d.words) 0 0, if isVc (cType d.words) then 0 else carrierMask d.words)]]
         | none => []) ++ chanCover s f k'
      | _ => []

/-- Whether a point lies on a slice that has no power (R137, R154). -/
def pointOut (s : State) (addr : Nat) : Bool :=
  match aLayer addr with
  | 1 => !(sliceUp s (aId addr / 8))
  | 2 => !(sliceUp s (aId addr / 8))
  | 6 => !(sliceUp s (aId addr / 8))
  | 9 => !(sliceUp s (aId addr / 8))
  | 3 => (match chanSlice s (chKey (aDir addr == 1) (aId addr)) with | some k => !(sliceUp s k) | none => false)
  | 4 => (match chanSlice s (chKey (aDir addr == 1) (aId addr)) with | some k => !(sliceUp s k) | none => false)
  | 5 => (match chanSlice s (chKey (aDir addr == 1) (aId addr)) with | some k => !(sliceUp s k) | none => false)
  | _ => false
/-- What covers an egress point of a slice without power: the lanes of its port, which Prihegen holds in dLOS (R137). -/
def outCover (s : State) (addr : Nat) : List (List (Nat × BitVec 20)) :=
  if !(pointOut s addr) || aDir addr = 0 then []
  else
    match rootPort s treeDepth (chKey true (aId addr)) with
    | some p => (match portAt s p with | some q => [laneCover p q] | none => [])
    | none => []

/-- The points on which a point depends, nearest level first (R129, R132, R133). -/
def coverOf (s : State) (addr : Nat) : List (List (Nat × BitVec 20)) :=
  let id := aId addr
  match aLayer addr with
  | 2 => match portAt s id with
    | some q => (if aLevel addr = 1 then [[(monAddr 2 0 id 0 0, sectionMask q)]] else []) ++ [laneCover id q]
    | none => []
  | 3 => chanCover s treeDepth (chKey (aDir addr == 1) id) ++ outCover s addr
  | 4 => chanCover s treeDepth (chKey (aDir addr == 1) id) ++ outCover s addr
  | 5 => chanCover s treeDepth (chKey (aDir addr == 1) id) ++ outCover s addr
  | 6 => match portAt s id with
    | some q => [[(monAddr 2 0 id 0 0, sfMask)], laneCover id q]
    | none => []
  | 8 => match tget? s.welt id with
    | some w =>
      [[(monAddr 3 0 w.c0.ch 0 0, sfMask), (monAddr 3 0 w.c1.ch 0 0, sfMask)]] ++
        levelsJoin (chanCover s treeDepth (chKey false w.c0.ch)) (chanCover s treeDepth (chKey false w.c1.ch))
    | none => []
  | _ => []

/-- Whether a signal-fail defect covers a point. -/
def covered (s : State) (addr : Nat) : Bool :=
  (coverOf s addr).any (fun l => l.any (fun e => declaredOf s e.1 &&& e.2 &&& sfMask != 0))

/-- The declared defects of a point that another defect of the same point suppresses (R132). -/
def selfSuppressed (tcm : Bool) (d : BitVec 20) : BitVec 20 :=
  (List.range 20).foldl (fun m b =>
    m ||| dbit b (d.getLsbD b && ((List.range 20).any (fun c => d.getLsbD c && decide (rankOf c < rankOf b)) ||
      (tcm && d.getLsbD 11 && b != 11)))) 0

/-- Whether a point is a TCM level. -/
def isTcm (addr : Nat) : Bool := aLayer addr == 3 && decide (1 ≤ aLevel addr)

/-- The reported defects of a point: declared and not suppressed. -/
def reportedOf (s : State) (addr : Nat) : BitVec 20 :=
  let d := declaredOf s addr
  if d = 0 then 0 else if covered s addr then 0 else d &&& ~~~(selfSuppressed (isTcm addr) d)

/-- The lowest set bit of a word. -/
def lowBit (w : BitVec 20) : Option Nat := (List.range 20).find? (fun b => w.getLsbD b)

/-- SUPPRESSOR and SUP_DEFECT of a point (R148): the reported suppressing defect furthest upstream, the lowest bit index
there, then the lowest ID, INST and LEVEL. -/
def suppressorOf (s : State) (addr : Nat) : Option (Nat × Nat) :=
  let d := declaredOf s addr
  let r := reportedOf s addr
  if d &&& ~~~r = 0 then none
  else
    let own := r &&& (List.range 20).foldl (fun m b => m ||| dbit b (d.getLsbD b &&
      ((List.range 20).any (fun c => d.getLsbD c && !r.getLsbD c && decide (rankOf b < rankOf c)) ||
        (isTcm addr && b == 11)))) 0
    let levels := [(addr, own)] :: (coverOf s addr).map (fun l => l.map (fun e => (e.1, reportedOf s e.1 &&& e.2)))
    let pick := fun (l : List (Nat × BitVec 20)) =>
      minBy (fun (e : Nat × Nat) => ((e.2 * 16384 + aId e.1) * 16 + aInst e.1) * 8 + aLevel e.1)
        (l.filterMap (fun e => (lowBit e.2).map (fun b => (e.1, b))))
    levels.reverse.findSome? pick

/-! ### Reporting (R135, R137, R148, R153) -/

/-- The object kind and number of an event about a point (R454). -/
def pointObject (addr : Nat) : Nat × Nat :=
  match aLayer addr with
  | 1 => (1, aId addr) | 2 => (2, aId addr) | 6 => (2, aId addr)
  | 3 => (3 + aDir addr, aId addr) | 4 => (3 + aDir addr, aId addr) | 5 => (3 + aDir addr, aId addr)
  | 7 => (6, aId addr) | 8 => (7, aId addr) | _ => (0, 0)

/-- EVT_DEFECT (R153). -/
def evtDefect (addr b : Nat) (rise fail : Bool) (s : State) : State :=
  raise 0x0401 clsAlarm (pointObject addr).1 (pointObject addr).2 addr (b + 256 * b2n rise + 512 * b2n fail) 0 0 s

/-- T_DECLARE in µs (R135, R149). -/
def tDeclareUs (m : Mon) : Nat := if m.tDeclare = 0 then 2500000 else m.tDeclare * 100000
/-- T_CLEAR in µs. -/
def tClearUs (m : Mon) : Nat := if m.tClear = 0 then 10000000 else m.tClear * 500000

/-- Declare or clear the failure of a bit, with its event where enabled. -/
def setFailure (addr b : Nat) (v : Bool) (s : State) : State :=
  match tget? s.mon addr with
  | none => s
  | some m =>
    let s := updMon addr (fun m => { m with failure := if v then m.failure ||| (1#20 <<< b) else m.failure &&& ~~~(1#20 <<< b) }) s
    if m.evtFail then evtDefect addr b v true s else s

/-- The clock of a point's failure timers, in µs: device time's own advance, and the fault timebase while the point's slice has no
power (R135, R137). -/
def pointUs (s : State) (addr : Nat) : Nat :=
  if pointOut s addr then s.now / 1000 else s.tmc.lapse / (281474976710656 * 1000)

/-- One bit of a point after a change: `d` declared now, `r` reported now. -/
def bitStep (addr b : Nat) (d r : Bool) (s : State) : State :=
  match tget? s.mon addr with
  | none => s
  | some m =>
    let was := m.reported.getLsbD b
    let fail := m.failure.getLsbD b
    let s :=
      if r && !was then
        let s := updMon addr (fun m => { m with
          reported := m.reported ||| (1#20 <<< b), clearAt := tdel m.clearAt b,
          declAt := if fail then m.declAt else tset m.declAt b (pointUs s addr + tDeclareUs m) }) s
        if m.evtDefect then evtDefect addr b true false s else s
      else if !r && was then
        let s := updMon addr (fun m => { m with
          reported := m.reported &&& ~~~(1#20 <<< b), declAt := tdel m.declAt b,
          clearAt := if fail && !d then tset m.clearAt b (pointUs s addr + tClearUs m) else m.clearAt }) s
        if m.evtDefect then evtDefect addr b false false s else s
      else s
    if fail && d && !r then
      setFailure addr b false (updMon addr (fun m => { m with clearAt := tdel m.clearAt b }) s)
    else s

/-- A point after a change: STICKY takes new declarations, the second's defect flags are set, and every bit is reported. -/
def pointStep (addr : Nat) (d r : BitVec 20) (cov : Bool) (s : State) : State :=
  let s := foldS (List.range 20) (fun b => bitStep addr b (d.getLsbD b) (r.getLsbD b)) s
  updMon addr (fun m => { m with
    sticky := m.sticky ||| (d &&& ~~~m.declared), declared := d,
    sec := { m.sec with neDef := m.sec.neDef || cov || d &&& sfMask != 0,
                        feDef := m.sec.feDef || d &&& mask [15, 16] != 0 } }) s

/-- Every point after a change. -/
def defectSettle (s : State) : State :=
  let ps := s.mon.map (fun e => (e.1, declaredOf s e.1, reportedOf s e.1, covered s e.1 || pointOut s e.1))
  ps.foldl (fun s e => pointStep e.1 e.2.1 e.2.2.1 e.2.2.2 s) s

/-- A fabric lane's receive framing under its server signal fail (R90, R92). -/
def fabRxSettle (s : State) (n : Nat) (r : FabRx) : FabRx :=
  if laneBad (laneOf s (256 + n)) then { r with lock := false, good := [], bad := 0, hag := hdrHunt r.hag }
  else if !r.lock then { r with hag := hdrHunt r.hag } else r

/-- A channel's GFP-F process forced to HUNT, with the parameters that then stand (R97). -/
def gfpHunt (c : Chan) : HdrProc :=
  if c.gfp.st == .hunt then c.gfp else { hdrHunt c.gfp with delta := c.gfpDelta, maxPli := c.gfpMaxPli }

/-- A channel's GFP-F process under its server signal fail (R90, R99). -/
def gfpSettle (s : State) (k : Nat) (c : Chan) : Chan :=
  if isGfp c.words && !(keyEg k) && gfpCarrierFail s treeDepth k then { c with gfp := gfpHunt c } else c

/-- GFP-F and Hagil processes under server signal fail are in HUNT. -/
def ssfSettle (s : State) : State :=
  { s with
    fabRx := s.fabRx.map (fun (e : Nat × FabRx) => (e.1, fabRxSettle s e.1 e.2))
    chan := s.chan.map (fun (e : Nat × Chan) => (e.1, gfpSettle s e.1 e.2)) }

end Sys2Proof.Machine
end

