-- ==== Sys2Proof/Machine/Protect.lean ====
section
/-! DEFINITION. Linear protection (09_welt_and_line_protection.md, R259 to R268): the fields of a group, its triggers, the request
it selects, and the selector. The layout of the APS bytes beside the request code is PRESUMED from G.873.1 and G.841
(log 13). -/

namespace Sys2Proof.Machine

/-! ### Fields (R280) -/

/-- ARCH. -/
def gArch (w : List Word) : Nat := fld (wd w 0) 19 16
/-- REVERT. -/
def gRevert (w : List Word) : Bool := bitOf (wd w 0) 20
/-- SNC. -/
def gSnc (w : List Word) : Nat := fld (wd w 0) 22 21
/-- RX. -/
def gRx (w : List Word) : Bool := bitOf (wd w 0) 23
/-- TX. -/
def gTx (w : List Word) : Bool := bitOf (wd w 0) 24
/-- W_RX (false) or P_RX (true). -/
def gLegRx (w : List Word) (p : Bool) : Nat := if p then fld (wd w 1) 29 16 else fld (wd w 1) 13 0
/-- W_TX (false) or P_TX (true). -/
def gLegTx (w : List Word) (p : Bool) : Nat := if p then fld (wd w 2) 29 16 else fld (wd w 2) 13 0
/-- MON_LEVEL. -/
def gMon (w : List Word) : Nat := fld (wd w 5) 2 0
/-- APS_LEVEL. -/
def gAps (w : List Word) : Nat := fld (wd w 5) 6 4
/-- An MSP group. -/
def gMsp (w : List Word) : Bool := decide (4 ≤ gArch w)
/-- A bidirectional group. -/
def gBidir (w : List Word) : Bool := gArch w == 2 || gArch w == 3 || gArch w == 5 || gArch w == 6
/-- A 1:1 group. -/
def gOneToOne (w : List Word) : Bool := gArch w == 3 || gArch w == 6

/-- Whether this twin makes its own decisions (R370): a READY standby of a pair applies its partner's. -/
def ownDecides (s : State) : Bool := !(s.twin.paired && s.twin.role == .standby && s.twin.ready)

/-! ### Triggers (R262) -/

/-- SF of a leg: p false the working leg. -/
def legSf (s : State) (w : List Word) (p : Bool) : Bool :=
  if gMsp w then
    match portAt s (gLegRx w p) with
    | some q => sectionDecl s (gLegRx w p) q 0 0 &&& mask [0, 1, 2, 3] != 0 ||
        rawOf s (monAddr 2 0 (gLegRx w p) 0 1) &&& mask [8] != 0
    | none => true
  else gRx w &&
    (ssf s (chKey false (gLegRx w p)) ||
      (gSnc w != 0 && declaredOf s (monAddr 3 0 (gLegRx w p) 0 (gMon w)) &&& sfMask != 0))

/-- SD of a leg. -/
def legSd (s : State) (w : List Word) (p : Bool) : Bool :=
  if gMsp w then rawOf s (monAddr 2 0 (gLegRx w p) 0 1) &&& mask [17] != 0
  else gRx w && gSnc w != 0 && rawOf s (monAddr 3 0 (gLegRx w p) 0 (gMon w)) &&& mask [17] != 0

/-! ### Requests (R264) -/

/-- A request: its priority in the table of R264, 2 (LO) to 12 (NR), and the signal it asks for, true for protection. -/
structure Request where
  pri : Nat
  prot : Bool
  deriving DecidableEq, Repr

/-- The ODU code of a priority. -/
def oduCode (pri : Nat) : Nat :=
  match pri with
  | 2 => 0xF | 3 => 0xE | 4 => 0xD | 5 => 0xB | 6 => 0x9 | 7 => 0x7 | 8 => 0x5 | 9 => 0x4 | 10 => 0x2 | 11 => 0x1 | _ => 0
/-- The K1 code of a priority. -/
def k1Code (pri : Nat) : Nat :=
  match pri with
  | 2 => 0xF | 3 => 0xD | 4 => 0xE | 5 => 0xD | 6 => 0xB | 7 => 0x8 | 8 => 0x6 | 9 => 0x4 | 10 => 0x2 | 11 => 0x1 | _ => 0
/-- The request that an ODU code spells. -/
def oduReq (code : Nat) (sig : Bool) : Request :=
  match code with
  | 0xF => ⟨2, false⟩ | 0xE => ⟨3, false⟩ | 0xD => ⟨4, true⟩ | 0xB => ⟨5, true⟩ | 0x9 => ⟨6, sig⟩ | 0x7 => ⟨7, sig⟩
  | 0x5 => ⟨8, true⟩ | 0x4 => ⟨9, sig⟩ | 0x2 => ⟨10, sig⟩ | 0x1 => ⟨11, true⟩ | _ => ⟨12, false⟩
/-- The request that K1 bits 1–4 and the channel number spell; SF and SD of either priority are accepted. -/
def k1Req (code chn : Nat) : Request :=
  let sig := chn != 0
  match code with
  | 0xF => ⟨2, false⟩ | 0xE => ⟨4, true⟩ | 0xD => ⟨if sig then 5 else 3, sig⟩ | 0xC => ⟨if sig then 5 else 3, sig⟩
  | 0xB => ⟨6, sig⟩ | 0xA => ⟨6, sig⟩ | 0x8 => ⟨7, sig⟩ | 0x6 => ⟨8, true⟩ | 0x4 => ⟨9, sig⟩ | 0x2 => ⟨10, sig⟩
  | 0x1 => ⟨11, true⟩ | _ => ⟨12, false⟩

/-- The accepted far-end request: the accepted value as PROT_STATUS word 2 holds it. -/
def farReq (w : List Word) (rx : Nat) : Request :=
  if gMsp w then k1Req (rx / 16 % 16) (rx % 16) else oduReq (rx / 16 % 16) (rx / 256 % 256 != 0)
/-- The requested signal of the accepted far-end value. -/
def farRequested (w : List Word) (rx : Nat) : Bool := if gMsp w then rx % 16 != 0 else rx / 256 % 256 != 0
/-- The bridged signal of the accepted far-end value. -/
def farBridged (w : List Word) (rx : Nat) : Bool := if gMsp w then rx / 4096 % 16 != 0 else rx / 65536 % 256 != 0
/-- The far end's B and D bits, or its architecture bit. -/
def farArch (w : List Word) (rx : Nat) : Bool × Bool := if gMsp w then (bitOf (w32 rx) 11, true) else (bitOf (w32 rx) 2, bitOf (w32 rx) 1)
/-- The group's own. -/
def ownArch (w : List Word) : Bool × Bool := if gMsp w then (gOneToOne w, true) else (gOneToOne w, gBidir w)

/-- The highest local request (R264). -/
def localReq (g : Prot) : Request :=
  if g.ext = 1 then ⟨2, false⟩
  else if g.sf.2 then ⟨3, false⟩
  else if g.ext = 2 then ⟨4, true⟩
  else if g.sf.1 then ⟨5, true⟩
  else if g.sd.1 || g.sd.2 then ⟨6, if g.sd.1 && g.sd.2 then g.sel else g.sd.1⟩
  else if g.ext = 3 then ⟨7, true⟩
  else if g.ext = 4 then ⟨7, false⟩
  else if g.wtrUntil.isSome then ⟨8, true⟩
  else if g.ext = 5 then ⟨9, g.sel⟩
  else if g.dnr then ⟨11, true⟩
  else ⟨12, false⟩

/-- The top request and whether it is the far end's (R264, R266): the far end wins a tie only over NR and DNR. DEDUCED (log 13): a far-end RR
answers this group's own request and asks for nothing, so at WTR expiry the selector returns to working (R265). -/
def topReq (g : Prot) : Request × Bool :=
  let l := localReq g
  match g.apsRx with
  | some rx =>
    let r := farReq g.words rx
    if gBidir g.words && !g.fopPm && r.pri != 10 && (r.pri < l.pri || (r.pri = l.pri && (l.pri = 12 || l.pri = 11))) then (r, true) else (l, false)
  | none => (l, false)

/-- The selector that a top request sets (R264). -/
def selOf (g : Prot) (r : Request) : Bool :=
  match r.pri with
  | 2 => false | 3 => false | 4 => true | 5 => true | 8 => true | 9 => g.sel | 11 => true | 12 => false | _ => r.prot

/-- The transmitted APS value (R264): RR answers a far-end request that outranks the group's own; a far-end request that only ties
with the group's NR or DNR is answered by that. -/
def apsOut (g : Prot) (l r : Request) (sel bridge : Bool) : Word :=
  let remote := decide (r.pri < l.pri)
  let far := match g.apsRx with | some rx => farRequested g.words rx | none => false
  let bridged := if gOneToOne g.words then bridge else far
  if gMsp g.words then
    let code := if remote then 2 else k1Code l.pri
    let chn := if remote then b2n sel else if l.pri = 3 then 0 else b2n (l.pri = 5 || sel)
    w32 (code * 16 + chn + 256 * (16 * b2n bridged + 8 * b2n (gOneToOne g.words)))
  else
    let code := if remote then 2 else oduCode l.pri
    w32 (code * 16 + 8 * b2n (gBidir g.words) + 4 * b2n (gOneToOne g.words) + 2 * b2n (gBidir g.words) + b2n (gRevert g.words)
      + 256 * b2n sel + 65536 * b2n bridged)

/-- The bridge (R260, R264): in 1+1 always; in 1:1 the far end's requested signal. -/
def bridgeOf (g : Prot) (sel : Bool) : Bool :=
  if gOneToOne g.words then
    (match g.apsRx with | some rx => if g.fopPm then sel else farRequested g.words rx | none => sel)
  else true

/-- EVT_PROT_SWITCH (R286). -/
def evtProtSwitch (n : Nat) (g : Prot) (s : State) : State :=
  raise 0x0801 clsState 8 n (n + 2048 * b2n g.sel + 4096 * g.top + 65536 * b2n g.topRemote) 0 0 0 s

/-- EVT_PROT_FOP (R286). -/
def evtProtFop (n : Nat) (pm nr rise : Bool) (s : State) : State :=
  raise 0x0802 clsAlarm 8 n (n + 2048 * b2n pm + 4096 * b2n nr + 8192 * b2n rise) 0 0 0 s

/-- Whether the receive legs lie on different slices (R268). -/
def legsApart (s : State) (g : Prot) : Bool :=
  !gMsp g.words && gRx g.words &&
    chanSlice s (chKey false (gLegRx g.words false)) != chanSlice s (chKey false (gLegRx g.words true))

/-- The legs' connections after a selection (R260, R267, R268): FABRIC_RX moves to the selected leg, its SEQ running on, or from the last
SEQ sent plus 32 on another slice; in 1:1 the protection source is connected while the bridge is set. -/
def protConns (g g' : Prot) (s : State) : State :=
  let w := g.words
  if gMsp w then s
  else
    let s := if gRx w && g.sel != g'.sel then
        let old := chKey false (gLegRx w g.sel)
        let q := match tget? s.chan old with | some c => c.txSeq + (if legsApart s g then 31 else 0) | none => 0
        updChan (chKey false (gLegRx w g'.sel))
          (fun c => { restartLeaf c with conns := [{ kind := 1, target := fld (wd w 3) 23 0 }], txSeq := q })
          (updChan old (fun c => { restartLeaf c with conns := [] }) s)
      else s
    if gTx w && gOneToOne w && g.bridge != g'.bridge then
      updChan (chKey true (gLegTx w true))
        (fun c => { restartLeaf c with conns := if g'.bridge then [{ kind := 1, target := fld (wd w 4) 23 0 }] else [] }) s
    else s

/-- WTR in ns of a group. -/
def wtrNs (g : Prot) : Nat := (if g.wtr = 0 then 300 else g.wtr) * 1000000000

/-- The group that its inputs make of g (R264 to R268): the top request, WTR cancelled by what outranks it, the selector and
bridge, the transmitted APS, and on a move the count. -/
def protNext (g : Prot) (s : State) : Prot :=
  let g := if (topReq g).1.pri < 8 then { g with wtrUntil := none } else g
  let t := topReq g
  let sel := selOf g t.1
  let bridge := bridgeOf g sel
  { g with
    top := oduCode t.1.pri, topRemote := t.2, sel := sel, bridge := bridge, dnr := g.dnr && sel,
    apsTx := apsOut g (localReq g) t.1 sel bridge,
    nrSince := match g.apsRx with
      | some rx => if farBridged g.words rx != sel then (if g.nrSince.isSome then g.nrSince else some s.now) else none
      | none => none
    switches := if sel != g.sel then g.switches + 1 else g.switches,
    lastSwitch := if sel != g.sel then devNs s else g.lastSwitch }
/-- No field that a decision frame carries differs (R370). -/
def sameDecision (g g' : Prot) : Bool :=
  g'.topRemote == g.topRemote && g'.top == g.top && g'.sel == g.sel && g'.bridge == g.bridge && g'.apsTx == g.apsTx &&
  g'.wtrUntil == g.wtrUntil
/-- A group after its inputs changed (R264 to R268): what protNext makes of it, on a move the event and the legs' connections, and
the decision frame of what changed (R370). -/
def protSelect (n : Nat) (s : State) : State :=
  match tget? s.prot n with
  | none => s
  | some g =>
    let g' := protNext g s
    let t := { s with prot := tset s.prot n g' }
    let t := protConns g g' (if sameDecision g g' then t else sendDecision t)
    let t := if g'.sel != g.sel then evtProtSwitch n g' t else t
    if g'.nrSince.isNone && g.fopNr then
      evtProtFop n false true false { t with prot := tset t.prot n { g' with fopNr := false } }
    else t

/-- The SF or SD request k of a group: 0 SF-W, 1 SF-P, 2 SD-W, 3 SD-P. -/
def reqBit (k : Nat) (raw : Bool) (g : Prot) : Bool :=
  match k with
  | 0 => if raw then g.sfRaw.1 else g.sf.1
  | 1 => if raw then g.sfRaw.2 else g.sf.2
  | 2 => if raw then g.sdRaw.1 else g.sd.1
  | _ => if raw then g.sdRaw.2 else g.sd.2
/-- A group with one of its request bits set. -/
def setReq (k : Nat) (raw v : Bool) (g : Prot) : Prot :=
  match k with
  | 0 => if raw then { g with sfRaw := (v, g.sfRaw.2) } else { g with sf := (v, g.sf.2) }
  | 1 => if raw then { g with sfRaw := (g.sfRaw.1, v) } else { g with sf := (g.sf.1, v) }
  | 2 => if raw then { g with sdRaw := (v, g.sdRaw.2) } else { g with sd := (v, g.sd.2) }
  | _ => if raw then { g with sdRaw := (g.sdRaw.1, v) } else { g with sd := (g.sd.1, v) }

/-- A local request of the working leg clears while it held the selector on protection (R265). -/
def workingCleared (g : Prot) (k : Nat) (now : Nat) : Prot :=
  if (k = 0 || k = 2) && g.sel && !g.topRemote && (g.top = oduCode 5 || g.top = oduCode 6) then
    if gRevert g.words then { g with wtrUntil := some (now + wtrNs g) } else { g with dnr := true }
  else g

/-- One trigger of a group against its present value (R263): a rising one starts hold-off, a clearing acts at once. -/
def protTrigger (n k : Nat) (v : Bool) (s : State) : State :=
  match tget? s.prot n with
  | none => s
  | some g =>
    if v == reqBit k true g then s
    else if v then
      let g := setReq k true true g
      let g := if g.holdOff = 0 then setReq k false true g
               else { g with hold := tset g.hold k (s.now + g.holdOff * 100000000) }
      { s with prot := tset s.prot n g }
    else
      let was := reqBit k false g
      let g := setReq k false false (setReq k true false { g with hold := tdel g.hold k })
      { s with prot := tset s.prot n (if was then workingCleared g k s.now else g) }

/-- Every group after a change of defects: its triggers, then its selection. -/
def protSettle (s : State) : State :=
  foldS (s.prot.map (fun e => (e.1, e.2.words))) (fun e s =>
    let s := protTrigger e.1 0 (legSf s e.2 false) s
    let s := protTrigger e.1 1 (legSf s e.2 true) s
    let s := protTrigger e.1 2 (legSd s e.2 false) s
    let s := protTrigger e.1 3 (legSd s e.2 true) s
    if ownDecides s then protSelect e.1 s else s) s

/-- The acceptance of an APS value by a group (R264, R266): the architecture bits are compared, and selection runs again. -/
def apsAccept (n rx : Nat) (s : State) : State :=
  match tget? s.prot n with
  | none => s
  | some g =>
    let bad := farArch g.words rx != ownArch g.words
    let cnt := if bad then min 3 (g.fopPmCnt + 1) else 0
    let pm := decide (3 ≤ cnt)
    let g' := { g with apsRx := some rx, fopPmCnt := cnt, fopPm := pm }
    let s := { s with prot := tset s.prot n g' }
    let s := if pm != g.fopPm then evtProtFop n true false pm s else s
    if ownDecides s then protSelect n s else s

/-- The protection groups whose APS channel a port's K bytes, or a level of an ingress ODU's APS bytes, carries. -/
def apsGroups (s : State) (msp : Bool) (obj lvl : Nat) : List Nat :=
  (s.prot.filter (fun e => gMsp e.2.words == msp && gLegRx e.2.words true == obj && (msp || (gRx e.2.words && gAps e.2.words == lvl)))).map (·.1)
/-- The group whose protection protocol the K bytes of a port, or a level of an egress ODU, carry (R124): both legs do (R260). -/
def apsSource (s : State) (msp : Bool) (obj lvl : Nat) : Option Prot :=
  (s.prot.find? (fun e => let w := e.2.words
    gMsp w == msp && (if msp then gLegRx w false == obj || gLegRx w true == obj
      else gTx w && (gLegTx w false == obj || gLegTx w true == obj) && gAps w == lvl))).map (·.2)

/-! ### The multiplex section that an MSP port sends (R261) -/

/-- The group whose protection port p is. -/
def mspSpare (s : State) (p : Nat) : Option Prot :=
  (s.prot.find? (fun e => gMsp e.2.words && gLegRx e.2.words true == p)).map (·.2)
/-- The port whose channels make up the multiplex section that port p sends: a protection port sends its working port's in 1+1 and while
bridged, and none, that is all AU-4s unequipped, otherwise. -/
def sendsFrom (s : State) (p : Nat) : Option Nat :=
  match mspSpare s p with
  | some g => if !(gOneToOne g.words) || g.bridge then some (gLegRx g.words false) else none
  | none => some p

end Sys2Proof.Machine
end

