-- ==== Sys2Proof/Machine/Overhead.lean ====
section
/-! DEFINITION. Overhead (04_overhead_and_parity.md): acceptance of received values, parity, traces, the AU-4 pointer (R171),
remote indications, and the bytes of a transmitted frame. -/

namespace Sys2Proof.Machine

/-- The overhead context at a key. -/
def ohOf (s : State) (key : Nat) : Oh := tget s.oh {} key
/-- s with a context changed by f, where it exists. -/
def updOh (key : Nat) (f : Oh → Oh) (s : State) : State := { s with oh := tupd s.oh key f }

/-! ### Acceptance (R114) -/

/-- The fields whose acceptance is kept, by their number in a level's sixteen. -/
def fBdi : Nat := 0
/-- STAT, or K2 bits 6–8. -/
def fStat : Nat := 1
/-- IAE. -/
def fIae : Nat := 2
/-- S1 bits 5–8. -/
def fS1 : Nat := 3
/-- C2. -/
def fC2 : Nat := 4
/-- K1 and K2 bits 1–5, or the ODU APS bytes of a level. -/
def fAps : Nat := 5

/-- One received value against n consecutive equal ones. -/
def accStep (n v : Nat) (a : Acc) : Acc :=
  let c := if a.cnt != 0 && a.cand == v then a.cnt + 1 else 1
  { val := if n ≤ c then some v else a.val, cand := v, cnt := min c n }

/-- A field of a context after one received value. -/
def accField (key lvl field n v : Nat) (s : State) : State :=
  updOh key (fun o => { o with acc := tmod o.acc {} (16 * lvl + field) (accStep n v) }) s
/-- The accepted value of a field. -/
def accVal (s : State) (key lvl field : Nat) : Option Nat := (tget (ohOf s key).acc {} (16 * lvl + field)).val

/-- Whether the channel at key k is a member of a Braid side of its direction (R188). -/
def braidMember (s : State) (k : Nat) : Bool :=
  s.braid.any (fun e => match (if keyEg k then e.2.tx else e.2.rx) with | some d => d.members.any (fun m => m.ch == keyCh k) | none => false)

/-- The PT of the channel with words w, by its mapping (R160, R190; values PRESUMED from G.709, log 14): of an ODU by what it
serves. None when the mapping gives none. -/
def ptMapping (s : State) (k : Nat) (w : List Word) : Option Nat :=
  if braidMember s k then some 0x8B
  else
    match (servedBy s k).find? (fun j => match tget? s.chan j with | some c => cType c.words != 0x40 | none => false) with
    | some j => match tget? s.chan j with
      | some c =>
        if isOdu (cType c.words) then some (if cType w = 8 then 0x22 else 0x21)
        else match cProc c.words with
          | 1 => some 0x07 | 2 => some 0x02 | 3 => some 0x03 | 4 => some 0x1D | 5 => some 0x05 | _ => none
      | none => none
    | none => if (cVcg w).isSome then some 0x06 else none
/-- The expected PT: PT_EXP where it is not 0, else the mapping's (R160). -/
def ptExpected (s : State) (k : Nat) (w : List Word) : Option Nat := if cPtExp w != 0 then some (cPtExp w) else ptMapping s k w

/-- The C2 of the mapping (R113, R160): 0x1B for GFP-F, else 0x01. DESIGN CHOICE (log 38): a VC-4 that maps no client here, such as a leaf, sends
and expects 0x01 too. -/
def c2Mapping (s : State) (k : Nat) (w : List Word) : Nat :=
  if (servedBy s k).any (fun j => match tget? s.chan j with | some c => isGfp c.words | none => false) then 0x1B
  else if (cVcg w).isSome then 0x1B else 0x01
/-- The expected C2 (R114, R160); any non-zero value matches 0x01. -/
def c2Expected (s : State) (k : Nat) (w : List Word) : Nat := if cPtExp w != 0 then cPtExp w else c2Mapping s k w

/-- Whether a channel checker runs on an ingress channel (R482): PT is then expected to be 0xFE. -/
def checkerOn (s : State) (ch : Nat) : Bool := (tget s.test.prbs {} (prbsKey 5 ch)).chk
/-- Whether a channel generator runs on the egress channel at key k (R481): it fills the OPU in place of the leaf's own source. -/
def generatorOn (s : State) (k : Nat) : Bool := keyEg k && (tget s.test.prbs {} (prbsKey 4 (keyCh k))).gen

/-! ### Multiplex structure (R165; byte layout PRESUMED from G.709, log 14) -/

/-- The PSI positions and expected bytes of a lower-order ODU's slots in its server, by (instance, PSI index). -/
def msiBytes (server w : List Word) : List (Nat × Nat × Nat) :=
  let tpn := cTpn w - 1
  match cType server with
  | 3 => (cMap w).map (fun i => (0, 1 + i, (if cType w = 1 then 0xC0 else if cType w = 2 then 0 else 0x80) + tpn % 64))
  | 5 => (cMap w).map (fun i => (0, 1 + i, 0x80 + tpn % 128))
  | 8 => (cMap w).flatMap (fun i =>
      [((i - 1) / 20, 2 + 2 * ((i - 1) % 20), 0x80 + tpn / 128 % 128), ((i - 1) / 20, 3 + 2 * ((i - 1) % 20), 0x80 + tpn % 128)])
  | _ => []

/-- Whether the accepted structure differs from the configuration for a lower-order ODU: some slot's accepted byte differs. -/
def msiDiffers (s : State) (k' : Nat) (server w : List Word) : Bool :=
  (msiBytes server w).any (fun e =>
    match (tget (ohOf s (ohKey 1 k' e.1)).psi {} e.2.1).val with | some v => v != e.2.2 | none => false)

/-- The lower-order ODUs of a server after its PSI changed. -/
def msiSettle (k' : Nat) (s : State) : State :=
  match tget? s.chan k' with
  | none => s
  | some d =>
    foldS (servedBy s k') (fun j s =>
      match tget? s.chan j with
      | some c => if isOdu (cType c.words) then updChan j (fun c => { c with msiBad := msiDiffers s k' d.words c.words }) s else s
      | none => s) s

/-! ### Trail trace (R115 to R118) -/

/-- A complete trace multiframe of a format: accepted when equal in three consecutive ones. -/
def traceMulti (t : Trace) (fmt : Nat) (bytes : List Byte) : Trace :=
  let c := if t.cnt != 0 && t.cand == bytes && t.candFormat == fmt then t.cnt + 1 else 1
  { t with cand := bytes, candFormat := fmt, cnt := min c 3,
           acc := if 3 ≤ c then some bytes else t.acc, accFormat := if 3 ≤ c then fmt else t.accFormat }

/-- One received OTN trace byte with its position MFAS mod 64. -/
def traceOtn (t : Trace) (pos : Nat) (b : Byte) : Trace :=
  let col := if pos = 0 then [b] else if t.collect.length = pos then t.collect ++ [b] else []
  if col.length = 64 then { traceMulti t 0 col with collect := [] } else { t with collect := col }

/-- Whether a byte has bit 1 set. -/
def msb (b : Byte) : Bool := b.getLsbD 7

/-- One received J0 byte (R115): 16 bytes while every window of 16 holds exactly one byte with bit 1 set, else 1 byte. Formats:
0 one byte, 1 sixteen. DESIGN CHOICE (log 38): the format is judged over 16 frames, so before 16 bytes have been received since frame
was found no format is known, and a 1-byte trace is accepted in the 18th frame at the earliest. -/
def traceJ0 (t : Trace) (b : Byte) : Trace :=
  let win := (t.recent ++ [b]).drop (t.recent.length + 1 - 16)
  let t := { t with recent := win }
  if win.length < 16 then t
  else if (win.filter msb).length = 1 then (if msb (win.getD 0 0) then traceMulti t 1 win else t)
  else traceMulti t 0 [b]

/-- Whether 0x0D 0x0A ends at position i of a byte list and again 64 bytes before. -/
def crlfAt (l : List Byte) (i : Nat) : Bool :=
  l.getD i 0 == 0x0A && l.getD (i - 1) 0 == 0x0D && l.getD (i - 64) 0 == 0x0A && l.getD (i - 65) 0 == 0x0D && decide (65 ≤ i)

/-- One received J1 byte (R115): 64 bytes while 0x0D 0x0A recurs every 64 frames, else 16 bytes. Formats: 1 sixteen, 2
sixty-four. -/
def traceJ1 (t : Trace) (b : Byte) : Trace :=
  let win := (t.recent ++ [b]).drop (t.recent.length + 1 - 130)
  let t := { t with recent := win }
  let n := win.length
  if (List.range 64).any (fun j => decide (j < n) && crlfAt win (n - 1 - j)) then
    (if crlfAt win (n - 1) then traceMulti t 2 (win.drop (n - 64)) else t)
  else
    let w16 := win.drop (n - 16)
    if w16.length = 16 && (w16.filter msb).length = 1 && msb (w16.getD 0 0) then traceMulti t 1 w16 else t

/-- Whether the accepted trace differs from the expected one in the compared bytes (R117). -/
def traceTim (otn : Bool) (t : Trace) : Bool :=
  t.timMode != 0 && (match t.acc with
    | none => false
    | some a =>
      if otn then
        ((t.timMode == 1 || t.timMode == 3) && a.take 16 != (t.exp ++ List.replicate 64 0).take 16) ||
          ((t.timMode == 2 || t.timMode == 3) && (a.drop 16).take 16 != ((t.exp ++ List.replicate 64 0).drop 16).take 16)
      else
        t.accFormat != t.expFormat ||
          (let e := (t.exp ++ List.replicate 64 0).take a.length
           if a.length = 16 then a.drop 1 != e.drop 1 else a != e))

/-- The trace of a level after a byte, with dTIM at the point. -/
def rxTrace (key addr lvl : Nat) (otn : Bool) (f : Trace → Trace) (s : State) : State :=
  let s := updOh key (fun o => { o with trace := tmod o.trace {} lvl f }) s
  setRaw addr 13 (traceTim otn (tget (ohOf s key).trace {} lvl)) s

/-! ### Parity and backward counts (R107 to R111) -/

/-- A parity check of one received byte against the value computed `back` frames before; none while skipped or unknown. -/
def bipCheck (o : Oh) (back : Nat) (recv : Byte) : Option Nat :=
  if o.skip != 0 then none else match o.bip.drop (back - 1) with | c :: _ => some (popByte (recv ^^^ c)) | [] => none

/-- One block at a point: its violations and its received backward count. -/
def countBlock (addr : Nat) (v : Option Nat) (rei : Nat) (s : State) : State :=
  updMon addr (fun m => { m with
    viol := m.viol + BitVec.ofNat 64 (v.getD 0), bei := m.bei + BitVec.ofNat 64 rei,
    sec := { m.sec with nb := m.sec.nb + 1, neEb := m.sec.neEb + b2n (v.getD 0 != 0), feEb := m.sec.feEb + b2n (rei != 0) } }) s

/-- Violations into a backward accumulator, saturating at 65,535 (R110). -/
def backAdd (key lvl : Nat) (v : Option Nat) (s : State) : State :=
  updOh key (fun o => { o with back := tmod o.back 0 lvl (fun a => min 65535 (a + v.getD 0)) }) s

/-- The backward count a source sends: the lesser of the accumulator and the field's maximum, taken from it (R110). -/
def backTake (key lvl cap : Nat) (s : State) : Nat × State :=
  let a := tget (ohOf s key).back 0 lvl
  (min a cap, updOh key (fun o => { o with back := tset o.back lvl (a - min a cap) }) s)

/-- The received byte at an index. -/
def rxb (f : RxFrame) (i : Nat) : Byte := tget f.oh 0 i

/-- What instance 0 of a level carries for all (R106): BDI, STAT or IAE, and the trace. -/
def rxLevelFields (key addr lvl base : Nat) (sm : Bool) (f : RxFrame) (s : State) : State :=
    let b3 := rxb f (base + 2)
    let s := accField key lvl fBdi 5 (b2n (ituBit b3 5)) s
    let s := match accVal s key lvl fBdi with | some x => setRaw addr 15 (x = 1) s | none => s
    let s := if sm then
        let s := accField key lvl fIae 5 (b2n (ituBit b3 6)) s
        match accVal s key lvl fIae with | some x => setRaw addr 18 (x = 1) s | none => s
      else
        let s := accField key lvl fStat 3 (ituBits b3 6 8) s
        match accVal s key lvl fStat with
        | some x => setRaw addr 8 (x = 7) (setRaw addr 9 (x = 5) (setRaw addr 10 (x = 6) (setRaw addr 11 (x = 0 && lvl != 0) s)))
        | none => s
    rxTrace key addr lvl true (fun t => traceOtn t (f.mfas.toNat % 64) (rxb f base)) s

/-- One level of a received OTN frame: where the instance carries them BDI, STAT, IAE and trace, then parity and backward count.
`addr0` is the point of instance 0, which declares dIAE for all (R106, R111), `base` the level's first index, `sm` the OTU section,
`term` a terminated sink, `live` in frame, `oof` the flywheel. -/
def rxOtnLevel (key addr addr0 lvl base inst : Nat) (sm term live oof : Bool) (f : RxFrame) (s : State) : State :=
  let bei := ituBits (rxb f (base + 2)) 1 4
  let v := bipCheck (ohOf s key) 2 (rxb f (base + 1))
  let s := if inst = 0 && live then rxLevelFields key addr lvl base sm f s else s
  let s := countBlock addr v (if bei ≤ 8 then bei else 0) s
  let iae := sm && rawOf s addr0 &&& mask [18] != 0
  if term && !iae && !(oof && !sm && lvl != 0) then backAdd key lvl v s else s

/-- The frame pushed into a context: captured bytes, computed parity, FTFL and DM, and the skip count. -/
def rxCapture (key : Nat) (live : Bool) (f : RxFrame) (s : State) : State :=
  let ns := devNs s
  updOh key (fun o => { o with
    rx := some { mfas := f.mfas, ns := ns, bytes := f.oh }, everInFrame := o.everInFrame || live,
    bip := (xorBytes f.range :: o.bip).take 2, skip := o.skip - 1, dm := rxb f 18,
    ftflRx := if thas f.oh 29 then tset o.ftflRx f.mfas.toNat (rxb f 29) else o.ftflRx }) s

/-! ### Pointers (R171) -/

/-- Bits of a 4-bit NDF that agree with 1001: at least three mean enabled, at most one normal (PRESUMED from G.707, log 14). -/
def ndfAgree (ndf : Nat) : Nat := b2n (ndf / 8 % 2 = 1) + b2n (ndf / 4 % 2 = 0) + b2n (ndf / 2 % 2 = 0) + b2n (ndf % 2 = 1)
/-- The inverted I bits (first true) or D bits between two pointer values. -/
def idBits (a b : Nat) (i : Bool) : Nat :=
  (([0, 1, 2, 3, 4] : List Nat).filter (fun j => (a / 2 ^ (2 * j + b2n i) % 2) != (b / 2 ^ (2 * j + b2n i) % 2))).length

/-- One received pointer word, by the rows of R171 in their order; the second result is +1 for an increment, −1 for a decrement. -/
def ptrStep (p : Pointer) (w : Nat) : Pointer × Int :=
  let v := w % 1024
  let en := 3 ≤ ndfAgree (w / 4096 % 16)
  let nrm := ndfAgree (w / 4096 % 16) ≤ 1
  let ones := w = 65535
  let ok := v ≤ 782
  let age := min 9 (p.sinceAdj + 1)
  let eq := ok && nrm && p.candCnt != 0 && p.cand = v
  let cc := if ok && nrm then (if eq then p.candCnt + 1 else 1) else 0
  let p1 : Pointer := { p with
    cand := v, candCnt := min cc 3, allOnes := if ones then min 3 (p.allOnes + 1) else 0,
    invalid := if ones || ok then 0 else min 8 (p.invalid + 1), ndf := if en then min 8 (p.ndf + 1) else 0, sinceAdj := age }
  let inc := nrm && 3 ≤ idBits v p.cur true && idBits v p.cur false ≤ 2
  let dec := nrm && 3 ≤ idBits v p.cur false && idBits v p.cur true ≤ 2
  match p.st with
  | .norm =>
    if 3 ≤ cc && v != p.cur then ({ p1 with cur := v }, 0)
    else if en && ok then ({ p1 with cur := v }, 0)
    else if inc && 3 < age then ({ p1 with cur := if p.cur = 782 then 0 else p.cur + 1, sinceAdj := 0, invalid := 0 }, 1)
    else if dec && 3 < age then ({ p1 with cur := if p.cur = 0 then 782 else p.cur - 1, sinceAdj := 0, invalid := 0 }, -1)
    else if p1.allOnes = 3 then ({ p1 with st := .ais }, 0)
    else if p1.invalid = 8 || p1.ndf = 8 then ({ p1 with st := .lop }, 0)
    else (p1, 0)
  | .ais =>
    if 3 ≤ cc || (en && ok) then ({ p1 with st := .norm, cur := v }, 0)
    else if p1.invalid = 8 then ({ p1 with st := .lop }, 0)
    else (p1, 0)
  | .lop =>
    if 3 ≤ cc then ({ p1 with st := .norm, cur := v }, 0)
    else if p1.allOnes = 3 then ({ p1 with st := .ais }, 0)
    else (p1, 0)

/-- The concatenation indication of a further AU-4 (PRESUMED from G.707, log 14). -/
def isConc (w : BitVec 16) : Bool := w &&& 0xF3FF == 0x93FF
/-- The concatenation check of an Xc channel (R171). -/
def concStep (p : Pointer) (rest : List (BitVec 16)) : Pointer :=
  if rest.all isConc then
    { p with conc := min 3 (p.conc + 1), noConc := 0, concLop := p.concLop && p.conc + 1 < 3 }
  else { p with conc := 0, noConc := min 8 (p.noConc + 1), concLop := p.concLop || 8 ≤ p.noConc + 1 }

/-- The pointer of a VC-4 channel over one frame, with its counts and dAIS and dLOP. -/
def rxPointer (k : Nat) (f : RxFrame) (s : State) : State :=
  match tget? s.chan k, f.ptr with
  | some c, w :: rest =>
    let r := ptrStep c.ptr w.toNat
    let p := concStep r.1 rest
    let addr := chanPoint k 0x10 0 0
    setRaw addr 8 (p.st == .ais) (setRaw addr 4 (p.st == .lop || p.concLop)
      (updChan k (fun c => { c with
        ptr := p,
        counts := { c.counts with adaptPos := c.counts.adaptPos + b2n (r.2 = 1), adaptNeg := c.counts.adaptNeg + b2n (r.2 = -1) } }) s))
  | _, _ => s

/-! ### Loss of frame (R108, R114) -/

/-- The OTUC instances that carry the channel at key k of an OTUCn port: those of the slots in the ODUCn of the channel or of what it
rides on. -/
def otucInsts (s : State) (fuel k : Nat) : List Nat :=
  match fuel, tget? s.chan k with
  | f + 1, some c =>
    (match serverOf k c.words with
     | .chan k' => if (tget? s.chan k').map (fun d => cType d.words) == some 8 then ((cMap c.words).map (fun i => (i - 1) / 20)).eraseDups
                   else otucInsts s f k'
     | _ => [])
  | _, _ => []
/-- The alignment processes of port q whose frames carry a receive context: on an OTUCn port those of the context's instances, else
process 0. -/
def ohProcs (s : State) (q : Port) (key : Nat) : List Proc :=
  if q.proto != 4 then [procOf q 0]
  else
    let obj := key / 16 % 65536
    let own := key / 1048576 = 0 || (tget? s.chan obj).map (fun d => cType d.words) == some 8
    (if own then [key % 16] else otucInsts s treeDepth obj).map (fun i => procOf q (33 + i))
/-- The port that a receive context belongs to; none for an egress channel's. -/
def ohPort (s : State) (key : Nat) : Option Nat :=
  let obj := key / 16 % 65536
  if key / 1048576 = 0 then some obj else if keyEg obj then none else (rootPort s treeDepth obj).map (mspPort s)
/-- The state of the frame processes that carry a receive context: the worst of them. -/
def ohFrame (s : State) (key : Nat) : HuntState :=
  if key / 1048576 != 0 && keyEg (key / 16 % 65536) then HuntState.inFrame
  else
    match (ohPort s key).bind (portAt s) with
    | some q =>
      let ps := ohProcs s q key
      if ps.isEmpty || ps.any (fun r => r.st == .hunt) then .hunt else if ps.any (fun r => r.st == .oof) then .oof else .inFrame
    | none => .hunt

/-- Counts in progress are discarded when frame is lost (R114). -/
def dropCounts (o : Oh) : Oh :=
  { o with
    acc := o.acc.map (fun (e : Nat × Acc) => (e.1, { e.2 with cnt := 0 }))
    psi := o.psi.map (fun (e : Nat × Acc) => (e.1, { e.2 with cnt := 0 }))
    trace := o.trace.map (fun (e : Nat × Trace) => (e.1, { e.2 with cnt := 0, collect := [], recent := [] })) }

/-- The checks that a context skips after a frame process entered IF anew or realigned (R108): the greatest of the processes that
carry it, a lane's among them where the port's frame is rebuilt from lanes. -/
def ohSkip (s : State) (key : Nat) : Nat :=
  match (ohPort s key).bind (portAt s) with
  | some q =>
    let lanes := if q.proto = 4 then [] else (List.range (laneProcs q)).map (fun i => procOf q (i + 1))
    (ohProcs s q key ++ lanes).foldl (fun n r => max n r.skip) 0
  | none => 0

/-- One receive context after an alignment event. -/
def ohStep (s : State) (key : Nat) (o : Oh) : Oh :=
  let o := if ohFrame s key == .inFrame then o else dropCounts o
  if ohSkip s key = 0 then o else { o with skip := ohSkip s key, bip := [], bip2 := [] }

/-- Every context after an alignment event: counts of frames lost, skips of frames found; the skips are then taken. -/
def ohSettle (s : State) : State :=
  { s with
    oh := s.oh.map (fun (e : Nat × Oh) => (e.1, ohStep s e.1 e.2))
    port := s.port.map (fun (e : Nat × Port) =>
      (e.1, { e.2 with procs := e.2.procs.map (fun (r : Nat × Proc) => (r.1, { r.2 with skip := 0 })) })) }

/-! ### Received frames -/

/-- A received OTU frame or OTUC instance of port p: the SM level (R102, R106). -/
def rxOtu (p inst : Nat) (live oof : Bool) (f : RxFrame) (s : State) : State :=
  let key := ohKey 0 p inst
  rxCapture key live f (rxOtnLevel key (monAddr 2 0 p inst 0) (monAddr 2 0 p 0 0) 0 7 inst true true live oof f s)

/-- The index of a level's first byte in an ODU frame (R104): PM and TCM1 to TCM6. -/
def lvlBase (lvl : Nat) : Nat :=
  match lvl with | 0 => 41 | 1 => 38 | 2 => 35 | 3 => 32 | 4 => 26 | 5 => 23 | _ => 20

/-- A frame's PM BIP-8 check in a copy of a Welt pair, m its MFAS: the two frames that follow a block bring its last checks (R107, R276). -/
def tallyCopy (m : Nat) (v : Option Nat) (c : Copy) : Copy :=
  let anew := m % 64 = 2
  let n := (if anew then 0 else c.viol) + v.getD 0
  let sk := (!anew && c.skip) || v.isNone
  let go := c.counting && !anew
  { c with viol := n, skip := sk, counting := go
           blocks := c.blocks.map (fun b => if go && some b.bsn == c.lastBsn then { b with viol := n, skipped := sk } else b) }
/-- The copies that the ingress channel at key k is, over a received frame. -/
def weltTally (k m : Nat) (v : Option Nat) (s : State) : State :=
  if keyEg k then s
  else
    let f := fun (c : Copy) => if c.ch = keyCh k then tallyCopy m v c else c
    { s with welt := s.welt.map (fun (e : Nat × Welt) => (e.1, { e.2 with c0 := f e.2.c0, c1 := f e.2.c1 })) }

/-- A received ODU frame of the channel at key k: its levels and PSI (R101, R114, R165), and its PM check where it is a Welt copy (R276). -/
def rxOdu (k inst : Nat) (live oof : Bool) (f : RxFrame) (s : State) : State :=
  match tget? s.chan k with
  | none => s
  | some c =>
    let key := ohKey 1 k inst
    let s := if inst = 0 then weltTally k f.mfas.toNat (bipCheck (ohOf s key) 2 (rxb f 42)) s else s
    let s := foldS (List.range 7) (fun lvl s =>
      if cMode c.words lvl = 0 then s
      else rxOtnLevel key (chanPoint k 1 inst lvl) (chanPoint k 1 0 lvl) lvl (lvlBase lvl) inst false (cMode c.words lvl == 2 && !keyEg k) live oof f s) s
    let s := if live && thas f.oh 62 then
        let s := updOh key (fun o => { o with psi := tmod o.psi {} f.mfas.toNat (accStep 3 (rxb f 62).toNat) }) s
        let exp := if !keyEg k && checkerOn s (keyCh k) then some 0xFE else ptExpected s k c.words
        let s := if inst != 0 || f.mfas != 0 then s else
          match (tget (ohOf s key).psi {} 0).val, exp with
          | some v, some e => setRaw (chanPoint k 1 0 0) 14 (v != e) s
          | _, _ => s
        msiSettle k s
      else s
    rxCapture key live f s

/-- The multiplex section of a received STM-N frame of port p with n B2 bytes. -/
def rxMs (p n m : Nat) (v2 : Option Nat) (live : Bool) (f : RxFrame) (s : State) : State :=
  let key := ohKey 0 p 0
  let ms := monAddr 2 0 p 0 1
  let s := countBlock ms v2 (if m ≤ 8 * n then m else 0) s
  let s := backAdd key 8 v2 s
  if !live then s else
    let k2 := rxb f 9
    let s := accField key 8 fStat 3 (ituBits k2 6 8) s
    let s := match accVal s key 8 fStat with
      | some x => setRaw ms 8 (x = 7) (setRaw ms 16 (x = 6) s)
      | none => s
    let s := accField key 8 fS1 8 (ituBits (rxb f 19) 5 8) s
    accField key 8 fAps 3 ((rxb f 8).toNat + 256 * (8 * ituBits k2 1 5)) s

/-- A received STM-N frame of port p: regenerator section and, but in CBR mode, multiplex section (R107, R113, R114, R156). -/
def rxStm (p : Nat) (live : Bool) (f : RxFrame) (s : State) : State :=
  match portAt s p with
  | none => s
  | some q =>
    let key := ohKey 0 p 0
    let rs := monAddr 2 0 p 0 0
    let o := ohOf s key
    let n := if q.proto = 5 then 192 else 768
    let v1 := bipCheck o 1 (rxb f 1)
    let v2 := if o.skip != 0 then none else match o.bip2 with | e :: _ => some (diffBits e f.b2) | [] => none
    let m := if q.proto = 5 then (rxb f 21).toNat else 256 * (rxb f 20).toNat + (rxb f 21).toNat
    let s := countBlock rs v1 0 s
    let s := if cbrPort s false p then s else rxMs p n m v2 live f s
    let s := if live then rxTrace key rs 0 false (fun t => traceJ0 t (rxb f 0)) s else s
    let s := updOh key (fun o => { o with bip2 := [xorCols n f.range2] }) s
    rxCapture key live f s

/-- A received frame of a VC-4 or VC-4-Xc channel (R107, R114, R171): its pointer, and in NORM its path overhead. Without a pointer no
VC-4 is read, so none is known for the next B3. -/
def rxVc (k : Nat) (live : Bool) (f : RxFrame) (s : State) : State :=
  let s := if live then rxPointer k f s else s
  match tget? s.chan k with
  | none => s
  | some c =>
    if c.ptr.st != .norm then updOh (ohKey 2 k 0) (fun o => { o with bip := [] }) s
    else
      let key := ohKey 2 k 0
      let addr := chanPoint k 0x10 0 0
      let g1 := rxb f 3
      let v := bipCheck (ohOf s key) 1 (rxb f 1)
      let s := countBlock addr v (if ituBits g1 1 4 ≤ 8 then ituBits g1 1 4 else 0) s
      let s := backAdd key 0 v s
      let s := if !live then s else
        let s := accField key 0 fC2 5 (rxb f 2).toNat s
        let s := match accVal s key 0 fC2 with
          | some x =>
            let e := c2Expected s k c.words
            setRaw addr 12 (x = 0) (setRaw addr 14 (x != 0 && x != e && e != 1) s)
          | none => s
        let s := accField key 0 fBdi 5 (b2n (ituBit g1 5)) s
        let s := match accVal s key 0 fBdi with | some x => setRaw addr 16 (x = 1) s | none => s
        rxTrace key addr 0 false (fun t => traceJ1 t (rxb f 0)) s
      rxCapture key live f s

/-! ### Replacement (R120 to R122, R159) -/

/-- What an object's output carries instead of its content. -/
def rNone : Nat := 0
/-- ODU-AIS or AU-AIS. -/
def rAis : Nat := 1
/-- Commanded ODU-LCK. -/
def rLck : Nat := 2
/-- ODU-OCI. -/
def rOci : Nat := 3
/-- Commanded ODU-AIS. -/
def rForced : Nat := 4
/-- Local fault ordered sets. -/
def rLf : Nat := 5
/-- GFP client management frames. -/
def rCmf : Nat := 6
/-- Generic AIS. -/
def rGen : Nat := 7
/-- Unequipped, all-zeros. -/
def rUneq : Nat := 8
/-- Nothing: GFP idle frames or 0x00. -/
def rIdle : Nat := 9

/-- The replacement signal of a channel type in failure. -/
def failRepl (w : List Word) : Nat :=
  match cType w with
  | 0x20 => rLf | 0x21 => rLf | 0x22 => rGen | 0x30 => rCmf | 0x40 => rIdle | _ => rAis
/-- The signal of a disabled or unconnected egress leaf (R159). -/
def idleRepl (w : List Word) : Nat :=
  match cType w with
  | 0x10 => rUneq | 0x11 => rUneq | 0x20 => rLf | 0x21 => rLf | 0x22 => rGen | 0x30 => rIdle | 0x40 => rIdle | _ => rOci

/-- Whether a leaf carries a stream: every type but packet and VCAT channels. -/
def isStream (w : List Word) : Bool := cType w != 0x30 && cType w != 0x12

/-- Delivery of an egress leaf fails (R180, R244): its FIFO or queue has underrun, or no fabric lane of its slice is in SYNC. -/
def fabFail (s : State) (k : Nat) (c : Chan) : Bool :=
  keyEg k &&
    ((isStream c.words && !c.conns.isEmpty && !c.fifoRun) ||
      (fabricOf c != 0 &&
        (match chanSlice s k with
         | some sl => !((List.range 8).any (fun i => fabSync s (8 * sl + i)))
         | none => true)))

/-- The context key of a channel. -/
def chanOh (k : Nat) (w : List Word) : Nat := ohKey (if isVc (cType w) then 2 else 1) k 0

/-- Whether a leaf has a source of its own kind (R159): a connection, its VCAT group, the Braid engine, or a generator (R481). -/
def sourced (s : State) (k : Nat) (c : Chan) : Bool := !c.conns.isEmpty || (cVcg c.words).isSome || braidMember s k || generatorOn s k

/-- The replacement on a channel's output at this moment (R120 to R122, R159). -/
def replOf (s : State) (k : Nat) (c : Chan) : Nat :=
  let o := ohOf s (chanOh k c.words)
  if isOdu (cType c.words) && 2 ≤ o.maint then (if o.maint = 2 then rLck else if o.maint = 3 then rOci else rForced)
  else if keyEg k && !isServer s k && (!(isTopOdu k c) || braidMember s k) && (!c.en || !(sourced s k c)) then idleRepl c.words
  else if o.dsDis then rNone
  else if (!keyEg k || cSrvCh c.words) && ssf s k then failRepl c.words
  else if fabFail s k c && !(generatorOn s k) then failRepl c.words
  else rNone

/-- Every channel's replacement after a change; a packet client in failure starts its management frames (R120). -/
def replSettle (s : State) : State :=
  foldS s.chan (fun e s =>
    let r := replOf s e.1 e.2
    updOh (chanOh e.1 e.2.words) (fun o => { o with
      repl := r, cmfAt := if r = rCmf then (if o.cmfAt.isSome then o.cmfAt else some (s.now + 100000000)) else none }) s) s

/-! ### Remote indications (R119) -/

/-- The ingress channels at TERMINATE whose return partner is the channel at key k (R103). -/
def partnersOf (s : State) (k : Nat) : List (Nat × Chan) :=
  s.chan.filter (fun e => keyEg e.1 != keyEg k && cRet e.2.words == some (keyCh k))

/-- The upstream indication of a port's section (R119): BDI of an OTU, MS-RDI of an SDH section. -/
def sectionRemote (s : State) (p : Nat) (q : Port) : Bool :=
  if isSdh q then sectionDecl s p q 0 0 &&& mask [0, 1, 2, 3, 13] != 0 || rawOf s (monAddr 2 0 p 0 1) &&& mask [8] != 0
  else (List.range (sectionInst q)).any (fun i => sectionDecl s p q i 0 &&& mask [0, 1, 2, 3, 5, 13] != 0)

/-- The upstream indication of a channel's sink at a level (R119). -/
def chanRemote (s : State) (k : Nat) (w : List Word) (lvl : Nat) : Bool :=
  let m := if isVc (cType w) then mask [4, 8, 12, 13] else if lvl = 0 then mask [8, 9, 10, 13] else mask [8, 9, 10, 11, 13]
  ssf s k || declaredOf s (chanPoint k (cType w) 0 lvl) &&& m != 0

/-! ### Transmitted frames -/

/-- The CRC-7 byte of a 16-byte SDH trace (R115; polynomial x^7 + x^3 + 1, PRESUMED from G.707, log 14). -/
def crc7Byte (t : List Byte) : Byte :=
  BitVec.ofNat 8 (128 + crcBits 7 0x09 0 ((0x80#8 :: (t.drop 1).take 15).flatMap (fun b => bitsOf 8 b.toNat)))

/-- The length of a transmitted trace: OTN 64; format 0 one byte, 1 sixteen, 2 sixty-four. -/
def traceLen (otn : Bool) (fmt : Nat) : Nat := if otn then 64 else if fmt = 0 then 1 else if fmt = 1 then 16 else 64

/-- The trace of a level at the start of a frame: a new one takes over at its multiframe's start (R116). -/
def traceTurn (otn : Bool) (n : Nat) (t : Trace) : Trace :=
  match t.txNext with
  | some (b, fm) => if n % traceLen otn t.txFormat = 0 then { t with tx := b, txFormat := fm, txNext := none } else t
  | none => t

/-- The byte of the transmitted trace in frame n. -/
def traceByte (otn : Bool) (n : Nat) (t : Trace) : Byte :=
  let l := traceLen otn t.txFormat
  if !otn && l = 16 && n % 16 = 0 then crc7Byte t.tx else t.tx.getD (n % l) 0

/-- The start of a transmitted frame: MFAS counts, and what waits takes effect (R116, R127). -/
def txBegin (otn : Bool) (o : Oh) : Oh :=
  let n := o.txMfas + 1
  { o with
    txMfas := n
    written := o.waiting.foldl (fun t (e : Nat × Byte) => tset t e.1 e.2) o.written
    waiting := []
    maint := o.maintWaiting.getD o.maint
    maintWaiting := none
    dsDis := o.dsWaiting.getD o.dsDis
    dsWaiting := none
    ftfl := if n = 0 then o.ftflWaiting.foldl (fun t (e : Nat × Byte) => tset t e.1 e.2) o.ftfl else o.ftfl
    ftflWaiting := if n = 0 then [] else o.ftflWaiting
    trace := o.trace.map (fun (e : Nat × Trace) => (e.1, traceTurn otn n.toNat e.2)) }

/-- The captured transmitted frame and its parity. -/
def txEnd (key : Nat) (bytes : Table Byte) (f : TxFrame) (s : State) : State :=
  let ns := devNs s
  updOh key (fun o => { o with
    tx := some { mfas := o.txMfas, ns := ns, bytes := bytes }, txBip := (xorBytes f.range :: o.txBip).take 2 }) s

/-- A table from index and byte pairs. -/
def byteTable (l : List (Nat × Byte)) : Table Byte := l.foldl (fun t e => tset t e.1 e.2) []

/-- Monitoring byte 3 (R105). -/
def byte3 (bei bdi rest : Nat) : Byte := BitVec.ofNat 8 (16 * bei + 8 * bdi + rest)

/-- The egress top ODU of an OTN port. -/
def topOdu (s : State) (p : Nat) : Option Nat :=
  (onPort s true p).find? (fun k => match tget? s.chan k with | some c => isOdu (cType c.words) | none => false)
/-- The ODU bytes in a transmitted OTU frame or OTUC instance of port p, from index 14 on: those of the top ODU's frame with this MFAS, and
ODU-OCI where the port has none (R68, R122). -/
def oduPart (s : State) (p inst : Nat) : List (Nat × Byte) :=
  let idx := (List.range 64).filter (fun i => decide (14 ≤ i))
  match topOdu s p with
  | some k => (match (ohOf s (ohKey 1 k inst)).tx with | some x => idx.map (fun i => (i, tget x.bytes 0 i)) | none => [])
  | none => idx.map (fun i => (i, 0x66))

/-- A transmitted OTU frame or OTUC instance of port p (R102 to R106, R110, R111, R119); `own` are the bytes of bound communication
channels. -/
def txOtu (p inst : Nat) (own : Table Byte) (f : TxFrame) (s : State) : State :=
  match portAt s p with
  | none => s
  | some q =>
    let key := ohKey 0 p inst
    let s := updOh key (txBegin true) s
    let o := ohOf s key
    let o0 := ohOf s (ohKey 0 p 0)
    let biae := rawOf s (monAddr 2 0 p inst 0) &&& mask [18] != 0 || rawOf s (monAddr 2 0 p 0 0) &&& mask [18] != 0
    let r := if biae then (0xB, s) else backTake key 0 8 s
    let s := r.2
    let b3 := byte3 r.1 (b2n (sectionRemote s p q)) (if o.iaeFrames != 0 then 4 else 0)
    let w := fun i => (i, (tget? own i).getD (tget o.written 0 i))
    let bytes := byteTable ((List.range 6).map (fun i => (i, fasBytes.getD i 0)) ++
      [(6, o.txMfas), (7, traceByte true o.txMfas.toNat (tget o0.trace {} 0)), (8, o.txBip.getD 1 0), (9, b3), w 10, w 11, w 12, w 13] ++
      oduPart s p inst)
    txEnd key bytes f (updOh key (fun o => { o with iaeFrames := o.iaeFrames - 1 }) s)

/-- The three bytes of a level of a transmitted ODU (R101, R103, R105, R110, R111, R119). DESIGN CHOICE (log 38): a level at TERMINATE
has its source bytes inserted on an ingress channel's own output too; R101 names the source on an egress channel only, and what an
ingress output carries at a terminated level is stated nowhere. -/
def txLevel (k inst lvl : Nat) (w : List Word) (f : TxFrame) (s : State) : List (Nat × Byte) × State :=
  let base := lvlBase lvl
  if cMode w lvl != 2 then ((List.range 3).map (fun i => (base + i, tget f.pass 0 (base + i))), s)
  else
    let o := ohOf s (ohKey 1 k inst)
    let o0 := ohOf s (ohKey 1 k 0)
    let part := (partnersOf s k).find? (fun e => cMode e.2.words lvl == 2)
    let r := match part with
      | some e =>
        if lvl != 0 && ohFrame s (ohKey 1 e.1 inst) == HuntState.oof then (0xB, s) else backTake (ohKey 1 e.1 inst) lvl 8 s
      | none => (0, s)
    let bdi := match part with | some e => b2n (chanRemote s e.1 e.2.words lvl) | none => 0
    ([(base, traceByte true o0.txMfas.toNat (tget o0.trace {} lvl)), (base + 1, o.txBip.getD 1 0), (base + 2, byte3 r.1 bdi 1)], r.2)

/-- The DM byte of a transmitted ODU (R110, R112): each terminated level loops back its partner sink's bit, or sends the written
one. DESIGN CHOICE (log 38): the reserved bit 8 passes, at TERMINATE too; where nothing passes it is 0. -/
def txDm (s : State) (k : Nat) (w : List Word) (o : Oh) (pass : Byte) : Byte :=
  let bit := fun (lvl pos : Nat) =>
    let m : Byte := BitVec.ofNat 8 (2 ^ (8 - pos))
    if cMode w lvl = 2 then
      match (partnersOf s k).find? (fun e => cMode e.2.words lvl == 2) with
      | some e => (ohOf s (ohKey 1 e.1 0)).dm &&& m
      | none => tget o.written 0 18 &&& m
    else pass &&& m
  bit 1 1 ||| bit 2 2 ||| bit 3 3 ||| bit 4 4 ||| bit 5 5 ||| bit 6 6 ||| bit 0 7 ||| (pass &&& 1)

/-- The PSI byte of a transmitted ODU (R104, R165, R481). DESIGN CHOICE (log 38): an ODU whose OPU is made here but has no mapping, an egress top
ODU that serves nothing, sends PT 0x00. -/
def txPsi (s : State) (k inst : Nat) (w : List Word) (n : Nat) : Byte :=
  if n = 0 then
    (if generatorOn s k then 0xFE else BitVec.ofNat 8 ((ptMapping s k w).getD 0))
  else
    match ((servedBy s k).flatMap (fun j => match tget? s.chan j with | some c => msiBytes w c.words | none => [])).find?
        (fun e => e.1 == inst && e.2.1 == n) with
    | some e => BitVec.ofNat 8 e.2.2
    | none => 0

/-- The key of a written APS/PCC byte of a level (R124): OH_WRITE gives no level, so a write gives every level its value (DESIGN
CHOICE, log 38). -/
def apsKey (lvl i : Nat) : Nat := 52 + i + 64 * lvl
/-- The protection group whose protocol a level of a channel's transmitted APS bytes carries: an egress channel's. -/
def apsGroup (s : State) (k lvl : Nat) : Option Prot := if keyEg k then apsSource s false (keyCh k) lvl else none
/-- The four APS/PCC bytes of a transmitted ODU frame (R124): the level's protection group, or the bytes written for the level. -/
def txAps (s : State) (k : Nat) (w : List Word) (o : Oh) (f : TxFrame) (n : Nat) : List (Nat × Byte) :=
  let lvl := n % 8
  (List.range 4).map (fun i => (52 + i, match apsGroup s k lvl with
    | some g => (wordBytes g.apsTx).getD i 0
    | none => if thas o.written (apsKey lvl i) || cMode w 0 = 2 then tget o.written 0 (apsKey lvl i) else tget f.pass 0 (52 + i)))

/-- Whether GCC1 (SUB 2) or GCC2 (SUB 3) passes through an ODU: it is in TRANSPARENT mode and the ODU is not terminated here (R123). -/
def gccPasses (s : State) (k : Nat) (w : List Word) (sub : Nat) : Bool :=
  cMode w 0 != 2 && (servedBy s k).any (fun j => match tget? s.chan j with
    | some c => cType c.words == 0x40 && cSub c.words == sub && bitOf (wd c.words 1) 24 | none => false)
/-- Whether what fills a channel's OPU is made here: a multiplex, a mapped client, a VCAT member's payload, Braid stitches or a pattern
(R481, with justification control 0x00); an egress top ODU always. The OPU of any other ODU passes with its PSI and justification control. -/
def opuHere (s : State) (k : Nat) (c : Chan) : Bool :=
  isServer s k || (cVcg c.words).isSome || braidMember s k || generatorOn s k || (keyEg k && isTopOdu k c)

/-- The bytes of a transmitted ODU frame that a maintenance signal replaces (R120, R122). -/
def maintByte (rp : Nat) : Option Byte :=
  if rp = rAis || rp = rForced then some 0xFF else if rp = rLck then some 0x55 else if rp = rOci then some 0x66 else none

/-- A transmitted ODU frame of the channel at key k (R101 to R105, R120 to R124, R160 to R166); a maintenance signal in its place takes nothing
from the backward counts (R110); `own` are the bytes of bound
communication channels, of justification control and of the VCOH, `exp` the EXP bytes of a Braid member or bridge leg. DESIGN CHOICES
(log 38): a byte of class W, T that the host has written is sent in place of the passing one; TCM ACT is sent as 0x00 where PM is at
TERMINATE, and a TCM level at TERMINATE alone leaves it passing. -/
def txOdu (k inst : Nat) (own : Table Byte) (exp : Option (Byte × Byte)) (f : TxFrame) (s : State) : State :=
  match tget? s.chan k with
  | none => s
  | some c =>
    let key := ohKey 1 k inst
    let s := updOh key (txBegin true) s
    let o := ohOf s key
    let n := o.txMfas.toNat
    let term := cMode c.words 0 == 2
    let mb := maintByte (replOf s k c)
    let lv := if mb.isSome then ([], s) else (List.range 7).foldl (fun (a : List (Nat × Byte) × State) lvl =>
      let r := txLevel k inst lvl c.words f a.2
      (a.1 ++ r.1, r.2)) ([], s)
    let s := lv.2
    let wr := fun i => (i, if thas o.written i || term then tget o.written 0 i else tget f.pass 0 i)
    let gcc := fun (sub i : Nat) => (i, match tget? own i with
      | some b => b
      | none => if !(thas o.written i) && gccPasses s k c.words sub then tget f.pass 0 i else tget o.written 0 i)
    let ex := match exp with | some (a, b) => [(44, a), (45, b)] | none => [wr 44, wr 45]
    let here := opuHere s k c
    let opu := ([14, 15, 30, 31, 46, 47, 63] : List Nat).map (fun i => (i, (tget? own i).getD (if here then 0 else tget f.pass 0 i)))
    let head := (List.range 6).map (fun i => (i, fasBytes.getD i 0)) ++ [(6, o.txMfas)]
    let body := [wr 16, wr 17, (18, txDm s k c.words o (tget f.pass 0 18)), (19, if term then 0 else tget f.pass 0 19),
        (29, if thas o.ftfl n || term then tget o.ftfl 0 n else tget f.pass 0 29)] ++ lv.1 ++ ex ++
      [gcc 2 48, gcc 2 49, gcc 3 50, gcc 3 51] ++ txAps s k c.words o f n ++ (List.range 6).map (fun i => wr (56 + i)) ++
      [(62, if here then txPsi s k inst c.words n else tget f.pass 0 62)] ++ opu
    let bytes := match mb with
      | some b => byteTable (head ++ ((List.range 64).filter (fun i => 14 ≤ i)).map (fun i => (i, b)))
      | none => byteTable (head ++ body)
    txEnd key bytes f s

/-- The K1 and K2 bytes of a transmitted STM-N (R113, R119, R124, R261). -/
def txK (s : State) (p : Nat) (q : Port) (o : Oh) : Byte × Byte :=
  let low := if sectionRemote s p q then 6 else
    match apsSource s true p 0 with | some g => if gBidir g.words then 5 else 4 | none => 0
  match apsSource s true p 0 with
  | some g => (BitVec.ofNat 8 g.apsTx.toNat, BitVec.ofNat 8 (8 * (g.apsTx.toNat / 2048 % 32) + low))
  | none => (tget o.written 0 8, BitVec.ofNat 8 (8 * ((tget o.written 0 9).toNat / 8) + low))

/-- Whether every channel that an SDH port sends has failed fabric delivery and none has DS_INSERT_DIS (R120, R121): MS-AIS is sent. -/
def msAis (s : State) (p : Nat) : Bool :=
  let ks := match sendsFrom s p with | some w => onPort s true w | none => []
  !ks.isEmpty && ks.all (fun k => match tget? s.chan k with
    | some c => fabFail s k c && !(ohOf s (chanOh k c.words)).dsDis | none => false)

/-- What an SDH port sends as its multiplex section and AU-4s (R68, R120, R261): MS-AIS, all AU-4s unequipped where it sends no channel, or
its channels. -/
def stmRepl (s : State) (p : Nat) : Nat :=
  if msAis s p then rAis
  else match sendsFrom s p with | some w => if (onPort s true w).isEmpty then rUneq else rNone | none => rUneq

/-- A transmitted STM-N frame of port p; `own` are the bytes of bound communication channels. MS-AIS is all-ones in the bytes of rows 5
to 9, and takes nothing from the backward count. In CBR mode all passes but B1, B2 and M1 (R156, R162). M1 of an STM-64 is one byte:
DESIGN CHOICE (log 38), its maximum of R110 is 255, so that a frame carries what is taken from the accumulator. -/
def txStm (p : Nat) (own : Table Byte) (f : TxFrame) (s : State) : State :=
  match portAt s p with
  | none => s
  | some q =>
    let key := ohKey 0 p 0
    let s := updOh key (txBegin false) s
    let o := ohOf s key
    let repl := stmRepl s p
    let r := if repl = rAis then (0, s) else backTake key 8 (if q.proto = 5 then 255 else 6144) s
    let s := r.2
    let kk := txK s p q o
    let w := fun i => (i, (tget? own i).getD (tget o.written 0 i))
    let b2 := (o.txBip2.getD 0 []).getD 0 0
    let b1 := o.txBip.getD 0 0
    let m1 := BitVec.ofNat 8 r.1
    let rs := [(0, traceByte false o.txMfas.toNat (tget o.trace {} 0)), (1, b1), w 2, w 3, w 4, w 5, w 6]
    let ms := [(7, b2), (8, kk.1), (9, kk.2)] ++ (List.range 9).map (fun i => w (10 + i)) ++
      [w 19, (20, BitVec.ofNat 8 (r.1 / 256)), (21, m1), w 22]
    let bytes :=
      if cbrPort s true p then byteTable ((List.range 23).map (fun i => (i, tget f.pass 0 i)) ++ [(1, b1), (7, b2), (21, m1)])
      else if repl = rAis then byteTable (rs ++ (List.range 16).map (fun i => (7 + i, 0xFF)))
      else byteTable (rs ++ ms)
    let n := if q.proto = 5 then 192 else 768
    txEnd key bytes f (updOh key (fun o => { o with repl := repl, txBip2 := [xorCols n f.range2] }) s)

/-- A transmitted frame of a VC-4 or VC-4-Xc channel that has begun; `h4` is the multiframe byte. AU-AIS and an unequipped VC-4 take nothing from
the backward count (R110). -/
def txVc (k : Nat) (h4 : Byte) (f : TxFrame) (s : State) : State :=
  match tget? s.chan k with
  | none => s
  | some c =>
    let key := ohKey 2 k 0
    let o := ohOf s key
    let part := (partnersOf s k).head?
    let repl := replOf s k c
    let r := match (if repl = rAis || repl = rUneq then none else part) with | some e => backTake (ohKey 2 e.1 0) 0 8 s | none => (0, s)
    let s := r.2
    let rdi := match part with | some e => b2n (chanRemote s e.1 e.2.words 0) | none => 0
    let w := fun i => (i, tget o.written 0 i)
    let bytes :=
      if repl = rAis then byteTable ((List.range 9).map (fun i => (i, 0xFF)))
      else if repl = rUneq then byteTable ((List.range 9).map (fun i => (i, 0)))
      else byteTable [(0, traceByte false o.txMfas.toNat (tget o.trace {} 0)), (1, o.txBip.getD 0 0),
        (2, BitVec.ofNat 8 (c2Mapping s k c.words)), (3, byte3 r.1 rdi 0), w 4, (5, h4), w 6, w 7, w 8]
    txEnd key bytes f s

end Sys2Proof.Machine
end

