-- ==== Sys2Proof/Machine/Pool.lean ====
section
/-! DEFINITION. The queue pool (08_queue_pool.md) and the deep-path budget (01_architecture.md): cells, descriptors, the writer, the
reader, reclamation, flush, and what a use counts. -/

namespace Sys2Proof.Machine

/-! ### A queue's entry -/

/-- HEAD. -/
def qHead (q : Queue) : Nat := q.chain.headD 0
/-- TAIL. -/
def qTail (q : Queue) : Nat := q.chain.getLastD 0
/-- CELLS. -/
def qCells (q : Queue) : Nat := q.chain.length
/-- RWMARK: the first cell of the uncommitted packet. -/
def qMark (q : Queue) : Nat := q.chain.getD (qCells q - q.openCells) 0

/-- WR_KIND. -/
def qWrKind (q : Queue) : Nat := fld (wd q.cfg 1) 1 0
/-- WR_SLICE. -/
def qWrSlice (q : Queue) : Nat := fld (wd q.cfg 1) 6 2
/-- WR_FABRIC_CH. -/
def qWrFab (q : Queue) : Nat := fld (wd q.cfg 2) 23 0
/-- RD_KIND. -/
def qRdKind (q : Queue) : Nat := fld (wd q.cfg 3) 1 0
/-- RD_SLICE. -/
def qRdSlice (q : Queue) : Nat := fld (wd q.cfg 3) 6 2
/-- RD_CH. -/
def qRdCh (q : Queue) : Nat := fld (wd q.cfg 3) 20 7
/-- RD_FABRIC_CH. -/
def qRdFab (q : Queue) : Nat := fld (wd q.cfg 4) 23 0
/-- ADMIT_RATE, units of 10 Mbit/s. -/
def qAdmit (q : Queue) : Nat := fld (wd q.cfg 5) 14 0
/-- BURST in KiB. -/
def qBurst (q : Queue) : Nat := fld (wd q.cfg 6) 14 0
/-- QUANTUM. -/
def qQuantum (q : Queue) : Nat := fld (wd q.cfg 7) 15 0
/-- HOLD in µs. -/
def qHold (q : Queue) : Nat := fld (wd q.cfg 8) 16 0

/-- The queue-table entry as a number of 512 bits (R229). -/
def entryBits (q : Queue) : Nat :=
  qHead q + qTail q * 2 ^ 29 + qMark q * 2 ^ 58 + b2n q.open_ * 2 ^ 87 + q.epoch.toNat * 2 ^ 88 + b2n q.discard * 2 ^ 95 +
    q.kind % 4 * 2 ^ 96 + q.owner % 4 * 2 ^ 98 + qCells q * 2 ^ 128 + q.limit * 2 ^ 160 + q.items * 2 ^ 192 + q.lost.toNat * 2 ^ 224 +
    q.poolDrop.toNat * 2 ^ 256 + q.flushDiscard.toNat * 2 ^ 288 + q.oversizeDrop.toNat * 2 ^ 320 + q.badDrop.toNat * 2 ^ 352 +
    q.rateDrop.toNat * 2 ^ 384 + q.flushed.toNat * 2 ^ 416 + q.eccDrop.toNat * 2 ^ 448
/-- The 64 bytes of a queue's entry, lowest byte first (DESIGN CHOICE, log 5); a free queue's are 0. -/
def entryBytes (s : State) (n : Nat) : List Byte :=
  match tget? s.pool.q n with | some q => natLe 64 (entryBits q) | none => List.replicate 64 0

/-- Queue n's entry. -/
def queueAt (s : State) (n : Nat) : Option Queue := tget? s.pool.q n
/-- s with queue n's entry changed by f, where it exists. -/
def updQ (n : Nat) (f : Queue → Queue) (s : State) : State := { s with pool.q := tupd s.pool.q n f }
/-- A packet queue. -/
def qPkt (q : Queue) : Bool := q.kind == 1
/-- Whether queue n holds cells that are full and committed: what its reader may take. -/
def qReadable (q : Queue) : Nat :=
  qCells q - (if qPkt q then q.openCells else if q.partialBytes.isEmpty then 0 else 1)

/-! ### Counts -/

/-- The counts of R229 that set CHANGED. -/
inductive QCount where
  | lost | poolDrop | flushDiscard | oversize | bad | rate | ecc
  deriving DecidableEq, Repr

/-- A count increased by one, with CHANGED; POOL_DROP also in the total. -/
def bumpQ (n : Nat) (c : QCount) (s : State) : State :=
  let s := updQ n (fun q =>
    match c with
    | .lost => { q with lost := q.lost + 1, changed := true }
    | .poolDrop => { q with poolDrop := q.poolDrop + 1, changed := true }
    | .flushDiscard => { q with flushDiscard := q.flushDiscard + 1, changed := true }
    | .oversize => { q with oversizeDrop := q.oversizeDrop + 1, changed := true }
    | .bad => { q with badDrop := q.badDrop + 1, changed := true }
    | .rate => { q with rateDrop := q.rateDrop + 1, changed := true }
    | .ecc => { q with eccDrop := q.eccDrop + 1, changed := true }) s
  if c = .poolDrop then { s with pool.poolDropTotal := s.pool.poolDropTotal + 1 } else s

/-! ### Cells and descriptors (R225 to R228) -/

/-- Cells of one pseudo-channel (R42). -/
def cellsPerPc : Nat := 7864320
/-- The logical address of a cell's descriptor. -/
def descAddr (c : Nat) : Nat := 0x1E00000000 + 8 * c
/-- The free cells of pseudo-channel p. -/
def freePc (s : State) (p : Nat) : Nat := cellsPerPc - tget s.pool.taken 0 p + (tget s.pool.freed [] p).length

/-- The bits [63:16] of a descriptor as a number of 48 bits. -/
def descHi (next valid : Nat) (sop eop bad stream : Bool) (epoch : Nat) : Nat :=
  next * 524288 + valid % 256 * 2048 + 1024 * b2n sop + 512 * b2n eop + 256 * b2n bad + 128 * b2n stream + epoch
/-- The descriptor of cell c, lowest byte first in memory (DESIGN CHOICE, log 5). -/
def descBytes (c hi : Nat) : List Byte := natLe 8 (hi * 65536 + descCrc c hi)
/-- The stored descriptor of cell c. -/
def descOf (s : State) (c : Nat) : Nat := leNat (memRead s.pool.mem (descAddr c) 8)
/-- NEXT. -/
def dNext (d : Nat) : Nat := d / 34359738368 % 536870912
/-- VALID as a byte count. -/
def dValid (d : Nat) : Nat := if d / 134217728 % 256 = 0 then 256 else d / 134217728 % 256
/-- EOP. -/
def dEop (d : Nat) : Bool := d / 33554432 % 2 == 1
/-- BAD. -/
def dBad (d : Nat) : Bool := d / 16777216 % 2 == 1
/-- EPOCH. -/
def dEpoch (d : Nat) : Nat := d / 65536 % 128

/-- The checks of R228 on the descriptor of cell c; `follow` also checks NEXT. -/
def descOk (s : State) (q : Queue) (c : Nat) (follow : Bool) : Bool :=
  let d := descOf s c
  d % 65536 == descCrc c (d / 65536) && dEpoch d == q.epoch.toNat &&
    (!follow || (decide (dNext d < 503316480) && !(pcRetired s (dNext d % 64))))

/-- A descriptor rewritten with f over its bits [63:16]. -/
def modDesc (c : Nat) (f : Nat → Nat) (s : State) : State :=
  { s with pool.mem := memWrite s.pool.mem (descAddr c) (descBytes c (f (descOf s c / 65536))) }
/-- NEXT of cell c set. -/
def linkDesc (c next : Nat) (s : State) : State := modDesc c (fun h => next * 524288 + h % 524288) s

/-- Cells returned to the free pool: those in S join their free lists (list order is a DESIGN CHOICE, log 5). -/
def freeCells (cs : List Nat) (s : State) : State :=
  let S := allocSet s
  { s with pool.freed := cs.foldl (fun t c => if S.contains (c % 64) then tmod t [] (c % 64) (fun l => c :: l) else t) s.pool.freed }

/-- A free cell of pseudo-channel p taken: a returned one first, else the next never used. -/
def takeCell (p : Nat) (s : State) : Option (Nat × State) :=
  match tget s.pool.freed [] p with
  | c :: r => some (c, { s with pool.freed := tset s.pool.freed p r })
  | [] =>
    let k := tget s.pool.taken 0 p
    if k < cellsPerPc then some (p + 64 * k, { s with pool.taken := tset s.pool.taken p (k + 1) }) else none

/-- The member of S that follows pseudo-channel p, cyclically. -/
def nextPc (S : List Nat) (p : Nat) : Option Nat :=
  match S.find? (fun x => decide (p < x)) with
  | some x => some x
  | none => S.head?

/-- The pseudo-channel from which a queue takes its next cell (R230). -/
def allocPc (s : State) (q : Queue) : Option Nat :=
  let S := allocSet s
  if q.chain.isEmpty then maxBy (fun p => (freePc s p : Int)) S else nextPc S (qTail q % 64)

/-- The first of some cells that lies in a pseudo-channel of a running retirement. -/
def retireHit (s : State) (cs : List Nat) : Option Retiring :=
  s.pool.retiring.find? (fun r => cs.any (fun c => c % 64 == r.pc))

/-! ### Frames to the fabric (R175, R177) -/

/-- A PACKET frame's payload: its bytes, zeros, and LEN in bytes 502 and 503 where it is the last. -/
def pktPayload (bs : List Byte) (eop : Bool) : List Byte :=
  if eop then bs ++ List.replicate (502 - bs.length) 0 ++ natBe 2 bs.length
  else bs ++ List.replicate (504 - bs.length) 0

/-- FLAGS of a PACKET frame. -/
def pktFlags (sop eop abort short : Bool) : Byte := BitVec.ofNat 8 (128 * b2n sop + 64 * b2n eop + 32 * b2n abort + 16 * b2n short)

/-- The frames that the held bytes of a packet complete: payload, and its flags without ABORT. `eop` the packet has ended.
The rest stays held (R177). -/
def cutPacket (fuel : Nat) (bs : List Byte) (sop eop : Bool) : List (List Byte × Bool × Bool × Bool) × List Byte × Bool :=
  match fuel with
  | 0 => ([], bs, sop)
  | f + 1 =>
    if 504 < bs.length then
      let r := cutPacket f (bs.drop 504) false eop
      ((bs.take 504, sop, false, false) :: r.1, r.2)
    else if !eop then ([], bs, sop)
    else if 502 < bs.length then
      ([(pktPayload (bs.take 502) false, sop, false, true), (pktPayload (bs.drop 502) true, false, true, false)], [], true)
    else ([(pktPayload bs true, sop, true, false)], [], true)

/-- A complete frame joins the frames that wait for a slot of slice sl, under a fabric channel. -/
def pushFrame (sl : Nat) (key : Nat) (f : HagilFrame) (s : State) : State :=
  { s with sliceTx := tmod s.sliceTx {} sl (fun t => { t with frames := t.frames ++ [(key, f)] }) }

/-- The key under which a queue's frames wait. -/
def queueTxKey (n : Nat) : Nat := 65536 + n

/-- Frames of queue n's fabric reader, with SEQ (R177, R223). -/
def queueFrames (n : Nat) (q : Queue) (typ : Byte) (fs : List (Byte × List Byte)) (s : State) : State :=
  foldS fs (fun f s =>
    match queueAt s n with
    | some q' => updQ n (fun q => { q with txSeq := q.txSeq + 1 })
        (pushFrame (qRdSlice q) (queueTxKey n)
          { type := typ, flags := f.1, channel := BitVec.ofNat 24 (qRdFab q), seq := q'.txSeq, payload := f.2 } s)
    | none => s) s

/-- Bytes into the fabric reader of queue n; for a packet `eop` and `abort` mark its end. -/
def queueToFabric (n : Nat) (bs : List Byte) (eop abort : Bool) (s : State) : State :=
  match queueAt s n with
  | none => s
  | some q =>
    let all := q.txBytes ++ bs
    if qPkt q then
      if abort then
        if q.txSop then updQ n (fun q => { q with txBytes := [], txSop := true }) s
        else
          let s := updQ n (fun q => { q with txBytes := [], txSop := true }) s
          queueFrames n q 2 [(pktFlags false true true false, pktPayload [] true)] s
      else
        let r := cutPacket 40 all q.txSop eop
        let s := updQ n (fun q => { q with txBytes := r.2.1, txSop := r.2.2 }) s
        queueFrames n q 2 (r.1.map (fun f => (pktFlags f.2.1 f.2.2.1 false f.2.2.2, f.1))) s
    else if 504 ≤ all.length then
      queueFrames n q 1 [(0, all.take 504)] (updQ n (fun q => { q with txBytes := all.drop 504 }) s)
    else updQ n (fun q => { q with txBytes := all }) s

/-! ### Flush (R239 to R242, R257) -/

/-- The egress leaf of a queue's reader. -/
def readerKey (q : Queue) : Nat := chKey true (qRdCh q)

/-- Whether a packet is open with a cell of its own: one whose first cell is being taken is not yet (R234). -/
def qOpen (q : Queue) : Bool := q.open_ && q.openCells != 0

/-- A queue flushed whole at one edge (R240): its cells return, CELLS and ITEMS are 0, EPOCH advances, the writer in a packet
discards to its end, and a reader in a packet abandons it (R241). A Braid or Welt queue is noted for its owner. -/
def flushQ (n : Nat) (s : State) : State :=
  match queueAt s n with
  | none => s
  | some q =>
    let cut := q.reading && qPkt q
    let s := if cut && qRdKind q = 2 then queueToFabric n [] true true s else s
    let s := if cut && qRdKind q = 1 then updChan (readerKey q) (fun c => { c with pktCur := 0 }) s else s
    let s := freeCells q.chain s
    let s := if qOpen q then bumpQ n .flushDiscard s else s
    let s := updQ n (fun x => { x with
      chain := [], items := 0, openCells := 0, partialBytes := [], pktBytes := 0, open_ := x.open_ && !(qOpen x), readOff := 0,
      discard := x.discard || qOpen x, epoch := x.epoch + 1, reading := false, dropping := false, holdMet := false,
      deficit := 0, flushAt := none, lossWhy := none,
      flushed := x.flushed + w32 (if qPkt q then q.items else qCells q) }) s
    let s := { s with pool.active := s.pool.active.map (fun (e : Nat × List Nat) => (e.1, e.2.filter (· != n))) }
    if q.owner = 0 then s else { s with pool.lostQ := s.pool.lostQ ++ [n] }

/-- EVT_QUEUE_LOSS. -/
def evtQueueLoss (n owner reason pc cells items : Nat) (s : State) : State :=
  raise 0x0701 clsLoss 5 n (n + 1048576 * owner) (reason + 256 * pc) cells items s

/-- A flush takes effect, with the loss event that is owed for it. -/
def takeFlush (n : Nat) (s : State) : State :=
  match queueAt s n with
  | none => s
  | some q =>
    let s := flushQ n s
    match q.lossWhy with
    | some w => if w.1 = 0 then s else evtQueueLoss n q.owner w.1 w.2 (qCells q) (if qPkt q then q.items else qCells q) s
    | none => s

/-- A flush that is pending takes effect at the writer's next cell boundary (R239). -/
def flushPending (n : Nat) (s : State) : State :=
  match queueAt s n with
  | some q => if q.flushAt.isSome && q.partialBytes.isEmpty then takeFlush n s else s
  | none => s

/-- A flush for a REASON and pseudo-channel: at once where the writer holds no partly filled cell, else pending (R239, R242). -/
def flushFor (n : Nat) (why : Nat × Nat) (s : State) : State :=
  match queueAt s n with
  | none => s
  | some q =>
    if q.lossWhy.isSome then s
    else
      let s := updQ n (fun q => { q with lossWhy := some why, flushAt := some (min (s.now + 1000) (q.flushAt.getD (s.now + 1000))) }) s
      flushPending n s

/-- A flush because a retirement that runs is touched (R249). -/
def flushRetired (n : Nat) (r : Retiring) (s : State) : State := flushFor n (b2n r.permanent, r.pc) s

/-- A descriptor error at cell c (R228): it counts, its source reports (R381), and the queue is flushed. -/
def flushDesc (n c : Nat) (s : State) : State :=
  match queueAt s n with
  | none => s
  | some q =>
    if q.lossWhy.isSome then s
    else flushFor n (2, 0) { s with pool.descErr := s.pool.descErr + 1, pool.seen := s.pool.seen ++ [(c % 64, true)] }

/-! ### Reclamation and allocation (R230, R236, R238) -/

/-- The cells of the oldest packet of a chain, up to and with its EOP cell, and the cell whose descriptor fails its check, if one does:
NEXT is followed wherever the list goes on. -/
def packetCells (s : State) (q : Queue) (cs : List Nat) : List Nat × Option Nat :=
  match cs with
  | [] => ([], none)
  | c :: r =>
    if !(descOk s q c (!r.isEmpty)) then ([c], some c)
    else if dEop (descOf s c) then ([c], none)
    else
      let x := packetCells s q r
      (c :: x.1, x.2)

/-- What a reclamation did. -/
inductive Reclaim where
  | freed | nothing | flushed
  deriving DecidableEq, Repr

/-- A stream's oldest cell reclaimed (R236). -/
def reclaimCell (n : Nat) (q : Queue) (s : State) : Reclaim × State :=
  match q.chain with
  | [] => (.nothing, s)
  | c :: r =>
    if r.isEmpty && !q.partialBytes.isEmpty then (.nothing, s)
    else
      match retireHit s [c] with
      | some x => (.flushed, flushRetired n x s)
      | none =>
        if !(descOk s q c (!r.isEmpty)) then (.flushed, flushDesc n c s)
        else (.freed, bumpQ n .lost (freeCells [c] (updQ n (fun q => { q with chain := r, readOff := 0 }) s)))

/-- The oldest committed packet that the reader has not begun reclaimed, `k` the cells left of one it has (R236). -/
def reclaimPacket (n : Nat) (q : Queue) (k : List Nat × Option Nat) (s : State) : Reclaim × State :=
  let p := packetCells s q (q.chain.drop k.1.length)
  match retireHit s (k.1 ++ p.1) with
  | some x => (.flushed, flushRetired n x s)
  | none =>
    match k.2.or p.2 with
    | some c => (.flushed, flushDesc n c s)
    | none =>
      let rest := q.chain.drop (k.1.length + p.1.length)
      let s := match k.1.getLast?, rest.head? with
        | some a, some b => linkDesc a b s
        | _, _ => s
      let s := updQ n (fun q => { q with chain := k.1 ++ rest, items := q.items - 1 }) (freeCells p.1 s)
      let s := if q.items - 1 = 0 then
          { s with pool.active := s.pool.active.map (fun (e : Nat × List Nat) => (e.1, e.2.filter (· != n))) } else s
      (.freed, bumpQ n .lost s)

/-- The oldest content of queue n reclaimed (R236): a stream's oldest cell, or the oldest committed packet that the reader has not
begun. A descriptor that fails its check, or a cell in a pseudo-channel being retired, flushes the queue instead (R228, R249). -/
def reclaimQ (n : Nat) (s : State) : Reclaim × State :=
  match queueAt s n with
  | none => (.nothing, s)
  | some q =>
    if !(qPkt q) then reclaimCell n q s
    else if q.items ≤ b2n q.reading then (.nothing, s)
    else reclaimPacket n q (if q.reading then packetCells s q q.chain else ([], none)) s

/-- What an allocation answers. -/
inductive Alloc where
  | cell (c : Nat)
  | limit
  | pool
  | flushed
  deriving DecidableEq, Repr

/-- A cell for queue n (R230, R236, R238): the limit first, then the pool; each reclaims the oldest content until it fits. The cell
is linked behind TAIL. -/
def allocQ (fuel n : Nat) (s : State) : Alloc × State :=
  match fuel with
  | 0 => (.pool, s)
  | f + 1 =>
    match queueAt s n with
    | none => (.pool, s)
    | some q =>
      let retry := fun (s' : State) => if qOpen q then (Alloc.flushed, s') else allocQ f n s'
      let again := fun (onNone : Alloc) =>
        match reclaimQ n s with
        | (.freed, s') => allocQ f n s'
        | (.flushed, s') => retry s'
        | (.nothing, s') => (onNone, s')
      match retireHit s (q.chain.drop (qCells q - 1)) with
      | some r => retry (flushRetired n r s)
      | none =>
        if q.limit < qCells q + 1 then again .limit
        else
          match allocPc s q with
          | none => (.pool, s)
          | some p =>
            if !q.chain.isEmpty && !(descOk s q (qTail q) false) then retry (flushDesc n (qTail q) s)
            else
              match takeCell p s with
              | none => again .pool
              | some (c, s') =>
                let s' := if q.chain.isEmpty then s' else linkDesc (qTail q) c s'
                (.cell c, updQ n (fun q => { q with chain := q.chain ++ [c], openCells := if qPkt q then q.openCells + 1 else 0 }) s')

/-- A cell written to HBM with its descriptor (R226, R232). -/
def writeCell (q : Queue) (c : Nat) (bs : List Byte) (sop eop : Bool) (s : State) : State :=
  let hi := descHi 0 (if qPkt q then bs.length else 0) sop eop false (!(qPkt q)) q.epoch.toNat
  { s with pool.mem := memWrite (memWrite s.pool.mem (256 * c) (bs ++ List.replicate (256 - bs.length) 0)) (descAddr c) (descBytes c hi) }

/-! ### The writer (R232 to R235) -/

/-- Dropped stream bytes, counted once per cell's worth. -/
def dropStream (n k : Nat) (s : State) : State :=
  match queueAt s n with
  | none => s
  | some q =>
    if 256 ≤ q.droppedBytes + k then bumpQ n .poolDrop (updQ n (fun q => { q with droppedBytes := q.droppedBytes + k - 256 }) s)
    else updQ n (fun q => { q with droppedBytes := q.droppedBytes + k }) s

/-- The writer goes on with a partly filled cell: in a pseudo-channel being retired, that touches it (R249). -/
def touchTail (n : Nat) (s : State) : State :=
  match queueAt s n with
  | some q => if q.partialBytes.isEmpty then s else (match retireHit s [qTail q] with | some r => flushRetired n r s | none => s)
  | none => s

/-- Bytes of a stream into queue n's cells; a pending flush takes effect where a cell is completed. -/
def streamPut (fuel n : Nat) (bs : List Byte) (s : State) : State :=
  match fuel with
  | 0 => s
  | f + 1 =>
    if bs.isEmpty then s
    else
      match queueAt s n with
      | none => s
      | some q =>
        let k := min (256 - q.partialBytes.length) bs.length
        let full := q.partialBytes ++ bs.take k
        let put := fun (s : State) =>
          match queueAt s n with
          | none => s
          | some q =>
            if full.length = 256 then
              flushPending n (updQ n (fun q => { q with partialBytes := [] }) (writeCell q (qTail q) full false false s))
            else updQ n (fun q => { q with partialBytes := full }) s
        if !q.partialBytes.isEmpty then streamPut f n (bs.drop k) (put (touchTail n s))
        else
          match allocQ (qCells q + 2) n s with
          | (.cell _, s') => streamPut f n (bs.drop k) (put s')
          | (_, s') => streamPut f n (bs.drop k) (dropStream n k s')

/-- The open packet rewound (R234): its cells are freed and TAIL is the last committed cell. A descriptor error, or a cell in a
pseudo-channel being retired, flushes the queue instead. -/
def rewindQ (n : Nat) (s : State) : State :=
  match queueAt s n with
  | none => s
  | some q =>
    let keep := qCells q - q.openCells
    let cs := q.chain.drop keep
    let written := cs.take (cs.length - 1)
    let gone := updQ n (fun q => { q with partialBytes := [] }) s
    match retireHit s cs, written.find? (fun c => !(descOk s q c true)) with
    | some r, _ => flushRetired n r gone
    | none, some c => flushDesc n c gone
    | none, none =>
      updQ n (fun q => { q with chain := q.chain.take keep, openCells := 0, open_ := false, partialBytes := [], pktBytes := 0 })
        (freeCells cs s)

/-- A rewind with its count; a descriptor error in it flushes the queue instead (R258). -/
def rewindCount (n : Nat) (c : QCount) (s : State) : State :=
  let e := (queueAt s n).map (·.epoch)
  let s' := rewindQ n s
  if (queueAt s' n).map (·.epoch) = e then bumpQ n c s' else s'

/-- The open packet's bytes into cells; the result says whether an allocation failed, and how. -/
def packetPut (fuel n : Nat) (bs : List Byte) (last : Bool) (s : State) : Option Alloc × State :=
  match fuel with
  | 0 => (none, s)
  | f + 1 =>
    match queueAt s n with
    | none => (none, s)
    | some q =>
      let k := min (256 - q.partialBytes.length) bs.length
      let full := q.partialBytes ++ bs.take k
      let rest := bs.drop k
      let put := fun (s : State) =>
        match queueAt s n with
        | none => s
        | some q =>
          if full.length = 256 || (rest.isEmpty && last) then
            updQ n (fun q => { q with partialBytes := [] })
              (writeCell q (qTail q) full (q.openCells == 1) (rest.isEmpty && last) s)
          else updQ n (fun q => { q with partialBytes := full }) s
      if bs.isEmpty then
        if !last || q.openCells = 0 then (none, s)
        else if !q.partialBytes.isEmpty then
          (none, updQ n (fun q => { q with partialBytes := [] }) (writeCell q (qTail q) q.partialBytes (q.openCells == 1) true s))
        else (none, if dEop (descOf s (qTail q)) then s else modDesc (qTail q) (fun h => h + 512) s)
      else if !q.partialBytes.isEmpty then packetPut f n rest last (put (touchTail n s))
      else
        match allocQ (qCells q + 2) n s with
        | (.cell _, s') => packetPut f n rest last (put s')
        | (a, s') => (some a, s')

/-- The writer discards to the packet's end, or is normal again where this word is the last. -/
def discardQ (n : Nat) (last : Bool) (s : State) : State := updQ n (fun q => { q with discard := !last }) s

/-- The scheduler set of a queue: its reader's channel, for a packet queue read by an egress leaf. -/
def setOf (q : Queue) : Option Nat := if qPkt q && qRdKind q = 1 && q.owner = 0 then some (qRdCh q) else none

/-- The packet commits (R233): it is visible, and a queue that was empty joins its scheduler set's round (R247). -/
def commitQ (n : Nat) (s : State) : State :=
  match queueAt s n with
  | none => s
  | some q =>
    if q.openCells = 0 then updQ n (fun q => { q with open_ := false, pktBytes := 0 }) s
    else
    let s := updQ n (fun q => { q with open_ := false, openCells := 0, pktBytes := 0, items := q.items + 1,
                                       deficit := if q.items = 0 then (qQuantum q : Int) else q.deficit }) s
    match setOf q with
    | some k => if q.items = 0 then { s with pool.active := tmod s.pool.active [] k (fun l => l ++ [n]) } else s
    | none => s

/-- The budget in kbit/s (R40): r pseudo-channels outside S. -/
def budgetOf (r : Nat) : Nat :=
  min 5120000000 ((((1179650 * (64 - r) - 448000) * 1000 / 136000) / 1000) * 10000000)

/-! ### Load, storage and slice writes (R24, R37 to R39, R212, R224) -/

/-- The rate of a queue's stream, kbit/s: its writing channel's, or ADMIT_RATE when the fabric writes it. -/
def streamRate (s : State) (q : Queue) : Nat :=
  if qWrKind q = 2 then qAdmit q * 10000
  else match q.writer with | some c => chanRate s (chKey false c) | none => 0

/-- The counted rate of a host queue; a stopped stream writer counts nothing (R37). -/
def queueRate (s : State) (q : Queue) : Nat :=
  if q.owner != 0 then 0 else if qPkt q then qAdmit q * 10000 else if q.stopped then 0 else streamRate s q
/-- The rate of a Braid client, kbit/s: an Ethernet client's N counts 5G slots as that of its ODUflex(IMP) does (DEDUCED, log 6). -/
def clientRate (c : Client) : Nat := if c.type = 0x20 then c.n * 5156250 else typeRate c.type c.n

/-- The rate of a Welt pair's channel. -/
def weltRate (s : State) (w : Welt) : Nat := chanRate s (chKey false w.c0.ch)
/-- The rates of the members of a side. -/
def sideRate (s : State) (tx : Bool) (d : Option Side) : Nat :=
  match d with
  | some x => (x.members.map (fun m => chanRate s (chKey tx m.ch))).foldl (· + ·) 0
  | none => 0

/-- The load of Braid groups, Welt pairs but those DISABLED under R41, and host stream queues. -/
def fixedLoad (s : State) : Nat :=
  (s.braid.map (fun e => sideRate s false e.2.rx + sideRate s true e.2.tx)).foldl (· + ·) 0 +
  (s.welt.map (fun e => if e.2.st == .disabled && e.2.byBudget then 0 else 2 * weltRate s e.2)).foldl (· + ·) 0 +
  (s.pool.q.map (fun e => if qPkt e.2 then 0 else queueRate s e.2)).foldl (· + ·) 0
/-- The configured rates of all packet queues. -/
def packetLoad (s : State) : Nat := (s.pool.q.map (fun e => if qPkt e.2 then queueRate s e.2 else 0)).foldl (· + ·) 0
/-- The deep-path load in kbit/s (R37). -/
def deepLoad (s : State) : Nat := fixedLoad s + packetLoad s
/-- The budget as it stands, kbit/s. -/
def budget (s : State) : Nat := budgetOf (outsideS s)

/-- The cells of 2,048 bits that a rate in kbit/s fills in a time in µs, rounded up (R39, R245; the rounding of R39 is DEDUCED, log 5). -/
def cellsFor (rate us : Nat) : Nat := (rate * us + 2047999) / 2048000
/-- The fill at which a stream queue with a hold starts reading (R245). -/
def holdCells (s : State) (q : Queue) : Nat := cellsFor (streamRate s q) (qHold q)

/-- The cells that the members of a side reserve. -/
def sideCells (s : State) (tx : Bool) (maxDd : Nat) (d : Option Side) : Nat :=
  match d with
  | some x => (x.members.map (fun m => cellsFor (chanRate s (chKey tx m.ch)) (maxDd * 100))).foldl (· + ·) 0
  | none => 0
/-- The cells reserved by every existing use (R39). -/
def reserved (s : State) : Nat :=
  (s.welt.map (fun e => 2 * cellsFor (weltRate s e.2) (e.2.window * 100))).foldl (· + ·) 0 +
  (s.braid.map (fun e => sideCells s false e.2.maxDd e.2.rx + sideCells s true e.2.maxDd e.2.tx)).foldl (· + ·) 0 +
  (s.pool.q.map (fun e => if e.2.owner = 0 then e.2.limit else 0)).foldl (· + ·) 0
/-- The allocatable cells (R231). -/
def allocatable (s : State) : Nat := (allocSet s).length * cellsPerPc
/-- Whether the reservations fit the reservable cells (R231, R39). -/
def storageOk (s : State) : Bool := decide (reserved s + 16777216 ≤ allocatable s)

/-- What slice sl writes into the deep path, kbit/s (R24, R212, R224); a writer stopped under R41 stays connected, and counts. -/
def sliceWrites (s : State) (sl : Nat) : Nat :=
  (s.pool.q.map (fun e => if e.2.owner = 0 && qWrSlice e.2 = sl then (if qPkt e.2 then qAdmit e.2 * 10000 else streamRate s e.2) else 0)).foldl
    (· + ·) 0 +
  (s.welt.map (fun e =>
    (if chanSlice s (chKey false e.2.c0.ch) == some sl then weltRate s e.2 else 0) +
    (if chanSlice s (chKey false e.2.c1.ch) == some sl then weltRate s e.2 else 0))).foldl (· + ·) 0 +
  (s.braid.map (fun e =>
    (match e.2.rx with
     | some d => (d.members.map (fun m => if chanSlice s (chKey false m.ch) == some sl then chanRate s (chKey false m.ch) else 0)).foldl (· + ·) 0
     | none => 0) +
    (match e.2.tx with
     | some d => (d.clients.map (fun c => if c.slice = sl then clientRate c else 0)).foldl (· + ·) 0
     | none => 0))).foldl (· + ·) 0
/-- Every slice's deep-path writes within 256 Gbit/s. -/
def writesOk (s : State) : Bool := (List.range 32).all (fun sl => decide (sliceWrites s sl ≤ 256000000))

/-- The write contexts that slice sl uses (R224): host queues, Braid and Welt queues that it writes. -/
def writeContexts (s : State) (sl : Nat) : Nat :=
  (s.pool.q.filter (fun e => e.2.owner = 0 && qWrSlice e.2 = sl)).length +
  (s.welt.map (fun e =>
    b2n (chanSlice s (chKey false e.2.c0.ch) == some sl) + b2n (chanSlice s (chKey false e.2.c1.ch) == some sl))).foldl (· + ·) 0 +
  (s.braid.map (fun e =>
    (match e.2.rx with | some d => (d.members.filter (fun m => chanSlice s (chKey false m.ch) == some sl)).length | none => 0) +
    (match e.2.tx with | some d => (d.clients.filter (fun c => c.slice = sl)).length | none => 0))).foldl (· + ·) 0
/-- Every slice within 4,096 write contexts. -/
def contextsOk (s : State) : Bool := (List.range 32).all (fun sl => decide (writeContexts s sl ≤ 4096))

/-- The fabric load of a slice's direction with every use (R178, R189, R224): leaves, queues, Braid clients and Welt outputs. -/
def fabricTotal (s : State) (sl : Nat) (eg : Bool) : Nat :=
  fabricLoad s sl eg +
  (s.pool.q.map (fun e =>
    if e.2.owner != 0 then 0
    else if eg then (if qWrKind e.2 = 2 && qWrSlice e.2 = sl then qAdmit e.2 * 10000 else 0)
    else if qRdKind e.2 = 2 && qRdSlice e.2 = sl then (if qPkt e.2 then qAdmit e.2 * 10000 else streamRate s e.2) else 0)).foldl (· + ·) 0 +
  (s.braid.map (fun e =>
    match (if eg then e.2.tx else e.2.rx) with
    | some d => (d.clients.map (fun c => if c.slice = sl then clientRate c else 0)).foldl (· + ·) 0
    | none => 0)).foldl (· + ·) 0 +
  (if eg then 0 else
    (s.welt.map (fun e =>
      if chanSlice s (chKey false e.2.c0.ch) == some sl || chanSlice s (chKey false e.2.c1.ch) == some sl then weltRate s e.2 else 0)).foldl
        (· + ·) 0)
/-- Every slice's direction within the limit of R178. -/
def fabricOk (s : State) : Bool :=
  (List.range 32).all (fun sl => decide (fabricTotal s sl false ≤ fabricLimit) && decide (fabricTotal s sl true ≤ fabricLimit))

/-- Whether a command's result fits the budget, storage, slice writes, contexts and fabric (R24, R37, R39, R178): each limit is
refused only where the command raises what it counts. -/
def fits (s s' : State) : Bool :=
  (decide (deepLoad s' ≤ budget s') || decide (deepLoad s' ≤ deepLoad s)) &&
  (storageOk s' || decide (reserved s' ≤ reserved s)) && writesOk s' && contextsOk s' && fabricOk s'

/-! ### The admission meter (R235, R41) -/

/-- The fraction at which packet queues are admitted (R41): numerator and denominator. -/
def admitFrac (s : State) : Nat × Nat :=
  let p := packetLoad s
  let room := budget s - fixedLoad s
  if p ≤ room then (1, 1) else (room, p)

/-- Queue n's meter filled up to now, at its admitted rate, up to BURST. -/
def fillMeter (n : Nat) (s : State) : State :=
  let fr := s.pool.admitRate
  updQ n (fun q => { q with
    meterAt := s.now,
    meter := min (qBurst q * 1024000000 : Nat) (q.meter + ((s.now - q.meterAt) * qAdmit q * 1250 * fr.1 / fr.2 : Nat)) }) s

/-- The admitted rates recomputed where the budget or the load has changed: up to now the meters filled at the rates of before (R41). -/
def meterSettle (s : State) : State :=
  let fr := admitFrac s
  if fr = s.pool.admitRate then s
  else
    let s := foldS (s.pool.q.map (·.1)) fillMeter s
    { s with pool.admitRate := fr }

/-- A word of the open packet: in NORMAL the first row of R234 that holds. Its bytes leave the meter once they are written (R235). -/
def packetWord (n : Nat) (bs : List Byte) (last bad : Bool) (s : State) : State :=
  match queueAt s n with
  | none => s
  | some q =>
    if last && bad && q.openCells != 0 then rewindCount n .bad s
    else if 16384 < q.pktBytes + bs.length then discardQ n last (rewindCount n .oversize s)
    else
      match packetPut (bs.length + 2) n bs last s with
      | (some .flushed, s) => discardQ n last s
      | (some .limit, s) => discardQ n last (rewindCount n .oversize s)
      | (some _, s) => discardQ n last (rewindCount n .poolDrop s)
      | (none, s) =>
        let s := updQ n (fun q => { q with pktBytes := q.pktBytes + bs.length, meter := q.meter - (1000000 * bs.length : Nat) }) (fillMeter n s)
        if !last then s else if bad then rewindCount n .bad s else commitQ n s

/-- The first word of a packet in NORMAL (R234). -/
def firstWord (n : Nat) (bs : List Byte) (last bad : Bool) (s : State) : State :=
  let s := fillMeter n s
  match queueAt s n with
  | none => s
  | some q =>
    if q.meter < 0 then discardQ n last (bumpQ n .rate s)
    else
      let s := updQ n (fun q => { q with discard := false, open_ := true, openCells := 0, pktBytes := 0, partialBytes := [] }) s
      packetWord n bs last bad s

/-- One writer word into queue n (R232 to R236, R238). -/
def writeWord (n : Nat) (bs : List Byte) (first last bad : Bool) (s : State) : State :=
  match queueAt s n with
  | none => s
  | some q =>
    if !(qPkt q) then
      if q.stopped then dropStream n bs.length s else flushPending n (streamPut (bs.length + 2) n bs s)
    else
      let s :=
        if first then
          let s := if q.open_ then rewindCount n .bad s else s
          firstWord n bs last bad s
        else if q.discard then (if last then updQ n (fun q => { q with discard := false }) s else s)
        else if !q.open_ then s
        else packetWord n bs last bad s
      flushPending n s

/-- Bytes from the fabric into queue n as words of 32 (R232): what does not fill one waits, and only a packet's last word is shorter. -/
def fabricWords (fuel n : Nat) (bs : List Byte) (last bad : Bool) (s : State) : State :=
  match fuel with
  | 0 => s
  | f + 1 =>
    match queueAt s n with
    | none => s
    | some q =>
      if 32 < bs.length || (!(qPkt q) && bs.length = 32) then
        fabricWords f n (bs.drop 32) last bad (updQ n (fun q => { q with wordFirst := false }) (writeWord n (bs.take 32) q.wordFirst false false s))
      else if last then writeWord n bs q.wordFirst true bad (updQ n (fun q => { q with wordBytes := [], wordFirst := false }) s)
      else updQ n (fun q => { q with wordBytes := bs }) s

/-- The open packet of queue n rewound because its writer went away (R234). -/
def writerGone (n : Nat) (s : State) : State :=
  match queueAt s n with
  | some q =>
    let s := updQ n (fun q => { q with wordBytes := [], wordFirst := false }) s
    if q.open_ then rewindCount n .bad s else s
  | none => s

/-! ### The reader (R243 to R247) -/

/-- The deficit round robin of R247: the queue to serve. Each turn of a queue at the head adds its quantum once. -/
def drrPick (fuel k : Nat) (s : State) : Option Nat × State :=
  match fuel with
  | 0 => (none, s)
  | f + 1 =>
    match tget s.pool.active [] k with
    | [] => (none, s)
    | n :: r =>
      match queueAt s n with
      | none => (none, { s with pool.active := tset s.pool.active k r })
      | some q =>
        if 0 < q.deficit then (some n, s)
        else drrPick f k (updQ n (fun q => { q with deficit := q.deficit + qQuantum q }) { s with pool.active := tset s.pool.active k (r ++ [n]) })

/-- The head cell of queue n taken and freed. -/
def popCell (n : Nat) (s : State) : State :=
  match queueAt s n with
  | some q => freeCells (q.chain.take 1) (updQ n (fun q => { q with chain := q.chain.drop 1, readOff := 0 }) s)
  | none => s

/-- An uncorrectable error at cell c goes to the fault collector (R246, R381). -/
def ueSeen (c : Nat) (s : State) : State := { s with pool.seen := s.pool.seen ++ [(c % 64, false)] }

/-- One cell of the oldest packet of queue n read (R243, R246): its bytes go to the leaf's packet buffer or to the fabric; an
uncorrectable cell drops the whole packet. -/
def readPacketCell (n : Nat) (ue : Bool) (s : State) : State :=
  match queueAt s n with
  | none => s
  | some q =>
    match q.chain with
    | [] => s
    | c :: _ =>
      let d := descOf s c
      match retireHit s [c] with
      | some r => flushRetired n r s
      | none =>
      if !(descOk s q c (decide (1 < qCells q))) then flushDesc n c s
      else
        let s := if ue then ueSeen c s else s
        let bs := memRead s.pool.mem (256 * c) (dValid d)
        let bad := ue || dBad d
        let drop := q.dropping || bad
        let eop := dEop d
        let s := popCell n s
        let s := if bad && !q.dropping then bumpQ n .ecc s else s
        let s :=
          if qRdKind q = 2 then
            if bad && !q.dropping then queueToFabric n [] true true s
            else if drop then s else queueToFabric n bs eop false s
          else
            updChan (readerKey q) (fun x =>
              if drop then { x with pktCur := 0 }
              else if eop then { x with pktBuf := x.pktBuf + x.pktCur + bs.length, pktCur := 0 }
              else { x with pktCur := x.pktCur + bs.length }) s
        let s := updQ n (fun q => { q with
          reading := !eop, dropping := drop && !eop, items := if eop then q.items - 1 else q.items,
          deficit := q.deficit - (bs.length : Int) }) s
        if eop && q.items = 1 then
          let s := updQ n (fun q => { q with deficit := 0 }) s
          { s with pool.active := s.pool.active.map (fun (e : Nat × List Nat) => (e.1, e.2.filter (· != n))) }
        else s

/-- Fill at which a stream reader starts (R244, R245). -/
def startFill (s : State) (q : Queue) : Nat := if qHold q != 0 then holdCells s q else if q.underrun then 2 else 1

/-- Bytes that a stream reader delivers to its egress leaf; a communication channel's are what it sends. -/
def leafTakes (k : Nat) (bs : List Byte) (s : State) : State :=
  updChan k (fun x => { x with fifoRun := true, delivered := x.delivered + bs.length,
                               out := if cType x.words = 0x40 then x.out ++ bs else x.out }) s

/-- One cell of stream queue n read for its egress leaf or the fabric (R243 to R246): a leaf that was running and finds the queue empty
fails. -/
def readStreamCell (n : Nat) (ue : Bool) (s : State) : State :=
  match queueAt s n with
  | none => s
  | some q =>
    let leaf := qRdKind q = 1
    if qReadable q = 0 then
      let ran := leaf && (match tget? s.chan (readerKey q) with | some c => c.fifoRun | none => false)
      let s := updQ n (fun q => { q with holdMet := false, underrun := ran || q.underrun }) s
      if leaf then updChan (readerKey q) (fun c => { c with fifoRun := false }) s else s
    else if !(q.holdMet || decide (startFill s q ≤ qReadable q)) then s
    else
      match q.chain with
      | [] => s
      | c :: r =>
        match retireHit s [c] with
        | some x => flushRetired n x s
        | none =>
          if !(descOk s q c (!r.isEmpty)) then flushDesc n c s
          else
            let s := if ue then ueSeen c s else s
            let bad := ue || dBad (descOf s c)
            let bs := if bad then List.replicate 256 0xFF else memRead s.pool.mem (256 * c) 256
            let s := popCell n s
            let s := if bad then bumpQ n .ecc s else s
            let s := updQ n (fun q => { q with holdMet := true, underrun := false }) s
            if leaf then leafTakes (readerKey q) bs s else queueToFabric n bs false false s

/-- The queue that a scheduler set reads next: the one in the middle of a packet, else the choice of R247, or while the engine domain
is off, the lowest-numbered backlogged queue (R472). -/
def schedPick (k : Nat) (s : State) : Option Nat × State :=
  match s.pool.q.find? (fun e => setOf e.2 == some k && e.2.reading) with
  | some e => (some e.1, s)
  | none =>
    if domUp s 34 then drrPick (300 * ((tget s.pool.active [] k).length + 1)) k s
    else ((s.pool.q.find? (fun e => setOf e.2 == some k && e.2.items != 0)).map (·.1), s)

/-- Whether a queue's reader can take from it now: no flush for a loss is pending, its slice is up, and an egress leaf is connected and
enabled. -/
def readerReady (s : State) (q : Queue) : Bool :=
  q.lossWhy.isNone && sliceUp s (qRdSlice q) && (qRdKind q != 1 || (q.rdConn &&
    (match tget? s.chan (readerKey q) with | some c => c.en && (qPkt q → decide (c.pktBuf + 16384 ≤ 65536) = true) | none => false)))

/-! ### Queues of Braid groups and Welt pairs (R221, R212) -/

/-- The highest free queue number. -/
def freeQueue (s : State) : Nat :=
  ((List.range (s.pool.q.length + 1)).find? (fun i => !(thas s.pool.q (1048575 - i)))).elim 0 (fun i => 1048575 - i)

/-- The bytes of a stored stream cell as a reader delivers them (R246). -/
def cellBytes (s : State) (c : Nat) : List Byte :=
  if dBad (descOf s c) then List.replicate 256 0xFF else memRead s.pool.mem (256 * c) 256

/-- The cells of a list that prove uncorrectable as an engine reads them (R246): each reports, and stays marked BAD for what is left to read
of it. -/
def engineErrors (cs ue : List Nat) (s : State) : State :=
  foldS (cs.filter (fun c => ue.contains c && !(dBad (descOf s c)))) (fun c s =>
    modDesc c (fun h => if h / 256 % 2 = 1 then h else h + 256) (ueSeen c s)) s
/-- An engine takes n bytes from the front of queue k, out of cells written full (R233): its cells are checked as they are read (R228, R249), one
with BAD or among the uncorrectable ones `ue` is delivered as 0xFF (R246), and cells are freed as they are used up. None where the queue is
flushed instead. -/
def engineRead (k n : Nat) (ue : List Nat) (s : State) : Option (List Byte) × State :=
  match queueAt s k with
  | none => (none, s)
  | some q =>
    let off := q.readOff + n
    let cs := q.chain.take (min (qReadable q) ((off + 255) / 256))
    if q.lossWhy.isSome then (none, s)
    else
      match retireHit s cs with
      | some r => (none, flushRetired k r s)
      | none =>
        match cs.find? (fun c => !(descOk s q c (q.chain.getLast? != some c))) with
        | some c => (none, flushDesc k c s)
        | none =>
          let s := engineErrors cs ue s
          let bs := ((cs.flatMap (cellBytes s)).drop q.readOff).take n
          let done := q.chain.take (min (off / 256) (qReadable q))
          let s := foldS (done.filter (fun c => dBad (descOf s c))) (fun _ => bumpQ k .ecc) s
          (some bs, freeCells done (updQ k (fun q => { q with
            chain := q.chain.drop done.length, readOff := if done.length < off / 256 then 0 else off % 256 }) s))

/-- A queue deleted: its cells return and its entry is free. -/
def dropQueue (n : Nat) (s : State) : State :=
  match queueAt s n with
  | some q =>
    let s := freeCells q.chain s
    { s with pool.q := tdel s.pool.q n,
             pool.active := s.pool.active.map (fun (e : Nat × List Nat) => (e.1, e.2.filter (· != n))) }
  | none => s

end Sys2Proof.Machine
end

