-- ==== Sys2Proof/Machine/Mapping.lean ====
section
/-! DEFINITION. The data path of channels (06_mapping_and_multiplexing.md): Hagil frames to and from leaves, queues and Braid clients,
connections, hairpins and GFP-F frames. -/

namespace Sys2Proof.Machine

/-! ### To the fabric (R175 to R177) -/

/-- Frames of the leaf at key k with SEQ. -/
def leafFrames (k : Nat) (typ : Byte) (fs : List (Byte × List Byte)) (s : State) : State :=
  foldS fs (fun f s =>
    match tget? s.chan k, chanSlice s k with
    | some c, some sl =>
      updChan k (fun c => { c with txSeq := c.txSeq + 1 })
        (pushFrame sl k { type := typ, flags := f.1, channel := BitVec.ofNat 24 (fabricOf c), seq := c.txSeq, payload := f.2 } s)
    | _, _ => s) s

/-- A stream leaf takes one frame into its FIFO of 8 (R180); a full FIFO is recentred at 4 frames (DESIGN CHOICE, log 7). -/
def fifoPush (bs : List Byte) (c : Chan) : Chan :=
  let c := if c.fifo.length < 8 then { c with fifo := c.fifo ++ [bs] }
           else { c with fifo := c.fifo.drop 5 ++ [bs], counts := { c.counts with fifoSlip := c.counts.fifoSlip + 1 } }
  { c with fifoRun := c.fifoRun || decide (2 ≤ c.fifo.length) }

/-- A packet leaf takes packet bytes: whole good packets join its 64 KiB buffer, one that overflows it is discarded whole (R180); a packet
that any of its frames marks bad (R175) is not output (DESIGN CHOICE, log 7). -/
def pktAdd (bs : List Byte) (sop eop bad : Bool) (c : Chan) : Chan :=
  let cur := if sop then 0 else c.pktCur
  let dropping := !sop && c.pktDropping
  let n := cur + bs.length
  let ovr := !dropping && decide (65536 < c.pktBuf + n)
  let c := if ovr then { c with counts := { c.counts with pktDrop := c.counts.pktDrop + 1 } } else c
  if eop then
    { c with pktCur := 0, pktDropping := false, pktBuf := if dropping || ovr || bad then c.pktBuf else c.pktBuf + n }
  else if dropping || ovr || bad then { c with pktCur := 0, pktDropping := true }
  else { c with pktCur := n, pktDropping := false }

/-- Bytes of an ingress leaf into the egress leaf of its hairpin (R173): a packet leaf's buffer, or a stream leaf's FIFO in units of 504
bytes. `sop` begins a packet. -/
def hairpinPush (bs : List Byte) (sop eop bad : Bool) (c : Chan) : Chan :=
  if !c.en then c
  else if isPkt (cType c.words) then
    (if c.rx.discard && !sop then c else pktAdd bs sop eop bad { c with rx := { c.rx with discard := false } })
  else
    let all := c.txBytes ++ bs
    let n := all.length / 504
    (List.range n).foldl (fun c i => fifoPush ((all.drop (504 * i)).take 504) c) { c with txBytes := all.drop (504 * n) }

/-- Bytes of the ingress leaf at key k, by the connections in effect: into frames for the fabric, into the egress leaf of a hairpin while
that leaf still holds the ingress leaf as its source (R174), and to the Varric cross-feed stage. Only an enabled leaf sends. A packet leaf's PKTCUR and dropping mark a packet in progress. -/
def leafSend (k : Nat) (bs : List Byte) (eop bad : Bool) (s : State) : State :=
  match tget? s.chan k with
  | none => s
  | some c =>
    let pkt := isPkt (cType c.words)
    let sop := !c.pktDropping
    let s := if pkt then updChan k (fun c => { c with pktDropping := !eop }) s else s
    if !c.en then s
    else
      let s := foldS (leafPlaces s k c) (fun y s =>
        match y.kind with
        | 2 => updChan (chKey true y.target) (fun d =>
            if d.conns.contains { kind := 2, target := keyCh k } then hairpinPush bs sop eop bad d else d) s
        | 4 => sendXfeed y.target bs s
        | _ => s) s
      if fabricOf c = 0 then s
      else
        let all := c.txBytes ++ bs
        if pkt then
          let r := cutPacket (all.length + 2) all c.txSop eop
          let s := updChan k (fun c => { c with txBytes := r.2.1, txSop := r.2.2 }) s
          leafFrames k 2 (r.1.map (fun f => (pktFlags f.2.1 f.2.2.1 (f.2.2.1 && bad) f.2.2.2, f.1))) s
        else
          let n := all.length / 504
          let s := updChan k (fun c => { c with txBytes := all.drop (504 * n) }) s
          leafFrames k 1 ((List.range n).map (fun i => (0, (all.drop (504 * i)).take 504))) s

/-- Bytes that the datapath delivers to the ingress leaf at key k; for a packet channel `eop` ends the packet and `bad` marks it. A change
that waits takes effect at the next Hagil frame boundary of a stream, or when the packet in progress ends (R174). -/
def chanToFabric (k : Nat) (bs : List Byte) (eop bad : Bool) (s : State) : State :=
  match tget? s.chan k with
  | none => s
  | some c =>
    if c.next.isNone then leafSend k bs eop bad s
    else if atEdge k c then leafSend k bs eop bad (updChan k (applyNext k) s)
    else if isPkt (cType c.words) then
      let s := leafSend k bs eop bad s
      if eop then updChan k (applyNext k) s else s
    else
      let n := 504 - c.txBytes.length
      if bs.length < n then leafSend k bs eop bad s
      else leafSend k (bs.drop n) eop bad (updChan k (applyNext k) (leafSend k (bs.take n) eop bad s))

/-- The next lane of a slice's rotation, from i on, that has no generator (R177, R479). -/
def slotLane (s : State) (sl i : Nat) : Option Nat :=
  ((List.range 8).map (fun j => (i + j) % 8)).find? (fun j => !(laneGen s (256 + 8 * sl + j)))

/-- While a lane is out of the rotation, at most the newest 16 frames of each channel wait (R479). -/
def capFrames (fs : List (Nat × HagilFrame)) : List (Nat × HagilFrame) :=
  match fs with
  | [] => []
  | f :: r => if 16 ≤ (r.filter (fun e => e.1 == f.1)).length then capFrames r else f :: capFrames r

/-- An idle frame. -/
def idleFrame : HagilFrame := { type := 0, payload := List.replicate 504 0 }

/-- The frames that wait on slice sl: all of them, or those that are held while a lane generator runs (R479). -/
def slotFrames (s : State) (sl : Nat) : List (Nat × HagilFrame) :=
  let fs := (tget s.sliceTx {} sl).frames
  if (List.range 8).any (fun i => laneGen s (256 + 8 * sl + i)) then capFrames fs else fs
/-- The lane whose slot is next on slice sl, and the frame that fills it: the oldest that waits, else IDLE. A lane in OFF sends nothing (R63). -/
def slotNext (s : State) (sl : Nat) : Option (Nat × HagilFrame) :=
  ((slotLane s sl (tget s.sliceTx {} sl).next).filter (fun j => (laneOf s (256 + 8 * sl + j)).st != .off)).map
    (fun j => (j, match slotFrames s sl with | e :: _ => e.2 | [] => idleFrame))
/-- One frame slot of slice sl (R177). A lane in far-end loopback keeps its slot, and the frame in it is discarded (R484). -/
def slotTx (sl : Nat) (s : State) : State :=
  match slotNext s sl with
  | none => s
  | some (j, f) =>
    let fs := slotFrames s sl
    let x := tget s.fabTx {} (8 * sl + j)
    let p := scramble x.scr f.payload
    let s := { s with
      sliceTx := tset s.sliceTx sl { next := (j + 1) % 8, frames := fs.drop 1 },
      fabTx := if laneLooped s (256 + 8 * sl + j) then s.fabTx
               else tset s.fabTx (8 * sl + j) { scr := p.2, last := some { f with payload := p.1 } } }
    match fs with
    | e :: _ => updChan e.1 (fun c => { c with counts := { c.counts with framesTx := c.counts.framesTx + 1 } }) s
    | [] => s

/-! ### From the fabric (R175, R179, R180) -/

/-- Flags of a PACKET frame: SOP, EOP, ABORT, SHORT. -/
def fSop (f : HagilFrame) : Bool := f.flags.getLsbD 7
/-- EOP. -/
def fEop (f : HagilFrame) : Bool := f.flags.getLsbD 6
/-- ABORT. -/
def fAbort (f : HagilFrame) : Bool := f.flags.getLsbD 5
/-- SHORT. -/
def fShort (f : HagilFrame) : Bool := f.flags.getLsbD 4
/-- LEN of an EOP frame. -/
def fLen (f : HagilFrame) : Nat := beNat ((f.payload.drop 502).take 2)
/-- Whether a frame marks its packet bad: ABORT, LEN above 502, or SHORT with EOP. -/
def fBad (f : HagilFrame) : Bool := fAbort f || (fEop f && (decide (502 < fLen f) || fShort f))
/-- The packet bytes of a frame. -/
def fBytes (f : HagilFrame) : List Byte :=
  if fEop f then (if decide (502 < fLen f) || fShort f then [] else f.payload.take (fLen f))
  else if fShort f then f.payload.take 502 else f.payload

/-- A packet leaf takes one frame. -/
def pktPush (f : HagilFrame) (c : Chan) : Chan := pktAdd (fBytes f) (fSop f) (fEop f) (fBad f) c

/-- What a receiver is given in order: a frame, or a skipped one. -/
inductive SeqItem where
  | frame (f : HagilFrame)
  | gap
  | jump
  deriving DecidableEq, Repr

/-- The counts of R179 that a frame raises. -/
structure SeqCounts where
  rx : Nat := 0
  gap : Nat := 0
  late : Nat := 0
  out : Nat := 0
  resync : Nat := 0
  deriving DecidableEq, Repr

/-- The held frames that follow E without a gap, with the receiver after them. -/
def seqRelease (fuel : Nat) (r : SeqRx) : List SeqItem × SeqRx :=
  match fuel with
  | 0 => ([], r)
  | f + 1 =>
    match r.exp with
    | none => ([], r)
    | some e =>
      match tget? r.held e with
      | none => ([], r)
      | some h =>
        let x := seqRelease f { r with exp := some ((e + 1) % 65536), held := tdel r.held e }
        (.frame h.2 :: x.1, x.2)

/-- One frame against the expected value E (R179). DESIGN CHOICE (log 24): a second frame with a SEQ inside the window that is already held is
discarded and counts in SEQ_LATE; the rule names that count for the values behind E only. -/
def seqArrive (now : Nat) (r : SeqRx) (f : HagilFrame) : List SeqItem × SeqCounts × SeqRx :=
  let q := f.seq.toNat
  match r.exp with
  | none =>
    ([.frame f], { rx := 1 }, { r with exp := some ((q + 1) % 65536), outLast := none })
  | some e =>
    let d := (q + 65536 - e) % 65536
    if d < 64 then
      if thas r.held q then ([], { late := 1 }, { r with outLast := none })
      else
        let x := seqRelease 65 { r with held := tset r.held q (now, f), outLast := none }
        (x.1, { rx := 1 }, x.2)
    else if 65472 ≤ d then ([], { late := 1 }, { r with outLast := none })
    else if r.outLast = some ((q + 65535) % 65536) then
      ([.jump], { out := 1, resync := 1 }, { r with exp := some ((q + 1) % 65536), held := [], outLast := none })
    else ([], { out := 1 }, { r with outLast := some q })

/-- Whether a later frame has waited 200 ns for E (R179). -/
def seqDue (now : Nat) (r : SeqRx) : Bool := r.exp.isSome && r.held.any (fun e => decide (e.2.1 + 200 ≤ now))

/-- E skipped (R179). -/
def seqSkip (r : SeqRx) : List SeqItem × SeqRx :=
  match r.exp with
  | none => ([], r)
  | some e =>
    let x := seqRelease 65 { r with exp := some ((e + 1) % 65536) }
    (.gap :: x.1, x.2)

/-- Counts into a channel's. -/
def seqCount (n : SeqCounts) (c : Chan) : Chan :=
  { c with counts := { c.counts with
      framesRx := c.counts.framesRx + w32 n.rx, seqGap := c.counts.seqGap + w32 n.gap, seqLate := c.counts.seqLate + w32 n.late,
      seqOut := c.counts.seqOut + w32 n.out, seqResync := c.counts.seqResync + w32 n.resync } }

/-- An item for an egress leaf. -/
def leafItem (i : SeqItem) (c : Chan) : Chan :=
  if isPkt (cType c.words) then
    match i with
    | .frame f =>
      if c.rx.discard && !(fSop f) then c else pktPush f { c with rx := { c.rx with discard := false } }
    | _ => { c with pktCur := 0, rx := { c.rx with discard := true } }
  else
    match i with
    | .frame f => fifoPush f.payload c
    | .gap => fifoPush (List.replicate 504 0xFF) c
    | .jump => c

/-- An item for a queue written from the fabric, or for a Braid transmit client's queue. -/
def queueItem (n : Nat) (i : SeqItem) (s : State) : State :=
  match queueAt s n with
  | none => s
  | some q =>
    if qPkt q then
      match i with
      | .frame f =>
        if q.rx.discard && !(fSop f) then s
        else
          let s := updQ n (fun q => { q with rx := { q.rx with discard := false } }) s
          let s := if fSop f then updQ n (fun q => { q with wordBytes := [], wordFirst := true }) s else s
          let bad := fBad f || (!(fSop f) && q.fabBad)
          fabricWords 20 n ((if fSop f then [] else q.wordBytes) ++ fBytes f) (fEop f) bad (updQ n (fun q => { q with fabBad := bad && !(fEop f) }) s)
      | _ => updQ n (fun q => { q with rx := { q.rx with discard := true } }) (writerGone n s)
    else
      match i with
      | .frame f => fabricWords 20 n (q.wordBytes ++ f.payload) false false s
      | .gap => fabricWords 20 n (q.wordBytes ++ List.replicate 504 0xFF) false false s
      | .jump => s

/-- A frame for the egress leaf at key k. -/
def leafRx (k : Nat) (f : HagilFrame) (s : State) : State :=
  match tget? s.chan k with
  | none => s
  | some c =>
    if !c.en then s
    else
      let x := seqArrive s.now c.rx f
      updChan k (fun c => x.1.foldl (fun c i => leafItem i c) (seqCount x.2.1 { c with rx := x.2.2 })) s

/-- A frame for queue n. -/
def queueRx (n : Nat) (f : HagilFrame) (s : State) : State :=
  match queueAt s n with
  | none => s
  | some q =>
    let x := seqArrive s.now q.rx f
    foldS x.1 (queueItem n) (updQ n (fun q => { q with rx := x.2.2 }) s)

/-- The queues that slice sl writes from fabric channel f: host queues of WR_KIND 2 and Braid transmit clients (R189, R222). -/
def fabricQueues (s : State) (sl f : Nat) : List Nat :=
  (s.pool.q.filter (fun e => e.2.owner = 0 && qWrKind e.2 = 2 && qWrSlice e.2 = sl && qWrFab e.2 = f)).map (·.1) ++
  s.braid.flatMap (fun e => match e.2.tx with
    | some d => (d.clients.filter (fun c => c.slice = sl && c.fabricCh = f && !c.suspended)).map (·.queue)
    | none => [])
/-- Whether slice sl has any receiver of fabric channel f. -/
def fabricKnown (s : State) (sl f : Nat) : Bool :=
  !(egressOf s sl f).isEmpty || !(fabricQueues s sl f).isEmpty ||
    s.braid.any (fun e => match e.2.tx with | some d => d.clients.any (fun c => c.slice = sl && c.fabricCh = f) | none => false)

/-- A Hagil frame received in SYNC on fabric lane l (R175, R179, R222): it goes to every receiver of its channel on the slice; a
reserved TYPE, or one that is not the receiver's, counts in BAD_TYPE of the lane, an unknown channel in UNKNOWN_CH. -/
def hagilRx (l : Nat) (f : HagilFrame) (s : State) : State :=
  let sl := l / 8
  let ch := f.channel.toNat
  let bad := modLane (256 + l) (fun x => { x with badType := x.badType + 1 })
  if f.type = 0 then s
  else if 2 < f.type.toNat then bad s
  else if ch = 0 || !(fabricKnown s sl ch) then modLane (256 + l) (fun x => { x with unknownCh := x.unknownCh + 1 }) s
  else
    let pkt := f.type = 2
    let s := foldS (egressOf s sl ch) (fun k s =>
      match tget? s.chan k with
      | some c => if isPkt (cType c.words) = pkt then leafRx k f s else bad s
      | none => s) s
    foldS (fabricQueues s sl ch) (fun n s =>
      match queueAt s n with
      | some q => if qPkt q = pkt then queueRx n f s else bad s
      | none => s) s

/-- The skip timeout of a leaf's or a queue's ordering (R179). -/
def leafSkip (k : Nat) (s : State) : State :=
  match tget? s.chan k with
  | some c =>
    if seqDue s.now c.rx then
      let x := seqSkip c.rx
      updChan k (fun c => x.1.foldl (fun c i => leafItem i c) (seqCount { gap := 1 } { c with rx := x.2 })) s
    else s
  | none => s
/-- The same for a queue. -/
def queueSkip (n : Nat) (s : State) : State :=
  match queueAt s n with
  | some q =>
    if seqDue s.now q.rx then
      let x := seqSkip q.rx
      foldS x.1 (queueItem n) (updQ n (fun q => { q with rx := x.2 }) s)
    else s
  | none => s

/-! ### Output of an egress leaf -/

/-- Whether an egress leaf is fed through its FIFO: from the fabric or a hairpin. -/
def hasFifo (c : Chan) : Bool := c.conns.any (fun y => y.kind == 1 || y.kind == 2)
/-- A leaf's output takes n units of 504 bytes (R180): a stream leaf's FIFO underruns when it has fewer; a packet leaf's buffer drains. -/
def leafDraw (n : Nat) (c : Chan) : Chan :=
  if isPkt (cType c.words) then
    let k := min c.pktBuf (504 * n)
    { c with pktBuf := c.pktBuf - k, delivered := c.delivered + k }
  else if !(hasFifo c) || !c.fifoRun || n = 0 then c
  else if c.fifo.length < n then { c with fifo := [], fifoRun := false, delivered := c.delivered + 504 * c.fifo.length }
  else { c with fifo := c.fifo.drop n, delivered := c.delivered + 504 * n }

/-- The egress leaves that a frame of a port, or of the channel at key k, carries directly. -/
def leavesUnder (s : State) (srv : Server) : List Nat :=
  (s.chan.filter (fun e => keyEg e.1 && serverOf e.1 e.2.words == srv && cType e.2.words != 0x12)).map (·.1)

/-- An adaptation step of the source (R162, R172): +1 or −1 counts; 0 none. -/
def adaptStep (j : Int) (c : Chan) : Chan :=
  { c with counts := { c.counts with
      adaptPos := if 0 < j then c.counts.adaptPos + 1 else c.counts.adaptPos,
      adaptNeg := if j < 0 then c.counts.adaptNeg + 1 else c.counts.adaptNeg } }

/-! ### Connections (R173, R174) -/

/-- A leaf to have EN and connections by f from its next boundary on (R174); at a boundary it takes effect at once. -/
def leafNext (k : Nat) (f : Pending → Pending) (s : State) : State :=
  updChan k (fun c =>
    let c := { c with next := some (f { en := cEn c, conns := cConns c }) }
    if atEdge k c then applyNext k c else c) s
/-- A connection added to a leaf, or removed from it. -/
def leafJoin (y : Conn) (p : Pending) : Pending := { p with conns := p.conns ++ [y] }
/-- A connection removed. -/
def leafPart (y : Conn) (p : Pending) : Pending := { p with conns := p.conns.filter (· != y) }
/-- Whether the egress leaf that a host queue feeds is connected, in effect, to its scheduler set. -/
def readJoined (s : State) (q : Queue) : Bool :=
  match tget? s.chan (readerKey q) with | some c => c.conns.any (fun y => y.kind == 3) | none => false
/-- The host queues read by egress leaves, each with its leaf's connection as in effect. -/
def readSync (s : State) : State :=
  { s with pool.q := s.pool.q.map (fun (e : Nat × Queue) =>
      if e.2.owner = 0 && qRdKind e.2 = 1 then (e.1, { e.2 with rdConn := readJoined s e.2 }) else e) }
/-- Changes that wait at a leaf between two frames or packets take effect (R174). -/
def leafSettle (s : State) : State :=
  if s.chan.any (fun e => e.2.next.isSome) then
    readSync { s with chan := s.chan.map (fun (e : Nat × Chan) => (e.1, if e.2.next.isSome && atEdge e.1 e.2 then applyNext e.1 e.2 else e.2)) }
  else s

/-- Connect the leaf at key k to the fabric (R173, R174). -/
def connectFabric (k f : Nat) (s : State) : State := leafNext k (leafJoin { kind := 1, target := f }) s

/-- Connect a hairpin: both leaves hold it. -/
def connectHairpin (i e : Nat) (s : State) : State :=
  leafNext (chKey true e) (leafJoin { kind := 2, target := i }) (leafNext (chKey false i) (leafJoin { kind := 2, target := e }) s)

/-- Connect the leaf at key k to queue n, as its writer or its reader's scheduler set. -/
def connectQueue (k n : Nat) (s : State) : State :=
  let s := leafNext k (leafJoin { kind := 3, target := n }) s
  if keyEg k then readSync s else updQ n (fun q => { q with writer := some (keyCh k) }) s

/-- Remove a connection of the leaf at key k (R174, R234): a queue loses its writer at once, which rewinds an open packet; a writer that R41 had
stopped is then no writer of the queue, and the next one starts afresh (R37). -/
def disconnect (k kind target : Nat) (s : State) : State :=
  let s := leafNext k (leafPart { kind := kind, target := target }) s
  if kind = 2 then leafNext (chKey (!keyEg k) target) (leafPart { kind := 2, target := keyCh k }) s
  else if kind = 3 then
    if keyEg k then readSync s else updQ target (fun q => { q with writer := none, stopped := false }) (writerGone target s)
  else s

/-! ### GFP-F frames (R90, R163) -/

/-- A core header descrambled. -/
def gfpCore (hdr : Word) : Nat := Nat.xor hdr.toNat 0xB6AB31E0
/-- Whether a core header passes its check. -/
def gfpHecOk (h : Nat) : Bool := crc16 (natBe 2 (h / 65536)) == h % 65536
/-- The header with one bit corrected, if that makes it pass. -/
def gfpCorrect (h : Nat) : Option Nat := ((List.range 32).map (fun i => Nat.xor h (2 ^ i))).find? gfpHecOk
/-- Whether PLI is valid. -/
def pliOk (mx pli : Nat) : Bool := pli == 0 || (decide (4 ≤ pli) && decide (pli ≤ mx))

/-- Whether another packet channel of the same server has a CID. -/
def cidKnown (s : State) (k : Nat) (w : List Word) (cid : Nat) : Bool :=
  s.chan.any (fun e => isGfp e.2.words && keyEg e.1 == keyEg k && serverOf e.1 e.2.words == serverOf k w && fld (wd e.2.words 16) 8 1 == cid)

/-- A frame that delineation delivers to the packet channel at key k (R163): client management frames are counted, a frame that is not
frame-mapped Ethernet for this channel is discarded and counted, one that fails its pFCS is delivered marked bad. -/
def gfpDeliver (k pli : Nat) (f : GfpFrame) (s : State) : State :=
  match tget? s.chan k with
  | none => s
  | some c =>
    let cnt := fun (g : ChanCounts → ChanCounts) => updChan k (fun c => { c with counts := g c.counts }) s
    let lin := bitOf (wd c.words 16) 0
    let cid := fld (wd c.words 16) 8 1
    if pli < 4 then s
    else if c.gfp.maxPli < pli then cnt (fun n => { n with gfpDiscard := n.gfpDiscard + 1 })
    else if !f.hecOk then cnt (fun n => { n with gfpHecErr := n.gfpHecErr + 1 })
    else if f.pti = 4 then cnt (fun n => { n with gfpCmf := n.gfpCmf + 1 })
    else if f.upi != 1 || f.pti != 0 then cnt (fun n => { n with gfpDiscard := n.gfpDiscard + 1 })
    else if lin && f.cid.toNat != cid then
      if cidKnown s k c.words f.cid.toNat then s else cnt (fun n => { n with gfpDiscard := n.gfpDiscard + 1 })
    else
      let bad := bitOf (wd c.words 16) 9 && !f.fcsOk
      chanToFabric k f.bytes true bad
        (cnt (fun n => { n with gfpFrames := n.gfpFrames + 1, gfpFcsErr := n.gfpFcsErr + w32 (b2n bad) }))

end Sys2Proof.Machine
end

