-- ==== Sys2Proof/Machine/Adapt.lean ====
section
/-! DEFINITION. Adaptation of clients to their servers (06_mapping_and_multiplexing.md): GMP and AMP justification, idle and pointer
adaptation, the multiframe of virtual concatenation and LCAS. The layouts of G.709, G.707 and G.7042 that the spec names without restating
them are PRESUMED (log 39). -/

namespace Sys2Proof.Machine

/-! ### Fill (R161, R172, R243, R245) -/

/-- The content that an egress leaf's FIFO, or the queue that feeds it, holds, and the content it is kept at, in bytes: half of the FIFO of 8
frames; the hold of a queue, or without one 8 cells (DESIGN CHOICE, log 39). -/
def fillOf (s : State) (c : Chan) : Nat × Nat :=
  match (c.conns.find? (fun y => y.kind == 3)).bind (fun y => queueAt s y.target) with
  | some q => (256 * qReadable q, 256 * (if qHold q != 0 then holdCells s q else 8))
  | none => (504 * c.fifo.length, 2016)
/-- Content less what it is kept at; a leaf that delivers nothing has none. -/
def fillDev (s : State) (c : Chan) : Int := if c.fifoRun then ((fillOf s c).1 : Int) - (fillOf s c).2 else 0
/-- Whether the fill has left its band (R172: 25 % to 75 % of the FIFO; R245: one cell about a queue's hold): 1 above, −1 below. -/
def fillErr (s : State) (c : Chan) : Int :=
  let held := match (c.conns.find? (fun y => y.kind == 3)).bind (fun y => queueAt s y.target) with | some q => qHold q != 0 | none => false
  let band : Int := if held then 256 else ((fillOf s c).2 : Int) / 2
  let d := fillDev s c
  if band < d then 1 else if d < -band then -1 else 0

/-! ### Justification control (R104, R161, R164) -/

/-- The last of a lower-order ODU's slots, whose justification control is the ODU's. -/
def lastSlot (w : List Word) : Nat := (cMap w).foldl max 0
/-- The client of the ODU at key k whose justification control is in a frame of an instance: a client that fills the OPU in every frame, a
lower-order ODU in the frame of its last slot, by MFAS in an ODU2 and by OMFI in an ODU4 or an ODUC. -/
def jcClient (s : State) (k inst mfas omfi : Nat) : Option Nat :=
  match tget? s.chan k with
  | none => none
  | some d =>
    let at_ := 20 * inst + (if cType d.words = 3 then mfas % 8 else omfi) + 1
    (servedBy s k).find? (fun j => match tget? s.chan j with
      | some c => if isOdu (cType c.words) then lastSlot c.words == at_ else inst == 0 && [0x20, 0x21, 0x22].contains (cType c.words)
      | none => false)
/-- The frames of the multiframe that OMFI counts. -/
def omfiLen (t : Nat) : Nat := match t with | 5 => 80 | 8 => 20 | _ => 1

/-- Cm as the 16 bits of JC1 and JC2: C1 to C14, II, DI. A change by 1 or 2 is sent as an inversion of bits of the former value. -/
def gmpWrite (prev cm : Nat) : Nat :=
  if cm = prev then 4 * prev
  else if cm = prev + 1 then 4 * Nat.xor prev 0x2AAA + 2
  else if cm + 1 = prev then 4 * Nat.xor prev 0x1555 + 1
  else if cm = prev + 2 then 4 * Nat.xor prev 0x1999 + 2
  else if cm + 2 = prev then 4 * Nat.xor prev 0x2666 + 1
  else 4 * cm + 3
/-- The Cm that JC1 and JC2 spell, given the last accepted one. -/
def gmpRead (prev w : Nat) : Nat :=
  let x := Nat.xor (w / 4) prev
  match w % 4 with
  | 2 => if x = 0x2AAA then prev + 1 else if x = 0x1999 then prev + 2 else prev
  | 1 => if x = 0x1555 then prev - 1 else if x = 0x2666 then prev - 2 else prev
  | _ => w / 4
/-- The CRC-8 of JC1 and JC2, in JC3. -/
def gmpCrc (w : Nat) : Nat := crcBits 8 0x0D 0 (bitsOf 16 w)
/-- JC1 to JC6 of a GMP client: Cm with its CRC-8, ΣCnD with its CRC-5. An OPUC has a form of its own, which is not restated. -/
def gmpBytes (srv prev cm cnd : Nat) : List Byte :=
  if srv = 8 then Config.gmpWriteCn prev cm cnd
  else
    let w := gmpWrite prev cm
    ([w / 256, w % 256, gmpCrc w, cnd / 32 % 32, cnd % 32, crcBits 5 0x03 0 (bitsOf 10 cnd)]).map (BitVec.ofNat 8)
/-- The Cm of received JC1 to JC6; none when its CRC fails. -/
def gmpAccept (srv prev : Nat) (jc : List Byte) : Option Nat :=
  if srv = 8 then Config.gmpReadCn prev jc
  else
    let w := 256 * (jc.getD 0 0).toNat + (jc.getD 1 0).toNat
    if (jc.getD 2 0).toNat = gmpCrc w then some (gmpRead prev w) else none

/-- The AMP justification control by majority over the three JC bytes, bit by bit: 0 none, 1 negative, 2 or 3 positive. -/
def ampMajority (jc : List Byte) : Nat :=
  let maj := fun (i : Nat) => decide (2 ≤ ((jc.take 3).filter (fun b => b.getLsbD i)).length)
  b2n (maj 0) + 2 * b2n (maj 1)
/-- The adaptation that a justification control stands for: a negative justification takes more bytes, a positive one fewer. -/
def ampStep (j : Nat) : Int := if j = 0 then 0 else if j = 1 then -1 else 1

/-- The justification control that a received ODU frame carries for a client of its (R161): a GMP Cm that passes its CRC is accepted, one
that fails leaves the last and counts; AMP goes by majority. -/
def rxJust (k inst : Nat) (f : RxFrame) (s : State) : State :=
  match tget? s.chan k, jcClient s k inst f.mfas.toNat (rxb f 63).toNat with
  | some d, some j =>
    let jc := ([15, 31, 47, 14, 30, 46] : List Nat).map (rxb f)
    updChan j (fun c =>
      match cProc c.words with
      | 1 => (match gmpAccept (cType d.words) c.gmpCm jc with
          | some cm => { c with gmpCm := cm % 16384 }
          | none => { c with counts := { c.counts with adaptErr := c.counts.adaptErr + 1 } })
      | 2 => adaptStep (ampStep (ampMajority jc)) { c with amp := ampMajority jc }
      | _ => c) s
  | _, _ => s

/-- The justification control of a transmitted ODU frame, by index, and the clients' states after it (R161): once per GMP period Cm and ΣCnD
follow from the fill, through the filter; AMP justifies where the fill has left its band. -/
def txJust (k inst mfas omfi : Nat) (s : State) : List (Nat × Byte) × State :=
  match tget? s.chan k with
  | none => ([], s)
  | some d =>
    let mf := if 1 < omfiLen (cType d.words) then [(63, BitVec.ofNat 8 omfi)] else []
    match jcClient s k inst mfas omfi with
    | none => (mf, s)
    | some j =>
      match tget? s.chan j with
      | none => (mf, s)
      | some c =>
        match cProc c.words with
        | 1 =>
          let cm := Config.gmpFilter c.gmpCm (fillDev s c) % 16384
          let cnd := Config.gmpResidue c.gmpCm (fillDev s c) % 1024
          (([15, 31, 47, 14, 30, 46] : List Nat).zip (gmpBytes (cType d.words) c.gmpCm cm cnd) ++ mf,
            updChan j (fun c => { c with gmpCm := cm, gmpCnd := cnd }) s)
        | 2 =>
          let e := fillErr s c
          let a := if e = 0 then 0 else if e = 1 then 1 else 3
          (([15, 31, 47] : List Nat).map (fun i => (i, BitVec.ofNat 8 a)) ++ mf, updChan j (fun c => adaptStep (-e) { c with amp := a }) s)
        | _ => (mf, s)

/-! ### Idle and pointer adaptation (R162, R172) -/

/-- Whether a client is adapted by its AU-4 pointers: an STM-64 on a CBR port or at a BMP source. -/
def auAdapted (w : List Word) : Bool := cType w == 0x22 && cProc w != 2
/-- Whether a client is adapted by idle characters: an Ethernet or FlexE client at an Ethernet port, a BMP source or an IMP source. -/
def idleAdapted (w : List Word) : Bool := (cType w == 0x20 || cType w == 0x21) && cProc w != 1
/-- One pointer movement at most, and only in the fourth frame after the last. -/
def moveStep (e : Int) (c : Chan) : Int × Chan :=
  let w := c.justifyWait - 1
  if w = 0 && e != 0 then (-e, adaptStep (-e) { c with justifyWait := 4 }) else (0, { c with justifyWait := w })
/-- The adaptation of a client in one frame of its server: an idle character inserted where the fill is low and deleted where it is high, or
the AU-4 pointers moved. DESIGN CHOICE (log 39): idle adaptation uses the band of R172, the spec gives none. -/
def adaptClient (k : Nat) (s : State) : State :=
  updChan k (fun c =>
    let e := fillErr s c
    if auAdapted c.words then (moveStep e c).2 else if idleAdapted c.words then adaptStep (-e) c else c) s

/-- The H1, H2 word of a pointer: NDF normal or enabled, SS = 0b10, and the I or D bits inverted in a movement. -/
def ptrWord (ndf : Bool) (p : Nat) (move : Int) : BitVec 16 :=
  BitVec.ofNat 16 ((if ndf then 0x9800 else 0x6800) + Nat.xor p (if 0 < move then 0x2AA else if move < 0 then 0x155 else 0))
/-- The pointer of a transmitted VC-4 or VC-4-Xc (R172): NDF enabled in the first frame after enabling only, a movement by one where the fill
has left its band, all-ones for AU-AIS. -/
def txPointer (k : Nat) (s : State) : State :=
  match tget? s.chan k with
  | none => s
  | some c =>
    if replOf s k c = rAis then updChan k (fun c => { c with ndfNext := false, txPtrWord := 0xFFFF }) s
    else if c.ndfNext then updChan k (fun c => { c with ndfNext := false, justifyWait := 4, txPtrWord := ptrWord true c.txPtr 0 }) s
    else
      let r := moveStep (fillErr s c) c
      updChan k (fun _ => { r.2 with
        txPtr := if 0 < r.1 then (if c.txPtr = 782 then 0 else c.txPtr + 1) else if r.1 < 0 then (if c.txPtr = 0 then 782 else c.txPtr - 1) else c.txPtr
        txPtrWord := ptrWord false c.txPtr r.1 }) s

/-! ### Virtual concatenation and LCAS (R166 to R168) -/

/-- The group of a VCAT member. -/
def vcGroup (s : State) (k : Nat) (c : Chan) : Option Chan := (cVcg c.words).bind (fun g => tget? s.chan (chKey (keyEg k) g))
/-- The group in the other direction to which a group reports its members: that of its members' return partners. -/
def vcPartner (s : State) (k : Nat) : Option Nat :=
  (vcatMembers s k).findSome? (fun m => (tget? s.chan m).bind (fun c =>
    (cRet c.words).bind (fun r => (chanAt s (!keyEg k) r).bind (fun d => (cVcg d.words).map (chKey (!keyEg k))))))
/-- The member of a group with a sequence number. -/
def vcMember (s : State) (g sq : Nat) : Option Nat :=
  (vcatMembers s g).find? (fun m => match tget? s.chan m with | some c => cSq c.words == sq | none => false)

/-- A received multiframe count against the one expected: the multiframe is found after four counts that run on, and lost at the first that
does not. `full` is a count read whole, `low` the part of it, below `m`, that every frame carries. -/
def vcStep (w : List Word) (now m low : Nat) (full : Option Nat) (c : Chan) : Chan :=
  let e := c.vcLast.map (fun v => (v + 1) % vcFrames w)
  let v := match e with
    | some e => if e % m = low && (full.isNone || full == some e) then some e else none
    | none => full
  match v with
  | some n => { c with
      vcLast := some n, vcGood := min 4 (c.vcGood + 1), vcLom := c.vcLom && c.vcGood + 1 < 4,
      vcPhase := (now % vcPeriod w + vcPeriod w - vcOffset w n % vcPeriod w) % vcPeriod w }
  | none => { c with vcLast := none, vcGood := 0, vcLom := true }

/-- The CRC-8 x^8 + x^2 + x + 1 of an LCAS control packet. -/
def lcasCrc (bits : List Bool) : Nat := crcBits 8 0x07 0 bits
/-- What a good control packet tells (G.7042): an ingress member takes CTRL; the group of its partner takes the acknowledgement and the status
of eight of its members, 0 for OK. -/
def lcasRx (k ctrl mst grp : Nat) (ack : Bool) (s : State) : State :=
  match tget? s.chan k with
  | none => s
  | some c =>
    let s := updChan k (fun c => { c with lcas := { c.lcas with ctrl := ctrl } }) s
    match (cVcg c.words).bind (fun g => vcPartner s (chKey (keyEg k) g)) with
    | none => s
    | some p =>
      foldS (List.range 8) (fun i s => match vcMember s p (8 * grp + i) with
        | some m => updChan m (fun c => { c with lcas := { c.lcas with ok := mst / 2 ^ (7 - i) % 2 = 0 } }) s
        | none => s) (updChan p (fun c => { c with lcas := { c.lcas with ack := ack } }) s)

/-- A received H4 byte of a VC-4 member: multiframe indicators in bits 5 to 8 and, in the first two frames of sixteen, in bits 1 to 4; the
control packet runs from the ninth frame to the eighth of the next sixteen. -/
def rxH4 (k : Nat) (b : Byte) (s : State) : State :=
  match tget? s.chan k with
  | none => s
  | some c =>
    let n := b.toNat % 16
    let l := (c.lcas.packet ++ [b.toNat / 16]).drop (c.lcas.packet.length + 1 - 16)
    let at_ := fun i => l.getD i 0
    let hi := l.length - 1
    let full := if n = 1 && 2 ≤ l.length then some (16 * (16 * at_ (hi - 1) + at_ hi) + 1) else none
    let s := updChan k (fun c => { vcStep c.words s.now 16 n full c with lcas := { c.lcas with packet := l } }) s
    if n = 7 && l.length = 16 && lcasCrc ((l.take 14).flatMap (bitsOf 4)) = 16 * at_ 14 + at_ 15 then
      lcasRx k (at_ 10) (16 * at_ 0 + at_ 1) ((16 * at_ 8 + at_ 9 + 255) % 256 % 32) (at_ 2 % 2 = 1) s
    else s
/-- The VCOH of a received ODU member: VCOH1 carries MFI1, MFI2 and CTRL in frames 0, 1 and 5 of 32, VCOH2 the status of eight members, VCOH3
the CRC of the frame. -/
def rxVcoh (k : Nat) (f : RxFrame) (s : State) : State :=
  match tget? s.chan k with
  | none => s
  | some c =>
    let n := f.mfas.toNat % 32
    let b := (rxb f 14).toNat
    let l := if n = 0 then [b] else if n = 1 then c.lcas.packet.take 1 ++ [b] else c.lcas.packet
    let full := if n = 1 && l.length = 2 then some (65536 * l.getD 1 0 + 256 * l.getD 0 0 + f.mfas.toNat) else none
    let good := lcasCrc (bitsOf 8 b ++ bitsOf 8 (rxb f 30).toNat) = (rxb f 46).toNat
    let s := updChan k (fun c => { vcStep c.words s.now 256 f.mfas.toNat full c with lcas := { c.lcas with packet := l } }) s
    if good then
      let ctrl := if n = 5 then b / 16 else c.lcas.ctrl
      let ack : Bool := if n = 5 then b / 4 % 2 == 1 else (match (cVcg c.words).bind (fun g => vcPartner s (chKey (keyEg k) g)) with
        | some p => (match tget? s.chan p with | some d => d.lcas.ack | none => false) | none => false)
      lcasRx k ctrl (rxb f 30).toNat n ack s
    else s
/-- The multiframe of a received frame of a VCAT member. -/
def rxVcat (k : Nat) (f : RxFrame) (s : State) : State :=
  match tget? s.chan k with
  | some c =>
    if (cVcg c.words).isNone || keyEg k then s
    else if isVc (cType c.words) then (if c.ptr.st == .norm then rxH4 k (rxb f 5) s else s)
    else rxVcoh k f s
  | none => s

/-- The CTRL that an egress member sends: the carrying member with the highest sequence number marks the end of the sequence. -/
def lcasCtrl (s : State) (g : Nat) (c : Chan) : Nat :=
  if c.lcas.ctrl = 2 && (vcatMembers s g).all (fun m => match tget? s.chan m with
    | some d => d.lcas.ctrl != 2 || decide (cSq d.words ≤ cSq c.words) | none => true) then 3 else c.lcas.ctrl
/-- The status of members 8 grp to 8 grp + 7 of the group that group g reports, the first in the most significant bit: 1 failed. -/
def lcasMst (s : State) (g grp : Nat) : Nat :=
  match vcPartner s g with
  | none => 255
  | some p => ((List.range 8).map (fun i => match (vcMember s p (8 * grp + i)).bind (fun m => tget? s.chan m) with
      | some c => if c.lcas.ok then 0 else 2 ^ (7 - i) | none => 2 ^ (7 - i))).foldl (· + ·) 0
/-- The acknowledgement that group g sends for the group it reports. -/
def lcasAck (s : State) (g : Nat) : Nat :=
  match (vcPartner s g).bind (fun p => tget? s.chan p) with | some d => b2n d.lcas.ack | none => 0

/-- Bits 1 to 4 of H4 in multiframe position v, after the sent nibbles l. Without LCAS only the indicators and the sequence number go out. -/
def h4High (s : State) (g : Nat) (c : Chan) (lcas : Bool) (l : List Nat) (v : Nat) : Nat :=
  let mfi2 := v / 16 % 256
  match v % 16 with
  | 0 => mfi2 / 16
  | 1 => mfi2 % 16
  | 14 => cSq c.words / 16
  | 15 => cSq c.words % 16
  | n =>
    if !lcas then 0
    else
      match n with
      | 2 => lcasCtrl s g c
      | 3 => b2n (Config.groupId (v / 16))
      | 6 => lcasCrc ((l.drop (l.length - 14)).flatMap (bitsOf 4)) / 16
      | 7 => lcasCrc (((l.drop (l.length - 15)).take 14).flatMap (bitsOf 4)) % 16
      | 8 => lcasMst s g (mfi2 % 32) / 16
      | 9 => lcasMst s g (mfi2 % 32) % 16
      | 10 => lcasAck s g
      | _ => 0
/-- H4 of a transmitted VC-4 or VC-4-Xc: of a VCAT member its multiframe and control packet, else 0. -/
def txH4 (k : Nat) (s : State) : Byte × State :=
  match tget? s.chan k with
  | none => (0, s)
  | some c =>
    match cVcg c.words, vcGroup s k c with
    | some g, some d =>
      let h := h4High s (chKey (keyEg k) g) c (cLcas d.words) c.lcas.packet c.vcTx
      (BitVec.ofNat 8 (16 * h + c.vcTx % 16), updChan k (fun c => { c with
        vcTx := (c.vcTx + 1) % 4096
        lcas := { c.lcas with packet := (c.lcas.packet ++ [h]).drop (c.lcas.packet.length + 1 - 16) } }) s)
    | _, _ => (0, s)
/-- VCOH1 to VCOH3 of a transmitted ODU member in frame n of its MFAS. -/
def txVcoh (k n : Nat) (s : State) : List (Nat × Byte) × State :=
  match tget? s.chan k with
  | none => ([], s)
  | some c =>
    match cVcg c.words, vcGroup s k c with
    | some g0, some d =>
      let g := chKey (keyEg k) g0
      let lcas := cLcas d.words
      let v1 := match n % 32 with
        | 0 => c.vcTx % 256
        | 1 => c.vcTx / 256 % 256
        | 4 => cSq c.words
        | 5 => if lcas then 16 * lcasCtrl s g c + 8 * b2n (Config.groupId c.vcTx) + 4 * lcasAck s g else 0
        | _ => 0
      let v2 := if lcas then lcasMst s g (n % 32) else 0
      (([(14, v1), (30, v2), (46, lcasCrc (bitsOf 8 v1 ++ bitsOf 8 v2))] : List (Nat × Nat)).map (fun e => (e.1, BitVec.ofNat 8 e.2)),
        updChan k (fun c => { c with vcTx := if n = 255 then (c.vcTx + 1) % 65536 else c.vcTx }) s)
    | _, _ => ([], s)

/-- A member of an LCAS group after a change (R168, G.7042). Sink: a failed member is DNU at once and its status not OK; one that is being
added is OK as soon as it is healthy, one that returns after its wait-to-restore; it carries while it is OK and the source sends NORM or
EOS. Source: a new member is added, carries once the far sink reports it OK, and is DNU while that reports it failed. -/
def lcasMember (g m : Nat) (s : State) : State :=
  if keyEg m then
    updChan m (fun c =>
      let ctrl := if c.lcas.ctrl = 5 then 1 else if c.lcas.ok then 2 else if c.lcas.ctrl = 2 then 15 else c.lcas.ctrl
      { c with carrying := ctrl = 2, lcas := { c.lcas with ctrl := ctrl } }) s
  else if vcatBad s g m then updChan m (fun c => { c with carrying := false, dnuSince := none, lcas := { c.lcas with ok := false } }) s
  else
    updChan m (fun c =>
      let ok := c.lcas.ok || c.lcas.ctrl = 1
      { c with
        carrying := ok && (c.lcas.ctrl = 2 || c.lcas.ctrl = 3)
        dnuSince := if ok then none else if c.dnuSince.isSome then c.dnuSince else some s.now
        lcas := { c.lcas with ok := ok } }) s
/-- The carrying members of a group. -/
def lcasCarrying (s : State) (g : Nat) : List Nat :=
  (vcatMembers s g).filter (fun m => match tget? s.chan m with | some c => c.carrying | none => false)
/-- An LCAS group after a change: its members, and on a sink a toggled acknowledgement where the carrying members have changed. -/
def lcasGroup (g : Nat) (s : State) : State :=
  let was := lcasCarrying s g
  let s := foldS (vcatMembers s g) (lcasMember g) s
  let s := if lcasCarrying s g != was then sendDecision s else s
  if !(keyEg g) && lcasCarrying s g != was then updChan g (fun c => { c with lcas := { c.lcas with ack := !c.lcas.ack } }) s else s
/-- Every LCAS group after a change. -/
def lcasSettle (s : State) : State :=
  if !(ownDecides s) then s
  else foldS ((s.chan.filter (fun e => cType e.2.words == 0x12 && cLcas e.2.words)).map (·.1)) lcasGroup s

end Sys2Proof.Machine
end

