-- ==== Sys2Proof/Machine/Lines.lean ====
section
/-! DEFINITION. What the line lanes of a port send (02_lanes_and_ports.md, 04_overhead_and_parity.md): the idle signal, FlexO overhead and
lane order, loopbacks, patterns and the Varric cross-feed. -/

namespace Sys2Proof.Machine

/-- What port p's signal carries (R68, R120, R159, R261); the clients of a FlexE group, on its lowest-numbered PHY in the server tree, map into
every PHY. -/
def portFill (s : State) (p : Nat) (q : Port) : PortFill :=
  if isOtn q then
    (if (topOdu s p).isSome then .channels else .oduOci)
  else if isSdh q then
    (if cbrPort s true p then .channels else if stmRepl s p = rAis then .msAis else if stmRepl s p = rUneq then .unequipped else .channels)
  else if q.flexePhy then
    (match s.flex.find? (fun e => e.2.phys.any (fun x => x.port == p)) with
     | some e => if (minBy (·.num) e.2.phys).any (fun x => (onPort s true x.port).any (fun k => match tget? s.chan k with
         | some c => cType c.words == 0x21 | none => false)) then .channels else .flexeIdle
     | none => .pcsIdle)
  else if (onPort s true p).isEmpty then .pcsIdle else .channels

/-- The port lane position that leaves on the i-th physical lane (R60). -/
def txPos (q : Port) (i : Nat) : Nat := mapEntry q.txMap i
/-- The physical lanes of interface n of a FlexO group: those whose port lanes are the interface's (R54). -/
def ifaceLanes (q : Port) (n : Nat) : List Nat := (List.range q.width).filter (fun i => txPos q i / q.foicK == n)
/-- RPF of interface n of port p (R106): a lane of the interface has dLOS, dLOL or dLOFLANE on receive. -/
def flexoRpf (s : State) (p : Nat) (q : Port) (n : Nat) : Bool :=
  (ifaceLanes q n).any (fun i => (laneOf s (p + i)).los || laneLol (laneOf s (p + i)) || (procOf q (i + 1)).lof)
/-- The FlexO overhead of the i-th physical lane (R54, R106): GID is the port number, interface n carries PID n + 1. -/
def flexoTx (s : State) (p : Nat) (q : Port) (i : Nat) : FlexoTx :=
  let n := txPos q i / q.foicK
  { gid := p, pid := n + 1, lane := txPos q i % q.foicK, rpf := flexoRpf s p q n }

/-- Whether port p sends its partner's stream (R373): its optics are this twin's, the link is up, and this twin is not the active one. -/
def sendsPartner (s : State) (p : Nat) : Bool := crossFeeds s p && s.twin.role != .active && s.twin.role != .handover

/-- What the i-th lane of port p sends (R30, R47, R54, R68, R373, R479, R484). -/
def lineSends (s : State) (p : Nat) (q : Port) (i : Nat) : LineSignal :=
  let k := p + i
  let g := tget s.test.prbs {} (lanePrbs k)
  if (laneOf s k).st == .off then .dark
  else if laneLooped s k then .received
  else if g.gen then .pattern g.pattern g.inv
  else if sendsPartner s p then .crossFed
  else .own (txPos q i) (if q.proto = 4 then some (flexoTx s p q i) else none) (portFill s p q)
/-- The lanes of port p send a frame's worth of signal; the active twin sends the stream of a port whose optics are
the partner's there, as XFEED (R29, R373). -/
def lineSend (p : Nat) (bytes : List Byte) (s : State) : State :=
  match portAt s p with
  | none => s
  | some q =>
    let s := updPort p (fun _ => { q with sent := (List.range q.width).map (lineSends s p q) }) s
    if portFed s p && s.twin.linkUp && (s.twin.role == .active || s.twin.role == .handover) then sendXfeed p bytes s else s

end Sys2Proof.Machine
end

