-- ==== Sys2Proof/Machine/Braid.lean ====
section
/-! DEFINITION. Braid groups (07_braid_groups.md): the schedule, the receive side with its members' delays, health and stitches, and
the transmit side with its rounds, member changes and overhead. -/

namespace Sys2Proof.Machine

/-! ### Groups, sides, members -/

/-- A side of group g. -/
def sideOf (s : State) (g : Nat) (tx : Bool) : Option Side :=
  match tget? s.braid g with | some b => if tx then b.tx else b.rx | none => none
/-- s with a side of group g changed by f, where it exists. -/
def updSide (g : Nat) (tx : Bool) (f : Side → Side) (s : State) : State :=
  { s with braid := tupd s.braid g (fun b => if tx then { b with tx := b.tx.map f } else { b with rx := b.rx.map f }) }
/-- The channel number that a member removed at once keeps while the table in force still gives it positions (R207): no channel has
it, so the member has failed and its positions are lost. -/
def goneCh : Nat := 65536
/-- Member m of a side. -/
def memberOf (d : Side) (m : Nat) : Option Member := d.members.find? (fun x => x.midx == m)
/-- s with member m of a side changed by f. -/
def updMember (g : Nat) (tx : Bool) (m : Nat) (f : Member → Member) (s : State) : State :=
  updSide g tx (fun d => { d with members := d.members.map (fun x => if x.midx = m then f x else x) }) s
/-- s with client c of a side changed by f. -/
def updClient (g : Nat) (tx : Bool) (c : Nat) (f : Client → Client) (s : State) : State :=
  updSide g tx (fun d => { d with clients := d.clients.map (fun x => if x.cidx = c then f x else x) }) s
/-- A member's rate in kbit/s. -/
def memberRate (s : State) (tx : Bool) (m : Member) : Nat := chanRate s (chKey tx m.ch)
/-- The MSTATE code (R217). -/
def mstateCode (m : Member) : Nat := match m.st with | .adding => 1 | .working => 2 | .spare => 3

/-- The number of rounds that the 32 bits of ROUND tell apart (R193). -/
def roundMod : Nat := 4294967296
/-- The round after r. -/
def roundNext (r : Nat) : Nat := (r + 1) % roundMod
/-- Whether round a is round b or comes before it, the shorter way round. -/
def roundLe (a b : Nat) : Bool := decide ((b + roundMod - a % roundMod) % roundMod < 2147483648)
/-- The later of two rounds. -/
def roundMax (a b : Nat) : Nat := if roundLe a b then b else a
/-- The latest of some rounds. -/
def roundLast (l : List Nat) : Option Nat := match l with | [] => none | a :: r => some (r.foldl roundMax a)

/-- EVT_BRAID_MEMBER (R219). -/
def evtBraidMember (g : Nat) (tx : Bool) (midx mstate : Nat) (fail : Bool) (status : Nat) (completes : Bool) (s : State) : State :=
  raise 0x0601 (if completes then clsCompletion else clsState) 6 g
    (g + 256 * b2n tx + 512 * midx + 32768 * mstate + 131072 * b2n fail) (status + 256 * b2n completes) 0 0 s
/-- The event of a member as it stands. -/
def evtMemberNow (g : Nat) (tx : Bool) (midx status : Nat) (completes : Bool) (s : State) : State :=
  match (sideOf s g tx).bind (fun d => memberOf d midx) with
  | some m => evtBraidMember g tx midx (mstateCode m) m.fail status completes s
  | none => s

/-- What a member's leaving completes: its pending addition by TIMEOUT, each of its pending removals by OK; it is absent by then (R216,
R219). -/
def evtMemberGone (g : Nat) (tx : Bool) (m : Member) (s : State) : State :=
  let s := if m.adding then evtBraidMember g tx m.midx 0 false 9 true s else s
  foldS (List.range m.removes) (fun _ => evtBraidMember g tx m.midx 0 false 0 true) s

/-- The suspended clients of a side as a word of 64 bits. -/
def suspendedWord (d : Side) : Nat := (d.clients.map (fun c => if c.suspended then 2 ^ c.cidx else 0)).foldl (· + ·) 0
/-- EVT_BRAID_SCHED (R219). Its word 0 reports REALIGN (R217): DESIGN CHOICE (log 40), modulo 256 in bits 15 to 8, above the five class bits of
R422. -/
def evtBraidSched (g : Nat) (tx : Bool) (n : Nat) (s : State) : State :=
  match sideOf s g tx with
  | some d =>
    raise 0x0602 (clsState + 256 * (d.realign.toNat % 256)) 6 g (g + 256 * b2n tx + 512 * b2n d.schedAct) n (suspendedWord d) (suspendedWord d / 4294967296) s
  | none => s

/-! ### The stitch schedule (R195, R196, R198) -/

/-- The greatest rate among the members that p calls WORKING. -/
def rateMax (s : State) (tx : Bool) (p : Member → Bool) (d : Side) : Nat := ((d.members.filter p).map (memberRate s tx)).foldl max 0
/-- w(m) of a table whose WORKING members are those of p (R195). -/
def weightIn (s : State) (tx : Bool) (p : Member → Bool) (d : Side) (m : Member) : Nat :=
  if p m && rateMax s tx p d != 0 then 1024 * memberRate s tx m / rateMax s tx p d else 0
/-- The weights of a table by MIDX: the active one, or the pending one. -/
def weightsOf (d : Side) (next : Bool) : List (Nat × Nat) := d.members.map (fun m => (m.midx, if next then m.weightNext else m.weight))
/-- W. -/
def totalW (ws : List (Nat × Nat)) : Nat := (ws.map (·.2)).foldl (· + ·) 0

/-- One position of the algorithm of R196: every cur grows by its weight, the largest is picked, the lowest member on a tie. -/
def ownersFrom (fuel : Nat) (W : Int) (cur : List (Nat × Nat × Int)) : List Nat :=
  match fuel with
  | 0 => []
  | f + 1 =>
    let cur := cur.map (fun e => (e.1, e.2.1, e.2.2 + (e.2.1 : Int)))
    match maxBy (fun e => e.2.2) cur with
    | some p => p.1 :: ownersFrom f W (cur.map (fun e => if e.1 = p.1 then (e.1, e.2.1, e.2.2 - W) else e))
    | none => []
/-- The owner of each position of a round (R196). -/
def owners (ws : List (Nat × Nat)) : List Nat := ownersFrom (totalW ws) (totalW ws) (ws.map (fun e => (e.1, e.2, 0)))

/-- The table in force for round r. -/
def tableAt (d : Side) (r : Nat) : List (Nat × Nat) :=
  weightsOf d (match d.nStar with | some n => d.schedPend && roundLe n r | none => false)
/-- The positions that member m owns in round r. -/
def ownedIn (d : Side) (m r : Nat) : List Nat :=
  let o := owners (tableAt d r)
  (List.range o.length).filter (fun i => o.getD i 64 == m)
/-- The first position of member m at or after round r, position i; the start of the next round where it owns none there. -/
def ownedFrom (d : Side) (m : Nat) (p : SPos) : SPos :=
  match (ownedIn d m p.round).find? (fun i => decide (p.pos ≤ i)) with
  | some i => { round := p.round, pos := i }
  | none => { round := roundNext p.round, pos := (ownedIn d m (roundNext p.round)).headD 0 }
/-- The position of member m's next schedule stitch after p. -/
def nextOwned (d : Side) (m : Nat) (p : SPos) : SPos := ownedFrom d m { p with pos := p.pos + 1 }
/-- p advanced by n stitches of member m. -/
def advance (d : Side) (m : Nat) (n : Nat) (p : SPos) : SPos := (List.range n).foldl (fun p _ => nextOwned d m p) p

/-- Whether the client rates fit a table's CAPACITY (R198), exactly. -/
def capFits (rmax W rates : Nat) : Bool := decide (rates * 10001 * 122368 * 1024 ≤ 63 * rmax * 9999 * W * 1888)
/-- CAPACITY in units of 1 Mbit/s. -/
def capacityMbit (s : State) (tx : Bool) (d : Side) : Nat :=
  63 * rateMax s tx (fun m => m.weight != 0) d * 9999 * totalW (weightsOf d false) * 1888 / (122368 * 10000 * 1024 * 1000)

/-! ### Receive side: health (R202) -/

/-- The sub-multiframe period of a member in ns: 16 frames. -/
def subPeriod (s : State) (tx : Bool) (m : Member) : Nat :=
  if memberRate s tx m = 0 then 0 else 16 * 122368 * 1000000 / memberRate s tx m

/-- Whether a receive member has failed. -/
def memberFailed (s : State) (m : Member) : Bool :=
  chanSf s (chKey false m.ch) || m.seqDef || m.skewDef || m.bgoAt.isNone

/-- A member's queue flushed by the group itself: the owner needs no notice of it. -/
def flushMember (g m : Nat) (s : State) : State :=
  match (sideOf s g false).bind (fun d => memberOf d m) with
  | some x =>
    let old := s.pool.lostQ
    let s := flushQ x.queue s
    updMember g false m (fun x => { x with stitches := [] }) { s with pool.lostQ := old }
  | none => s
/-- Every member queue of the receive side flushed. -/
def flushMembers (g : Nat) (s : State) : State :=
  match sideOf s g false with
  | some d => foldS (d.members.map (·.midx)) (flushMember g) s
  | none => s

/-- The receive side back in ACQUIRE with S not set and all queues flushed (R203); from ALIGNED, REALIGN counts and the group logs it
(R217). -/
def toAcquire (g : Nat) (count : Bool) (s : State) : State :=
  let s := flushMembers g s
  let s := updSide g false (fun d => { d with
    st := .acquire, start := none, realign := if count then d.realign + 1 else d.realign,
    members := (d.members.filter (fun m => m.ch != goneCh)).map (fun m => { m with firstAnchor := none, nextPos := none, mark := none }),
    clients := d.clients.map (fun c => { c with ssf := true, txBytes := [] }) }) s
  if count then logAdd .braidRealign (g + 256 * (match sideOf s g false with | some d => d.realign.toNat | none => 0)) s else s

/-- A receive member fails (R203). -/
def onMemberFail (g m : Nat) (s : State) : State :=
  match tget? s.braid g, sideOf s g false with
  | some b, some d =>
    match memberOf d m with
    | none => s
    | some x =>
      let s := evtMemberNow g false m 0 false s
      match d.st with
      | .aligned =>
        if x.weight = 0 then flushMember g m s
        else if b.tx.isNone then toAcquire g true s
        else updMember g false m (fun x => { x with nextPos := none, mark := none }) (flushMember g m s)
      | .acquire => if x.rxWork then toAcquire g false s else s
      | .idle => s
  | _, _ => s

/-- A receive member becomes healthy (R203, R206): an addition completes. -/
def onMemberHealthy (g m : Nat) (s : State) : State :=
  match (sideOf s g false).bind (fun d => memberOf d m) with
  | none => s
  | some x =>
    if x.adding then
      evtMemberNow g false m 0 true
        (updMember g false m (fun x => { x with adding := false, until_ := none, st := if x.weight != 0 then .working else .spare }) s)
    else evtMemberNow g false m 0 false s

/-- The lowest round boundary at or after a position. -/
def boundary (p : SPos) : Nat := if p.pos = 0 then p.round else roundNext p.round

/-- The start round S (R203): once every working member is healthy and has accepted a BGO since entry to ACQUIRE. The table is that of the
accepted STATE values; each member's queued stitches take their positions from its first ANCHOR, and those of rounds before S are
discarded: at once where their cells are full, else as the first stitch behind them is read. -/
def trySetS (g : Nat) (s : State) : State :=
  match sideOf s g false with
  | none => s
  | some d =>
    let work := d.members.filter (·.rxWork)
    if d.st != .acquire || d.start.isSome || work.isEmpty || work.any (fun m => m.fail || m.firstAnchor.isNone) then s
    else
      let S := (roundLast (work.filterMap (fun m => m.firstAnchor.map boundary))).getD 0
      let s := updSide g false (fun d => { d with members := d.members.map (fun m => { m with weight := weightIn s false (·.rxWork) d m }) }) s
      match sideOf s g false with
      | none => s
      | some d =>
        let place := fun (m : Member) =>
          match m.firstAnchor with
          | some a =>
            if m.weight = 0 then m
            else
              let r := m.stitches.foldl (fun (x : List (SPos × List Byte) × SPos) (e : SPos × List Byte) => (x.1 ++ [(x.2, e.2)], nextOwned d m.midx x.2)) ([], a)
              { m with stitches := r.1, nextPos := some r.2, st := .working }
          | none => m
        let cut := d.members.map (fun m =>
          let k := if m.weight = 0 then m.stitches.length else m.stitches.length - ((place m).stitches.filter (fun e => roundLe S e.1.round)).length
          (m, min k ((match queueAt s m.queue with | some q => 256 * qReadable q - q.readOff | none => 0) / 240)))
        let s := updSide g false (fun d => { d with
          start := some S, round := S, members := cut.map (fun (e : Member × Nat) => let m := place e.1; { m with stitches := m.stitches.drop e.2 }) }) s
        foldS cut (fun (e : Member × Nat) s => (engineRead e.1.queue (240 * e.2) [] s).2) s

/-- Group g's receive side after a change: its members' health, then S. While the engine domain is off the side is IDLE (R472). -/
def braidRxSettle (g : Nat) (s : State) : State :=
  match sideOf s g false with
  | none => s
  | some d =>
    let none_ := d.members.all (fun m => m.ch == goneCh)
    if none_ || !(domUp s 34) then
      if d.st == .idle && !(none_ && !d.members.isEmpty) then s
      else updSide g false (fun d => { d with
          st := .idle, start := none, lastN := none, members := if none_ then [] else d.members, clients := d.clients.map (fun c => { c with ssf := true }) })
        (if none_ then s else flushMembers g s)
    else
      let s := if d.st == .idle then toAcquire g false s else s
      let s := foldS (d.members.map (·.midx)) (fun i s =>
        match (sideOf s g false).bind (fun d => memberOf d i) with
        | none => s
        | some m =>
          let f := memberFailed s m
          if f == m.fail then s
          else
            let s := updMember g false i (fun m => { m with fail := f }) s
            if f then onMemberFail g i s else onMemberHealthy g i s) s
      trySetS g s

/-! ### Transmit side: changes (R205 to R209) -/

/-- A member's new STATE joins the next change; an earlier request for it is replaced. -/
def txRequest (g m : Nat) (work : Bool) (s : State) : State :=
  updSide g true (fun d => { d with requests := d.requests.filter (fun r => r.1 != m) ++ [(m, work)] }) s

/-- The highest ANCHOR round sent. -/
def maxAnchor (d : Side) : Nat := (roundLast ((d.members.filter (fun m => !m.bgo.isEmpty)).map (·.txAnchor.round))).getD d.round

/-- The requests become the pending change (R205): SCHED_PEND, each member's STATE of the new table, and N*, here given or the smallest
multiple of 1,024 at least 512 rounds beyond the highest ANCHOR sent. -/
def beginChange (g : Nat) (given : Option Nat) (s : State) : State :=
  updSide g true (fun d =>
    let work := fun (m : Member) => match d.requests.find? (fun r => r.1 == m.midx) with | some r => r.2 | none => m.st == .working
    { d with
      schedPend := true, requests := [],
      nStar := some (given.getD ((maxAnchor d + 512 + 1023) / 1024 * 1024 % roundMod)),
      members := d.members.map (fun m => { m with pendWork := some (work m), weightNext := weightIn s true work d m }) }) s

/-- A change begins when one is needed and none is pending; a READY standby waits for its partner's (R370). -/
def txChange (g : Nat) (s : State) : State :=
  match sideOf s g true with
  | some d => if d.schedPend || d.requests.isEmpty || !(ownDecides s) then s else beginChange g none (sendDecision s)
  | none => s

/-- The clients that fit a table, in ascending CIDX (R199): those beyond the capacity are suspended. -/
def fitClients (rmax W : Nat) (cs : List Client) (acc : Nat) : List (Nat × Bool) :=
  match cs with
  | [] => []
  | c :: r =>
    if capFits rmax W (acc + clientRate c) then (c.cidx, false) :: fitClients rmax W r (acc + clientRate c)
    else (c.cidx, true) :: r.map (fun x => (x.cidx, true))

/-- Suspend and resume the clients of a side by its active table; `given` is a mirrored set (R370). A suspended client's queue is
flushed. -/
def suspendClients (g : Nat) (given : Option Nat) (s : State) : State :=
  match sideOf s g true with
  | none => s
  | some d =>
    let ws := weightsOf d false
    let fit : List (Nat × Bool) := match given with
      | some w => d.clients.map (fun c => (c.cidx, w / 2 ^ c.cidx % 2 == 1))
      | none => fitClients (rateMax s true (fun m => m.weight != 0) d) (totalW ws) d.clients 0
    foldS d.clients (fun c s =>
      let sus := (fit.find? (fun e => e.1 == c.cidx)).elim c.suspended (·.2)
      let s := if sus && !c.suspended then (let old := s.pool.lostQ; let s := flushQ c.queue s; { s with pool.lostQ := old }) else s
      updClient g true c.cidx (fun c => { c with suspended := sus, deficit := if sus then 0 else c.deficit }) s) s

/-- The wait-to-restore of a group in ns (R208). -/
def braidWtr (s : State) (g : Nat) : Nat := match tget? s.braid g with | some b => (if b.wtr = 0 then 300 else b.wtr) * 1000000000 | none => 0

/-- The waiting removals of a transmit member complete (R207, R216). -/
def removesDone (g m : Nat) (s : State) : State :=
  match (sideOf s g true).bind (fun d => memberOf d m) with
  | some x => foldS (List.range x.removes) (fun _ => evtMemberNow g true m 0 true)
      (updMember g true m (fun x => { x with removing := false, removes := 0 }) s)
  | none => s

/-- The transmit side switches at N* (R205 to R208). -/
def txSwitch (g : Nat) (s : State) : State :=
  match sideOf s g true with
  | none => s
  | some d =>
    let n := d.nStar.getD 0
    let s := updSide g true (fun d => { d with
      schedAct := !d.schedAct, schedPend := false, nStar := none, lastN := some n, round := roundMax d.round n,
      members := d.members.map (fun m =>
        let w := m.pendWork.getD (m.st == .working)
        { m with
          weight := m.weightNext, pendWork := none,
          st := if w then .working else if m.st == .working then .adding else m.st,
          adding := m.adding && !w, until_ := if w then none else m.until_,
          replaced := !w && m.replaced,
          wtrUntil := if !w && m.st == .working && !m.removing && m.far then m.healthySince.map (· + braidWtr s g) else m.wtrUntil,
          withdrawAt := if m.removing && !w then m.withdrawAt.orElse (fun _ => some (s.now + 2 * subPeriod s true m)) else m.withdrawAt }) }) s
    let s := updSide g true (fun d => { d with givenSus := none }) (suspendClients g d.givenSus s)
    let s := updSide g true (fun d => { d with members := d.members.filter (fun m => m.ch != goneCh || m.weight != 0) }) s
    let s := evtBraidSched g true n s
    let s := foldS (d.members.filter (fun m => m.ch != goneCh)) (fun m s =>
      let w := m.pendWork.getD (m.st == .working)
      if m.adding && w then evtMemberNow g true m.midx 0 true s
      else if m.removing && !w then removesDone g m.midx s
      else if w != (m.st == .working) then evtMemberNow g true m.midx 0 false s else s) s
    txChange g s

/-- The lowest-MIDX spare that the far sink reports healthy and that no request or pending change promotes yet. -/
def spareFor (d : Side) : Option Member :=
  d.members.find? (fun m => m.st == .spare && m.far && !(d.schedPend && m.pendWork == some true) &&
    !(d.requests.any (fun r => r.1 == m.midx && r.2)))

/-- A WORKING transmit member is lost (R208): out of the schedule, and a spare promoted in the same change. -/
def txLost (g m : Nat) (s : State) : State :=
  match sideOf s g true with
  | none => s
  | some d =>
    if d.requests.any (fun r => r.1 == m && !r.2) || (d.schedPend && ((memberOf d m).bind (·.pendWork)) == some false) then s
    else
      let s := txRequest g m false s
      match spareFor d with
      | some p => txRequest g p.midx true (updMember g true m (fun m => { m with replaced := true }) s)
      | none => s

/-- Whether the slice of a transmit member is on. -/
def txSliceUp (s : State) (m : Member) : Bool :=
  match chanSlice s (chKey true m.ch) with | some sl => sliceUp s sl | none => false

/-- The far sink's report of a transmit member changes (R204, R206, R208). A member whose own slice is off has failed whatever report still
arrives. -/
def farChange (g m : Nat) (v : Bool) (s : State) : State :=
  match ((sideOf s g true).bind (fun d => memberOf d m)).filter (fun x => !v || txSliceUp s x) with
  | none => s
  | some x =>
    let s := updMember g true m (fun x => { x with
      far := v, fail := !v, healthySince := if v then some s.now else none,
      wtrUntil := if v && !x.adding && x.st == .adding && !x.removing && x.withdrawAt.isNone then some (s.now + braidWtr s g) else none }) s
    if v then
      if x.adding then
        if x.spareRole then
          evtMemberNow g true m 0 true (updMember g true m (fun x => { x with adding := false, until_ := none, st := .spare }) s)
        else txRequest g m true s
      else evtMemberNow g true m 0 false s
    else
      let s := evtMemberNow g true m 0 false s
      if x.st == .working then txLost g m s else s

/-- Group g's transmit side after a change: a member whose slice goes off has failed, and recovers as one that the far sink reports so (R208,
R220); working members that have failed leave the schedule, then a needed change begins. -/
def braidTxSettle (g : Nat) (s : State) : State :=
  match sideOf s g true with
  | none => s
  | some d =>
    let solo := match tget? s.braid g with | some b => b.rx.isNone | none => false
    let s := foldS (d.members.filter (fun m => !solo && m.ch != goneCh && m.far && !(txSliceUp s m))) (fun m s => farChange g m.midx false s) s
    let s := match sideOf s g true with
      | some d => foldS (d.members.filter (fun m => m.st == .working && ((!solo && !m.far) || m.ch == goneCh))) (fun m s => txLost g m.midx s) s
      | none => s
    txChange g s

/-- The replacement of a receive client in server signal fail, by its type (R120, R200). -/
def clientRepl (c : Client) : Nat := if !c.ssf then rNone else match c.type with | 0x20 => rLf | 0x22 => rGen | _ => rAis

/-- Every group after a change. -/
def braidSettle (s : State) : State :=
  foldS (s.braid.map (·.1)) (fun g s =>
    updSide g false (fun d => { d with clients := d.clients.map (fun c => { c with repl := clientRepl c }) })
      (braidTxSettle g (braidRxSettle g s))) s

/-- A receive member's queue was flushed by retirement or a descriptor error (R214): a healthy working member realigns the side, and in ACQUIRE
no stitch that the queue held can be placed any more, so that it starts again (R203). -/
def braidQueueLost (g n : Nat) (s : State) : State :=
  match sideOf s g false with
  | none => s
  | some d =>
    match d.members.find? (fun m => m.queue == n) with
    | none => s
    | some m =>
      let s := updMember g false m.midx (fun m => { m with stitches := [] }) s
      match d.st with
      | .aligned => if m.weight != 0 && !m.fail then toAcquire g true s else s
      | .acquire => toAcquire g false s
      | .idle => s

/-! ### Accepting a BGO (R192 to R194, R201, R204, R210, R211) -/

/-- FSN of a BGO's A bytes. -/
def bgoFsn (b : List Byte) : Nat :=
  (List.range 16).foldl (fun a j => a * 4 + ituBits (b.getD (2 * j) 0) 1 2) 0
/-- Block byte Bj. -/
def bgoByte (b : List Byte) (j : Nat) : Byte := b.getD (2 * j + 1) 0
/-- ANCHOR. -/
def bgoAnchor (b : List Byte) : SPos :=
  { round := beNat ((List.range 4).map (fun i => bgoByte b (3 + i))), pos := beNat [bgoByte b 7, bgoByte b 8] }
/-- TX_TIME in 1/65,536 ns (R11); it is sent in 1/256 ns. -/
def bgoTime (b : List Byte) : Nat := 256 * beNat ((List.range 6).map (fun i => bgoByte b (9 + i)))

/-- x − y modulo 2^40 ns, in 1/65,536 ns. -/
def dmod (x y : Nat) : Nat := (x + 72057594037927936 - y % 72057594037927936) % 72057594037927936
/-- The smallest apparent delay of a side's members: the one from which every other is the shortest way round. -/
def earliest (l : List Nat) : Option Nat := minBy (fun a => (l.map (fun b => dmod b a)).foldl max 0) l

/-- x − y modulo 2^40 ns, the shorter way round, in 1/65,536 ns. -/
def sdiff (x y : Nat) : Int := if dmod x y < 36028797018963968 then (dmod x y : Int) else (dmod x y : Int) - 72057594037927936

/-- The time by which the timestamps ran ahead of TX_TIME over a member's pairs, and how long these took (R201). -/
def rateOffset (l : List (Nat × Nat)) : Int × Int :=
  match l.head?, l.getLast? with
  | some a, some b => (sdiff b.1 a.1 - sdiff b.2 a.2, sdiff b.2 a.2)
  | _, _ => (0, 0)

/-- What the rate offset that the earliest member shows adds to an apparent delay between two timestamps. -/
def offsetOver (e : Member) (from_ to_ : Nat) : Int :=
  let r := rateOffset e.pairs
  if r.2 = 0 then 0 else r.1 * sdiff to_ from_ / r.2

/-- The timestamp of a member's last accepted BGO. -/
def lastStamp (m : Member) : Nat := match m.pairs.getLast? with | some p => p.1 | none => 0

/-- DELAY of every member in 100 ps (R201): the apparent delays' differences, corrected for the rate offset between the two timestamps by
the earliest member's pairs. What the engine's estimate differs by, within the accuracy of ±200 ps, is a free value (log 40). -/
def delays (s : State) (d : Side) : List Member × State :=
  match earliest ((d.members.filter (fun m => m.ch != goneCh)).filterMap (·.apparent)) with
  | none => (d.members, s)
  | some e =>
    let first := (d.members.find? (fun m => m.ch != goneCh && m.apparent == some e)).getD { midx := 0, ch := 0 }
    d.members.foldl (fun (a : List Member × State) m =>
      match m.apparent with
      | none => (a.1 ++ [m], a.2)
      | some x =>
        let r := drawInt a.2
        let diff : Int := (dmod x e : Int) - offsetOver first (lastStamp first) (lastStamp m)
        let v : Int := if x = e then 0 else diff * 10 / 65536 + clampI (-2) 2 r.1
        let v := v.toNat
        (a.1 ++ [{ m with delay := v, delayMax := max m.delayMax v }], r.2)) ([], s)

/-- Whether a member's apparent delay has jumped since its last sample. DESIGN CHOICE (log 40): it has when it leaves what the member's own
pairs let expect by more than 1 ns and a millionth of the time between, or, without two pairs, by more than 1 µs and a thousandth of it. -/
def delayJump (m : Member) (ts tx : Nat) : Bool :=
  match m.apparent with
  | none => false
  | some a =>
    let gap := sdiff (dmod ts tx) a - offsetOver m (lastStamp m) ts
    let t := (sdiff ts (lastStamp m)).natAbs
    decide ((if m.pairs.length < 2 then 65536000 + t / 1000 else 65536 + t / 1000000) < gap.natAbs)

/-- A waiting sample taken: the member's rate estimate starts again from it. -/
def jumpTake (m : Member) : Member :=
  match m.jump with
  | some (t, y, _) => { m with pairs := [(t, y)], apparent := some (dmod t y), jump := none }
  | none => m

/-- An accepted sample of a member. At a step of the far device's time the samples of all members jump, and DELAY is unaffected (R220): so a
sample that has jumped waits until the last healthy member's has jumped too, and all are taken together, or until another member's sample
sent after it shows no jump, and it is a change of the member's path. How the engine tells the two apart is a DESIGN CHOICE (log 40). -/
def pairStep (midx ts tx : Nat) (d : Side) : Side :=
  match memberOf d midx with
  | none => d
  | some m =>
    if delayJump m ts tx then
      let sent := match m.jump with | some (_, _, y) => y | none => dmod ts (m.apparent.getD 0)
      let ms := d.members.map (fun x => if x.midx = midx then { x with jump := some (ts, tx, sent) } else x)
      let all := (ms.filter (fun x => x.ch != goneCh && x.bgoAt.isSome && x.apparent.isSome)).all (fun x => x.jump.isSome)
      { d with members := if all then ms.map jumpTake else ms }
    else
      { d with members := d.members.map (fun x =>
          if x.midx = midx then
            let l := x.pairs ++ [(ts, tx)]
            { x with pairs := l.drop (l.length - 1024), apparent := some (dmod ts tx), jump := none }
          else match x.jump with
            | some (_, _, sent) => if 0 ≤ sdiff tx sent then jumpTake x else x
            | none => x) }

/-- dBRAID_SKEW of a member after an accepted BGO (R211). -/
def skewStep (maxDd : Nat) (m : Member) : Member :=
  if maxDd * 1000000 < m.delay then { m with skewDef := true, skewGood := 0 }
  else if m.delay + 100000 ≤ maxDd * 1000000 then
    if m.skewDef && 2 ≤ m.skewGood + 1 then { m with skewDef := false, skewGood := 0 } else { m with skewGood := m.skewGood + 1 }
  else { m with skewGood := 0 }

/-- The far sink's status byte for members 8i to 8i + 7 (R204). -/
def mstStep (g i : Nat) (b : Byte) (s : State) : State :=
  match sideOf s g true with
  | none => s
  | some d =>
    foldS (d.members.filter (fun m => m.midx / 8 = i)) (fun m s =>
      let v := ituBit b (m.midx % 8 + 1)
      let c := if m.mstCand = some v then m.mstCnt + 1 else 1
      let s := updMember g true m.midx (fun m => { m with mstCand := some v, mstCnt := min c 2 }) s
      if 2 ≤ c && v != m.far then farChange g m.midx v s else s) s

/-- The position that the ANCHOR last accepted of member m and n schedule stitches since imply while S is not set (R210): the table is that of the
accepted STATE values, known once every member has had a BGO accepted. -/
def acquirePos (s : State) (d : Side) (m : Member) (n : Nat) : Option SPos :=
  if d.start.isSome || !m.rxWork || d.members.any (fun x => x.anchor.isNone) then none
  else
    let e : Side := { d with members := d.members.map (fun x => { x with weight := weightIn s false (·.rxWork) d x }) }
    m.anchor.map (advance e m.midx n)

/-- A received member of group g after one BGO block: CRC, sequence, tag, STATE, schedule bits, delay. A SCHED_PEND that still announces the
switch just made is no new change (R205). -/
def bgoAccept (g midx : Nat) (b : List Byte) (ts : Nat) (s : State) : State :=
  match tget? s.braid g, sideOf s g false with
  | some br, some d =>
    match memberOf d midx with
    | none => s
    | some m =>
      if crc8 (b.take 31) != b.getD 31 0 then
        updMember g false midx (fun m => { m with
          subs := m.subs + 1, crcFails := min 3 (m.crcFails + 1), seqDef := m.seqDef || decide (3 ≤ m.crcFails + 1), goodBgos := 0 })
          (updSide g false (fun d => { d with bgoErr := d.bgoErr + 1 }) s)
      else
        let fsn := BitVec.ofNat 32 (bgoFsn b)
        let a := bgoAnchor b
        let tag := (bgoByte b 0).toNat
        let tc := if m.tagCnt != 0 && m.tag = tag then min 3 (m.tagCnt + 1) else 1
        let ctrl := bgoByte b 1
        let work := ituBits ctrl 1 2 == 1
        let act := ituBit ctrl 3
        let nNew := (a.round / 1024 + 1) * 1024 % roundMod
        let pend := ituBit ctrl 4 && (match d.lastN with | some n => !(roundLe nNew n) | none => true)
        let implied := if m.mark.isSome || m.nextPos.isSome then m.mark else acquirePos s d m m.markCnt
        let bad := (m.anchor.isSome && fsn != m.fsn + BitVec.ofNat 32 (16 * (m.subs + 1))) ||
          (match implied with | some p => p != a | none => false) ||
          (List.range 16).any (fun j => ituBits (b.getD (2 * j) 0) 3 8 != midx) || (tc = 3 && tag != br.tagExp)
        let good := if bad then 0 else min 2 (m.goodBgos + 1)
        let first := m.firstAnchor.isNone
        let resync := match m.mark with | some p => p != a | none => m.nextPos.isNone
        let s := updMember g false midx (fun m => { m with
          subs := 0, crcFails := 0, fsn := fsn, anchorCnt := m.schedSince, anchor := some a, hecSkips := if d.start.isNone then 0 else m.hecSkips, firstAnchor := if first then some a else m.firstAnchor,
          tag := tag, tagCnt := tc, goodBgos := good, seqDef := if bad then true else m.seqDef && decide (good < 2),
          rxWork := work, pendWork := if pend then some work else m.pendWork, bgoAt := some s.now,
          stitches := if first && d.start.isNone then m.stitches.drop (m.stitches.length - m.schedSince) else m.stitches,
          nextPos := if d.start.isSome && m.weight != 0 && resync then some (advance d midx m.schedSince a) else m.nextPos }) s
        let s := match sideOf s g false with
          | some d =>
            if due d.discardUntil s || d.discardUntil.isNone then
              updSide g false (fun _ => pairStep midx ts (bgoTime b) d) s
            else s
          | none => s
        let s := updSide g false (fun d => { d with
          schedAct := if d.start.isNone && !pend && !d.schedPend then act else d.schedAct,
          schedPend := d.schedPend || pend,
          nStar := if pend then some (match d.nStar with | some o => roundMax o nNew | none => nNew) else d.nStar,
          lastN := d.lastN.filter (fun n => d.members.any (fun m => m.bgoAt.isSome && (match m.anchor with | some a => !(roundLe n a.round) | none => false))),
          discardUntil := if due d.discardUntil s then none else d.discardUntil }) s
        let s := if pend && !d.schedPend && ownDecides s then sendDecision s else s
        let s := updSide g false (fun d => if !pend then d else
          let w := fun (m : Member) => m.pendWork.getD (!m.fail && m.weight != 0)
          { d with members := d.members.map (fun m => { m with weightNext := weightIn s false w d m }) }) s
        let s := match sideOf s g false with
          | some d =>
            let r := delays s d
            updSide g false (fun d => { d with members := r.1.map (fun m => if m.midx = midx then skewStep br.maxDd m else m) }) r.2
          | none => s
        mstStep g (bgoFsn b / 16 % 8) (bgoByte b 2) s
  | _, _ => s

/-- Frame 0 of a sub-multiframe of an ingress member's channel begins: the position expected there is noted (R193, R210). -/
def braidFrameZero (ch : Nat) (s : State) : State :=
  { s with braid := s.braid.map (fun (e : Nat × Braid) =>
      (e.1, { e.2 with rx := e.2.rx.map (fun d => { d with members := d.members.map (fun m =>
        if m.ch = ch then { m with mark := m.nextPos, schedSince := 0, markCnt := m.anchorCnt } else m) }) })) }

/-! ### Stitches (R190, R191, R200, R203) -/

/-- A schedule stitch put into its member's queue; an overflow of the reservation of an ALIGNED side realigns it (R203, R211). Where the
pool has no cell for it, the stitch is lost (R17, R238). -/
def queueStitch (g midx : Nat) (p : SPos) (b : List Byte) (s : State) : State :=
  match (sideOf s g false).bind (fun d => (memberOf d midx).map (fun m => (d, m))) with
  | none => s
  | some (d, m) =>
    match queueAt s m.queue with
    | none => s
    | some q =>
      let full := decide (q.limit * 256 < 256 * qCells q - q.readOff + 240)
      if full && d.st == .aligned then
        toAcquire g true (updMember g false midx (fun m => { m with skewDef := true, skewGood := 0 }) s)
      else
        let s' := streamPut 4 m.queue b s
        let same := fun (f : Queue → Nat) => (queueAt s' m.queue).map f == some (f q)
        if !(same (·.epoch.toNat)) then s'
        else if !(same (·.poolDrop.toNat)) || !(same (·.droppedBytes)) then dropStream m.queue b.length s
        else
          updMember g false midx (fun m => { m with
            stitches := (if full then m.stitches.drop 1 else m.stitches) ++ [(p, [])], skewDef := m.skewDef || full }) s'

/-- The position of an arriving schedule stitch: the expected one, or, after stitches whose SHEC failed, the next one that its SPOS
names (DEDUCED, log 8). -/
def placeStitch (d : Side) (m : Member) (p : SPos) (spos : Nat) : Option SPos :=
  ((List.range (m.hecSkips + 1)).map (fun k => advance d m.midx k p)).find? (fun x => x.pos % 256 == spos)

/-- One received stitch slot of member midx (R200): a bad SHEC counts, fillers are dropped, schedule stitches are placed and queued. -/
def stitchRx (g midx : Nat) (b : List Byte) (s : State) : State :=
  match (sideOf s g false).bind (fun d => (memberOf d midx).map (fun m => (d, m))) with
  | none => s
  | some (d, m) =>
    let kind := (b.getD 0 0).toNat / 64
    if crc8 (b.take 3) != b.getD 3 0 then
      updMember g false midx (fun m => { m with hecSkips := m.hecSkips + 1 }) (updSide g false (fun d => { d with hec := d.hec + 1 }) s)
    else if 2 ≤ kind then s
    else
      let s := updMember g false midx (fun m => { m with schedSince := m.schedSince + 1, anchorCnt := m.anchorCnt + 1 }) s
      let next := match m.nextPos with
        | some p => some p
        | none => match d.nStar with
          | some n => if d.start.isSome && m.weight = 0 && m.weightNext != 0 then some (ownedFrom d midx { round := n, pos := 0 }) else none
          | none => none
      match next with
      | none =>
        let s := match acquirePos s d m m.anchorCnt with
          | some p =>
            let hit := (List.range (m.hecSkips + 1)).any (fun k => ((acquirePos s d m (m.anchorCnt + k)).getD p).pos % 256 == (b.getD 2 0).toNat)
            updMember g false midx (fun m => { m with
              sposFails := if hit then 0 else min 3 (m.sposFails + 1), seqDef := m.seqDef || (!hit && decide (3 ≤ m.sposFails + 1)),
              goodBgos := if hit then m.goodBgos else 0 }) s
          | none => s
        if d.start.isNone && !m.fail then queueStitch g midx { round := 0, pos := 0 } b s else s
      | some p =>
        let spos := (b.getD 2 0).toNat
        let hit := placeStitch d m p spos
        let q := hit.getD p
        let s := updMember g false midx (fun m => { m with
          nextPos := some (nextOwned d midx q), hecSkips := 0, sposFails := if hit.isSome then 0 else min 3 (m.sposFails + 1),
          seqDef := m.seqDef || (hit.isNone && decide (3 ≤ m.sposFails + 1)), goodBgos := if hit.isNone then 0 else m.goodBgos }) s
        if !m.fail && roundLe d.round q.round then queueStitch g midx q b s else s

/-- Client bytes to the fabric under the client's FABRIC_CH (R189). -/
def clientToFabric (g c : Nat) (bs : List Byte) (s : State) : State :=
  match (sideOf s g false).bind (fun d => d.clients.find? (fun x => x.cidx == c)) with
  | none => s
  | some x =>
    let all := x.txBytes ++ bs
    let s := updClient g false c (fun x => { x with lastData := some s.now, ssf := false }) s
    if 504 ≤ all.length then
      pushFrame x.slice (131072 + 64 * g + c)
        { type := 1, channel := BitVec.ofNat 24 x.fabricCh, seq := x.txSeq, payload := all.take 504 }
        (updClient g false c (fun x => { x with txBytes := all.drop 504, txSeq := x.txSeq + 1 }) s)
    else updClient g false c (fun x => { x with txBytes := all }) s

/-- One position of a round read (R200, R203): the stitch of its owner's queue, or a lost position. A stitch whose cell was uncorrectable
(R246) fails its SHEC. -/
def readPosition (g r : Nat) (ue : List Nat) (pos m : Nat) (s : State) : State :=
  match (sideOf s g false).bind (fun d => memberOf d m) with
  | none => s
  | some x =>
    let skip := x.stitches.findIdx (fun e => e.1 == { round := r, pos := pos })
    if x.fail || x.stitches.length ≤ skip then updSide g false (fun d => { d with lost := d.lost + 1 }) s
    else
      let got := engineRead x.queue (240 * (skip + 1)) ue s
      match got.1 with
      | none => updSide g false (fun d => { d with lost := d.lost + 1 }) got.2
      | some bs =>
        let b := bs.drop (240 * skip)
        let s := updMember g false m (fun x => { x with stitches := x.stitches.drop (skip + 1) }) got.2
        let h := (b.getD 0 0).toNat
        if crc8 (b.take 3) != b.getD 3 0 then updSide g false (fun d => { d with hec := d.hec + 1 }) s
        else if h / 64 = 1 then s
        else
          match (sideOf s g false).bind (fun d => d.clients.find? (fun c => c.cidx == h % 64)) with
          | some c => clientToFabric g c.cidx ((b.drop 4).take (min 236 (b.getD 1 0).toNat)) s
          | none => updSide g false (fun d => { d with hec := d.hec + 1 }) s

/-- The bytes a queue holds in full cells. -/
def queueBytes (q : Queue) : Nat := 256 * qReadable q - q.readOff
/-- Whether a member holds its stitches of round r where its reader can take them: in cells written full (R233). -/
def holdsRound (s : State) (m : Member) (r : Nat) : Bool :=
  (match m.nextPos with | some p => roundLe (roundNext r) p.round | none => false) &&
    (match queueAt s m.queue with
     | some q => decide (240 * (m.stitches.takeWhile (fun e => roundLe e.1.round r)).length ≤ queueBytes q)
     | none => false)

/-- A round read out (R203): from ACQUIRE once every working member holds round S, the side is ALIGNED; each round is read as soon as every
healthy working member holds it, and none at or beyond a switch that has not happened. -/
def roundRead (g : Nat) (ue : List Nat) (s : State) : State :=
  match sideOf s g false with
  | none => s
  | some d =>
    let work := d.members.filter (fun m => m.weight != 0)
    let ready := work.all (fun m => (m.fail && d.st == .aligned) || holdsRound s m d.round)
    if !(domUp s 34) || d.start.isNone || work.isEmpty || !ready || (d.schedPend && d.nStar == some d.round) then s
    else
      let s := updSide g false (fun d => { d with st := .aligned }) s
      let o := owners (weightsOf d false)
      let s := foldS (List.range o.length) (fun pos s => readPosition g d.round ue pos (o.getD pos 64) s) s
      updSide g false (fun d => { d with round := roundNext d.round }) s

/-- The receive side switches at N* (R205); to a table with no working member it goes to ACQUIRE (R220). -/
def rxSwitch (g : Nat) (s : State) : State :=
  match sideOf s g false with
  | none => s
  | some d =>
    let n := d.nStar.getD 0
    let s := updSide g false (fun d => { d with
      schedAct := !d.schedAct, schedPend := false, nStar := none, lastN := some n,
      members := d.members.map (fun m =>
        let w := m.weightNext != 0
        { m with weight := m.weightNext, pendWork := none,
                 st := if w then .working else if m.adding then .adding else .spare }) }) s
    let s := evtBraidSched g false n s
    let s := updSide g false (fun d => { d with members := d.members.filter (fun m => m.ch != goneCh || m.weight != 0) }) s
    let s := foldS (d.members.filter (fun m => m.ch != goneCh)) (fun m s => if (m.weightNext != 0) != (m.st == .working) then evtMemberNow g false m.midx 0 false s else s) s
    if d.st == .aligned && d.members.all (fun m => m.weightNext = 0) then toAcquire g false s else s

/-! ### Forming rounds (R197, R199) -/

/-- What a client's deficit grows by at each position, in 10^-9 bytes (R199). -/
def deficitStep (rmax W rate : Nat) : Nat := if rmax = 0 || W = 0 then 0 else rate * 122368 * 1024 * 10000000000000 / (504 * rmax * 9999 * W)

/-- A stitch's header and body (R191). -/
def stitch (kind cidx pos : Nat) (data : List Byte) : List Byte :=
  let h := [BitVec.ofNat 8 (64 * kind + cidx), BitVec.ofNat 8 data.length, BitVec.ofNat 8 pos]
  h ++ [crc8 h] ++ data ++ List.replicate (236 - data.length) 0

/-- One position of a round formed: the client with the largest deficit among those whose queue holds data, else an idle stitch. -/
def formPosition (g rmax W r : Nat) (ue : List Nat) (pos m : Nat) (s : State) : State :=
  let s := updSide g true (fun d => { d with clients := d.clients.map (fun c =>
    if c.suspended then c else { c with deficit := c.deficit + (deficitStep rmax W (clientRate c) : Int) }) }) s
  match sideOf s g true with
  | none => s
  | some d =>
    let ready := d.clients.filter (fun c => !c.suspended && (match queueAt s c.queue with | some q => decide (0 < queueBytes q) | none => false))
    let put := fun (b : List Byte) (s : State) => updMember g true m (fun x => { x with stitches := x.stitches ++ [({ round := r, pos := pos }, b)] }) s
    match maxBy (fun c => c.deficit) ready with
    | none => put (stitch 1 0 pos []) s
    | some c =>
      match queueAt s c.queue with
      | none => s
      | some q =>
        let n := min 236 (queueBytes q)
        let got := engineRead c.queue n ue s
        match got.1 with
        | none => put (stitch 1 0 pos []) got.2
        | some data => put (stitch 0 c.cidx pos data)
            (updClient g true c.cidx (fun c => { c with deficit := c.deficit - (n * 1000000000 : Nat) }) got.2)

/-- The source forms a round (R197, R199); at a switch it waits for the new table. -/
def roundFormed (g : Nat) (ue : List Nat) (s : State) : State :=
  match sideOf s g true with
  | none => s
  | some d =>
    let ws := weightsOf d false
    if !(domUp s 34) || totalW ws = 0 || (d.schedPend && d.nStar == some d.round) then s
    else
      let o := owners ws
      let rmax := rateMax s true (fun m => m.weight != 0) d
      let s := foldS (List.range o.length) (fun pos s => formPosition g rmax (totalW ws) d.round ue pos (o.getD pos 64) s) s
      updSide g true (fun d => { d with round := roundNext d.round }) s

/-! ### Member frames (R190 to R193) -/

/-- The MST byte for members 8i to 8i + 7: the group's own receive side. -/
def mstByte (s : State) (g i : Nat) : Byte :=
  match sideOf s g false with
  | some d => BitVec.ofNat 8 (((List.range 8).map (fun j =>
      match memberOf d (8 * i + j) with | some m => if m.fail then 0 else 2 ^ (7 - j) | none => 0)).foldl (· + ·) 0)
  | none => 0

/-- The ANCHOR of a member's next sub-multiframe: its first waiting stitch, else the next it will form. -/
def anchorOf (d : Side) (m : Member) : SPos :=
  match m.stitches with
  | e :: _ => e.1
  | [] => if totalW (tableAt d d.round) = 0 then { round := d.round, pos := 0 } else ownedFrom d m.midx { round := d.round, pos := 0 }

/-- The 32 BGO bytes of a sub-multiframe (R192, R193). An ANCHOR before the last switch goes with that switch still pending, its table's
STATE and the SCHED_ACT of before (R205). -/
def bgoBytes (s : State) (g : Nat) (d : Side) (tag : Nat) (m : Member) : List Byte :=
  let a := anchorOf d m
  let after := match d.nStar with | some n => d.schedPend && roundLe n a.round | none => false
  let before := match d.lastN with | some n => !(roundLe n a.round) | none => false
  let pend := before || (d.schedPend && !after)
  let work := if d.schedPend && !before then m.pendWork.getD (m.st == .working) else m.st == .working
  let act := if after || before then !d.schedAct else d.schedAct
  let fsn := m.fsn.toNat
  let ctrl : Byte := BitVec.ofNat 8 (64 * b2n work + 32 * b2n act + 16 * b2n pend)
  let t := devFine s / 256 % 281474976710656
  let block := [BitVec.ofNat 8 tag, ctrl, mstByte s g (fsn / 16 % 8)] ++ natBe 4 a.round ++ natBe 2 a.pos ++ natBe 6 t
  let body := (List.range 16).flatMap (fun j =>
    [BitVec.ofNat 8 (64 * (fsn / 2 ^ (30 - 2 * j) % 4) + m.midx), block.getD j 0])
  body.take 31 ++ [crc8 (body.take 31)]

/-- The 63 slots of a frame (R190, R197): the waiting stitches in order, then fillers. -/
def memberSlots (l : List (SPos × List Byte)) : List (List Byte) := l.map (·.2) ++ List.replicate (63 - l.length) (stitch 2 0 0 [])
/-- Columns 17 to 3824 of the four rows of a member's OPU (R190): 15,120 bytes of slots over the rows, 28 columns of fixed stuff in each. -/
def memberPayload (slots : List (List Byte)) : List (List Byte) :=
  (List.range 4).map (fun r => (slots.flatten.drop (3780 * r)).take 3780 ++ List.replicate 28 0)

/-- A frame of an egress member's channel begins, n its MFAS: at frame 0 of a sub-multiframe the overhead is drawn up; the two EXP bytes of
the frame, and the member's slots take up to 63 waiting stitches, fillers alone while the engine domain is off (R190, R472). -/
def memberFrame (ch n : Nat) (s : State) : Option (Byte × Byte) × State :=
  match s.braid.findSome? (fun e => match e.2.tx with
      | some d => (d.members.find? (fun m => m.ch == ch)).map (fun m => (e.1, e.2, d, m))
      | none => none) with
  | none => (none, s)
  | some (g, b, d, m) =>
    let s := if n % 16 != 0 then s
      else
        let f : BitVec 32 := if m.bgo.isEmpty then m.fsn else m.fsn + 16
        let m := { m with fsn := f }
        let s := updMember g true m.midx (fun x => { x with fsn := f, txAnchor := anchorOf d m, bgo := bgoBytes s g d b.tagTx m }) s
        updSide g true (fun d => { d with lastN := d.lastN.filter (fun n => d.members.any (fun m => !(roundLe n (anchorOf d m).round))) }) s
    let bgo := match (sideOf s g true).bind (fun d => memberOf d m.midx) with | some m => m.bgo | none => []
    let s := updMember g true m.midx (fun m =>
      let k := if domUp s 34 then 63 else 0
      { m with slots := memberSlots (m.stitches.take k), stitches := m.stitches.drop k }) s
    (some (bgo.getD (2 * (n % 16)) 0, bgo.getD (2 * (n % 16) + 1) 0), s)

/-! ### Withdrawal -/

/-- A member leaves its side: its queue is released; the last one leaves the receive side IDLE (R203, R206, R207). -/
def dropMember (g : Nat) (tx : Bool) (m : Nat) (s : State) : State :=
  match (sideOf s g tx).bind (fun d => memberOf d m) with
  | none => s
  | some x =>
    let s := if tx then s else dropQueue x.queue s
    updSide g tx (fun d => { d with members := d.members.filter (fun y => y.midx != m), requests := d.requests.filter (fun r => r.1 != m) }) s

end Sys2Proof.Machine
end

