-- ==== Sys2Proof/Machine/Merge.lean ====
section
/-! DEFINITION. Welt pairs and bridges (09_welt_and_line_protection.md, R269 to R279): the sequence overhead, range, copy states, playout,
acquisition, and what disables a pair. Times are device time in units of 1/65,536 ns (R11). -/

namespace Sys2Proof.Machine

/-- s with pair w changed by f, where it exists. -/
def updWelt (w : Nat) (f : Welt → Welt) (s : State) : State := { s with welt := tupd s.welt w f }
/-- A copy of a pair: false copy 0. -/
def copyOf (p : Welt) (c : Bool) : Copy := if c then p.c1 else p.c0
/-- p with a copy changed by f. -/
def modCopy (c : Bool) (f : Copy → Copy) (p : Welt) : Welt := if c then { p with c1 := f p.c1 } else { p with c0 := f p.c0 }

/-- n frame periods of an ODU of a rate in kbit/s, in 1/65,536 ns. -/
def framesFine (rate n : Nat) : Nat := if rate = 0 then 0 else n * 122368 * 65536000000 / rate
/-- T_dec of a rate (R273). -/
def tDec (rate : Nat) : Nat := framesFine rate 66 + 25000 * 65536
/-- The nominal block period. -/
def blockPeriod (rate : Nat) : Nat := framesFine rate 64
/-- WINDOW of a pair. -/
def windowFine (p : Welt) : Nat := p.window * 100000 * 65536

/-- The signed distance from BSN a to BSN b modulo 2^32. -/
def bsnDiff (a b : Nat) : Int := sx 32 ((b + 4294967296 - a % 4294967296) % 4294967296)
/-- The playout point of a block. -/
def playoutOf (p : Welt) (bsn : Nat) : Int := (p.playAt.getD 0 : Int) + bsnDiff p.nextBsn bsn * (p.period : Int)
/-- Whether a block that starts at `start` is early, or late, for its playout point (R273). -/
def tooEarly (p : Welt) (bsn start : Nat) : Bool := decide ((start : Int) < playoutOf p bsn - windowFine p)
/-- Late. -/
def tooLate (rate : Nat) (p : Welt) (bsn start : Nat) : Bool := decide (playoutOf p bsn - tDec rate < (start : Int))

/-- The code of a copy state. -/
def copyCode (c : Copy) : Nat := match c.st with | .absent => 0 | .isIn => 1 | .isOut => 2
/-- The code of a pair state (R284). -/
def weltCode (p : Welt) : Nat := match p.st with | .acquire => 1 | .run => 2 | .disabled => 3

/-- EVT_WELT_STATE (R286). -/
def evtWelt (w reason : Nat) (s : State) : State :=
  match tget? s.welt w with
  | some p => raise 0x0803 clsState 7 w (w + 4096 * weltCode p + 16384 * copyCode p.c0 + 65536 * copyCode p.c1) reason 0 0 s
  | none => s

/-- A copy's state set, with its event where it changes. -/
def setCopyState (w : Nat) (c : Bool) (st : CopyState) (s : State) : State :=
  match tget? s.welt w with
  | none => s
  | some p =>
    if (copyOf p c).st == st then s
    else evtWelt w 1 (updWelt w (modCopy c (fun x => { x with st := st })) s)

/-- dWELT_RANGE and the instants of R277, after a change. -/
def weltTimes (now : Nat) (p : Welt) : Welt :=
  let out := p.c0.st == .isOut || p.c1.st == .isOut
  let noIn := p.st == .run && p.c0.st != .isIn && p.c1.st != .isIn
  { p with range := out, rangeSince := if out then (if p.rangeSince.isSome then p.rangeSince else some now) else none,
           noInSince := if noIn then (if p.noInSince.isSome then p.noInSince else some now) else none }

/-- A copy's blocks under a signal fail of its ODU (R276): every block whose decision time has not passed has failed. -/
def weltSfStep (rate : Nat) (s : State) (x : Copy) : Copy :=
  let sf := chanSf s (chKey false x.ch)
  let t := devFine s
  if sf || x.sf then
    { x with sf := sf, sfLast := some t,
             blocks := x.blocks.map (fun b => if t ≤ b.start + tDec rate then { b with failed := true } else b) }
  else { x with sf := sf }

/-- Whether the read-out is from copy 1's slice: copy 0's is off or isolated (R272). -/
def readAltNow (s : State) (p : Welt) : Bool :=
  match chanSlice s (chKey false p.c0.ch) with | some sl => !(sliceUp s sl) | none => true

/-- The key under which a pair's frames wait. -/
def weltTxKey (w : Nat) : Nat := 2097152 + w
/-- The read-out of pair w moves from one slice to another (R272, R287): it goes on with the last frame not completely sent, and so with all
that waited after it. -/
def moveReadout (w src dst : Nat) (s : State) : State :=
  let fs := (tget s.sliceTx {} src).frames.filter (fun e => e.1 == weltTxKey w)
  if src = dst || fs.isEmpty then s
  else
    let t := tmod s.sliceTx {} src (fun t => { t with frames := t.frames.filter (fun e => e.1 != weltTxKey w) })
    { s with sliceTx := tmod t {} dst (fun t => { t with frames := t.frames ++ fs }) }

/-- Every pair after a change. -/
def weltSettle (s : State) : State :=
  foldS (s.welt.map (·.1)) (fun w s =>
    match tget? s.welt w with
    | none => s
    | some p =>
      let r := weltRate s p
      let alt := readAltNow s p
      let s := updWelt w (fun p => weltTimes s.now { p with c0 := weltSfStep r s p.c0, c1 := weltSfStep r s p.c1, readAlt := alt }) s
      if alt == p.readAlt || p.st == .disabled then s
      else
        let at_ := fun (c : Copy) => (chanSlice s (chKey false c.ch)).getD 0
        let s := if alt then moveReadout w (at_ p.c0) (at_ p.c1) s else moveReadout w (at_ p.c1) (at_ p.c0) s
        if p.st == .run then evtWelt w 3 s else s) s

/-! ### Acquisition (R274, R277) -/

/-- A copy's queue flushed by the pair itself. -/
def flushCopy (q : Nat) (s : State) : State :=
  let old := s.pool.lostQ
  let s := flushQ q s
  { s with pool.lostQ := old }

/-- Back to ACQUIRE with both queues flushed and REALIGN counted. -/
def weltRealign (w : Nat) (s : State) : State :=
  match tget? s.welt w with
  | none => s
  | some p =>
    let s := flushCopy p.c1.queue (flushCopy p.c0.queue s)
    let clear := fun (c : Copy) => { c with blocks := [], st := .absent, inRun := 0, outRun := 0, lastBsn := none, lastAt := none, counting := false }
    evtWelt w 2 (updWelt w (fun p => weltTimes s.now { p with
      st := .acquire, c0 := clear p.c0, c1 := clear p.c1, firstAt := none, playAt := none, realign := p.realign + 1, txBytes := [] }) s)

/-- The start of block b on a copy: seen, or extrapolated from its latest block by the block period. -/
def startOf (period : Nat) (c : Copy) (b : Nat) : Option Int :=
  match c.blocks.find? (fun x => x.bsn == b) with
  | some x => some x.start
  | none => c.lastBsn.map (fun l => (c.lastStart : Int) + bsnDiff l b * (period : Int))

/-- How many blocks, latest first, have a property one after another, back to the one that consecutive blocks count from. -/
def runOf (f : Block → Bool) (l : List Block) : Nat :=
  match l with
  | [] => 0
  | b :: r => if f b then (if b.cut then 1 else runOf f r + 1) else 0
/-- Whether a copy has had no accepted WSO for three block periods (R275). -/
def copySilent (per now : Nat) (c : Copy) : Bool := match c.lastAt with | some t => decide (t + 3 * per / 65536 ≤ now) | none => true
/-- A copy that has been silent for three block periods. -/
def silenced (per now : Nat) (c : Copy) : Copy := if copySilent per now c then { c with lastAt := none, inRun := 0, outRun := 0 } else c
/-- A copy's state from its blocks so far (R274, R275): the run of in-range or out-of-range blocks at its end, absent on a mismatch or a silence. -/
def judgeCopy (per now : Nat) (c : Copy) : Copy :=
  let i := runOf (·.inRange) c.blocks.reverse
  let o := runOf (fun b => !b.inRange) c.blocks.reverse
  silenced per now { c with inRun := min 3 i, outRun := min 3 o
                            st := if c.mismatch || copySilent per now c then .absent else if 3 ≤ i then .isIn else if 3 ≤ o then .isOut else .absent }

/-- Playout anchored and RUN entered (R274). -/
def weltAnchor (w : Nat) (s : State) : State :=
  match tget? s.welt w with
  | none => s
  | some p =>
    let rate := weltRate s p
    let per := blockPeriod rate
    let firsts := (p.c0.blocks.head?.toList ++ p.c1.blocks.head?.toList).map (·.bsn)
    match firsts with
    | [] => s
    | f :: r =>
      let b := r.foldl (fun a x => if bsnDiff a x < 0 then x else a) f
      let starts := [startOf per p.c0 b, startOf per p.c1 b].filterMap id
      let m := starts.foldl (fun (a : Option Int) x => match a with | some y => some (min x y) | none => some x) none
      let p' : Welt := { p with st := .run, nextBsn := b, playAt := some ((m.getD 0 + windowFine p).toNat), period := per }
      let rng := fun (c : Copy) => judgeCopy per s.now { c with blocks := c.blocks.map (fun x =>
        { x with inRange := !(tooEarly p' x.bsn x.start) && !(tooLate rate p' x.bsn x.start) }) }
      let s := updWelt w (fun _ => weltTimes s.now { p' with c0 := rng p.c0, c1 := rng p.c1 }) s
      if (rng p.c0).st != p.c0.st || (rng p.c1).st != p.c1.st then evtWelt w 1 s else s

/-! ### Accepting a WSO (R271 to R273, R275, R279) -/

/-- DELAY for a block accepted on both copies, in 100 ps; earlier blocks wait for their other copy no longer. -/
def weltDelay (bsn : Nat) (p : Welt) : Welt :=
  match p.c0.starts.find? (fun e => e.1 == bsn), p.c1.starts.find? (fun e => e.1 == bsn) with
  | some a, some b =>
    let d : Int := ((b.2 : Int) - (a.2 : Int)) * 10 / 65536
    let later := fun (c : Copy) => { c with starts := c.starts.filter (fun e => decide (0 < bsnDiff bsn e.1)) }
    { p with delay := d, delayMax := max p.delayMax d.natAbs, c0 := later p.c0, c1 := later p.c1 }
  | _, _ => p

/-- The first repetition of a WSO whose CRC passes (R272). -/
def wsoOf (reps : List (List Byte)) : Option (List Byte) := reps.find? (fun b => crc8 (b.take 7) == b.getD 7 0)

/-- The repetitions of a block's WSO that a copy has received, `ended` when the block brings no more: the block is accepted from the first whose
CRC passes, and one with none is counted. Its violations so far are those of the checks that have arrived (R276). -/
def wsoAccept (w : Nat) (c : Bool) (reps : List (List Byte)) (start : Nat) (ended : Bool) (s : State) : State :=
  match tget? s.welt w with
  | none => s
  | some p =>
    if p.st == .disabled then s
    else
      match wsoOf reps with
      | none => if ended then updWelt w (fun p => { p with wsoErr := p.wsoErr + 1 }) s else s
      | some b =>
        let tag := (b.getD 0 0).toNat
        let bsn := beNat ((b.drop 2).take 4)
        let x := copyOf p c
        let rate := weltRate s p
        let tc := if x.tagCnt != 0 && x.tag = tag then min 3 (x.tagCnt + 1) else 1
        let mis := if tc = 3 then tag != p.wtag else x.mismatch
        let jump := match x.lastBsn with | some l => (l + 1) % 4294967296 != bsn | none => false
        let cut := jump || x.lastAt.isNone
        let early := p.st == .run && tooEarly p bsn start
        let late := p.st == .run && !early && tooLate rate p bsn start
        let inR := !early && !late
        let failed := x.sf || chanSf s (chKey false x.ch) || (match x.sfLast with | some t => decide (start ≤ t) | none => false)
        let inRun := if p.st != .run then 0 else if inR then (if cut then 1 else min 3 (x.inRun + 1)) else 0
        let outRun := if p.st != .run || inR then 0 else (if cut then 1 else min 3 (x.outRun + 1))
        let blk : Block := { bsn := bsn, start := start, inRange := inR, failed := failed, skipped := x.skip, viol := x.viol, held := inR, cut := cut }
        let meas := match x.lastBsn with | some l => if !jump && l != bsn then some (start - x.lastStart) else none | none => none
        let s := updWelt w (fun p => weltDelay bsn (modCopy c (fun x => { x with
            lastBsn := some bsn, lastStart := start, lastAt := some s.now, tag := tag, tagCnt := tc, mismatch := mis,
            inRun := inRun, outRun := outRun, blocks := x.blocks ++ [blk], counting := true, starts := x.starts ++ [(bsn, start)] })
          { p with seqErr := p.seqErr + w32 (b2n jump), early := p.early + w32 (b2n early), late := p.late + w32 (b2n late),
                   firstAt := if p.firstAt.isSome then p.firstAt else some s.now,
                   period := match meas with
                     | some t => if p.st == .run && x.st == .isIn then Config.blockFilter p.period t else p.period
                     | none => p.period })) s
        if p.st == .acquire then
          (match tget? s.welt w with
           | some q => if q.c0.lastBsn.isSome && q.c1.lastBsn.isSome then weltAnchor w s else s
           | none => s)
        else
          let st := if mis || jump then .absent else if inRun = 3 then .isIn else if outRun = 3 then .isOut else x.st
          setCopyState w c st s

/-! ### Playout (R272, R276) -/

/-- The bytes of a block: 64 ODU frames of 15,296 bytes. -/
def blockBytes : Nat := 978944
/-- The output of a block with its EXP bytes 0. -/
def zeroExp (bs : List Byte) : List Byte :=
  (List.range bs.length).zipWith (fun i b => if i % 15296 = 7660 || i % 15296 = 7661 then 0 else b) bs
/-- A block of ODU-AIS (R122): frame alignment and MFAS, ones elsewhere. -/
def aisBlock : List Byte :=
  (List.range 64).flatMap (fun n => fasBytes ++ [BitVec.ofNat 8 n] ++ List.replicate 15289 0xFF)

/-- Bytes of the merged output as STREAM frames from the read-out slice. -/
def weltOut (w : Nat) (bs : List Byte) (s : State) : State :=
  match tget? s.welt w with
  | none => s
  | some p =>
    let all := p.txBytes ++ bs
    let n := all.length / 504
    let sl := (chanSlice s (chKey false (if p.readAlt then p.c1.ch else p.c0.ch))).getD 0
    let s := updWelt w (fun p => { p with txBytes := all.drop (504 * n), seq := p.seq + BitVec.ofNat 16 n }) s
    foldS (List.range n) (fun i s =>
      pushFrame sl (weltTxKey w) { type := 1, channel := BitVec.ofNat 24 p.fabricCh, seq := p.seq + BitVec.ofNat 16 i,
                                   payload := (all.drop (504 * i)).take 504 } s) s

/-- The grade of a copy's block (R276), held where its queue has it in full cells (R233): 0 absent, 1 failed, 2 unverified, 3 errored, 4 clean; with its violations. -/
def gradeOf (s : State) (c : Copy) (bsn : Nat) : Nat × Nat :=
  match c.blocks.find? (fun b => b.bsn == bsn) with
  | none => (0, 0)
  | some b =>
    let whole := match queueAt s c.queue with | some q => decide (blockBytes ≤ queueBytes q) | none => false
    if !b.held || !b.inRange || !whole then (0, 0)
    else if b.failed then (1, b.viol) else if b.skipped then (2, b.viol) else if 0 < b.viol then (3, b.viol) else (4, b.viol)

/-- The selection of R276: none plays ODU-AIS. -/
def weltSelect (g0 g1 : Nat × Nat) (prev : Bool) : Option Bool :=
  if max g0.1 g1.1 ≤ 1 then none
  else if g0.1 != g1.1 then some (decide (g0.1 < g1.1))
  else if g0.1 = 3 && g0.2 != g1.2 then some (decide (g1.2 < g0.2))
  else some prev

/-- The block leaves a copy: its bytes leave the queue. -/
def dropBlock (bsn : Nat) (c : Copy) : Copy := { c with blocks := c.blocks.filter (fun b => decide (0 < bsnDiff bsn b.bsn)) }

/-- The next block at its playout point (R276), with the cells that prove uncorrectable as it is read (R246). HOLD is each copy's, of its latest
block to be played out, as the example of chapter 9 reads it. -/
def weltPlayout (w : Nat) (ue : List Nat) (s : State) : State :=
  match tget? s.welt w with
  | none => s
  | some p =>
    let bsn := p.nextBsn
    let g0 := gradeOf s p.c0 bsn
    let g1 := gradeOf s p.c1 bsn
    let own := weltSelect g0 g1 p.prev
    let sel := if ownDecides s then own
      else match p.decided with | some (b, c) => if b = bsn && own.isSome then some c else own | none => own
    let hold := fun (c : Copy) => match c.blocks.find? (fun b => b.bsn == bsn) with
      | some b => if b.held && sel.isSome then (p.playAt.getD 0 - b.start) / 65536000 else c.hold
      | none => c.hold
    let take := fun (c : Copy) (s : State) =>
      if c.blocks.any (fun b => b.bsn == bsn && b.held) then engineRead c.queue blockBytes ue s else (none, s)
    let r0 := take p.c0 (if ownDecides s then sendDecision s else s)
    let r1 := take p.c1 r0.2
    let data := match sel, (if sel = some true then r1.1 else r0.1) with
      | some _, some bs => zeroExp bs
      | _, _ => aisBlock
    let gs := if sel = some true then g1 else g0
    let go := if sel = some true then g0 else g1
    let moved := match sel with | some c => c != p.prev | none => false
    let unrec := sel.isSome && gs.1 = 3
    let s := updWelt w (fun p => { p with
      c0 := dropBlock bsn { p.c0 with hold := hold p.c0, played := p.c0.played + w32 (b2n (sel == some false)) },
      c1 := dropBlock bsn { p.c1 with hold := hold p.c1, played := p.c1.played + w32 (b2n (sel == some true)) },
      prev := sel.getD p.prev, last := sel.getD p.last,
      switches := p.switches + w32 (b2n moved),
      rescued := p.rescued + w32 (b2n (sel.isSome && gs.1 = 4 && go.1 ≤ 3)),
      unrecovered := p.unrecovered + w32 (b2n unrec), aisBlocks := p.aisBlocks + w32 (b2n sel.isNone),
      esNow := p.esNow || unrec || sel.isNone,
      nextBsn := (bsn + 1) % 4294967296, playAt := some (p.playAt.getD 0 + p.period) }) r1.2
    weltOut w data s

/-- Whether a Welt copy's queue takes written bytes now: its latest block is in range (R273). -/
def weltTakes (s : State) (n : Nat) : Bool :=
  s.welt.any (fun e => e.2.st != .disabled &&
    ((e.2.c0.queue == n && (match e.2.c0.blocks.getLast? with | some b => b.held | none => false)) ||
     (e.2.c1.queue == n && (match e.2.c1.blocks.getLast? with | some b => b.held | none => false))))

/-! ### Disabling and the budget (R41, R277, R472) -/

/-- EVT_WELT_DISABLED (R286). -/
def evtWeltDisabled (w : Nat) (s : State) : State := raise 0x0804 clsLoss 7 w w (budget s / 10000) 0 0 s

/-- A pair enters DISABLED: its queues are released, CH0 is connected straight to its FABRIC_CH. -/
def weltDisable (w : Nat) (s : State) : State :=
  match tget? s.welt w with
  | none => s
  | some p =>
    if p.st == .disabled then s
    else
      let s := dropQueue p.c1.queue (dropQueue p.c0.queue s)
      let clear := fun (c : Copy) => { c with queue := 0, blocks := [], st := .absent, inRun := 0, outRun := 0, lastBsn := none, lastAt := none }
      let s := updWelt w (fun p => weltTimes s.now { p with
        st := .disabled, c0 := clear p.c0, c1 := clear p.c1, firstAt := none, playAt := none, txBytes := [] }) s
      let s := updChan (chKey false p.c0.ch) (fun c => { restartLeaf c with conns := [{ kind := 1, target := p.fabricCh }], txSeq := p.seq }) s
      evtWeltDisabled w s

/-- A copy's queue: a stream queue from the free ones in descending number, its limit rate × WINDOW and 64 cells (R221, R270). -/
def weltQueue (w limit : Nat) (s : State) : Nat × State :=
  let n := freeQueue s
  (n, { s with pool.q := tset s.pool.q n { kind := 2, owner := 2, ownerId := w, limit := limit } })

/-- A pair takes its queues and enters ACQUIRE (R277). -/
def weltEnable (w : Nat) (s : State) : State :=
  match tget? s.welt w with
  | none => s
  | some p =>
    let lim := cellsFor (weltRate s p) (p.window * 100) + 64
    let a := weltQueue w lim s
    let b := weltQueue w lim a.2
    let s := updChan (chKey false p.c0.ch) (fun c => { restartLeaf c with conns := [] }) b.2
    let seq := match tget? s.chan (chKey false p.c0.ch) with | some c => c.txSeq | none => 0
    updWelt w (fun p => { p with st := .acquire, byBudget := false, c0 := { p.c0 with queue := a.1 }, c1 := { p.c1 with queue := b.1 },
                                 seq := if p.st == .disabled then seq else p.seq }) s

/-- A copy's queue was flushed by retirement or a descriptor error (R278). -/
def weltQueueLost (w n : Nat) (s : State) : State :=
  match tget? s.welt w with
  | none => s
  | some p =>
    let c := p.c1.queue == n
    evtWelt w 4 (updWelt w (modCopy c (fun x => { x with blocks := x.blocks.map (fun b => { b with held := false }) })) s)

/-- The owners of the queues flushed in this step act (R250). -/
def lostSettle (s : State) : State :=
  let l := s.pool.lostQ
  foldS l (fun n s =>
    match queueAt s n with
    | some q => if q.owner = 1 then braidQueueLost q.ownerId n s else weltQueueLost q.ownerId n s
    | none => s) { s with pool.lostQ := [] }

/-- The carried load brought within the budget (R41): first the packet queues' admitted rates fall, which admitFrac gives; then Welt
pairs are disabled in descending number; then the writers of host stream queues are stopped in descending number. -/
def budgetSettle (s : State) : State :=
  let s := foldS (s.welt.map (·.1)).reverse (fun w s =>
    if budget s < fixedLoad s then updWelt w (fun p => { p with byBudget := true }) (weltDisable w s) else s) s
  foldS (s.pool.q.map (·.1)).reverse (fun n s =>
    match queueAt s n with
    | some q =>
      if !(qPkt q) && q.owner = 0 && !q.stopped && decide (budget s < fixedLoad s) && queueRate s q != 0 then
        evtQueueLoss n 0 3 0 0 0 (updQ n (fun q => { q with stopped := true }) s)
      else s
    | none => s) s

/-- Stopped writers start again in ascending queue number where the budget admits them (R41). -/
def budgetResume (s : State) : State :=
  foldS (s.pool.q.map (·.1)) (fun n s =>
    match queueAt s n with
    | some q =>
      if q.stopped && fixedLoad s + streamRate s q ≤ budget s then updQ n (fun q => { q with stopped := false }) s else s
    | none => s) s

/-! ### Bridges (R269, R271) -/

/-- The WSO bytes of a block. -/
def wsoBytes (tag : Nat) (bsn : BitVec 32) : List Byte :=
  let h := [BitVec.ofNat 8 tag, 0] ++ natBe 4 bsn.toNat ++ [0]
  h ++ [crc8 h]

/-- A frame of an egress bridge leg begins, n its MFAS: the EXP bytes. Each leg carries the BSN of the block it is in; the two count the same
from the same frame (bridgeAdd), so the overhead is identical in both. -/
def bridgeFrame (ch n : Nat) (s : State) : Option (Byte × Byte) × State :=
  match s.bridge.find? (fun e => e.1 == ch || e.2.leg1 == ch) with
  | none => (none, s)
  | some (leg0, b) =>
    let o := wsoBytes b.wtag (if ch = leg0 then b.bsn else b.bsn1)
    let i := n % 4
    let s := if n % 64 != 63 then s else
      { s with bridge := tupd s.bridge leg0 (fun b => if ch = leg0 then { b with bsn := b.bsn + 1 } else { b with bsn1 := b.bsn1 + 1 }) }
    (some (o.getD (2 * i) 0, o.getD (2 * i + 1) 0), s)

end Sys2Proof.Machine
end

