-- ==== Sys2Proof/Machine/Perf.lean ====
section
/-! DEFINITION. Performance monitoring (05_defects_and_performance.md): the closing of a second, its judgement, bins,
thresholds and the degraded-signal defect. -/

namespace Sys2Proof.Machine


/-- Whether a point is an Ethernet PCS point (R142): LAYER 2 on an Ethernet port. -/
def pcsPoint (s : State) (addr : Nat) : Bool :=
  aLayer addr == 2 && (match portAt s (aId addr) with | some q => isEth q | none => false)

/-- Whether a point keeps PM records: LAYER 2 to 4 (R144). -/
def pmPoint (addr : Nat) : Bool := decide (2 ≤ aLayer addr) && decide (aLayer addr ≤ 4)

/-- A new monitoring point: its first bins did not exist for their whole length (R145). -/
def monNew (s : State) : Mon :=
  { cur15 := { data := { suspect := true, start := devNs s }, opened := s.now }
    cur24 := { data := { suspect := true, start := devNs s }, opened := s.now } }

/-- The points at addrs, created where they do not exist yet. -/
def monCreate (addrs : List Nat) (s : State) : State :=
  { s with mon := addrs.foldl (fun t a => if thas t a then t else tset t a (monNew s)) s.mon }

/-- The points at addrs removed with their history. -/
def monDelete (addrs : List Nat) (s : State) : State :=
  { s with mon := addrs.foldl (fun t a => tdel t a) s.mon }

/-! ### Degraded signal (R138) -/

/-- The nominal frames per second of a point's layer, times 1,000. -/
def frameRate (s : State) (addr : Nat) : Nat :=
  if aLayer addr = 4 then 8000000
  else if aLayer addr = 3 then chanRateAt s addr * 1000000 / 122368 / (if instanced s addr then nInst s addr else 1)
  else
    match portAt s (aId addr) with
    | some q => if isSdh q then 8000000 else if q.proto = 1 then typeRate 3 1 * 1000000 / 122368
                else if q.proto = 2 then typeRate 4 1 * 1000000 / 122368 else if q.proto = 3 then typeRate 5 1 * 1000000 / 122368
                else typeRate 8 1 * 1000000 / 122368
    | none => 0
where
  chanOfPoint (s : State) (addr : Nat) : Option Chan := chanAt s (aDir addr == 1) (aId addr)
  chanRateAt (s : State) (addr : Nat) : Nat := chanRate s (chKey (aDir addr == 1) (aId addr))
  instanced (s : State) (addr : Nat) : Bool := match chanOfPoint s addr with | some c => cType c.words == 8 | none => false
  nInst (s : State) (addr : Nat) : Nat := match chanOfPoint s addr with | some c => max 1 (cN c.words) | none => 1

/-- DEG_THR in force: the default is 10 % of the nominal frames per second, rounded up. -/
def degThr (s : State) (addr : Nat) (m : Mon) : Nat := if m.degThr != 0 then m.degThr else (frameRate s addr + 9999) / 10000

/-- The degrade judgement of a second that closes. -/
def degStep (addr : Nat) (s : State) (m : Mon) : Mon :=
  if pcsPoint s addr then m
  else if m.degRestart then { m with degRestart := false, badSecs := 0, goodSecs := 0 }
  else if m.sec.neDef then m
  else
    let need := if m.degM = 0 then 7 else m.degM
    if degThr s addr m ≤ m.sec.neEb then
      { m with badSecs := m.badSecs + 1, goodSecs := 0, raw := if need ≤ m.badSecs + 1 then m.raw ||| mask [17] else m.raw }
    else
      { m with goodSecs := m.goodSecs + 1, badSecs := 0,
               raw := if need ≤ m.goodSecs + 1 then m.raw &&& ~~~(mask [17]) else m.raw }

/-! ### Seconds (R33, R139, R140) -/

/-- Whether a bin takes a second: it was open when the second began and the second closed after any reset. -/
def binTakes (b : Bin) (c : ClosedSec) : Bool :=
  decide (b.opened ≤ c.begins) && (match b.closed with | some x => decide (c.begins < x) | none => true) && decide (b.from_ < c.closes)

/-- A second closes at a point: its counts join the ring of four that the slice keeps (R20), the oldest is lost when the
ring overflows, which the bins that contain it show by SUSPECT (R145, R154), and a new second begins with the defects that stand. -/
def secondClose (s : State) (addr : Nat) (m : Mon) : Mon :=
  let m := degStep addr s m
  let c : ClosedSec := { c := m.sec, start := s.pm.secStart, begins := s.pm.secAt, closes := s.now, viol := m.viol, bei := m.bei }
  let ring := m.closed ++ [c]
  let lost := ring.take (ring.length - 4)
  let sus := fun (b : Bin) => if lost.any (binTakes b) then { b with data.suspect := true } else b
  { m with
    closed := ring.drop lost.length
    cur15 := sus m.cur15
    cur24 := sus m.cur24
    open15 := m.open15.map sus
    open24 := m.open24.map sus
    sec := { neDef := m.declared &&& sfMask != 0 || covered s addr || pointOut s addr, feDef := m.declared &&& mask [15, 16] != 0 } }

/-- The codewords that an Ethernet PCS point counted in the second: the line's, which no command carries (a free value); none without
FEC, or on a slice without power. -/
def drawFec (s : State) (addr : Nat) (i : Nat) (m : Mon) : Mon :=
  if pcsPoint s addr && !(pointOut s addr) && (match portAt s (aId addr) with | some q => q.fec != 0 | none => false) then
    let a := Config.freeNat (s.free + 2 * i) % 4294967296
    let b := Config.freeNat (s.free + 2 * i + 1) % 4294967296
    { m with sec := { m.sec with corr := a, uncorr := b }, corr := m.corr + BitVec.ofNat 64 a, uncorr := m.uncorr + BitVec.ofNat 64 b }
  else m

/-- The one-second pulse at every point. -/
def secondsClose (s : State) : State :=
  let m1 := s.mon.zipIdx.map (fun (e : (Nat × Mon) × Nat) =>
    (e.1.1, if pmPoint e.1.1 then secondClose s e.1.1 (drawFec s e.1.1 e.2 e.1.2) else e.1.2))
  { s with mon := m1, free := s.free + 2 * s.mon.length, pm.secStart := devNs s, pm.secAt := s.now }

/-! ### Bins (R143 to R145) -/

/-- A bin closes, and the next opens, each with SUSPECT or without; a bin that opened at this very instant only takes the time that
now is. The cumulative values m of the point stand at the end of a record in which nothing has been committed. DESIGN CHOICE (log 23): NE_UNAVAIL and
FE_UNAVAIL of a record to which no second has been committed read 0, whatever the end's state. -/
def binTurn (s : State) (m : Mon) (suspect next : Bool) (cur : Bin) (open_ : List Bin) : Bin × List Bin :=
  if cur.opened = s.now then ({ cur with data := { cur.data with suspect := cur.data.suspect || next, start := s.pm.secStart } }, open_)
  else
    ({ data := { suspect := next, start := s.pm.secStart, viol := m.viol, bei := m.bei }, opened := s.now },
     open_ ++ [{ cur with data.suspect := cur.data.suspect || suspect, closed := some s.now }])

/-- The bins of a point at a boundary: which of its bins close, whether the 24-hour bin does so with SUSPECT, and whether this is a
step of device time, at which every bin has it. -/
def binsTurn (s : State) (b15 b24 sus24 jump : Bool) (m : Mon) : Mon :=
  let m := if b15 then
      let r := binTurn s m jump jump m.cur15 m.open15
      { m with cur15 := r.1, open15 := r.2 }
    else m
  if b24 then
    let r := binTurn s m (jump || sus24) jump m.cur24 m.open24
    { m with cur24 := r.1, open24 := r.2 }
  else m

/-- Whether second t ends the 24-hour bin of an offset (R143). -/
def dayEnds (off t : Nat) : Bool :=
  decide (off ≤ t) && (t - off) % 86400 == 0 || decide (t < off) && (off - t) % 86400 == 0

/-- The bin boundaries at a whole device second, with a waiting DAY_OFFSET taken at a 15-minute boundary (R143): the 24-hour bin that is
open then, and has not come to its own end, closes with SUSPECT (R151). -/
def binsAtSecond (s : State) : State :=
  let t := devSec s
  let b15 := t % 900 == 0
  let new := if b15 then s.pm.dayPending else none
  let off := new.getD s.pm.dayOffset
  let ends := dayEnds s.pm.dayOffset t
  let s := { s with pm.dayOffset := off, pm.dayPending := if b15 then none else s.pm.dayPending }
  { s with mon := s.mon.map (fun (e : Nat × Mon) =>
      (e.1, if pmPoint e.1 then binsTurn s b15 (ends || new.isSome) (!ends) false e.2 else e.2)) }

/-- The bins at a step of device time: all close with SUSPECT and open anew with SUSPECT (R154). -/
def binsAtStep (s : State) : State :=
  { s with mon := s.mon.map (fun (e : Nat × Mon) => (e.1, if pmPoint e.1 then binsTurn s true true true true e.2 else e.2)) }

/-! ### Judgement (R141) -/

/-- Whether a second's errored blocks meet the SES threshold (R140). -/
def sesMet (addr : Nat) (q : Option Port) (eb nb : Nat) : Bool :=
  if aLayer addr = 4 || (match q with | some p => isSdh p | none => false) then decide (2400 ≤ eb)
  else decide (1 ≤ eb) && decide (nb * 3 ≤ eb * 20)

/-- Append a judgement to one end: its availability follows, and the second that closed ten seconds before is committed. -/
def judgeEnd (e : EndEval) (j : Judge) : EndEval × Option Judge :=
  let j := { j with unavail := !e.avail }
  let run := if j.na then 0 else if e.avail == j.ses then e.run + 1 else 0
  let buf : List Judge := e.buf ++ [j]
  let flip := run == 10
  let avail := if flip then !e.avail else e.avail
  let buf : List Judge := if flip then buf.take (buf.length - 10) ++ (buf.drop (buf.length - 10)).map (fun k => { k with unavail := !avail }) else buf
  if 10 < buf.length then ({ avail := avail, run := if flip then 0 else run, buf := buf.drop 1 }, buf.head?)
  else ({ avail := avail, run := if flip then 0 else run, buf := buf }, none)

/-- A saturating sum. -/
def satAdd (n a b : Nat) : Nat := min (2 ^ n - 1) (a + b)

/-- What a judged second adds: ES, SES, BBE and UAS. -/
def judgeAdds (j : Judge) : Nat × Nat × Nat × Nat :=
  if j.unavail then (0, 0, 0, 1) else if j.na then (0, 0, 0, 0) else (b2n j.es, b2n j.ses, j.bbe, 0)

/-- A second added to a record (R145, R146). -/
def recAdd (n f : Judge) (r : PmRec) : PmRec :=
  let a := judgeAdds n
  let b := judgeAdds f
  { r with
    neUnavail := n.unavail, feUnavail := f.unavail, elapsed := r.elapsed + 1
    neEs := satAdd 32 r.neEs a.1, neSes := satAdd 32 r.neSes a.2.1, neBbe := satAdd 64 r.neBbe a.2.2.1, neUas := satAdd 32 r.neUas a.2.2.2
    feEs := satAdd 32 r.feEs b.1, feSes := satAdd 32 r.feSes b.2.1, feBbe := satAdd 64 r.feBbe b.2.2.1, feUas := satAdd 32 r.feUas b.2.2.2
    viol := n.second.viol, bei := n.second.bei
    corr := satAdd 64 r.corr n.second.c.corr, uncorr := satAdd 64 r.uncorr n.second.c.uncorr }

/-- The counter that PARAM names (R151). -/
def recParam (r : PmRec) (p : Nat) : Nat :=
  match p with
  | 1 => r.neEs | 2 => r.neSes | 3 => r.neBbe | 4 => r.neUas | 5 => r.feEs | 6 => r.feSes | 7 => r.feBbe | 8 => r.feUas | _ => 0

/-- The thresholds a commit crosses in a bin: PARAMs with the key of the threshold (R147). -/
def tcaCrossed (m : Mon) (b24 : Bool) (before : Bin) (after : PmRec) : List Nat :=
  ((List.range 8).map (· + 1)).filter (fun p =>
    let t := tget m.thr 0 (p + 16 * b2n b24)
    t != 0 && decide (recParam before.data p < t) && decide (t ≤ recParam after p) && !(before.tca.contains p))

/-- EVT_PM_TCA (R153). DESIGN CHOICE (log 23): its one word for the count holds the low 32 bits of a wider one. -/
def evtTca (addr : Nat) (b24 : Bool) (r : PmRec) (p : Nat) (s : State) : State :=
  raise 0x0402 clsAlarm (pointObject addr).1 (pointObject addr).2 addr (p + 16 * b2n b24) (recParam r p) (r.start / 1000000000) s

/-- Commit a second into the bins of one length. -/
def commitBins (addr : Nat) (b24 : Bool) (n f : Judge) (m : Mon) (bins : List Bin) (s : State) : List Bin × State :=
  bins.foldl (fun (acc : List Bin × State) b =>
    if binTakes b n.second then
      let r := recAdd n f b.data
      let ps := tcaCrossed m b24 b r
      (acc.1 ++ [{ b with data := r, tca := b.tca ++ ps }], foldS ps (fun p => evtTca addr b24 r p) acc.2)
    else (acc.1 ++ [b], acc.2)) ([], s)

/-- Closed bins whose last second has been committed become final: they move to the history, newest first. -/
def finalise (c : ClosedSec) (open_ : List Bin) (hist : List PmRec) (depth : Nat) : List Bin × List PmRec :=
  let done := open_.filter (fun b => match b.closed with | some x => decide (x ≤ c.closes) | none => false)
  let rest := open_.filter (fun b => match b.closed with | some x => decide (c.closes < x) | none => true)
  (rest, ((done.reverse.map (·.data)) ++ hist).take depth)

/-- The judgement of both ends of a second joins a point: commit, thresholds, finality and the record of the last second. -/
def judgePoint (addr : Nat) (n f : Judge) (s : State) : State :=
  match tget? s.mon addr with
  | none => s
  | some m =>
    let rn := judgeEnd m.ne n
    let rf := judgeEnd m.fe f
    let ln := rn.1.buf.getLastD n
    let lf := rf.1.buf.getLastD f
    let r0 := recAdd ln lf { start := n.second.start }
    let lastRec := if lf.na then { r0 with feUas := 0 } else r0
    let m := { m with ne := rn.1, fe := rf.1, last := some lastRec }
    match rn.2, rf.2 with
    | some kn, some kf =>
      let r15 := commitBins addr false kn kf m (m.open15 ++ [m.cur15]) s
      let r24 := commitBins addr true kn kf m (m.open24 ++ [m.cur24]) r15.2
      let o15 := r15.1.take m.open15.length
      let o24 := r24.1.take m.open24.length
      let f15 := finalise kn.second o15 m.hist15 32
      let f24 := finalise kn.second o24 m.hist24 7
      { r24.2 with mon := tset r24.2.mon addr { m with
          cur15 := r15.1.getLastD m.cur15, cur24 := r24.1.getLastD m.cur24
          open15 := f15.1, hist15 := f15.2, open24 := f24.1, hist24 := f24.2 } }
    | _, _ => { s with mon := tset s.mon addr m }

/-- The judgement of a closed second at both ends. -/
def judgeSecond (addr : Nat) (q : Option Port) (eth : Bool) (c : ClosedSec) : Judge × Judge :=
  if eth then
    ({ na := true, es := false, ses := false, bbe := 0, unavail := false, second := c },
     { na := true, es := false, ses := false, bbe := 0, unavail := false, second := c })
  else
    let nses := c.c.neDef || sesMet addr q c.c.neEb c.c.nb
    let fses := c.c.feDef || sesMet addr q c.c.feEb c.c.nb
    ({ na := false, es := c.c.neDef || decide (1 ≤ c.c.neEb), ses := nses, bbe := if nses then 0 else c.c.neEb, unavail := false, second := c },
     if c.c.neDef then { na := true, es := false, ses := false, bbe := 0, unavail := false, second := c }
     else { na := false, es := c.c.feDef || decide (1 ≤ c.c.feEb), ses := fses, bbe := if fses then 0 else c.c.feEb, unavail := false, second := c })

/-- Prihegen evaluates the oldest closed second of a point; nothing while the processor does not run (R20, R141). -/
def evalSecond (addr : Nat) (s : State) : State :=
  match tget? s.mon addr with
  | none => s
  | some m =>
    match m.closed with
    | [] => s
    | c :: r =>
      if mpRuns s then
        let j := judgeSecond addr (if aLayer addr = 2 then portAt s (aId addr) else none) (pcsPoint s addr) c
        judgePoint addr j.1 j.2 { s with mon := tset s.mon addr { m with closed := r } }
      else s

end Sys2Proof.Machine
end

