-- ==== Sys2Proof/Machine/Temper.lean ====
section
/-! DEFINITION. The Temper chain (11_temper_chain.md): banks, the candidate fronts, fades, the resamplers and group delay. -/

namespace Sys2Proof.Machine

/-- Candidate c. -/
def candOf (s : State) (c : Nat) : Candidate := tget s.tmc.cand {} c
/-- s with candidate c changed by f. -/
def modCand (c : Nat) (f : Candidate → Candidate) (s : State) : State := { s with tmc.cand := tmod s.tmc.cand {} c f }
/-- DPLL d. -/
def dpllOf (s : State) (d : Nat) : Dpll := tget s.tmc.dpll {} d
/-- s with DPLL d changed by f. -/
def modDpll (d : Nat) (f : Dpll → Dpll) (s : State) : State := { s with tmc.dpll := tmod s.tmc.dpll {} d f }
/-- Whether a candidate is enabled. -/
def candOn (x : Candidate) : Bool := x.st != .unused

/-! ### A candidate's settings (R317) and the TDC (R290, R292, R329) -/

/-- FREQ in Hz. -/
def cFreq (x : Candidate) : Nat := fld (wd x.words 0) 29 0
/-- PORT. -/
def cPort (x : Candidate) : Nat := fld (wd x.words 1) 7 0
/-- LANE. -/
def cLane (x : Candidate) : Nat := fld (wd x.words 1) 10 8
/-- REF_DELAY in 1/65,536 ns. -/
def cRefDelay (x : Candidate) : Int := sx 32 (wd x.words 5).toNat
/-- The nominal lane rate of a port in kbit/s (R51, R53). -/
def laneRate (q : Port) : Nat :=
  match q.proto with
  | 1 => 10709225 | 2 => 11095728 | 3 => 27952493 | 5 => 9953280 | 6 => 9953280
  | 4 => if q.foicM = 1 then (if q.foicK = 4 then 27952493 else 55904987)
         else if q.foicM = 2 then (if q.foicK = 4 then 55904987 else 111809973)
         else if q.foicK = 8 then 55904987 else if q.foicK = 4 then 111809973 else 223619947
  | 0x10 => 10312500 | 0x11 => 25781250
  | 0x12 => if q.width = 4 then 25781250 else if q.width = 2 then 53125000 else 106250000
  | 0x13 => if q.width = 4 then 53125000 else if q.width = 2 then 106250000 else 212500000
  | 0x14 => if q.width = 8 then 53125000 else if q.width = 4 then 106250000 else 212500000
  | 0x15 => if q.width = 8 then 106250000 else 212500000
  | _ => 212500000
/-- A phase difference taken within (−½, +½] of the period 1/rate, the rate in mHz. -/
def wrapTo (rate : Nat) (v : Int) : Int :=
  if rate = 0 then v
  else
    let n : Int := 65536000000000000
    let k := -((n - 2 * v * (rate : Int)) / (2 * n))
    v - k * n / (rate : Int)
/-- A phase difference of candidate c within (−½, +½] of its clock's period: of FREQ, or of a unit interval of the bound lane's nominal rate;
that of C40 and C41 is whole (R304). -/
def wrapClock (s : State) (c : Nat) (v : Int) : Int :=
  let x := candOf s c
  if 40 ≤ c then v
  else if c < 8 then wrapTo (cFreq x * 1000) v
  else match portAt s (cPort x) with
    | some q => wrapTo (laneRate q * 1000000) v
    | none => v
/-- φb − φo as the build-out takes it (R304): whole for a pulse candidate. -/
def wrapPhase (s : State) (c : Nat) (v : Int) : Int := if (candOf s c).pulse then v else wrapClock s c v
/-- A TDC sample unwrapped (R329): of all that differ from it by whole periods, 1 s for a pulse, the one nearest to what the TDC measured last. -/
def unwrapTdc (s : State) (c : Nat) (prev : Option Int) (v : Int) : Int :=
  match prev with
  | none => v
  | some p => p + (if (candOf s c).pulse then wrapTo 1000 (v - p) else wrapClock s c (v - p))
/-- The samples of a run unwrapped, oldest first. -/
def unwrapRun (s : State) (c : Nat) (prev : Option Int) (l : List Int) : List Int :=
  match l with
  | [] => []
  | v :: r => let u := unwrapTdc s c prev v; u :: unwrapRun s c (some u) r
/-- The partner's DPLL0 or DPLL1 as C40 or C41 rebuilds it from the Varric lane clock (R290, R356; DEDUCED, log 29): the phase that the latest
heartbeat brought, less the link delay by which the lane clock is late. -/
def partnerPhase (s : State) (c : Nat) : Int :=
  match s.twin.partner with
  | some h => if c = 40 then h.phase0 - s.twin.linkDelay else if c = 41 then h.phase1 - s.twin.linkDelay else 0
  | none => 0
/-- A candidate's phase from an unwrapped TDC sample: REF_DELAY is subtracted (R292). -/
def candPhase (s : State) (c : Nat) (u : Int) : Int := u - cRefDelay (candOf s c) + partnerPhase s c

/-! ### Banks (R337, R338) -/

/-- Coefficient i of a bank. -/
def bankCoef (b : Bank) (i : Nat) : Int :=
  if b.factory then (Config.factoryCoef b.typ i).toInt else b.coef.getD i 0
/-- The group delay of a bank in 1/256 of a half-band sample (R334, R337). -/
def bankGd (b : Bank) : Nat := if b.typ then b.gd else 65280
/-- The CRC-32 over a bank's coefficient words (R348). -/
def bankCrc (b : Bank) : Nat := crc32 ((List.range 511).flatMap (fun i => wordBytes (w32 (unsx 24 (bankCoef b i)))))
/-- The bank an ACTIVE value names: false A, true B. -/
def frontBank (f : Front) (b : Bool) : Bank := if b then f.bankB else f.bankA
/-- Whether a bank may enter the device (R337). -/
def bankOk (h : List Int) (typ : Bool) (gd : Nat) : Bool :=
  let sum := h.foldl (· + ·) 0
  decide (8388600 ≤ sum) && decide (sum ≤ 8388616) &&
    (if typ then decide (1 ≤ gd) && decide (gd ≤ 130560)
     else gd == 0 && (List.range 511).all (fun i => h.getD i 0 == h.getD (510 - i) 0))

/-! ### Resets and validity (R344, R345) -/

/-- A front after a synchronising reset. -/
def frontReset (f : Front) : Front :=
  { f with tdc := [], cic := [], line := [], outs := [], tdcCnt := 0, cicOk := 0, halfOk := 0, outCnt := 0, resetDue := false, pulses := [] }
/-- A device-wide reset: all fronts and resamplers, F and P from 0. -/
def temperReset (s : State) : State :=
  let s := { s with tmc.frontCnt := 0, tmc.frontAt := s.now
                    tmc.cand := s.tmc.cand.map (fun (e : Nat × Candidate) => (e.1, { e.2 with front := frontReset e.2.front })) }
  foldS (List.range 4) (fun d => modDpll d (fun x => { x with p := 0 })) s
/-- CIC_R as configured, and FIR_D. -/
def cfgR (s : State) : Nat := match s.tmc.rateDue with | some e => e.1 | none => s.tmc.cicR
/-- FIR_D as configured. -/
def cfgD (s : State) : Nat := match s.tmc.rateDue with | some e => e.2 | none => s.tmc.firD
/-- Whether a candidate's front output is valid. -/
def frontValid (x : Candidate) : Bool := !x.pulse && decide (1 ≤ x.front.outCnt)

/-! ### The stages of a front (R328, R330, R345) -/

/-- The running sums of r neighbours. -/
def boxcar (r : Nat) (l : List Int) : List Int := (List.range (l.length + 1 - r)).map (fun i => ((l.drop i).take r).foldl (· + ·) 0)
/-- The CIC of order 4: four running sums over 4R − 3 TDC samples, newest first, with a reset stage's zeros where there are fewer; unity gain
at DC, rounded down (DESIGN CHOICE, log 29). -/
def cicOut (r : Nat) (l : List Int) : Int :=
  (boxcar r (boxcar r (boxcar r (boxcar r ((l ++ List.replicate (4 * r - 3) 0).take (4 * r - 3)))))).headD 0 / ((r ^ 4 : Nat) : Int)
/-- The half-band filter: 31 symmetric coefficients over the CIC outputs, newest first, rounded down. -/
def halfOut (l : List Int) : Int :=
  ((List.range 31).map (fun i => (Config.halfCoef (min i (30 - i))).toInt * l.getD i 0)).foldl (· + ·) 0 / 8388608
/-- The CIC after its R new TDC samples, oldest first: the output is valid when its window of 4R − 3 samples is. -/
def cicStep (r : Nat) (xs : List Int) (f : Front) : Front :=
  let tdc := (xs.reverse ++ f.tdc).take (4 * r - 3)
  let n := f.tdcCnt + r
  { f with tdc := tdc, tdcCnt := n, cic := (cicOut r tdc :: f.cic).take 31, cicOk := if 4 * r - 3 ≤ n then f.cicOk + 1 else 0 }
/-- The half-band filter after two CIC outputs: valid when the 31 outputs in its window are. -/
def halfStep (r : Nat) (xs : List Int) (f : Front) : Front :=
  let f := cicStep r (xs.drop r) (cicStep r (xs.take r) f)
  { f with line := (halfOut f.cic :: f.line).take 511, halfOk := if 31 ≤ f.cicOk then f.halfOk + 1 else 0 }

/-! ### A front sample (R329, R330, R341) -/

/-- The output of a bank over the half-band delay line, newest first. -/
def firOut (b : Bank) (line : List Int) : Int :=
  ((List.range 511).map (fun i => bankCoef b i * line.getD i 0)).foldl (· + ·) 0 / 8388608
/-- A front's output at fade sample i. -/
def frontOut (f : Front) : Int :=
  match f.fade with
  | none => firOut (frontBank f f.active) f.line
  | some x =>
    if x.len = 0 then firOut (frontBank f f.active) f.line
    else
      let o := firOut (frontBank f (!f.active)) f.line
      o + (firOut (frontBank f f.active) f.line - o) * (x.done : Int) / (x.len : Int)
/-- A fade one front sample on. -/
def fadeStep (f : Front) : Front := { f with fade := f.fade.map (fun x => { x with done := min (max 1 x.len) (x.done + 1) }) }
/-- A front after its 2 × R × D new TDC samples, oldest first: the output is valid when the 511 half-band outputs in its window are. -/
def frontStep (r d : Nat) (xs : List Int) (f : Front) : Front :=
  let f := fadeStep ((List.range d).foldl (fun f i => halfStep r ((xs.drop (2 * r * i)).take (2 * r)) f) f)
  { f with outs := (frontOut f :: f.outs).take 96, outCnt := if 511 ≤ f.halfOk then f.outCnt + 1 else 0 }
/-- The TDC samples of a candidate since the last front-sample instant: those that arrived, and free values for any that the command does not give. -/
def tdcRun (s : State) (n : Nat) (xs : List Int) : List Int :=
  xs.take n ++ (List.range (n - xs.length)).map (fun i => Config.freeInt (s.free + i))
/-- The TDC's measurement of a candidate taken: the latest unwrapped sample, its phase and its instant. -/
def tdcTake (s : State) (c : Nat) (t : Nat) (u : Int) (x : Candidate) : Candidate :=
  { x with tdc := some u, phase := candPhase s c u, phaseAt := t }
/-- One enabled clock candidate's front at a front-sample instant: its samples are unwrapped and filtered. -/
def frontTake (n : Nat) (xs : List (Nat × List Int)) (c : Nat) (s : State) : State :=
  let us := unwrapRun s c (candOf s c).tdc (tdcRun s n (tget xs [] c))
  modCand c (fun x => { (match us.getLast? with | some u => tdcTake s c (s.now * 65536) u x | none => x) with
    front := frontStep s.tmc.cicR s.tmc.firD (us.map (candPhase s c)) x.front }) { s with free := s.free + n }
/-- The synchronising resets that a front-sample instant brings (R344). -/
def frontResets (s : State) : State :=
  match s.tmc.rateDue with
  | some e => temperReset { s with tmc.cicR := e.1, tmc.firD := e.2, tmc.rateDue := none }
  | none => foldS ((List.range 42).filter (fun c => (candOf s c).front.resetDue)) (fun c => modCand c (fun x => { x with front := frontReset x.front })) s
/-- A front-sample instant: every enabled clock candidate's filters, any other's fade (R329, R341), then the resets that take effect there. -/
def frontSample (xs : List (Nat × List Int)) (s : State) : State :=
  if !(tmcRuns s) then s
  else
    let s := { s with tmc.frontCnt := s.tmc.frontCnt + 1 }
    let s := foldS ((List.range 42).filter (fun c => (!(candOn (candOf s c)) || (candOf s c).pulse) && (candOf s c).front.fade.isSome))
      (fun c s => modCand c (fun x => { x with front := fadeStep x.front }) s) s
    frontResets (foldS ((List.range 42).filter (fun c => candOn (candOf s c) && !(candOf s c).pulse))
      (frontTake (2 * s.tmc.cicR * s.tmc.firD) xs) s)

/-! ### Group delay and rates (R331 to R336) -/

/-- The group delay of a clock candidate's chain with a bank, in ns (R334). -/
def chainGd (s : State) (b : Bank) : Nat :=
  let r := s.tmc.cicR
  40 * (r - 1) + 300 * r + 40 * r * bankGd b / 256 + 320 * r * s.tmc.firD
/-- GD_total of a candidate: during a fade it moves linearly between the banks' values, and with FADE = 0 at the next front sample (R341). -/
def gdTotal (s : State) (x : Candidate) : Nat :=
  if x.pulse then 1250000000
  else
    let n := chainGd s (frontBank x.front x.front.active)
    match x.front.fade with
    | none => n
    | some f =>
      let o := chainGd s (frontBank x.front (!x.front.active))
      if f.len = 0 then (if f.done = 0 then o else n) else ((o : Int) + ((n : Int) - (o : Int)) * (f.done : Int) / (f.len : Int)).toNat
/-- The GD_total from which BW_EFF is computed: the larger value until a fade completes. -/
def gdForBw (s : State) (x : Candidate) : Nat :=
  if x.pulse then 1250000000
  else
    let n := chainGd s (frontBank x.front x.front.active)
    match x.front.fade with
    | none => n
    | some _ => max n (chainGd s (frontBank x.front (!x.front.active)))
/-- BW of a DPLL in mHz (R318). -/
def dBw (d : Dpll) : Nat := if fld (wd d.cfg 1) 21 0 = 0 then 1000 else fld (wd d.cfg 1) 21 0
/-- The candidate in use: until a switch completes, the one it leaves (R350). -/
def candUse (d : Dpll) : Option Nat :=
  match d.switch with
  | some w => if w.from_ < 42 then some w.from_ else none
  | none => d.sel
/-- BW_EFF in mHz (R336). -/
def bwEff (s : State) (d : Dpll) : Nat :=
  match candUse d with
  | some c => min (dBw d) (100000000000 / gdForBw s (candOf s c))
  | none => dBw d
/-- Whether candidate c's bank, or during a fade either bank, is unstable at a BW_EFF (R340): a factory bank is not. -/
def bankWild (x : Candidate) (bw : Nat) : Bool :=
  let wild := fun (b : Bank) => !b.factory && Config.bankUnstable ((List.range 511).map (bankCoef b)) b.typ (bankGd b) bw
  !x.pulse && (wild (frontBank x.front x.front.active) || (x.front.fade.isSome && wild (frontBank x.front (!x.front.active))))
/-- The loop update rate in 0.001 S/s. -/
def updateRate (r d rho : Nat) : Nat := 50000000000 * 281474976710656 / (2 * r * d * rho)
/-- R332 for one DPLL: the rate from 1 to 100,000 S/s, 1 ≤ ρ < 64, and BW at most the rate ÷ 25. -/
def ratioOk (r d rho bw : Nat) : Bool :=
  let k := 2 * r * d * rho
  decide (281474976710656 ≤ rho) && decide (rho < 64 * 281474976710656) && decide (k ≤ 50000000 * 281474976710656) &&
    decide (50000000 * 281474976710656 ≤ k * 100000) && decide (bw * 25 * k ≤ 50000000000 * 281474976710656)

/-! ### Resamplers (R331, R333, R345) -/

/-- The resampler at coefficient phase q of 64 over the 16 front outputs, newest first: phase 0 gives output 8 exactly, and phase 64 is the
next output's phase 0 (R331). -/
def polyPhase (w : List Int) (q : Nat) : Int :=
  if q = 0 then w.getD 8 0 else if q = 64 then w.getD 7 0
  else ((List.range 16).map (fun i => (Config.protoTap (64 * i + q)).toInt * w.getD i 0)).foldl (· + ·) 0 / 8388608
/-- POLY mode: the candidate's phase at front position P − 8 over the 16 outputs up to floor(P): the top 6 fraction bits of P select the
coefficient phase, the next 10 interpolate to the next. Absent while one of the outputs is not valid. -/
def polyOut (s : State) (f : Front) (p : Nat) : Option Int :=
  let n := p / 281474976710656
  let frac := p % 281474976710656 / 4294967296
  let k := s.tmc.frontCnt - n
  if s.tmc.frontCnt < n || f.outCnt < k + 16 then none
  else
    let w := (f.outs.drop k).take 16
    let a := polyPhase w (frac / 1024)
    some (a + (polyPhase w (frac / 1024 + 1) - a) * ((frac % 1024 : Nat) : Int) / 1024)
/-- The two pulse stamps that bracket an instant, newest first in the list. -/
def bracket (t : Nat) (l : List PulseStamp) : Option (PulseStamp × PulseStamp) :=
  match l with
  | [] => none
  | [_] => none
  | b :: a :: r => if a.at_ ≤ t && t ≤ b.at_ then some (a, b) else bracket t (a :: r)
/-- The instant P ÷ f_F after the device-wide reset, in 1/65,536 ns (R331). -/
def updateAt (s : State) (p : Nat) : Nat := s.tmc.frontAt * 65536 + 40 * s.tmc.cicR * s.tmc.firD * p * 65536 / 281474976710656
/-- LINEAR mode: interpolation between the pulse samples at P ÷ f_F − 1.25 s (R333): of their phases, or of their errors against device time. -/
def linearOut (s : State) (f : Front) (p : Nat) (v : PulseStamp → Int) : Option Int :=
  let t := updateAt s p
  if t < 81920000000000 then none
  else
    match bracket (t - 81920000000000) f.pulses with
    | some (a, b) =>
      if b.at_ = a.at_ then some (v b)
      else some (v a + (v b - v a) * ((t - 81920000000000 - a.at_ : Nat) : Int) / ((b.at_ - a.at_ : Nat) : Int))
    | none => none
/-- The filtered phase of candidate c at position p; under time alignment, its pulses' errors against device time. -/
def sampleOf (s : State) (c p : Nat) (aligned : Bool) : Option Int :=
  let x := candOf s c
  if x.pulse then linearOut s x.front p (fun e => if aligned then e.err else e.phase) else polyOut s x.front p

/-! ### Swaps and fades (R341, R342, R343) -/

/-- EVT_TEMPER_SWAP. -/
def evtSwap (c : Nat) (bank pend : Bool) (s : State) : State :=
  raise 0x0A01 clsState 10 c (c + 64 * b2n bank + 128 * b2n pend) 0 0 0 s
/-- Start a fade to the inactive bank. -/
def startFade (len : Nat) (f : Front) : Front := { f with active := !f.active, fade := some { len := len, done := 0 }, pend := none }
/-- A swap request: it starts, or waits for the fade in progress, replacing a waiting one. -/
def swapRequest (len : Nat) (f : Front) : Front := if f.fade.isSome then { f with pend := some len } else startFade len f
/-- The journal's record of a candidate's active bank (R508). -/
def journalActive (c : Nat) (s : State) : State :=
  { s with fw.journal := s.fw.journal.filter (fun e => !(e.code == 0x0A03 && e.req.headD 0 == w32 c)) ++
      [{ code := 0x0A03, req := [w32 c, w32 (b2n (candOf s c).front.active)] }] }
/-- Whether a fade has reached its last sample. -/
def fadeDone (f : Front) : Bool := match f.fade with | some x => decide (max 1 x.len ≤ x.done) | none => false
/-- The completion of a fade. -/
def fadeComplete (c : Nat) (s : State) : State :=
  let f := (candOf s c).front
  if fadeDone f then
    let s := evtSwap c f.active f.pend.isSome s
    let s := modCand c (fun x => { x with front := match f.pend with
      | some n => startFade n { f with fade := none }
      | none => { f with fade := none } }) s
    if f.pend.isSome then journalActive c s else s
  else s

end Sys2Proof.Machine
end

