-- ==== Sys2Proof/Machine/Timing.lean ====
section
/-! DEFINITION. The timing core (10_timing_core.md): candidates, consensus, selection, the DPLLs and their switches, steps of
device time, pulse outputs and the timing history. -/

namespace Sys2Proof.Machine

/-! ### The outputs' registers (R311, R320) -/

/-- An output. -/
def outOf (s : State) (n : Nat) : Output := tget s.tmc.outs {} n
/-- s with output n changed. -/
def modOut (n : Nat) (f : Output → Output) (s : State) : State := { s with tmc.outs := tmod s.tmc.outs {} n f }
/-- Whether an output is enabled. -/
def outOn (o : Output) : Bool := bitOf (wd o.words 0) 5
/-- EVT_TMC_OUTPUT. -/
def evtOutput (n : Nat) (aligned : Bool) (s : State) : State := raise 0x0905 clsState 11 n (n + 32 * b2n aligned) 0 0 0 s
/-- A pulse output's target position modulo PERIOD, in 1/65,536 ns. -/
def pulseTarget (o : Output) : Nat :=
  let period := fld (wd o.words 1) 29 0 * 65536000
  if period = 0 then 0 else ((sx 32 (wd o.words 3).toNat * 65536 + (fld (wd o.words 4) 15 0 : Int)) % (period : Int)).toNat
/-- The most an anneal moves one interval: ANNEAL_RATE × PERIOD, in 1/65,536 ns. -/
def annealStep (o : Output) : Nat :=
  let r := fld (wd o.words 5) 31 16
  (if r = 0 then 100 else r) * fld (wd o.words 1) 29 0 * 65536 / 1000000

/-! ### The phase of a DPLL's output (R288, R304, R335) -/

/-- The output phase of a span at an instant (1/65,536 ns), in 10^-15/65,536 ns: an output whose word is positive runs ahead, so its edges
come earlier and its phase falls (DEDUCED, log 29). -/
def segPhase (g : DcoSeg) (t : Nat) : Int := g.acc - (g.word + g.corr) * ((t - g.at_ : Nat) : Int)
/-- The phase at an instant from the history, newest first. -/
def phaseAcc (l : List DcoSeg) (t : Nat) : Int :=
  match l with
  | [] => 0
  | g :: r => if g.at_ ≤ t then segPhase g t else phaseAcc r t
/-- φo of DPLL d at an instant, in 1/65,536 ns. -/
def phaseAt (s : State) (d t : Nat) : Int := phaseAcc (dpllOf s d).segs t / 1000000000000000
/-- φo of DPLL d now. -/
def phaseNow (s : State) (d : Nat) : Int := phaseAt s d (s.now * 65536)
/-- The history with what lies before an instant dropped but for the span that the instant is in. -/
def segTrim (lim : Nat) (l : List DcoSeg) : List DcoSeg :=
  match l with
  | [] => []
  | g :: r => if g.at_ ≤ lim then [g] else g :: segTrim lim r
/-- The history with the span that begins at an instant, where anything about the output has changed. -/
def segPush (corr : Int) (t : Nat) (x : Dpll) : Dpll :=
  let h := x.segs.headD {}
  let w := dcoUse x
  if h.word == w && h.corr == corr && h.err == x.err && h.good == x.wordGood then x
  else
    let a := max t h.at_
    { x with segs := { at_ := a, word := w, corr := corr, err := x.err, good := x.wordGood, acc := phaseAcc x.segs a } ::
        segTrim (t - 131072000000000) x.segs }
/-- Every DPLL's output follows its word. -/
def dcoSettle (s : State) : State := foldS (List.range 4) (fun d => modDpll d (segPush s.tmc.corr (s.now * 65536))) s
/-- The time from lo to hi over which a history gives a value, and the value's integral. -/
def segSum (f : DcoSeg → Option Int) (lo hi : Nat) (l : List DcoSeg) : Nat × Int :=
  match l with
  | [] => (0, 0)
  | g :: r =>
    let n := hi - max g.at_ lo
    let t := segSum f lo (min hi g.at_) r
    match f g with | some v => (t.1 + n, t.2 + v * (n : Int)) | none => t
/-- The mean of a value from lo to hi; before the history it is 0. -/
def segMean (f : DcoSeg → Int) (lo hi : Nat) (l : List DcoSeg) : Int :=
  if hi ≤ lo then 0 else (segSum (fun g => some (f g)) lo hi l).2 / ((hi - lo : Nat) : Int)

/-! ### Steps of device time (R154, R220, R308, R309, R311) -/

/-- The Braid sides after a step by x (2^-16 ns): delay samples are discarded for two sub-multiframe periods, the rate estimate restarts, and
the apparent delays move with the timestamps (R220). -/
def braidStep (x : Int) (s : State) : State :=
  { s with braid := s.braid.map (fun (e : Nat × Braid) => (e.1, { e.2 with
      rx := e.2.rx.map (fun d => { d with
        members := d.members.map (fun m => { m with
          pairs := [], jump := none, apparent := m.apparent.map (fun a => (((a : Int) + x) % 72057594037927936).toNat) })
        discardUntil := some (s.now + 2 * (d.members.map (subPeriod s false)).foldl max 0) }) })) }

/-- The pulse outputs after a step of device time by x (1/65,536 ns): the edge stays where it is in the outside time, so its
place in device time moves by x (R311); with ANNEAL = 0 it jumps to its target. -/
def pulseStep (x : Int) (n : Nat) (o : Output) : Output :=
  if n < 16 then o
  else
    let period := fld (wd o.words 1) 29 0 * 65536000
    if period = 0 then o
    else
      let target := (((sx 32 (wd o.words 3).toNat * 65536 + (fld (wd o.words 4) 15 0 : Int)) % (period : Int))).toNat
      let pos := (((o.pos : Int) + x) % (period : Int)).toNat
      if bitOf (wd o.words 5) 0 then { o with pos := pos, aligned := pos == target } else { o with pos := target, aligned := true, last := none }
/-- A candidate's stamps after a step: their errors against device time move with it (R308). -/
def stampsStep (x : Int) (f : Front) : Front := { f with pulses := f.pulses.map (fun e => { e with err := wrapTo 1000 (e.err + x) }) }

/-- Device time takes the value dt (2^-48 ns): bins, Braid delays, pulses and the tick correspondence (R36) follow; a slewing output that the
step brings onto its target is aligned (R311). -/
def stepTime (dt : Nat) (s : State) : State :=
  let x : Int := (dt / 2 ^ 32 : Nat) - (s.tmc.dt.toNat / 2 ^ 32 : Nat)
  let slewing := ((List.range 20).drop 16).filter (fun n => outOn (outOf s n) && !(outOf s n).aligned)
  let s := { s with tmc.dt := BitVec.ofNat 112 dt, twin.hbTimes := []
                    tmc.cand := s.tmc.cand.map (fun (e : Nat × Candidate) => (e.1, { e.2 with front := stampsStep x e.2.front }))
                    tmc.outs := s.tmc.outs.map (fun (e : Nat × Output) => (e.1, pulseStep x e.1 e.2)) }
  let s := foldS (slewing.filter (fun n => (outOf s n).aligned)) (fun n => evtOutput n true) s
  let s := { s with pm.secStart := devNs s, pm.secAt := s.now, fault.corrTick := tickNow s, fault.corrNs := devNs s }
  braidStep x (binsAtStep s)

/-- A step of device time by x (1/65,536 ns) that is not a whole-second crossing: the second in progress closes first, and the timing
history marks it (R315). -/
def stepTimeBy (x : Int) (s : State) : State :=
  stepTime (((s.tmc.dt.toNat : Int) + x * 4294967296) % 2 ^ 112).toNat (secondsClose { s with tmc.gapNow := true })

/-! ### Candidates (R290 to R295, R317) -/

/-- ACCEPT in 0.1 ppm. -/
def acceptTen (w : Word) : Nat := if fld w 12 0 = 0 then 92 else fld w 12 0
/-- REJECT in 0.1 ppm. -/
def rejectTen (w : Word) : Nat := if fld w 28 16 = 0 then 120 else fld w 28 16
/-- ACCEPT in 10^-12. -/
def cAccept (x : Candidate) : Nat := acceptTen (wd x.words 2) * 100000
/-- REJECT in 10^-12. -/
def cReject (x : Candidate) : Nat := rejectTen (wd x.words 2) * 100000
/-- WTR in ns. -/
def candWtr (x : Candidate) : Nat := (if fld (wd x.words 3) 11 0 = 0 then 300 else fld (wd x.words 3) 11 0) * 1000000000
/-- QUAL_INIT in ns. -/
def cQualInit (x : Candidate) : Nat := (if fld (wd x.words 3) 21 16 = 0 then 10 else fld (wd x.words 3) 21 16) * 1000000000
/-- PJ_THR in ns; 0 is no check. -/
def cPjThr (x : Candidate) : Nat := fld (wd x.words 4) 15 0
/-- PRIO for DPLL d. -/
def cPrio (x : Candidate) (d : Nat) : Nat := fld (wd x.words 6) (4 * d + 3) (4 * d)

/-- The rank that accepted S1 bits give (R295). -/
def s1Rank (v : Option Nat) : Nat :=
  match v with
  | none => 15
  | some 2 => 1 | some 4 => 2 | some 8 => 3 | some 11 => 4 | some 15 => 15
  | some _ => 14
/-- The quality rank in use (R295). -/
def candQl (s : State) (c : Nat) : Nat :=
  let x := candOf s c
  let q := fld (wd x.words 3) 27 24
  if q = 0 && decide (8 ≤ c) && decide (c < 40) then s1Rank (accVal s (ohKey 0 (cPort x) 0) 8 fS1) else q

/-- The physical lane of a selector (R291, R60). -/
def selectorLane (q : Port) (x : Candidate) : Option Nat :=
  ((List.range q.width).find? (fun i => mapEntry q.rxMap i == cLane x)).map (· + cPort x)
/-- Whether a candidate's source can be active (R290): its TDC is not held in reset (R389), and a selector's lane, port and slice,
or for C40 and C41 the Varric link, carry a signal. -/
def candSource (s : State) (c : Nat) : Bool :=
  let x := candOf s c
  if (tget s.fault.src {} (0xA40 + c)).holds then false
  else if c < 8 then true
  else if c < 40 then
    match portAt s (cPort x) with
    | some q => domUp s (c - 8) && !q.lof && (match selectorLane q x with | some k => !(laneBad (laneOf s k)) | none => false)
    | none => false
  else s.twin.linkUp

/-- CSTATE (R321). -/
def cstateCode (x : Candidate) : Nat :=
  match x.st with | .unused => 0 | .waiting => 1 | .qualified => 2 | .disqualified => 3
/-- EVT_TMC_REF (R316). -/
def evtRef (c cause : Nat) (s : State) : State :=
  let x := candOf s c
  raise 0x0903 clsState 10 c (c + 256 * cstateCode x + 4096 * x.dissent.toNat) cause 0 0 s

/-- The QUAL_INIT or WTR timer runs while activity is present (R293) and the front output is valid (R346). -/
def candTimer (now : Nat) (x : Candidate) : Candidate :=
  if x.st != .waiting then { x with timerUntil := none, timerLeft := 0 }
  else if x.activity && (x.pulse || frontValid x) then
    match x.timerUntil with
    | some _ => x
    | none => { x with timerUntil := some (now + x.timerLeft) }
  else
    match x.timerUntil with
    | some u => { x with timerUntil := none, timerLeft := u - now }
    | none => x
/-- Start a candidate's timer at its full value. -/
def candStart (len now : Nat) (x : Candidate) : Candidate :=
  candTimer now { x with timerLen := len, timerLeft := len, timerUntil := none }

/-! ### DPLL settings and ranks (R296, R318) -/

/-- REVERT. -/
def dRevert (x : Dpll) : Bool := bitOf (wd x.cfg 0) 1
/-- QL_MODE. -/
def dQlMode (x : Dpll) : Bool := bitOf (wd x.cfg 0) 3
/-- TIME_LOCK. -/
def dTimeLock (x : Dpll) : Bool := bitOf (wd x.cfg 0) 4
/-- PEAK. -/
def dPeak (x : Dpll) : Bool := bitOf (wd x.cfg 0) 5
/-- PSL in 0.1 ns/s. -/
def dPsl (x : Dpll) : Nat := fld (wd x.cfg 2) 15 0
/-- LOCK_THR in 1/65,536 ns. -/
def dLockThr (x : Dpll) : Nat := (if fld (wd x.cfg 2) 31 16 = 0 then 10 else fld (wd x.cfg 2) 31 16) * 65536
/-- HO_AVG in ns. -/
def dHoAvg (x : Dpll) : Nat := (if fld (wd x.cfg 3) 11 0 = 0 then 60 else fld (wd x.cfg 3) 11 0) * 1000000000
/-- DISSENT_THR in 10^-12. -/
def dDissent (x : Dpll) : Nat := (if fld (wd x.cfg 3) 31 16 = 0 then 100 else fld (wd x.cfg 3) 31 16) * 10
/-- Whether the twin is a standby that follows (R364). -/
def twinFollows (s : State) : Bool := s.twin.role == .standby && s.twin.follow
/-- PBO in force for candidate c on DPLL d (R305, R364). -/
def pboFor (s : State) (d c : Nat) : Bool :=
  let x := dpllOf s d
  bitOf (wd x.cfg 0) 2 && !(d == 0 && dTimeLock x && (candOf s c).pulse) && !(d == 0 && c == 40 && twinFollows s)
/-- The rank of a candidate for a DPLL; a lower rank is better. -/
def rankFor (s : State) (d c : Nat) : Nat :=
  (if dQlMode (dpllOf s d) then 16 * candQl s c else 0) + cPrio (candOf s c) d

/-! ### Consensus (R297) -/

/-- The QUALIFIED candidates with PRIO for a DPLL. -/
def rankMembers (s : State) (d : Nat) : List Nat :=
  (List.range 42).filter (fun c => (candOf s c).st == .qualified && cPrio (candOf s c) d != 0)
/-- Sorted insertion. -/
def insertInt (v : Int) (l : List Int) : List Int :=
  match l with | [] => [v] | a :: r => if v ≤ a then v :: a :: r else a :: insertInt v r
/-- Twice the median of a list. -/
def median2 (l : List Int) : Int :=
  let s := l.foldr insertInt []
  if s.length % 2 = 1 then 2 * s.getD (s.length / 2) 0 else s.getD (s.length / 2 - 1) 0 + s.getD (s.length / 2) 0
/-- The consensus of one rank group: the members marked, and whether they disagree. -/
def groupMarks (thr : Nat) (g : List (Nat × Int × Bool)) : List Nat × Bool :=
  let offs := g.map (·.2.1)
  if g.length < 2 then ([], false)
  else if g.length = 2 then ([], decide (thr < (offs.getD 0 0 - offs.getD 1 0).natAbs))
  else
    let m := median2 offs
    let bad := g.filter (fun e =>
      let dev := (2 * e.2.1 - m).natAbs
      decide (2 * thr < dev) || (e.2.2 && decide (8 * thr < 5 * dev)))
    if bad.length = g.length then ([], true) else (bad.map (·.1), false)
/-- The marks and the disagreement of a DPLL. -/
def consensusOf (s : State) (d : Nat) : List Nat × Bool :=
  let ms := rankMembers s d
  let ranks := (ms.map (rankFor s d)).eraseDups
  let rs := ranks.map (fun r => groupMarks (dDissent (dpllOf s d))
    ((ms.filter (fun c => rankFor s d c == r)).map (fun c => (c, (candOf s c).off10, (candOf s c).dissent.getLsbD d))))
  (rs.flatMap (·.1), rs.any (·.2))

/-! ### DPLL states, sticky bits and events (R299, R314, R316) -/

/-- STATE (R321). -/
def dstateCode (t : DState) : Nat :=
  match t with | .freeRun => 0 | .locking => 1 | .locked => 2 | .holdover => 3 | .bridge => 4 | .dco => 5
/-- Set a sticky bit. -/
def stick (d b : Nat) (s : State) : State :=
  modDpll d (fun x => { x with sticky := x.sticky ||| (1#8 <<< b), secSticky := x.secSticky ||| (1#8 <<< b) }) s
/-- EVT_TMC_STATE. -/
def evtTmcState (d : Nat) (old : DState) (reason : Nat) (s : State) : State :=
  let x := dpllOf s d
  raise 0x0901 clsState 9 d (d + 4 * dstateCode old + 32 * dstateCode x.st + 256 * b2n x.disagree) reason 0 0 s
/-- The span of LOCKED operation in progress, closed at now; spans out of every window are dropped. -/
def spanClose (now : Nat) (x : Dpll) : Dpll :=
  if x.st == .locked then
    { x with spans := (x.spanAt, now, x.dco) :: x.spans.filter (fun e => decide (now ≤ e.2.1 + 3602000000000)), spanAt := now }
  else x
/-- Enter a state: its sticky bit, its timers and EVT_TMC_STATE. -/
def enterState (d : Nat) (t : DState) (s : State) : State :=
  let old := (dpllOf s d).st
  if old == t then s
  else
    let s := modDpll d (fun x =>
      let x := spanClose s.now x
      let ran : Bool := old == .locking || old == .locked
      let runs : Bool := t == .locking || t == .locked
      { x with st := t, lockSince := none, lossSince := none, stepped := false
               integ := if runs && !ran then x.dco else x.integ, wordGood := x.wordGood && ran && runs
               unlockedAt := if old == .locked then s.now else x.unlockedAt
               spanAt := if t == .locked then s.now else x.spanAt }) s
    let s := match t with
      | .locking => if old == .locked then stick d 0 s else s
      | .holdover => stick d 1 s
      | .freeRun => stick d 2 s
      | .bridge => stick d 3 s
      | _ => s
    evtTmcState d old 1 s

/-- LOCKED operation within the holdover window (R301): length in ns and the sum of DCO words weighted by it. -/
def holdWindow (now : Nat) (x : Dpll) : Nat × Int :=
  let x := spanClose now x
  let e := (if x.st == .locked then now else x.unlockedAt) - 1000000000
  let lo := e - dHoAvg x
  x.spans.foldl (fun (a : Nat × Int) p =>
    let n := min p.2.1 e - max p.1 lo
    (a.1 + n, a.2 + p.2.2 * (n : Int))) (0, 0)
/-- HO_VALID (R299). -/
def hoValid (s : State) (d : Nat) : Bool := decide (2000000000 ≤ (holdWindow s.now (dpllOf s d)).1)
/-- The holdover word. -/
def hoWord (s : State) (d : Nat) : Int :=
  let w := holdWindow s.now (dpllOf s d)
  if w.1 = 0 then 0 else w.2 / (w.1 : Int)
/-- The bridge word (R302): the mean, over the 100 ms that end 10 ms before now, of the words of valid updates in LOCKING or LOCKED that were
in force then. -/
def bridgeWord (now : Nat) (x : Dpll) : Int :=
  let m := segSum (fun g => if g.good then some g.word else none) ((now - 110000000) * 65536) ((now - 10000000) * 65536) x.segs
  if m.1 = 0 then x.dco else m.2 / (m.1 : Int)

/-! ### A candidate's phase now (R303, R304) -/

/-- A phase moved on by n (1/65,536 ns) at a fractional frequency offset in 10^-12: a fast candidate's edges come earlier. -/
def phaseOn (v off : Int) (n : Nat) : Int := v - off * (n : Int) / 1000000000000
/-- φc of candidate c now: that of its latest pulse extrapolated by OFFSET_10S, or of its latest TDC sample by OFFSET_1S. -/
def phaseCand (s : State) (c : Nat) : Int :=
  let x := candOf s c
  if x.pulse then
    match x.front.pulses with
    | e :: _ => phaseOn e.phase x.off10 (s.now * 65536 - e.at_)
    | [] => x.phase
  else phaseOn x.phase x.off1 (s.now * 65536 - x.phaseAt)

/-! ### Selection and switches (R298, R303, R306, R316) -/

/-- Whether a candidate is selectable for a DPLL. -/
def selectable (s : State) (d c : Nat) : Bool :=
  let x := candOf s c
  x.st == .qualified && cPrio x d != 0 && !(x.dissent.getLsbD d) && !(dQlMode (dpllOf s d) && candQl s c == 15)
/-- Whether DPLL d takes C40 because the twin follows. -/
def followNow (s : State) (d : Nat) : Bool := d == 0 && twinFollows s && (candOf s 40).st == .qualified
/-- The target of the selection algorithm. -/
def selectTarget (s : State) (d : Nat) : Option Nat :=
  let x := dpllOf s d
  if followNow s d then some 40
  else match x.forced with
    | some c => if (candOf s c).st == .qualified then some c else none
    | none =>
      if x.hoForced then none
      else
        let elig := (List.range 42).filter (selectable s d)
        match minBy (rankFor s d) elig with
        | none => none
        | some b =>
          match x.sel with
          | some c => if elig.contains c && (rankFor s d c == rankFor s d b || !(dRevert x)) then some c else some b
          | none => some b
/-- Whether the selection still stands on its candidate. -/
def keeps (s : State) (d c : Nat) : Bool :=
  if followNow s d then c == 40
  else match (dpllOf s d).forced with
    | some f => c == f && (candOf s c).st == .qualified
    | none => !(dpllOf s d).hoForced && selectable s d c

/-- Move to HOLDOVER or FREE_RUN. -/
def toNone (d : Nat) (s : State) : State :=
  let hv := hoValid s d
  let w := if hv then hoWord s d else 0
  let s := modDpll d (fun x => { spanClose s.now x with switch := none, heldAdj := 0, sel := none }) s
  modDpll d (fun x => { x with dco := w, err := 0 }) (enterState d (if hv then .holdover else .freeRun) s)
/-- Move to LOCKING on a candidate, built out where asked. -/
def startLoop (d c : Nat) (build : Bool) (s : State) : State :=
  let b := if build && pboFor s d c then wrapPhase s c (phaseCand s c - phaseNow s d) else 0
  enterState d .locking (modDpll d (fun x => { x with sel := some c, b := b, linear := (candOf s c).pulse }) s)
/-- Begin a switch. -/
def toBridge (d c cause : Nat) (s : State) : State :=
  let x := dpllOf s d
  let sw := match x.switch with
    | some w => { w with target := c, cause := cause }
    | none => { target := c, from_ := x.sel.getD 63, cause := cause, prevLocked := x.st == .locked }
  let w := if x.st == .bridge then x.dco else bridgeWord s.now x
  let s := modDpll d (fun x => { spanClose s.now x with sel := some c, switch := some sw }) s
  let s := if x.st == .bridge then stick d 3 s else enterState d .bridge s
  modDpll d (fun x => { x with dco := w }) s

/-- Apply a TMC_SELECT OP 2 to OP 5. -/
def applySelect (d op c : Nat) (s : State) : State :=
  modDpll d (fun x =>
    match op with
    | 2 => { x with forced := some c }
    | 3 => { x with forced := none }
    | 4 => { x with hoForced := true }
    | _ => { x with hoForced := false }) s
/-- The cause of a switch that a TMC_SELECT OP brings. -/
def opCause (op : Nat) : Nat := if op = 2 then 3 else if op = 3 then 5 else 0

/-- Run the selection, whatever switch is in progress; `why` is the cause where the occasion gives one (3 to 6), else 0. -/
def selectOnce (d why : Nat) (s : State) : State :=
  let x := dpllOf s d
  if x.st == .dco then s
  else
    let t := selectTarget s d
    let fol := followNow s d
    let cause :=
      if x.following != fol then 6 else if why != 0 then why
      else match x.sel with
        | some c => if keeps s d c then 2 else 1
        | none => 1
    let s := modDpll d (fun x => { x with following := fol }) s
    if t == x.sel && x.st != .bridge then s
    else
      match x.st, t with
      | .freeRun, none => s
      | .holdover, none => s
      | .freeRun, some c => startLoop d c false s
      | .holdover, some c => startLoop d c true s
      | _, none => toNone d s
      | _, some c => toBridge d c cause s
/-- A request that waited for a switch is applied where the switch has ended, and selection follows it. -/
def takePending (d : Nat) (s : State) : State :=
  let x := dpllOf s d
  match x.pendSelect, x.switch with
  | some (op, c), none =>
    selectOnce d (opCause op) (applySelect d op c (modDpll d (fun x => { x with pendSelect := none }) s))
  | _, _ => s
/-- Run the selection and take a waiting request where it ended a switch. -/
def selectForce (d why : Nat) (s : State) : State := takePending d (selectOnce d why s)
/-- Run the selection unless a switch is in progress (R298). -/
def runSelect (d why : Nat) (s : State) : State :=
  if (dpllOf s d).switch.isSome then s else selectForce d why s

/-- The completion of a switch at the TDC sample phi of a clock target, or on the latest pulse of a pulse target (R303 to R307). -/
def switchDone (d : Nat) (phi : Int) (s : State) : State :=
  let x := dpllOf s d
  match x.switch with
  | none => s
  | some w =>
    if x.st != .bridge || (sampleOf s w.target x.p false).isNone then s
    else
      let pbo := pboFor s d w.target
      let y := candOf s w.target
      let v := if y.pulse then phaseCand s w.target else candPhase s w.target (unwrapTdc s w.target y.tdc phi)
      let b := (if pbo then wrapPhase s w.target (v - phaseNow s d) - x.err else 0) + x.heldAdj
      let s := modDpll d (fun x => { x with b := b, heldAdj := 0, switch := none, linear := (candOf s w.target).pulse }) s
      let s := enterState d (if w.prevLocked && pbo then .locked else .locking) s
      let s := raise 0x0902 clsState 9 d (d + 256 * w.from_ + 65536 * w.target) w.cause 0 0 s
      match (dpllOf s d).pendSelect with
      | some _ => takePending d s
      | none => runSelect d 0 s

/-! ### Candidate faults (R293, R306) -/

/-- The candidate's own change at a fault: a restarted timer or DISQUALIFIED with its event. -/
def candFaultState (c cause : Nat) (s : State) : State :=
  let x := candOf s c
  match x.st with
  | .waiting => modCand c (candStart x.timerLen s.now) s
  | .qualified =>
    let s := modCand c (fun x => { x with st := .disqualified, faults := x.faults + 1, timerUntil := none, timerLeft := 0 }) s
    let s := if cause = 3 then foldS ((List.range 4).filter (fun d => cPrio x d != 0)) (fun d => stick d 6) s else s
    evtRef c cause s
  | _ => s
/-- What a DPLL on a candidate does at once: it selects again where its selection no longer stands, and abandons a switch whose
target lost activity or jumped. -/
def candReselect (c : Nat) (abandon : Bool) (s : State) : State :=
  foldS (List.range 4) (fun d s =>
    let x := dpllOf s d
    if x.sel != some c || x.st == .dco then s
    else if x.switch.isSome then (if abandon then selectForce d 0 s else s)
    else if keeps s d c then s else runSelect d 0 s) s
/-- A fault: cause 1 activity, 2 offset, 3 phase jump. -/
def candFault (c cause : Nat) (s : State) : State := candReselect c (cause != 2) (candFaultState c cause s)
/-- Activity is lost. -/
def activityLost (c : Nat) (s : State) : State :=
  if candOn (candOf s c) && (candOf s c).activity then
    candFault c 1 (modCand c (fun x => { x with activity := false, actLost := true }) s)
  else s
/-- A selected candidate that stopped being selectable, as when accepted S1 bits make its rank 15, is left at once (R298). -/
def selectSettle (d : Nat) (s : State) : State :=
  let x := dpllOf s d
  match x.sel with
  | some c => if x.switch.isNone && x.st != .dco && !(keeps s d c) then runSelect d 0 s else s
  | none => s
/-- Candidates whose source has failed lose activity; C40's return or loss reaches a following DPLL0; a selection that no longer stands is
made again. -/
def candSettle (s : State) : State :=
  let s := foldS (List.range 42) (fun c s => if candSource s c then s else activityLost c s) s
  let s := if (dpllOf s 0).following != followNow s 0 then runSelect 0 6 s else s
  foldS (List.range 4) selectSettle s

/-! ### The second boundary (R288, R289, R297, R315) -/

/-- XO_IN is measured against OCXO_IN and filtered (R288), and the correction follows the result: after a requalification by at most
0.1 ppb, and not while OCXO_IN is not qualified (R289). -/
def corrStep (m : Int) (s : State) : State :=
  if s.tmc.ocxoCfg = 0 then s
  else
    let t := Config.ocxoFilter s.tmc.ocxoFilt m
    let c := if !s.tmc.ocxoActive then s.tmc.corr
      else if s.tmc.ocxoSlew then clampI (s.tmc.corr - 100000) (s.tmc.corr + 100000) t else t
    { s with tmc.ocxoFilt := t, tmc.corr := c, tmc.ocxoSlew := s.tmc.ocxoSlew && !(s.tmc.ocxoActive && c == t) }
/-- The fractional frequency offset in 10^-12 between two phases and their instants (R292): a phase that falls is a fast candidate's. -/
def offsetOf (a b : Nat × Int) (corr old : Int) : Int :=
  if a.1 ≤ b.1 then old else (b.2 - a.2) * 1000000000000 / ((a.1 - b.1 : Nat) : Int) + corr / 1000
/-- The offsets of a candidate from its phases at the last second boundaries: OFFSET_1S from two, OFFSET_10S from eleven; until there are as
many, each stays as it is. The OCXO correction is added (R288). -/
def offsetsTake (corr : Int) (x : Candidate) : Candidate :=
  match x.bounds with
  | a :: b :: _ =>
    { x with off1 := offsetOf a b corr x.off1
             off10 := match x.bounds[10]? with | some z => offsetOf a z corr x.off10 | none => x.off10 }
  | _ => x
/-- The phase of a candidate at a second boundary with its instant: of a pulse candidate, its latest pulse. -/
def boundTake (s : State) (c : Nat) (v : Int) (x : Candidate) : Candidate :=
  if x.pulse then
    match x.front.pulses with
    | e :: _ => { x with bounds := ((e.at_, e.phase) :: x.bounds).take 11 }
    | [] => x
  else
    let x := tdcTake s c (s.now * 65536) (unwrapTdc s c x.tdc v) x
    { x with bounds := ((x.phaseAt, x.phase) :: x.bounds).take 11 }
/-- One candidate measured at a second boundary: activity, which a timer waits for, the phase and the offsets. -/
def measTake (m : OffsetMeas) (s : State) : State :=
  let act := m.active && candSource s m.c.val
  modCand m.c.val (fun x =>
    if candOn x then
      candTimer s.now (offsetsTake s.tmc.corr (boundTake s m.c.val m.phase
        { x with activity := act, actLost := x.actLost || (x.activity && !act) }))
    else x) s
/-- A candidate evaluated at a second boundary (R293). -/
def candEval (c : Nat) (s : State) : State :=
  let x := candOf s c
  match x.st with
  | .unused => s
  | .waiting => if !x.activity || cAccept x < x.off1.natAbs then candFaultState c 2 s else s
  | .qualified =>
    if !x.activity then candFaultState c 1 s else if cReject x < x.off1.natAbs then candFaultState c 2 s else s
  | .disqualified =>
    if x.activity && x.off1.natAbs ≤ cAccept x then
      modCand c (fun x => candStart (candWtr x) s.now { x with st := .waiting }) s
    else s
/-- The consensus of a DPLL taken: marks, REF_DISAGREE, sticky bits and events. -/
def consensusTake (d : Nat) (s : State) : State :=
  let r := consensusOf s d
  let s := if r.1.any (fun c => !((candOf s c).dissent.getLsbD d)) then stick d 4 s else s
  let s := foldS (List.range 42) (fun c s =>
    let x := candOf s c
    let m := r.1.contains c
    if m == x.dissent.getLsbD d then s
    else evtRef c 6 (modCand c (fun x => { x with dissent := x.dissent ^^^ (1#4 <<< d) }) s)) s
  if r.2 == (dpllOf s d).disagree then s
  else
    let s := modDpll d (fun x => { x with disagree := r.2 }) s
    evtTmcState d (dpllOf s d).st 2 (if r.2 then stick d 5 s else s)
/-- Selection at a second boundary: a switch whose target has lost activity is abandoned (R306). -/
def boundarySelect (d : Nat) (s : State) : State :=
  match (dpllOf s d).switch with
  | some w => if (candOf s w.target).activity then s else selectForce d 0 s
  | none => runSelect d 0 s

/-- The record of a DPLL's second from lo to hi (1/65,536 ns): the DCO word and the error are means over it (R322). -/
def dpllRecord (gap : Bool) (start sec lo hi : Nat) (x : Dpll) : DpllHist :=
  { st := x.st, sel := x.sel.getD 63, gap := gap, sticky := x.secSticky, start := start, sec := sec
    dco := segMean (·.word) lo hi x.segs, err := segMean (·.err) lo hi x.segs }
/-- The record of a candidate's second. -/
def candRecord (gap : Bool) (start sec : Nat) (x : Candidate) : CandHist :=
  { off1 := x.off1, st := x.st, actLost := x.actLost, dissent0 := x.dissent.getLsbD 0, gap := gap, start := start, sec := sec }
/-- The ninth-newest record is lost when the ring of eight overflows: its record carries GAP. -/
def ringLose {α : Type} (lose : Bool) (f : α → α) (l : List α) : List α :=
  if lose then l.take 8 ++ ((l.drop 8).take 1).map f ++ l.drop 9 else l
/-- The records of the second that closes (R315). -/
def histStep (s : State) : State :=
  let start := (devSec s - 1) * 1000000000
  let gap := s.tmc.gapNow
  let ring := if mpRuns s then 0 else s.tmc.ring + 1
  let lose := decide (8 < ring)
  let n := s.tmc.secs + 1
  let hi := s.now * 65536
  let s := foldS (List.range 4) (fun d => modDpll d (fun x => { spanClose s.now x with
    hist := (ringLose lose (fun r => { r with gap := true }) (dpllRecord gap start n s.tmc.secAt hi x :: x.hist)).take (dpllDepth (outsideS s))
    secSticky := 0 })) s
  let cs := (List.range 42).filter (fun c => candOn (candOf s c))
  let s := foldS cs (fun c s =>
    let h := (ringLose lose (fun (r : CandHist) => { r with gap := true }) (candRecord gap start n (candOf s c) :: tget s.tmc.candHist [] c)).take (candDepth (outsideS s))
    modCand c (fun x => { x with actLost := false }) { s with tmc.candHist := tset s.tmc.candHist c h }) s
  { s with tmc.ring := ring, tmc.secs := n, tmc.secAt := hi, tmc.gapNow := false, fault.corrTick := tickNow s, fault.corrNs := devNs s }

/-- The steps of a second boundary in their order. -/
def secondBoundary (meas : SecondMeas) (s : State) : State :=
  let s := dcoSettle (corrStep meas.ocxo s)
  let s := foldS meas.cands measTake s
  let s := foldS (List.range 42) candEval s
  let s := foldS (List.range 4) consensusTake s
  let s := foldS (List.range 4) boundarySelect s
  histStep s

/-! ### Loop updates (R299, R304, R307, R331, R346) -/

/-- Whether time alignment measures DPLL0 against device time (R308). -/
def timeAligned (s : State) (d : Nat) : Bool :=
  d == 0 && dTimeLock (dpllOf s 0) && (match (dpllOf s 0).sel with | some c => (candOf s c).pulse | none => false)
/-- A timer start moved by the time for which the loop was frozen. -/
def pauseTimer (t : Option Nat) (n : Nat) : Option Nat := t.map (· + n)
/-- What a loop update computes: the error against the output phase of GD_total earlier (R335), the integrator and the DCO word. On an
unstable bank error and word are free values within ±500 ppm (R340). PSL bounds how far the word leaves the integrator's frequency, at which
the output does not move against its reference (R305, R307, R308; DEDUCED, log 29). -/
def loopFilter (d c t : Nat) (v : Int) (s : State) : Int × Int × Int :=
  let x := dpllOf s d
  let bw := bwEff s x
  let gd := gdTotal s (candOf s c)
  let wild := bankWild (candOf s c) bw
  let phi := if timeAligned s d then 0 else phaseAt s d (t - gd * 65536)
  let e := if wild then Config.freeInt s.free else v - phi - x.b
  let integ := Config.loopIntegral bw (dPeak x) gd e x.integ
  let prop := Config.loopProportional bw (dPeak x) gd e
  let lim : Int := dPsl x * 100000
  let word := integ + (if dPsl x = 0 then prop else clampI (-lim) lim prop)
  (e, integ, clampI (-dcoMax) dcoMax (if wild then Config.freeInt (s.free + 1) else word))
/-- One loop update at an instant (1/65,536 ns): the resampler takes the candidate in use, which is the one left until a switch completes
(R333, R350); without a valid sample the loop is held (R346). -/
def loopUpdate (d sub : Nat) (s : State) : State :=
  if !(tmcRuns s) then s
  else
    let x := dpllOf s d
    let p := x.p + x.rho
    let t := s.now * 65536 + sub
    let runs := x.st == .locking || x.st == .locked
    match (candUse x).bind (fun c => (sampleOf s c p (timeAligned s d)).map (fun v => (c, v))) with
    | none =>
      modDpll d (fun x => segPush s.tmc.corr t { x with
        p := p, updAt := s.now, valid := false, heldCnt := x.heldCnt + 1, wordGood := false
        lockSince := pauseTimer x.lockSince (s.now - x.updAt), lossSince := pauseTimer x.lossSince (s.now - x.updAt) }) s
    | some (c, v) =>
      if runs then
        let r := loopFilter d c t v s
        let off := 1000 * (candOf s c).off1 - s.tmc.corr
        let inLock := decide (r.1.natAbs ≤ dLockThr x) && decide ((r.2.2 + s.tmc.corr - off).natAbs ≤ 1000000)
        let out := decide (4 * dLockThr x < r.1.natAbs)
        modDpll d (fun x => segPush s.tmc.corr t { spanClose s.now x with
          p := p, updAt := s.now, valid := true, err := r.1, integ := r.2.1, dco := r.2.2, wordGood := true
          lockSince := if inLock then some (x.lockSince.getD s.now) else none
          lossSince := if out then some (x.lossSince.getD s.now) else none }) { s with free := s.free + 2 }
      else modDpll d (fun x => { x with p := p, updAt := s.now, valid := true }) s

/-- PHASE_ADJ (R307) in a state that accepts it. -/
def phaseAdj (d : Nat) (v : Int) (s : State) : State :=
  let x := dpllOf s d
  match x.st with
  | .bridge => modDpll d (fun x => { x with heldAdj := x.heldAdj + v }) s
  | .dco =>
    let left := match x.spread with
      | some r => if r.len = 0 then 0 else r.amount * (((r.start + r.len) - s.now : Nat) : Int) / (r.len : Int)
      | none => 0
    let total := left + v
    let len := if dPsl x = 0 then 1000000000
      else max 1000000000 ((total.natAbs * 10000000000 + 65536 * dPsl x - 1) / (65536 * dPsl x))
    modDpll d (fun x => { x with spread := some { amount := total, start := s.now, len := len } }) s
  | _ => modDpll d (fun x => { x with b := x.b + v }) s

/-- A pulse edge of a candidate `sub` (1/65,536 ns) after now: its phase against the base and its error against the nearest whole second of
device time, both less REF_DELAY, are stamped (R333), and time alignment steps device time once while LOCKING (R308). -/
def pulseIn (c sub : Nat) (s : State) : State :=
  let x := candOf s c
  if candOn x && x.pulse then
    let t := s.now * 65536 + sub
    let u := unwrapTdc s c (some (x.tdc.getD 0)) ((t % 65536000000000 : Nat) : Int)
    let dev := (devFine s : Int) + (sub : Int) + (sub : Int) * y0 s / 1000000000000000
    let e : PulseStamp := { at_ := t, phase := candPhase s c u, err := wrapTo 1000 (dev - cRefDelay x) }
    let s := modCand c (fun x => { tdcTake s c t u x with front := { x.front with pulses := (e :: x.front.pulses).take 8 } }) s
    let d := dpllOf s 0
    if timeAligned s 0 && d.sel == some c && d.st == .locking && !d.stepped && decide (65536000 < e.err.natAbs) then
      modDpll 0 (fun x => { x with stepped := true }) (stepTimeBy (-e.err) s)
    else s
  else s

/-! ### Outputs (R310 to R313) -/

/-- Whether SQUELCH holds an output low (R313): a pulse output follows DPLL0. -/
def squelched (s : State) (n : Nat) : Bool :=
  let o := outOf s n
  let d := if n < 16 then fld (wd o.words 0) 7 6 else 0
  match fld (wd o.words 0) 11 10, (dpllOf s d).st with
  | 0, _ => false
  | _, .freeRun => true
  | 1, _ => false
  | _, .holdover => true
  | _, _ => false
/-- PERIOD of a pulse output, in 1/65,536 ns. -/
def pulsePeriod (o : Output) : Nat := fld (wd o.words 1) 29 0 * 65536000
/-- Whether the edge of a pulse output is due: device time has reached its position within the last clock cycle, and it is not the edge that has
just been produced. -/
def edgeDue (s : State) (o : Output) : Bool :=
  let per := pulsePeriod o
  let past := (((devFine s : Int) - (o.pos : Int)) % (per : Int)).toNat
  per != 0 && decide (past * 4294967296 ≤ (dtStep s).toNat) &&
    (match o.last with | some r => decide (per * 4294967296 ≤ 2 * (s.tmc.lapse - r)) | none => true)
/-- A rising edge of a pulse output, when it is due (R310): it moves toward its target by the shorter way (R311). -/
def pulseEdge (n : Nat) (s : State) : State :=
  let o := outOf s n
  if !(outOn o) || squelched s n || o.restartUntil.isSome || !(edgeDue s o) then s
  else
    let o := { o with edges := o.edges + 1, rise := some s.tmc.lapse, last := some s.tmc.lapse }
    let period := pulsePeriod o
    let up := (pulseTarget o + period - o.pos) % period
    let st := annealStep o
    if o.aligned then modOut n (fun _ => o) s
    else if up ≤ st || period - up ≤ st then evtOutput n true (modOut n (fun _ => { o with pos := pulseTarget o, aligned := true }) s)
    else modOut n (fun _ => { o with pos := if 2 * up ≤ period then (o.pos + st) % period else (o.pos + period - st) % period }) s

/-! ### Clock outputs (R312, R313) -/

/-- The words a clock output runs at, at an instant. -/
def clkWords (o : Output) (t : Nat) : List Word := match o.turn with | some e => if e.1 ≤ t then e.2 else o.run | none => o.run
/-- The configured frequency of a clock output's words, in 1/65,536 Hz. -/
def clkSet (ws : List Word) : Nat := fld (wd ws 1) 29 0 * 65536 + fld (wd ws 2) 15 0
/-- The fractional frequency of DPLL d's output, in 10^-15 (R288). -/
def dpllY (s : State) (d : Nat) : Int := dcoUse (dpllOf s d) + s.tmc.corr
/-- The frequency of clock output n, in 10^-15/65,536 Hz: the configured value × (1 + the DPLL's fractional frequency). -/
def clkFreq (s : State) (n : Nat) : Int :=
  let ws := clkWords (outOf s n) (s.now * 65536)
  (clkSet ws : Int) * (1000000000000000 + dpllY s (fld (wd ws 0) 7 6))
/-- One cycle of a clock output, in the unit of clkPos. -/
def clkCycle : Int := 4294967296000000000000
/-- Where in its cycle a clock with these words is now: it is driven from its DPLL's output phase, so clocks of one DPLL whose frequencies are
integer-related have coincident edges, and PHASE delays it (DEDUCED, log 28). The high phase is the first half. -/
def clkPos (s : State) (ws : List Word) : Int :=
  let tau : Int := ((s.now * 65536 : Nat) : Int) - phaseNow s (fld (wd ws 0) 7 6)
  (clkSet ws : Int) * (1000 * tau - sx 32 (wd ws 3).toNat * 65536) % clkCycle
/-- The instant (1/65,536 ns) at which a clock with these words next reaches a place in its cycle. -/
def clkReach (s : State) (ws : List Word) (place : Int) : Nat :=
  let rate := (clkSet ws : Int) * (1000000000000000 + dpllY s (fld (wd ws 0) 7 6))
  let left := (place - clkPos s ws) % clkCycle
  s.now * 65536 + (if rate ≤ 0 then 0 else (left * 1000000000000 + rate - 1) / rate).toNat
/-- Whether the gate of a clock output is open at an instant. -/
def gateOpen (o : Output) (t : Nat) : Bool := if o.gateAt ≤ t then o.gate else !o.gate
/-- The gate of a clock output moves only at the end of a high phase, so no runt pulse occurs (R313). -/
def gateStep (s : State) (n : Nat) (o : Output) : Output :=
  let want := outOn o && !(squelched s n) && o.restartUntil.isNone
  if o.gate == want then o
  else if gateOpen o (s.now * 65536) == want then { o with gate := want, gateAt := 0 }
  else { o with gate := want, gateAt := clkReach s (clkWords o (s.now * 65536)) (clkCycle / 2) }
/-- The gates of the clock outputs follow their DPLLs' states. -/
def gateSettle (s : State) : State :=
  { s with tmc.outs := s.tmc.outs.map (fun (e : Nat × Output) => (e.1, if e.1 < 16 then gateStep s e.1 e.2 else e.2)) }
/-- The level at the pin of output n (R310, R312, R313): a pulse is high for WIDTH after its edge. -/
def outHigh (s : State) (n : Nat) : Bool :=
  let o := outOf s n
  if !(outOn o) then false
  else if n < 16 then
    gateOpen o (s.now * 65536) && decide (2 * clkPos s (clkWords o (s.now * 65536)) < clkCycle)
  else match o.rise with
    | some r => decide (s.tmc.lapse < r + fld (wd o.words 2) 19 0 * 1000 * 281474976710656)
    | none => false
/-- What the timing core's outputs do at once after a change. -/
def tmcSettle (s : State) : State := gateSettle (dcoSettle s)

end Sys2Proof.Machine
end

