-- ==== Sys2Proof/Machine/Twin.lean ====
section
/-! DEFINITION. The twin logic (12_twin_pair.md): roles, the claim, heartbeats, handover and what each path's loss means. -/

namespace Sys2Proof.Machine

/-- ROLE codes (R358). -/
def roleCode (r : Role) : Nat :=
  match r with | .startup => 0 | .standby => 1 | .claimWait => 2 | .active => 3 | .handover => 4 | .yield => 5 | .out => 6

/-- EVT_TWIN_PARTNER (R379). -/
def evtPartner (cause : Nat) (s : State) : State :=
  let t := s.twin
  raise 0x0B02 clsState 0 0 (b2n t.linkUp + 2 * b2n t.vhbOk + 4 * b2n t.hbxOk + 8 * t.partnerSt + 32 * b2n t.arbFault +
    64 * b2n t.strapConflict + 128 * b2n t.histSync) cause 0 0 s

/-- The staging is discarded, and a TWIN_COMMIT under way ends with TIMEOUT (R369). -/
def dropStaging (s : State) : State :=
  let s := { s with twin.staging := [], twin.commit := .none, twin.commitLen := 0 }
  finishWaiting (· == .commit) .timeout [] s

/-- Change role: EVT_TWIN_ROLE, what the role drives, and what leaving the old role ends (R354, R358, R369). ACTIVE_N goes low
once ARB_CLAIM reads asserted, and stays low through ACTIVE and HANDOVER. An entry to ACTIVE is not the return from HANDOVER. A twin that
returns from HANDOVER is synchronised; one that leaves for OUT, or from ACTIVE straight to STANDBY, resynchronises (R380). -/
def setRole (r : Role) (cause : Nat) (s : State) : State :=
  let old := s.twin.role
  let s := raise 0x0B01 clsState 0 0 (roleCode old + 8 * roleCode r) cause 0 0 s
  let holds := r == .active || r == .handover
  let enters := r == .active && old != .handover
  let s := { s with
    twin.role := r, twin.roleTime := devNs s
    twin.arbDrive := holds, twin.activeN := holds && (s.twin.arbAsserted || s.twin.activeN)
    twin.activeSince := if enters then devFine s else if holds then s.twin.activeSince else 0
    twin.switchovers := if enters then s.twin.switchovers + 1 else s.twin.switchovers
    twin.claimUntil := none, twin.accepted := if r == .standby then s.twin.accepted else none
    twin.handoverAt := if r == .handover then s.twin.handoverAt else none
    twin.yieldUntil := if r == .yield then s.twin.yieldUntil else none
    twin.aligned := r == .standby && s.twin.aligned
    twin.ready := s.twin.ready && r == .standby
    twin.resynced := (s.twin.resynced && r != .out && !(old == .active && r == .standby)) || (old == .handover && r == .standby) }
  let s := if r == .out || r == .yield then s else if old == .out || old == .yield then { s with twin.hbNextAt := s.now } else s
  if old == .active then dropStaging s else s

/-- The claim delay D of the strap, in ns (R352). -/
def claimDelay (s : State) : Nat := if s.pins.strap then 60000 else 20000
/-- Whether both heartbeats are lost. -/
def bothLost (s : State) : Bool := !s.twin.vhbOk && !s.twin.hbxOk
/-- Whether the claim condition C holds in the present role, and the twin may act on it (R358, R360). -/
def claimHolds (s : State) : Bool :=
  match s.twin.role with
  | .startup => !s.twin.arbAsserted
  | .standby => !s.twin.arbAsserted && bothLost s && (s.twin.claimUnsync || s.twin.readyAtHb)
  | _ => false
/-- STARTUP or STANDBY looks at the claim line. -/
def claimCheck (s : State) : State :=
  if !s.twin.run then s
  else if s.twin.role == .startup && s.twin.arbAsserted then setRole .standby 11 s
  else if claimHolds s then
    let fs := s.twin.role == .standby
    let s := setRole .claimWait 10 s
    { s with twin.claimFromStandby := fs, twin.claimUntil := some (s.now + claimDelay s) }
  else s
/-- Both heartbeats lost start the 1 ms of R365 and R376. -/
def lostTimer (s : State) : State :=
  if bothLost s then { s with twin.bothLostAt := some (s.twin.bothLostAt.getD s.now) }
  else { s with twin.bothLostAt := none }
/-- ARB_FAULT follows a reading of the line (R365): the standby reads its segment released while the partner reports ACTIVE. -/
def arbOpen (s : State) : Bool :=
  s.twin.role == .standby && !s.twin.arbAsserted && s.twin.vhbOk && (match s.twin.partner with | some h => h.role.val == 3 | none => false)
/-- ARB_FAULT set or cleared, with its event. -/
def arbFaultStep (v : Bool) (s : State) : State :=
  if v == s.twin.arbFault then s else evtPartner 2 { s with twin.arbFault := v }

/-- The twin leaves for OUT (R358, R361). -/
def twinOut (cause : Nat) (s : State) : State :=
  if !s.twin.run || s.twin.role == .out then s
  else finishWaiting (fun k => match k with | .switch _ => true | _ => false) .timeout [] (setRole .out cause s)

/-- PARTNER as the last reports give it (R375). -/
def partnerNow (s : State) : Nat :=
  if bothLost s then 0
  else if s.twin.resyncing then 3
  else match s.twin.partner with
    | some h => if h.ready && s.twin.linkUp && h.version.toNat == s.fw.running.mirror then 2 else 1
    | none => 1

/-- Whether this twin, as standby, is synchronised (R371); with both heartbeat paths lost it is not (R365). -/
def twinSynced (s : State) : Bool :=
  s.twin.role == .standby && s.twin.paired && s.twin.linkUp && s.twin.resynced && !s.twin.resyncing && !(bothLost s) &&
    (match s.twin.partner with | some h => h.paired && h.version.toNat == s.fw.running.mirror | none => false) &&
    (!s.twin.follow || ((dpllOf s 0).st == .locked && (dpllOf s 0).sel == some 40))

/-- The Varric lanes all carry a signal (R355), and none a test pattern (R479). -/
def varricLanes (s : State) : Bool :=
  domUp s 35 && (List.range 8).all (fun i => laneTracks s (512 + i) && !(laneGen s (512 + i)))
/-- The lanes of cross-fed ports declare dLOS, which takes what they feed to HUNT, or clear it (R80, R373); those of a slice without power keep
it (R137). -/
def fedLanes (los : Bool) (s : State) : State :=
  foldS ((s.port.filter (fun e => portFed s e.1 && (los || sliceUp s (e.1 / 8)))).flatMap (fun e => portLanes e.1 e.2)) (fun k s =>
    let s := modLane k (fun l => { l with los := los }) s
    if los then huntLane k s else s) s
/-- The link goes down: mirroring and cross-feed stop, and the next link-up resynchronises (R355, R365); a transaction whose COMMIT_ACK the standby
has sent still applies (R369). -/
def linkDown (s : State) : State :=
  if !s.twin.linkUp then s
  else
    let s := fedLanes true s
    evtPartner 1 { s with
      twin.linkUp := false, twin.resynced := false, twin.resyncing := false, twin.histSync := false, twin.aligned := false
      twin.rxTxn := if s.twin.rxApply.isSome then s.twin.rxTxn else [], twin.rxPrepared := false, twin.hbTimes := [], twin.partnerSt := if bothLost s then 0 else 1 }
/-- The link follows its lanes (R355). -/
def linkSettle (s : State) : State := if s.twin.run && s.twin.linkUp && !(varricLanes s) then linkDown s else s
/-- What the twin logic derives from the rest of the state: READY and PARTNER. -/
def twinSettle (s : State) : State :=
  if !s.twin.run then s
  else
    let s := { s with twin.ready := twinSynced s }
    let p := partnerNow s
    if p == s.twin.partnerSt then s else evtPartner 3 { s with twin.partnerSt := p }

/-- The twin logic leaves reset (R358, R476): STARTUP, and the claim line is looked at. -/
def twinStart (s : State) : State :=
  let s := { s with twin.run := true, twin.role := .startup, twin.hbNextAt := s.now, twin.switchovers := 0 }
  claimCheck (raise 0x0B01 clsState 0 0 0 13 0 0 { s with twin.roleTime := devNs s })

/-- The heartbeat that leaves now (R356). -/
def heartbeatOut (s : State) : Heartbeat :=
  let t := s.twin
  { version := BitVec.ofNat 8 s.fw.running.mirror
    role := ⟨roleCode t.role % 8, Nat.mod_lt _ (by decide)⟩, strap := s.pins.strap, paired := t.paired, ready := t.ready, follow := t.follow
    seq := t.hbSeq + 1, txTime := devFine s
    echoTx := match t.partner with | some h => h.txTime | none => 0
    echoRx := t.partnerRx
    phase0 := phaseNow s 0, phase1 := phaseNow s 1
    activeSince := if t.role == .active then t.activeSince else 0
    handoverAt := t.handoverAt.getD 0, request := t.role == .handover, ack := t.accepted.isSome, txnApplied := t.txn }
/-- The 504 payload bytes of a heartbeat (R356). -/
def heartbeatBytes (h : Heartbeat) : List Byte :=
  [h.version, BitVec.ofNat 8 (h.role.val + 8 * b2n h.strap + 16 * b2n h.paired + 32 * b2n h.ready + 64 * b2n h.follow)] ++
    natBe 2 h.seq.toNat ++ natBe 10 h.txTime ++ natBe 10 h.echoTx ++ natBe 10 h.echoRx ++ natBe 8 (unsx 64 h.phase0) ++
    natBe 8 (unsx 64 h.phase1) ++ natBe 10 h.activeSince ++ natBe 10 h.handoverAt ++
    [BitVec.ofNat 8 (b2n h.request + 2 * b2n h.ack)] ++ natBe 4 h.txnApplied.toNat ++ List.replicate 429 0
/-- Send a heartbeat frame and toggle HBX_OUT. -/
def sendHeartbeat (s : State) : State :=
  let s := sendVarric 0x10 0 (heartbeatBytes (heartbeatOut s)) s
  { s with twin.hbSeq := s.twin.hbSeq + 1, twin.hbxOut := !s.twin.hbxOut, twin.hbSent := some (heartbeatOut s)
           twin.hbNextAt := s.now + 10000, twin.hbTimes := (devFine s :: s.twin.hbTimes).take 8 }

/-- A heartbeat arrived on one of the paths: a claim wait entered from STANDBY ends (R358), and readiness is noted (R360). -/
def heartbeatSeen (s : State) : State :=
  let s := { s with twin.readyAtHb := s.twin.ready }
  let s := lostTimer s
  let s := if s.twin.arbFault && s.twin.arbAsserted then arbFaultStep false s else s
  if s.twin.role == .claimWait && s.twin.claimFromStandby then setRole .standby 12 s else s

/-- The dual-active resolution (R358). -/
def dualActive (h : Heartbeat) (s : State) : State :=
  if (s.twin.role == .active || s.twin.role == .handover) && h.role.val == 3 &&
      (decide (h.activeSince < s.twin.activeSince) || (h.activeSince == s.twin.activeSince && s.pins.strap)) then
    finishWaiting (fun k => match k with | .switch _ => true | _ => false) .ok [] (setRole .standby 8 s)
  else s

/-- Whether a heartbeat echoes one of this twin's latest: since the last step of device time, and within 80 µs (R356). -/
def echoFresh (h : Heartbeat) (s : State) : Bool := s.twin.hbTimes.contains h.echoTx
/-- A standby that follows steps its device time once to the partner's time plus the link delay, as soon as a heartbeat gives that delay (R364). -/
def followTime (h : Heartbeat) (s : State) : State :=
  if twinFollows s && h.role.val == 3 && !s.twin.aligned && echoFresh h s then
    let t := (h.txTime : Int) + s.twin.linkDelay
    stepTimeBy (t - (devFine s : Int)) { s with twin.aligned := true }
  else s

/-- A received HEARTBEAT frame; a Varric lane receives while it is in TRACK (R63). -/
def heartbeatRx (h : Heartbeat) (s : State) : State :=
  if !s.twin.run || !((List.range 8).any (fun i => laneTracks s (512 + i))) then s
  else
    let rx := devFine s
    let delay : Int := if echoFresh h s then (((rx : Int) - (h.echoTx : Int)) - ((h.txTime : Int) - (h.echoRx : Int))) / 2 else s.twin.linkDelay
    let was := s.twin.vhbOk
    let badVer := h.version.toNat != s.fw.running.mirror
    let verNew := badVer && (match s.twin.partner with | some o => o.version != h.version | none => true)
    let conflict := h.strap == s.pins.strap
    let conflictNew := conflict != s.twin.strapConflict
    let s := { s with
      twin.vhbOk := true, twin.vhbAt := some s.now, twin.partner := some h, twin.partnerRx := rx
      twin.linkDelay := delay, twin.timeOffset := ((h.txTime : Int) + delay - (rx : Int)) * 1000 / 65536
      twin.resynced := s.twin.resynced && h.paired
      twin.strapConflict := conflict
      twin.seenActive := s.twin.seenActive || (s.twin.role == .handover && h.role.val == 3 &&
        (match s.twin.handoverAt with | some t => decide (t ≤ rx) | none => false)) }
    let s := heartbeatSeen s
    let s := if s.twin.role == .standby && h.role.val == 3 && s.twin.rxApply.isNone && decide (s.twin.tApply * 65536 ≤ h.txTime) && h.txnApplied != s.twin.txn then
      { s with twin.resynced := false } else s
    let s := if !was || conflictNew then evtPartner 2 s else s
    let s := if verNew then evtPartner 6 s else s
    let s := if arbOpen s then arbFaultStep true s else s
    let s := dualActive h s
    let s := if s.twin.role == .standby && h.request && decide (rx < h.handoverAt) then { s with twin.accepted := some h.handoverAt } else s
    followTime h s

/-- A heartbeat path is lost. -/
def heartbeatLost (s : State) : State := claimCheck (lostTimer (evtPartner 2 { s with twin.hbLost := s.twin.hbLost + 1 }))

/-- Whether a resynchronisation is due on this standby (R380). -/
def resyncDue (s : State) : Bool :=
  s.twin.role == .standby && s.twin.paired && s.twin.linkUp && !s.twin.resynced && !s.twin.resyncing &&
    (match s.twin.partner with | some h => h.paired && h.role.val == 3 && h.version.toNat == s.fw.running.mirror | none => false)
/-- Whether the active twin finds its partner in need of one. -/
def resyncDueActive (s : State) : Bool :=
  s.twin.role == .active && s.twin.paired && s.twin.linkUp && !s.twin.resyncing &&
    (match s.twin.partner with
     | some h => h.paired && h.role.val == 1 && !h.ready && h.version.toNat == s.fw.running.mirror | none => false)

end Sys2Proof.Machine
end

