-- ==== Sys2Proof/Machine/Sources.lean ====
section
/-! DEFINITION. Fault sources (13_fault_collection.md): their groups, domains and policies, the REPLACE reasons, the fault events, and
what the power of a domain does to its sources. -/

namespace Sys2Proof.Machine

/-! ### The table of fault sources and groups (R381) -/

/-- The group of a source; a reserved address has none. -/
def srcGroup (a : Nat) : Option Nat :=
  if a < 0x800 then
    let o := a % 64
    if o < 0x10 then some 0
    else if o < 0x18 || o = 0x1B || o = 0x1C then some 1
    else if o = 0x18 then some 2
    else if o = 0x19 || o = 0x1A then some 3
    else if o < 0x20 then some 4
    else none
  else if a < 0x900 then (if a % 4 = 0 then some 5 else if a % 4 = 3 then some 7 else some 6)
  else if a < 0x902 then some 8
  else if 0x910 ≤ a && a < 0x920 then some 9
  else if 0x920 ≤ a && a < 0x930 then some 10
  else if 0xA00 ≤ a && a < 0xA08 then some 0
  else if 0xA08 ≤ a && a < 0xA10 then some 11
  else if 0xA40 ≤ a && a < 0xA6A then some 12
  else if 0xA70 ≤ a && a < 0xA76 then some 13
  else if a = 0xA78 || a = 0xA88 || a = 0xA89 || a = 0xB48 then some 19
  else if a = 0xA80 || a = 0xA82 then some 14
  else if a = 0xA81 then some 15
  else if a = 0xA83 || a = 0xA84 then some 16
  else if 0xB00 ≤ a && a < 0xB30 then some 17
  else if 0xB30 ≤ a && a < 0xB48 then some 18
  else none

/-- The switchable domain a source lies in; the others are always on. -/
def srcDomain (a : Nat) : Option Nat :=
  if a < 0x800 then some (a / 64)
  else if a < 0x900 then some (32 + (a - 0x800) / 128)
  else if a < 0x902 then some (32 + (a - 0x900))
  else if 0x910 ≤ a && a < 0x920 then some (32 + (a - 0x910) / 8)
  else if 0x920 ≤ a && a < 0x930 then some 34
  else if 0xA00 ≤ a && a < 0xA10 then some 35
  else none

/-- The sources of a group. -/
def groupSources (g : Nat) : List Nat := (List.range 4096).filter (fun a => srcGroup a == some g)

/-- CLASS codes; FATAL is group 19's. -/
def clsInfo : Nat := 0
/-- CORR. -/
def clsCorr : Nat := 1
/-- SEVERE. -/
def clsSevere : Nat := 2

/-- The default policies: W in ms, GRACE in units of 10 µs; ACTION 0 NONE, 1 BLOCK_RESET, 2 ISOLATE, 3 REPLACE. -/
def policyDefault (g : Nat) : Policy :=
  match g with
  | 0 => ⟨1, 4, 1000, 10000, 1, false⟩
  | 1 => ⟨2, 1, 1000, 100, 1, false⟩
  | 2 => ⟨1, 32, 3600000, 100000, 3, false⟩
  | 3 => ⟨2, 1, 1000, 100, 1, false⟩
  | 4 => ⟨2, 1, 1000, 1, 2, false⟩
  | 5 => ⟨1, 255, 600000, 100000, 2, true⟩
  | 6 => ⟨1, 4, 3600000, 10000, 2, true⟩
  | 7 => ⟨2, 1, 1000, 100, 2, true⟩
  | 8 => ⟨2, 1, 1000, 100, 2, true⟩
  | 9 => ⟨2, 1, 1000, 100, 3, true⟩
  | 10 => ⟨2, 1, 1000, 100, 1, false⟩
  | 11 => ⟨2, 1, 1000, 10000, 3, false⟩
  | 12 => ⟨1, 8, 10000, 10000, 1, false⟩
  | 13 => ⟨2, 1, 1000, 100, 3, true⟩
  | 14 => ⟨2, 1, 1000, 1, 1, false⟩
  | 15 => ⟨1, 32, 3600000, 100000, 3, false⟩
  | 16 => ⟨0, 1, 1000, 100, 0, false⟩
  | 17 => ⟨1, 100, 1000, 1000000, 3, true⟩
  | 18 => ⟨1, 10, 1000, 10000, 3, true⟩
  | _ => ⟨3, 1, 1000, 100, 0, false⟩

/-- The policy of a group in effect at this tick (R382). -/
def policyOf (s : State) (g : Nat) : Policy :=
  match tget? s.fault.policy g with
  | some p => if p.from_ ≤ tickNow s then p.new else p.old
  | none => policyDefault g
/-- The policy of a group as FAULT_POLICY last set it. -/
def policySet (s : State) (g : Nat) : Policy := match tget? s.fault.policy g with | some p => p.new | none => policyDefault g
/-- The number of policy changes of a group that have taken effect: each zeroes the window counts (R382). -/
def policyGen (s : State) (g : Nat) : Nat :=
  match tget? s.fault.policy g with
  | some p => if p.from_ ≤ tickNow s then p.gen else p.gen - 1
  | none => 0

/-- The kinds of checker (R509). -/
inductive Checker where
  | ecc | parity | monitor
  deriving DecidableEq, Repr

/-- The checker of a source. -/
def checkerKind (a : Nat) : Checker :=
  match srcGroup a with
  | some 1 => if a % 64 < 0x18 then .parity else .ecc
  | some 2 => .ecc
  | some 3 => if a % 64 = 0x19 then .ecc else .parity
  | some 5 => .ecc
  | some 6 => .ecc
  | some 7 => .parity
  | some 9 => let i := (a - 0x910) % 8; if i < 4 || i = 7 then .ecc else .parity
  | some 10 => .parity
  | some 11 => if a < 0xA0C then .ecc else .parity
  | some 13 => .parity
  | some 14 => if a = 0xA80 then .monitor else .ecc
  | some 15 => .ecc
  | _ => .monitor

/-! ### A source -/

/-- A source's record. -/
def srcOf (s : State) (a : Nat) : Src := tget s.fault.src {} a
/-- s with source a changed by f. -/
def modSrc (a : Nat) (f : Src → Src) (s : State) : State := { s with fault.src := tmod s.fault.src {} a f }
/-- Whether a source's domain is powered and reported on. -/
def srcUp (s : State) (a : Nat) : Bool := match srcDomain a with | some d => domUp s d | none => true
/-- The state of a source (R386): ISOLATED while its domain is not reported on. -/
def srcState (s : State) (a : Nat) : SrcState :=
  if (srcOf s a).st == .fatal then .fatal else if srcUp s a then (srcOf s a).st else .isolated
/-- The window of a group at this tick, with the policy generation it belongs to (R385). -/
def winKeyNow (s : State) (g : Nat) : Nat × Nat := (policyGen s g, tickNow s / (1000 * max 1 (policyOf s g).w))
/-- WIN_COUNT of a source. -/
def winCount (s : State) (a : Nat) : Nat :=
  let x := srcOf s a
  match srcGroup a with
  | some g => if x.winKey == winKeyNow s g then x.win else 0
  | none => 0
/-- Whether a quiesce mask covers a source (R391): a block reset's, or the re-power of its slice. -/
def srcMasked (s : State) (a : Nat) : Bool :=
  (match (srcOf s a).maskUntil with | some t => decide (s.now < t) | none => false) ||
    (match srcDomain a with | some d => decide (d < 32) && (tget s.power.dom {} d).sw == some .into | none => false)
/-- The class of a source: its group's, FATAL in group 19. -/
def srcClass (s : State) (a : Nat) : Nat := match srcGroup a with | some g => (policyOf s g).cls | none => 0
/-- A mask over a source until an instant; the later end holds (R391, R408). -/
def maskSrc (until_ : Nat) (a : Nat) (s : State) : State :=
  modSrc a (fun x => { x with maskUntil := some (max until_ (x.maskUntil.getD 0)) }) s
/-- A source without its running timers. -/
def stopGrace (x : Src) : Src := { x with grace := none, pathGrace := none, silentGrace := none, twinAt := none, again := false }

/-! ### REPLACE reasons and fault events (R392, R393, R407) -/

/-- The reason set, bit r for reason r. -/
def reasonSet (l : List (Nat × Nat)) : Nat := ((List.range 12).map (fun r => if l.any (fun e => e.1 == r) then 2 ^ r else 0)).foldl (· + ·) 0
/-- The device time of an event of this tick, by the correspondence of R36. -/
def faultNs (s : State) : Nat := tickNs s (tickNow s)
/-- EVT_REPLACE_REQUEST. -/
def evtReplace (r obj : Nat) (set : Bool) (s : State) : State :=
  raiseAt (faultNs s) 0x0C03 clsAlarm 0 0 (r + 256 * b2n set) obj (reasonSet s.fault.reasons) 0 s
/-- Set a reason for an object; nothing where it holds already. -/
def setReason (r obj : Nat) (s : State) : State :=
  if s.fault.reasons.contains (r, obj) then s
  else evtReplace r obj true { s with fault.reasons := s.fault.reasons ++ [(r, obj)] }
/-- Clear a reason for an object. -/
def clearReason (r obj : Nat) (s : State) : State :=
  if s.fault.reasons.contains (r, obj) then
    evtReplace r obj false { s with fault.reasons := s.fault.reasons.filter (fun e => e != (r, obj)) }
  else s
/-- A FAULT_N pulse: low for 2 µs from now. -/
def faultPulse (s : State) : State := { s with fault.pulseUntil := some (s.now + 2000) }
/-- EVT_FAULT of a KIND, with the ACTION taken; `more` are the reasons that the action sets. -/
def evtFault (a kind action : Nat) (more : List (Nat × Nat)) (s : State) : State :=
  raiseAt (faultNs s) 0x0C01 clsAlarm 12 a (a + 4096 * (srcGroup a).getD 0 + 131072 * kind + 1048576 * srcClass s a) action
    (winCount s a) (reasonSet (s.fault.reasons ++ more)) s
/-- EVT_SLICE_FAULT. -/
def evtSlice (k cause : Nat) (s : State) : State := raiseAt (faultNs s) 0x0C02 clsAlarm 13 k (k + 65536 * cause) 0 0 0 s

/-! ### A domain's sources (R386, R390, R469) -/

/-- The sources of a domain that goes off: ISOLATED, their timers stopped, their rails ignored. -/
def srcsIsolate (d : Nat) (s : State) : State :=
  { s with fault.src := s.fault.src.map (fun (e : Nat × Src) =>
      if srcDomain e.1 == some d then
        (e.1, { stopGrace e.2 with st := if e.2.st == .fatal then .fatal else .isolated, railsEqual := false, armedUntil := none,
                                   maskUntil := none, retryAt := none, holds := false })
      else e) }
/-- The sources of a domain that is reported on: IDLE, with every count but TOTAL, MASKED and ACTIONS at 0. -/
def srcsReturn (d : Nat) (s : State) : State :=
  { s with fault.src := s.fault.src.map (fun (e : Nat × Src) =>
      if srcDomain e.1 == some d && e.2.st != .fatal then
        (e.1, { e.2 with st := .idle, win := 0, holds := false, inj := 0, realInj := 0, missed := 0 })
      else e) }

/-- Whether the fault collector runs: it leaves reset in start-up phase 1 (R462). -/
def fcRuns (s : State) : Bool := tmcRuns s

/-! ### Raises (R386, R387) -/

/-- The expiry tick of a grace timer of a group that starts now; none runs with the fatal latch set (R398). -/
def graceEnd (s : State) (a : Nat) : Option Nat :=
  if fatalSet s then none else some (tickNow s + 10 * (policyOf s ((srcGroup a).getD 0)).grace)
/-- The source moves to SEVERE at a raise. -/
def severe (x : Src) : Src := if x.st == .idle then { x with st := .severe, acted := false } else x
/-- Whether a source is armed (R389). -/
def srcArmed (s : State) (a : Nat) : Bool := match (srcOf s a).armedUntil with | some t => decide (s.now < t) | none => false
/-- A raise of kind RAISE. -/
def raiseSrc (a : Nat) (promoted : Bool) (s : State) : State :=
  let g := graceEnd s a
  let arm := srcArmed s a
  faultPulse (evtFault a 1 0 [] (modSrc a (fun x => { severe x with promoted := promoted, grace := g, again := arm }) s))
/-- A raise of kind PATH; a HELD source does not raise again. -/
def raisePath (a : Nat) (s : State) : State :=
  if (srcOf s a).st == .held then s
  else
    let g := graceEnd s a
    faultPulse (evtFault a 4 0 [] (modSrc a (fun x => { severe x with pathGrace := g }) s))
/-- A raise of kind SILENT. -/
def raiseSilent (a : Nat) (s : State) : State :=
  if (srcOf s a).st == .held then s
  else
    let g := graceEnd s a
    faultPulse (evtFault a 5 0 [] (modSrc a (fun x => { severe x with silentGrace := g }) s))

/-! ### Classification (R383 to R386) -/

/-- Whether an event now is merged into the source's last report, less than 100 ns ago (R383). -/
def merges (s : State) (a : Nat) : Bool := match (srcOf s a).lastAt with | some t => decide (s.now < t + 100) | none => false
/-- One event of a source of a group whose policy can be set. -/
def classifyGroup (a : Nat) (s : State) : State :=
  match srcGroup a with
  | none => s
  | some g =>
    let x := srcOf s a
    let into := match srcDomain a with | some d => (tget s.power.dom {} d).sw == some .into | none => false
    if !(srcUp s a) && !into || x.railsEqual || merges s a then s
    else
      let s := modSrc a (fun x => { x with lastTick := tickNow s, lastAt := some s.now }) s
      if srcMasked s a then modSrc a (fun x => { x with masked := x.masked + 1 }) s
      else
        match srcState s a with
        | .isolated => s
        | .fatal => s
        | .severe => modSrc a (fun x => { x with total := x.total + 1 }) s
        | .held => modSrc a (fun x => { x with total := x.total + 1 }) s
        | .idle =>
          let s := modSrc a (fun x => { x with total := x.total + 1 }) s
          let p := policyOf s g
          if p.cls = clsInfo then s
          else if p.cls = clsCorr then
            let w := winCount s a + 1
            let key := winKeyNow s g
            let s := modSrc a (fun x => { x with win := w, winKey := key }) s
            if w < p.n then s else raiseSrc a true s
          else raiseSrc a false s

/-! ### Injection (R395, R404, R509) -/

/-- Injections with no check left end: their FAULT_INJECT completes with its counts. -/
def injectDone (s : State) : State :=
  let go := s.fault.inject.filter (fun i => i.left == 0)
  foldS go (fun i => finishWaiting (· == .inject i.id) .ok [i.inj, i.real, i.missed])
    { s with fault.inject := s.fault.inject.filter (fun i => i.left != 0) }
/-- Count what a check showed under injection i. -/
def injectCount (i : Inject) (inj real missed : Nat) (s : State) : State :=
  let s := modSrc i.addr (fun x => { x with inj := x.inj + w32 inj, realInj := x.realInj + w32 real, missed := x.missed + w32 missed }) s
  { s with fault.inject := s.fault.inject.map (fun j =>
      if j.id = i.id then { j with left := j.left - 1, inj := j.inj + w32 inj, real := j.real + w32 real, missed := j.missed + w32 missed } else j) }
/-- The oldest injection in progress on a source, in a mode. -/
def injecting (s : State) (a mode : Nat) : Option Inject := s.fault.inject.find? (fun i => i.addr == a && i.mode == mode && i.left != 0)
/-- A real error that a check of source a met within a step: under an injection in progress the check shows both, which a parity checker
hides (R395). -/
def realSeen (a : Nat) (s : State) : State :=
  match injecting s a 1 with
  | none => classifyGroup a s
  | some i =>
    if checkerKind a == .ecc then injectDone (classifyGroup a (injectCount i 1 1 0 s)) else injectDone (injectCount i 0 0 1 s)

/-- What the pool met within the step goes to the fault collector: uncorrectable cells and descriptor errors (R228, R246, R381). -/
def seenSettle (s : State) : State :=
  let l := s.pool.seen
  if l.isEmpty then s
  else
    let s := { s with pool.seen := [] }
    if fcRuns s then foldS l (fun e => realSeen (0x801 + 4 * (e.1 % 64) + b2n e.2)) s else s

end Sys2Proof.Machine
end

