-- ==== Sys2Proof/Machine/Settle.lean ====
section
/-! DEFINITION. What follows at once from a change anywhere in the signal, in the order in which the blocks pass it on. -/

namespace Sys2Proof.Machine

/-- Alignment, overhead processes, server signal fails, defects and replacements follow a change. -/
def signalSettle (s : State) : State := replSettle (defectSettle (ssfSettle (ohSettle (alignSettle s))))

/-- QUEUE_FLUSH commands whose flush has taken effect, or whose queue is gone, complete (R240, R258). -/
def flushSettle (s : State) : State :=
  if isWaiting s (fun k => match k with | .flush _ => true | _ => false) then
    finishWaiting (fun k => match k with
      | .flush n => (match queueAt s n with | some q => q.flushAt.isNone | none => true)
      | _ => false) .ok [] s
  else s

/-- Everything that follows at once from a change: the Varric link, leaves at a boundary, the signal, protection, the signal under the selectors that moved, LCAS, Braid,
Welt, the owners of flushed queues, the selectors of timing candidates, the twin logic, the timing core's outputs, flushes that were
waited for, the packet queues' admitted rates, what the pool reports to the fault collector, a waiting MP restart, and the defects that all of this declares (R148). -/
def settle (s : State) : State :=
  defectSettle (restartSettle (seenSettle (meterSettle (flushSettle (tmcSettle (twinSettle (candSettle (lostSettle (weltSettle (braidSettle (lcasSettle (signalSettle (protSettle (signalSettle (leafSettle (linkSettle s))))))))))))))))

/-- A next state after everything that follows from a change. -/
def nextSettled (s : State) : Host.Outcome State Fault Refusal := .next (settle s)

end Sys2Proof.Machine
end

