-- ==== Sys2Proof/Machine/Domains.lean ====
section
/-! DEFINITION. Power domains, block resets and retirements (16_startup_and_power_domains.md, R249, R387 to R391). -/

namespace Sys2Proof.Machine

/-- Domain d. -/
def domOf (s : State) (d : Nat) : Domain := tget s.power.dom {} d
/-- s with domain d changed by f. -/
def modDom (d : Nat) (f : Domain → Domain) (s : State) : State := { s with power.dom := tmod s.power.dom {} d f }
/-- The STATE code of a domain. -/
def domCode (t : DomState) : Nat := match t with | .on => 0 | .offCmd => 1 | .isoFc => 2 | .isoFatal => 3
/-- The response word of SYS_POWER_DOMAIN (R444). -/
def domWord (s : State) (d : Nat) : Word := w32 (domCode (domOf s d).st + 4 * b2n (domOf s d).sw.isSome)

/-! ### Retirement (R43, R249, R471) -/

/-- The pseudo-channel that holds a logical byte address (R42, R43): cells, descriptors and queue-table entries stripe by their size; in
the regions beyond, the 64 bytes are a DESIGN CHOICE (log 26). -/
def pcOfAddr (a : Nat) : Nat :=
  if a < 0x1E00000000 then a / 256 % 64 else if a < 0x1EF0000000 then (a - 0x1E00000000) / 8 % 64 else (a - 0x1EF0000000) / 64 % 64
/-- The logical address of queue q's entry (R225). -/
def entryAddr (q : Nat) : Nat := 0x1EF0000000 + 64 * q
/-- The logical address of its home mirror: in the retirement spare, in the pseudo-channel that R43 names; the order within is a DESIGN
CHOICE (log 26). -/
def mirrorAddr (q : Nat) : Nat := 0x1FF4000000 + 64 * (q / 64 * 64 + (q + 32) % 64)
/-- The byte that the HBM holds at a logical address (R42, R225): cells, descriptors, the queue table and its mirror. What the history
and log region and the relocation reserve hold are records of State. -/
def hbmByte (s : State) (a : Nat) : Option Byte :=
  if a < 0x1EF0000000 then some (memByte s.pool.mem a)
  else if a < 0x1EF4000000 then some ((entryBytes s ((a - 0x1EF0000000) / 64)).getD (a % 64) 0)
  else if 0x1FF4000000 ≤ a && a < 0x1FF8000000 then
    let x := (a - 0x1FF4000000) / 64
    some ((entryBytes s (x / 64 * 64 + (x + 32) % 64)).getD (a % 64) 0)
  else none

/-- The content of pseudo-channels lost. -/
def dropContent (p : Nat → Bool) (s : State) : State := { s with pool.mem := memDrop s.pool.mem (fun a => p (pcOfAddr a)) }
/-- The pseudo-channels of a half. -/
def halfPcs (h : Nat) : List Nat := (List.range 32).map (· + 32 * h)

/-- The pseudo-channels of the two home copies of queue q's entry: the primary and the mirror (R43). -/
def homeCopies (q : Nat) : Nat × Nat := (q % 64, (q % 64 + 32) % 64)
/-- The entries of 64 bytes that the relocation reserve of a pseudo-channel holds (R44). -/
def reserveEntries : Nat := 32768
/-- The free reserve of each pseudo-channel beside the replacement copies that lie there, in entries. -/
def reserveFree (cs : List (Nat × Nat)) : List Nat :=
  cs.zipIdx.foldl (fun free e =>
    let use := fun (free : List Nat) (at_ home : Nat) => if at_ = home then free else free.set at_ (free.getD at_ 0 - 1)
    use (use free e.1.1 (homeCopies e.2).1) e.1.2 (homeCopies e.2).2) (List.replicate 64 reserveEntries)
/-- Where a replacement copy goes when `live` holds the surviving one (R43): the other stack first, the most free reserve, the lowest
number; with no reserve free, the history share of such a pseudo-channel, the lowest-numbered (DESIGN CHOICE, log 26). -/
def replacementPc (S free : List Nat) (live : Nat) : Option Nat :=
  let S := S.filter (· != live)
  let room := fun (p : Nat) => free.getD p 0
  let other := S.filter (fun p => p / 32 != live / 32 && room p != 0)
  let same := S.filter (fun p => p / 32 == live / 32 && room p != 0)
  let left := S.filter (fun p => p / 32 != live / 32) ++ S.filter (fun p => p / 32 == live / 32)
  if !other.isEmpty then maxBy (fun p => (room p : Int)) other
  else if !same.isEmpty then maxBy (fun p => (room p : Int)) same
  else left.head?
/-- One entry's copies renewed: what left S is replaced, and the free reserve that is left. -/
def renewEntry (S free : List Nat) (c : Nat × Nat) : (Nat × Nat) × List Nat :=
  let first := fun (c : Nat × Nat) (free : List Nat) =>
    if S.contains c.1 then (c, free)
    else match replacementPc S free c.2 with
      | some p => ((p, c.2), free.set p (free.getD p 0 - 1))
      | none => (c, free)
  let a := first c free
  if S.contains a.1.2 then a
  else match replacementPc S a.2 a.1.1 with
    | some p => ((a.1.1, p), a.2.set p (a.2.getD p 0 - 1))
    | none => a
/-- Every entry's copies renewed for the set S, in ascending queue number (DESIGN CHOICE, log 26). -/
def renewAll (cs : List (Nat × Nat)) (S : List Nat) : List (Nat × Nat) :=
  (cs.foldl (fun (a : List (Nat × Nat) × List Nat) c =>
    let r := renewEntry S a.2 c
    (r.1 :: a.1, r.2)) ([], reserveFree cs)).1.reverse
/-- The two pseudo-channels that hold the copies of queue q's entry (R43). -/
def copiesOf (s : State) (q : Nat) : Nat × Nat :=
  (s.pool.renewed.foldl renewAll ((List.range 1048576).map homeCopies)).getD q (homeCopies q)
/-- The pseudo-channel from which queue q's entry is read: the home primary while it is in S and passes its ECC, else the other copy. -/
def entryPc (s : State) (q : Nat) (eccOk : Bool) : Nat :=
  if (allocSet s).contains (q % 64) && eccOk then q % 64
  else if (copiesOf s q).1 = q % 64 then (copiesOf s q).2 else (copiesOf s q).1
/-- The copies renewed after pseudo-channels left S. -/
def renewCopies (s : State) : State :=
  if s.pool.renewed.getLastD (List.range 64) = allocSet s then s else { s with pool.renewed := s.pool.renewed ++ [allocSet s] }

/-- The histories and the log when pseudo-channels ps have left S (R44): what lay there is lost, a timing record as one with GAP (R315), a
closed bin as one with no second and SUSPECT (R145), a log entry or an event record of the overflow store (R421) for good; then the timing
history is shortened to what fits. Which
records lie there is a free value (log 26). -/
def historyDrop (ps : List Nat) (s : State) : State :=
  let lost := fun (kind id t : Nat) => ps.any (Config.histIn kind id t)
  let bin := fun (kind id : Nat) (r : PmRec) => if lost kind id r.start then { suspect := true, start := r.start } else r
  { s with
    mon := s.mon.map (fun (e : Nat × Mon) =>
      (e.1, { e.2 with hist15 := e.2.hist15.map (bin 0 e.1), hist24 := e.2.hist24.map (bin 1 e.1) }))
    tmc.dpll := s.tmc.dpll.map (fun (e : Nat × Dpll) => (e.1, { e.2 with
      hist := (e.2.hist.map (fun r => { r with gap := r.gap || lost 2 e.1 r.start })).take (dpllDepth (outsideS s)) }))
    tmc.candHist := s.tmc.candHist.map (fun (e : Nat × List CandHist) =>
      (e.1, (e.2.map (fun r => { r with gap := r.gap || lost 3 e.1 r.start })).take (candDepth (outsideS s))))
    fw.log := s.fw.log.filter (fun r => !(lost 4 r.seq r.ns))
    host.evHeld := ((s.host.evHeld.take (overflowHeld s)).zipIdx.filter (fun e => !(lost 5 e.2 e.1.ns))).map (·.1) ++
      s.host.evHeld.drop (overflowHeld s) }

/-- Pseudo-channels leave S: nothing is allocated from them, and the evaluation of R249 starts. -/
def leaveS (pcs : List Nat) (permanent : Bool) (s : State) (f : State → State) : State :=
  let before := allocSet s
  let gone := pcs.filter (fun p => before.contains p)
  let s := historyDrop gone (f s)
  { s with
    pool.freed := s.pool.freed.filter (fun e => !(gone.contains e.1))
    pool.retiring := s.pool.retiring ++ gone.map (fun p => { pc := p, before := before, until_ := s.now + 10000000, permanent := permanent }) }
/-- Pseudo-channels retired for good, each with reason 1. -/
def retirePcs (pcs : List Nat) (s : State) : State :=
  let s := leaveS pcs true s (fun s => { s with boot.retired := pcs.foldl (fun b p => b ||| (1#64 <<< p)) s.boot.retired })
  foldS pcs (fun p => setReason 1 p) s

/-- EVT_TEST_DONE of a BIST (R455). -/
def evtBist (b : Bist) (result fails first : Nat) (s : State) : State :=
  raise 0x0D01 clsCompletion 0 0 (0x0D04 + 65536 * b.target + 16777216 * b.index) result fails first s
/-- The running BIST, where p accepts it, is aborted. -/
def bistAbort (p : Bist → Bool) (s : State) : State :=
  match s.test.bist with
  | some b => if p b then evtBist b 2 0 0 { s with test.bist := none } else s
  | none => s

/-! ### A domain goes out of service (R400, R468, R471 to R473) -/

/-- Whether a monitoring point lies on slice k. -/
def pointOnSlice (s : State) (k addr : Nat) : Bool :=
  match aLayer addr with
  | 1 => aId addr / 8 == k
  | 2 => aId addr / 8 == k
  | 6 => aId addr / 8 == k
  | 9 => aId addr / 8 == k
  | 3 => chanSlice s (chKey (aDir addr == 1) (aId addr)) == some k
  | 4 => chanSlice s (chKey (aDir addr == 1) (aId addr)) == some k
  | 5 => chanSlice s (chKey (aDir addr == 1) (aId addr)) == some k
  | _ => false

/-- The tests on the channels of slice k are cleared (R483). -/
def sliceTestsClear (k : Nat) (s : State) : State :=
  { s with test.prbs := s.test.prbs.filter (fun e =>
      decide (e.1 / 16384 < 4) || chanSlice s (chKey (e.1 / 16384 == 4) (e.1 % 16384)) != some k) }
/-- The open packets of the queues that slice k writes are rewound. -/
def sliceWritersGone (k : Nat) (s : State) : State :=
  foldS (s.pool.q.filter (fun e => e.2.owner = 0 && qWrSlice e.2 = k)) (fun e => writerGone e.1) s

/-- Slice k goes off: every lane is in OFF, the lanes of its ports declare dLOS, and what is in flight is lost, but for the merged output of
Welt pairs, which goes on from the other copy's slice (R272, R287). -/
def sliceClamp (k : Nat) (s : State) : State :=
  let s := foldS (List.range 8) (fun i s =>
    let l := 8 * k + i
    let s := huntLane l (laneOff l s)
    if (portOfLane s l).isSome then modLane l (fun x => { x with los := true }) s else s) s
  let s := foldS (List.range 8) (fun i s => laneOff (256 + 8 * k + i) s) s
  let s := sliceWritersGone k (sliceTestsClear k (bistAbort (fun b => b.target == 2 && b.index == k) s))
  { s with
    sliceTx := (let fs := (tget s.sliceTx {} k).frames.filter (fun e => decide (2097152 ≤ e.1))
                if fs.isEmpty then tdel s.sliceTx k else tset s.sliceTx k { frames := fs })
    fabTx := s.fabTx.filter (fun e => e.1 / 8 != k)
    fabRx := s.fabRx.filter (fun e => e.1 / 8 != k) }

/-- Domain 35 goes off (R473): the link is down and the twin logic stands still. -/
def twinClamp (s : State) : State :=
  let s := foldS (List.range 8) (fun i => laneOff (512 + i)) (linkDown s)
  let s := finishWaiting (fun k => match k with | .switch _ => true | _ => false) .timeout [] (dropStaging s)
  { s with
    twin.run := false, twin.arbDrive := false, twin.activeN := false, twin.vhbOk := false, twin.hbxOk := false
    twin.bothLostAt := none, twin.claimUntil := none, twin.yieldUntil := none, twin.handoverAt := none, twin.accepted := none
    twin.ready := false, twin.partnerSt := 0 }

/-- The running failure timers of the points of slice k go over, with what is left of them, to the clock that counts from now on
(R135, R137); `was` is the state in which the other clock counted. -/
def timersMove (k : Nat) (was s : State) : State :=
  { s with mon := s.mon.map (fun (e : Nat × Mon) =>
      (e.1, if pointOnSlice s k e.1 then
          let move := fun (l : Table Nat) => l.map (fun (x : Nat × Nat) => (x.1, x.2 + pointUs s e.1 - pointUs was e.1))
          { e.2 with declAt := move e.2.declAt, clearAt := move e.2.clearAt }
        else e.2)) }

/-- What a domain's clamped interfaces mean for the rest of the device. -/
def domClamp (d : Nat) (s : State) : State :=
  if d < 32 then sliceClamp d s
  else if d < 34 then bistAbort (fun b => b.target == 1 && 32 + b.index / 32 == d) s
  else if d = 34 then foldS (s.welt.map (·.1)) weltDisable s
  else twinClamp s

/-- The domain a block lies in (R443). -/
def blockDomain (blk idx : Nat) : Option Nat :=
  match blk with | 1 => some (idx / 8) | 2 => some (idx / 8) | 3 => some 35 | 4 => some idx | 5 => some 34 | _ => none

/-- Domain d is taken out of service (R468), to be recorded as `to`: its interfaces are clamped now, and its switches open later. A
switching that is in progress turns into this one (R478). -/
def domainOut (d : Nat) (dest : DomState) (s : State) : State :=
  let x := domOf s d
  if !x.up && x.sw.isNone then s
  else if x.sw == some (.out .isoFc) then s
  else if !x.up then modDom d (fun x => { x with sw := some (.out dest) }) s
  else
    let s := domClamp d s
    let s := srcsIsolate d s
    let s := { s with resets := s.resets.filter (fun r => blockDomain r.blk r.idx != some d) }
    let s := finishWaiting (fun k => match k with | .resetBlock b i => blockDomain b i == some d | _ => false) .wrongState [] s
    timersMove d s (modDom d (fun x => { x with up := false, sw := some (.out dest) }) s)

/-- SYS_POWER_DOMAIN commands on domain d complete with the status that their OP gives now (R470). -/
def finishDomain (d : Nat) (s : State) : State :=
  let on := (domOf s d).st == .on
  let w := [domWord s d]
  finishWaiting (· == .domain d false) (if on then .wrongState else .ok) w
    (finishWaiting (· == .domain d true) (if on then .ok else .wrongState) w s)

/-- The switchings that Prihegen has in hand (R470). -/
def switchings (s : State) : Nat :=
  (s.power.dom.filter (fun e => match e.2.sw with | some .into => true | some (.out .offCmd) => true | _ => false)).length
/-- A switching by command starts. -/
def startSwitch (d : Nat) (on : Bool) (s : State) : State :=
  let x := domOf s d
  if x.sw.isSome then s
  else if on then (if x.up then finishDomain d s else modDom d (fun x => { x with sw := some .into }) s)
  else if !x.up then finishDomain d s
  else domainOut d .offCmd (if d < 32 then evtSlice d 0xFFF s else s)
/-- Switchings that wait start while fewer than four are in hand. -/
def nextSwitch (fuel : Nat) (s : State) : State :=
  match fuel with
  | 0 => s
  | f + 1 =>
    match s.power.queue with
    | [] => s
    | (d, on) :: r =>
      if switchings s < 4 then nextSwitch f (startSwitch d on { s with power.queue := r }) else s

/-- The switches of a domain that is taken out of service have opened (R468). -/
def switchesOpen (d : Nat) (s : State) : State :=
  match (domOf s d).sw with
  | some (.out dest) =>
    let leave := fun (s : State) => modDom d (fun _ => { st := dest, up := false, sw := none }) s
    let s := if 32 ≤ d && d < 34 then
        let s := dropContent (fun p => 32 + p / 32 == d) (if dest == .offCmd then leaveS (halfPcs (d - 32)) false s leave else leave s)
        renewCopies s
      else leave s
    let s := finishDomain d s
    nextSwitch (s.power.queue.length + 1) s
  | _ => s

/-! ### A domain returns (R71, R186, R469) -/

/-- A port that starts anew: every process in HUNT with its defects declared (R99). -/
def portFresh (now : Nat) (q : Port) : Port :=
  { q with procs := freshProcs q now, lof := true, oofSince := some now, okSince := none, skewBad := false, skewFail := 0, acqTime := 0,
           lastTrackAt := now }
/-- A port whose processes restart while its counts stay (R474). -/
def portRestart (now : Nat) (q : Port) : Port :=
  { q with
    procs := (freshProcs q now).map (fun (e : Nat × Proc) =>
      let o := procOf q e.1
      (e.1, { e.2 with oofEvents := o.oofEvents, realign := o.realign, imitation := o.imitation, slotFull := o.slotFull, oomEvents := o.oomEvents }))
    lof := true, oofSince := some now, okSince := none, skewBad := false }
/-- The running state of a channel lost with its slice: the leaf restarts, SEQ from 0, and its pointer and delineation start over. DESIGN CHOICE
(log 37): the counts of a channel run on when its slice's re-power re-creates it, a GFP process's IMITATION and LOSS_EVENTS among them; a port's
alignment counts start again from 0. -/
def chanFresh (c : Chan) : Chan :=
  { restartLeaf c with
    en := cEn c, conns := cConns c
    ptr := {}, pktBuf := 0, vcLast := none, vcGood := 0, vcLom := true
    gfp := { delta := c.gfpDelta, maxPli := c.gfpMaxPli, imitation := c.gfp.imitation, lossEvents := c.gfp.lossEvents } }
/-- A context with its settings kept and what it has received and sent forgotten. -/
def ohFresh (o : Oh) : Oh :=
  { written := o.written, waiting := o.waiting, ftfl := o.ftfl, ftflWaiting := o.ftflWaiting, maint := o.maint, dsDis := o.dsDis
    maintWaiting := o.maintWaiting, dsWaiting := o.dsWaiting
    trace := o.trace.map (fun (e : Nat × Trace) => (e.1, { tx := e.2.tx, txNext := e.2.txNext, txFormat := e.2.txFormat, exp := e.2.exp,
                                                           expFormat := e.2.expFormat, timMode := e.2.timMode })) }
/-- The slice of an overhead context. -/
def ohSlice (s : State) (key : Nat) : Option Nat :=
  if key / 1048576 = 0 then some (key / 16 % 65536 / 8) else chanSlice s (key / 16 % 65536)
/-- The queues that read or write through slice k start their SEQ afresh (R179). -/
def sliceQueues (k : Nat) (s : State) : State :=
  { s with pool.q := s.pool.q.map (fun (e : Nat × Queue) =>
      let q := if qWrKind e.2 = 2 && qWrSlice e.2 = k then { e.2 with rx := {} } else e.2
      (e.1, if qRdKind q = 2 && qRdSlice q = k then { q with txSeq := 0, txBytes := [], txSop := true } else q)) }

/-- The objects of slice k as they start anew. -/
def sliceObjects (k : Nat) (f : Port → Port) (g : Oh → Oh) (s : State) : State :=
  let cs := s.chan.map (fun (e : Nat × Chan) => (e.1, if chanSlice s e.1 == some k then chanFresh e.2 else e.2))
  let os := s.oh.map (fun (e : Nat × Oh) => (e.1, if ohSlice s e.1 == some k then g e.2 else e.2))
  sliceQueues k { s with
    port := s.port.map (fun (e : Nat × Port) => (e.1, if e.1 / 8 = k then f e.2 else e.2))
    chan := cs, oh := os
    bridge := s.bridge.map (fun (e : Nat × Bridge) =>
      (e.1, if chanSlice s (chKey true e.1) == some k then { e.2 with bsn1 := e.2.bsn } else e.2))
    sliceTx := tdel s.sliceTx k, fabTx := s.fabTx.filter (fun e => e.1 / 8 != k), fabRx := s.fabRx.filter (fun e => e.1 / 8 != k) }

/-- Prihegen re-creates the objects of slice k (R71): its lanes leave OFF, and its points keep their history. -/
def sliceRecreate (k : Nat) (s : State) : State :=
  let raw := s.mon.map (fun (e : Nat × Mon) => (e.1, if pointOnSlice s k e.1 then { e.2 with raw := 0 } else e.2))
  let s := sliceObjects k (portFresh s.now) ohFresh { s with mon := raw }
  let s := foldS (List.range 8) (fun i s => if (portOfLane s (8 * k + i)).isSome then laneStart (8 * k + i) s else s) s
  foldS (List.range 8) (fun i s =>
    monCreate [monAddr 9 0 (8 * k + i) 0 0] (laneOn (256 + 8 * k + i) s)) s

/-- The cells of a half that returns: all free. -/
def halfReturn (h : Nat) (s : State) : State :=
  { s with pool.taken := s.pool.taken.filter (fun e => e.1 / 32 != h), pool.freed := s.pool.freed.filter (fun e => e.1 / 32 != h) }
/-- Welt pairs leave DISABLED, in ascending number; one disabled under R41 where the budget admits it. -/
def weltReturn (s : State) : State :=
  foldS (s.welt.map (·.1)) (fun w s =>
    match tget? s.welt w with
    | some p => if p.st == .disabled && (!p.byBudget || fixedLoad s + 2 * weltRate s p ≤ budget s) then weltEnable w s else s
    | none => s) s

/-- The holds on the lanes of a domain that is powered again end (R389). -/
def holdsEnd (d : Nat) (s : State) : State :=
  { s with lane := s.lane.map (fun (e : Nat × LaneRec) => (e.1, if laneDomain e.1 = d then { e.2 with held := false } else e.2)) }
/-- A domain is reported on (R469). -/
def reportOn (d : Nat) (s : State) : State :=
  let s := timersMove d s (modDom d (fun _ => { st := .on, up := true, sw := none }) s)
  let s := holdsEnd d (srcsReturn d s)
  if d < 32 then sliceRecreate d s
  else if d < 34 then s
  else if d = 34 then weltReturn s
  else twinStart (foldS (List.range 8) (fun i => laneOn (512 + i)) s)

/-- A powered domain completes its bring-up. -/
def bringUp (d : Nat) (s : State) : State :=
  if (domOf s d).sw == some .into then
    let back := 32 ≤ d && d < 34 && (domOf s d).st == .offCmd
    let s := reportOn d (if back then halfReturn (d - 32) s else s)
    let s := if back then budgetResume s else s
    let s := finishDomain d s
    nextSwitch (s.power.queue.length + 1) s
  else s

/-! ### Retirements and isolations by the fault collector (R387, R390, R408) -/

/-- An isolation by the fault collector: of a slice with its event, cause the source. -/
def fcIsolate (d cause : Nat) (s : State) : State :=
  let s := if d < 32 && (domUp s d || (domOf s d).sw.isSome) then evtSlice d cause s else s
  let s := domainOut d .isoFc s
  if d < 32 then setReason 3 d s else if d < 34 then setReason 2 (d - 32) s else setReason 10 0 s
/-- A retirement at once: a pseudo-channel, or from 64 on a whole half. -/
def retireNow (t : Nat) (s : State) : State :=
  let s := bistAbort (fun b => b.target == 1) s
  if t < 64 then (if pcRetired s t then s else retirePcs [t] s)
  else fcIsolate (32 + (t - 64)) 0 (retirePcs ((halfPcs (t - 64)).filter (fun p => !(pcRetired s p))) s)
/-- A retirement that falls due: it waits for an evaluation that runs. -/
def retireDue (t : Nat) (s : State) : State :=
  if s.pool.retiring.isEmpty then retireNow t s else { s with fault.defer := s.fault.defer ++ [t] }
/-- Retirements that waited are carried out until one starts an evaluation. -/
def takeDeferred (fuel : Nat) (s : State) : State :=
  match fuel with
  | 0 => s
  | f + 1 =>
    match s.fault.defer with
    | [] => s
    | t :: r => if s.pool.retiring.isEmpty then takeDeferred f (retireNow t { s with fault.defer := r }) else s

/-- The evaluation of R249 completes: every queue that holds a cell in a channel that left is flushed, the table copies are renewed, and
the load is brought within the budget. -/
def retireEvaluate (s : State) : State :=
  if s.pool.retiring.isEmpty then s
  else
    let pcs := s.pool.retiring.map (·.pc)
    let s := foldS (s.pool.q.map (·.1)) (fun n s =>
      match queueAt s n with
      | some q => (match retireHit s q.chain with | some r => flushRetired n r s | none => s)
      | none => s) s
    let s := renewCopies s
    let s := budgetSettle (dropContent (fun p => pcs.contains p) { s with pool.retiring := [] })
    takeDeferred (s.fault.defer.length + 1) s

/-! ### Block resets (R391, R443, R474) -/

/-- The reset time of a block and 64 cycles of its detector clock, in ns. -/
def resetTimes (blk : Nat) : Nat × Nat :=
  match blk with
  | 4 => (50000, 46) | 5 => (20000, 64) | 6 => (1000, 320) | 7 => (2000000000, 80) | _ => (2000, 320)
/-- The sources that a block reset masks. -/
def maskSources (s : State) (blk idx : Nat) : List Nat :=
  match blk with
  | 1 => (64 * (idx / 8) + idx % 8) :: (match portOfLane s idx with | some (p, _) => [64 * (p / 8) + 0x10 + p % 8] | none => [])
  | 2 => [64 * (idx / 8) + 8 + idx % 8]
  | 3 => [0xA00 + idx]
  | 4 => ((List.range 0x1D) ++ [0x1F]).map (· + 64 * idx)
  | 5 => (List.range 16).map (· + 0x920) ++ (List.range 32).map (fun k => 64 * k + 0x1C)
  | 6 => [0xA40 + idx]
  | _ => (List.range 5).map (· + 0xA80)
/-- The Temper front of a candidate is reset (R344): its timer follows the validity of its output (R346). -/
def candFrontReset (c : Nat) (s : State) : State := modCand c (fun x => candTimer s.now { x with front := frontReset x.front }) s

/-- What a slice reset clears (R474). -/
def sliceReset (k : Nat) (s : State) : State :=
  let mon := s.mon.map (fun (e : Nat × Mon) =>
    (e.1, if pointOnSlice s k e.1 then { e.2 with sec := { neDef := true } } else e.2))
  sliceObjects k (portRestart s.now) (fun o => o) (sliceWritersGone k { s with mon := mon })

/-- A block's reset starts: what it clears is cleared. -/
def resetEffect (blk idx : Nat) (s : State) : State :=
  match blk with
  | 1 => huntLane idx (laneReset idx s)
  | 2 => laneReset (256 + idx) s
  | 3 => laneReset (512 + idx) s
  | 4 => sliceReset idx s
  | 5 => { s with pool.q := s.pool.q.map (fun (e : Nat × Queue) => (e.1, { e.2 with deficit := 0 })) }
  | 6 => candFrontReset idx s
  | 7 => if s.fw.state == 1 then { s with fw.restartAt := some s.now } else s
  | _ => s
/-- What follows when a block resumes. -/
def resetAfter (blk idx : Nat) (s : State) : State :=
  match blk with
  | 5 => foldS (s.welt.map (fun e => (e.1, e.2.st))) (fun e s => if e.2 == .disabled then s else weltRealign e.1 s)
      (foldS (s.braid.map (·.1)) (fun g s =>
        match sideOf s g false with | some d => if d.st == .idle then s else toAcquire g true s | none => s) s)
  | 6 => candFrontReset idx s
  | _ => s

/-- A block reset starts (R391): the sources in and after the block are masked, and a reset of the block in progress merges with this
one (R408). -/
def blockReset (blk idx : Nat) (s : State) : State :=
  let t := resetTimes blk
  let end_ := s.now + t.1
  let same := fun (r : BlockReset) => r.blk == blk && r.idx == idx
  let s := foldS (maskSources s blk idx) (maskSrc (end_ + t.2)) s
  if s.resets.any same then
    { s with resets := s.resets.map (fun r => if same r then { r with until_ := max r.until_ end_ } else r) }
  else resetEffect blk idx { s with resets := s.resets ++ [{ blk := blk, idx := idx, until_ := end_ }] }
/-- A block's reset time ends: it resumes, and SYS_RESET_BLOCK completes. -/
def blockResetEnd (blk idx : Nat) (s : State) : State :=
  if s.resets.any (fun r => r.blk == blk && r.idx == idx && decide (r.until_ ≤ s.now)) then
    let s := resetAfter blk idx { s with resets := s.resets.filter (fun r => !(r.blk == blk && r.idx == idx)) }
    finishWaiting (· == .resetBlock blk idx) .ok [] s
  else s

/-- The MP is back (R20): FW_STATE READY, or FATAL with the latch set, and the mask of an MP reset ends 80 ns later. -/
def mpBack (s : State) : State :=
  let s := foldS (maskSources s 7 0) (fun a s =>
    modSrc a (fun x => { x with maskUntil := x.maskUntil.map (fun t => min t (s.now + 80)) }) s) s
  { s with fw.state := if fatalSet s then 3 else 1, fw.restartAt := none, resets := s.resets.filter (fun r => r.blk != 7) }

/-! ### The commands -/

/-- DOMAIN_SWITCHES_OPEN (R468). -/
def execDomainSwitchesOpen (d : Fin 36) (s : State) : Host.Outcome State Fault Refusal := nextSettled (switchesOpen d.val s)
/-- DOMAIN_BRING_UP_COMPLETE (R469). -/
def execDomainBringUpComplete (d : Fin 36) (s : State) : Host.Outcome State Fault Refusal := nextSettled (bringUp d.val s)
/-- BLOCK_RESET_END (R474). -/
def execBlockResetEnd (blk : Fin 8) (idx : Fin 256) (s : State) : Host.Outcome State Fault Refusal :=
  nextSettled (blockResetEnd blk.val idx.val s)
/-- RETIREMENT_EVALUATION (R249). -/
def execRetirementEvaluation (s : State) : Host.Outcome State Fault Refusal := nextSettled (retireEvaluate s)

end Sys2Proof.Machine
end

