-- ==== Sys2Proof/Machine/Faults.lean ====
section
/-! DEFINITION. Fault collection (13_fault_collection.md): classification, raises, grace and action, the fatal latch, injection and the
checker exercise, with the fault commands. -/

namespace Sys2Proof.Machine

/-! ### The fatal latch (R397, R398) -/

/-- Start-up goes to FATAL, or the running firmware reports it. -/
def fatalState (s : State) : State :=
  match s.boot.phase with
  | .domains => { s with boot.phase := .finished, fw.state := 3 }
  | .memLanes => { s with boot.phase := .finished, fw.state := 3 }
  | .config => { s with boot.phase := .finished, fw.state := 3 }
  | .release => { s with boot.phase := .finished, fw.state := 3 }
  | .finished => if s.fw.state == 1 then { s with fw.state := 3, fw.restartAt := none } else s
  | _ => s
/-- The fatal latch is set by source a. Switchings that wait end with the status of the state they find (R398, R470). -/
def fatalLatch (a : Nat) (s : State) : State :=
  let s := modSrc a (fun x => { x with st := .fatal, lastTick := tickNow s }) s
  if fatalSet s then s
  else
    let s := { s with fault.latch := some (a, tickNow s), fault.defer := []
                      fault.src := s.fault.src.map (fun (e : Nat × Src) => (e.1, stopGrace e.2)) }
    let s := setReason 8 a (faultPulse s)
    let s := twinOut 7 s
    let q := s.power.queue
    let s := foldS (List.range 36) (fun d => domainOut d .isoFatal) { s with power.queue := [] }
    let s := foldS q (fun e => finishDomain e.1) s
    fatalState s

/-- The fatal latch is set before the fault collector leaves reset: the latch and the FAULT_N pulse; start-up does the rest (R399, R460). -/
def fatalCold (a : Nat) (s : State) : State :=
  let s := modSrc a (fun x => { x with st := .fatal, lastTick := tickNow s }) s
  if fatalSet s then s else faultPulse { s with fault.latch := some (a, tickNow s) }

/-! ### Classification (R383 to R386) -/

/-- One event of a source. -/
def classify (a : Nat) (s : State) : State := if srcGroup a = some 19 then fatalLatch a s else classifyGroup a s

/-! ### What a checker observes (R395) -/

/-- What a checker observed (R395): a check that is injected shows the injection, or both with a real error, which a parity checker or a
monitor then hides; a source of group 19 is never injected (R397). While PORST_N is low only a FATAL source is heard (R460). -/
def sourceEvent (a : Nat) (obs : CheckObs) (s : State) : State :=
  if !(fcRuns s) then (if srcGroup a = some 19 && s.pins.railsOk then fatalCold a s else s)
  else
    match (if srcGroup a = some 19 then none else injecting s a 1), obs with
    | none, .real => classify a s
    | none, .injReal => classify a s
    | none, _ => s
    | some i, .inj =>
      let s := injectCount i 1 0 0 s
      injectDone (if i.classify then classify a s else s)
    | some i, _ =>
      if checkerKind a == .ecc then injectDone (classify a (injectCount i 1 1 0 s))
      else injectDone (injectCount i 0 0 1 s)
/-- The rails of a source equal for over 100 ns (R384); under FAULT_INJECT MODE 2 an INJ of kind PATH. -/
def pathFault (a : Nat) (s : State) : State :=
  if !(fcRuns s) || !(srcUp s a) || (srcGroup a).isNone || (srcOf s a).railsEqual then s
  else
    match injecting s a 2 with
    | some i =>
      let s := injectCount i 1 0 0 (modSrc a (fun x => { x with railsEqual := true }) s)
      injectDone (if i.classify then raisePath a s else s)
    | none => raisePath a (modSrc a (fun x => { x with railsEqual := true, path := true }) s)

/-! ### Grace expiry and actions (R387 to R390) -/

/-- Whether a source's group has a repeat action. -/
def hasRepeat (g : Nat) : Bool := g == 0 || g == 1 || g == 3 || g == 10 || g == 12 || g == 14
/-- The lane of a LANE_SD source as its key. -/
def sdLane (a : Nat) : Nat :=
  if a < 0x800 then (if a % 64 < 8 then 8 * (a / 64) + a % 64 else 256 + 8 * (a / 64) + a % 64 - 8) else 512 + (a - 0xA00)
/-- The block that a group's BLOCK_RESET resets. -/
def resetTarget (g a : Nat) : Nat × Nat :=
  match g with
  | 0 => let k := sdLane a; ((laneKind k).1, (laneKind k).2)
  | 10 => (5, 0) | 12 => (6, a - 0xA40) | 14 => (7, 0) | _ => (4, a / 64)
/-- The target that a group isolates: a domain, a pseudo-channel or a half. -/
inductive IsoTarget where
  | domain (d : Nat)
  | retire (t : Nat)
  deriving DecidableEq, Repr
/-- The isolation of a group's ISOLATE. -/
def isoTarget (g a : Nat) : IsoTarget :=
  match g with
  | 5 => .retire ((a - 0x800) / 4) | 6 => .retire ((a - 0x800) / 4) | 7 => .retire ((a - 0x800) / 4)
  | 8 => .retire (64 + (a - 0x900)) | 10 => .domain 34 | _ => .domain (a / 64)
/-- The reasons that an isolation sets at once. -/
def isoReasons (s : State) (t : IsoTarget) : List (Nat × Nat) :=
  match t with
  | .domain d => [if d < 32 then (3, d) else (10, 0)]
  | .retire p => if !s.pool.retiring.isEmpty then [] else if p < 64 then [(1, p)] else [(2, p - 64), (1, 32 * (p - 64))]
/-- Carry out an isolation for source a. -/
def isolate (t : IsoTarget) (a : Nat) (s : State) : State := match t with | .domain d => fcIsolate d a s | .retire p => retireDue p s

/-- The state of a source after an action: IDLE with its window count 0 after a reset, unless another grace of it still runs. -/
def afterAction (st : SrcState) (x : Src) : Src :=
  let more := x.grace.isSome || x.pathGrace.isSome || x.silentGrace.isSome
  if st == .idle then { x with st := if more then .severe else .idle, win := 0 }
  else if st == .isolated then { stopGrace x with st := st, acted := true }
  else { x with st := st, acted := true }
/-- An action taken for a source: ACTIONS + 1 and EVT_FAULT of kind ACTION, then what the action does. -/
def acted (a code : Nat) (more : List (Nat × Nat)) (s : State) : State :=
  evtFault a 2 code more (modSrc a (fun x => { x with actions := x.actions + 1, acted := true }) s)

/-- The group's ACTION, or its repeat action (R387, R389). -/
def groupAction (a : Nat) (s : State) : State :=
  let g := (srcGroup a).getD 0
  let x := srcOf s a
  let p := policyOf s g
  if x.again && hasRepeat g then
    let s := modSrc a (fun x => { x with again := false }) s
    match g with
    | 0 => setReason 9 a (laneHold (sdLane a) (modSrc a (fun x => { afterAction .held x with holds := true }) (acted a 5 [(9, a)] s)))
    | 12 => setReason 9 a (modSrc a (fun x => { afterAction .held x with holds := true }) (acted a 5 [(9, a)] s))
    | 14 => setReason 9 a (modSrc a (afterAction .held) (acted a 5 [(9, a)] s))
    | _ =>
      let t := isoTarget g a
      isolate t a (modSrc a (afterAction .isolated) (acted a 5 (isoReasons s t) s))
  else
    match p.action with
    | 1 =>
      let t := resetTarget g a
      let s := modSrc a (fun x => { afterAction .idle x with armedUntil := some (s.now + 10000000000) }) (acted a 1 [] s)
      blockReset t.1 t.2 s
    | 2 =>
      let t := isoTarget g a
      isolate t a (modSrc a (afterAction .isolated) (acted a 2 (isoReasons s t) s))
    | 3 =>
      let r := if x.promoted then 4 else 9
      setReason r a (modSrc a (afterAction .held) (acted a 3 [(r, a)] s))
    | _ => modSrc a (afterAction .held) (acted a 0 [] s)

/-- Whether the twin switchover action moves this twin to OUT (R358, R361, R388): an active one only while the partner's Varric heartbeat reports
READY. -/
def twinMoves (s : State) : Bool :=
  s.twin.paired && s.twin.run &&
    (match s.twin.role with
     | .out => false
     | .active => s.twin.partnerSt == 2 && s.twin.vhbOk
     | .handover => s.twin.partnerSt == 2 && s.twin.vhbOk
     | _ => true)
/-- The grace of a source's raise expires. -/
def ownExpiry (a : Nat) (s : State) : State :=
  let p := policyOf s ((srcGroup a).getD 0)
  let s := modSrc a (fun x => { x with grace := none }) s
  if p.twinFirst && twinMoves s then
    let s := acted a 4 [(5, a)] s
    let s := modSrc a (fun x => { x with twinAt := some (tickNow s + 250) }) s
    twinOut 6 (setReason 5 a s)
  else groupAction a s
/-- The grace of a PATH or SILENT raise expires: REPLACE, with its own reason. -/
def replaceExpiry (a r : Nat) (s : State) : State := setReason r a (modSrc a (afterAction .held) (acted a 3 [(r, a)] s))
/-- Whether a tick has been reached. -/
def tickDue (s : State) (t : Option Nat) : Bool := match t with | some x => decide (x ≤ tickNow s) | none => false
/-- The timers of a source that have reached their tick: its expiry tick, and which it is. -/
def sourceDue (s : State) (a : Nat) : List (Nat × Nat) :=
  let x := srcOf s a
  (([x.grace, x.pathGrace, x.silentGrace, x.twinAt].zipIdx).filterMap (fun e => e.1.map (fun t => (t, e.2)))).filter (fun e => decide (e.1 ≤ tickNow s))
/-- The timer that expires first of all that have reached their tick: the earliest tick, and the lowest address within it (R390). -/
def nextDue (s : State) : Option (Nat × Nat) :=
  (minBy (fun (e : Nat × Nat × Nat) => (e.1 * 4096 + e.2.1) * 4 + e.2.2)
    (s.fault.src.flatMap (fun (e : Nat × Src) => (sourceDue s e.1).map (fun d => (d.1, e.1, d.2))))).map (·.2)
/-- A timer of source a expires: its grace, that of a PATH or SILENT raise, or the 250 µs that follow a twin switchover action (R388). -/
def timerExpiry (a k : Nat) (s : State) : State :=
  match k with
  | 0 => ownExpiry a s
  | 1 => replaceExpiry a 7 (modSrc a (fun x => { x with pathGrace := none }) s)
  | 2 => replaceExpiry a 6 (modSrc a (fun x => { x with silentGrace := none }) s)
  | _ => groupAction a (modSrc a (fun x => { x with twinAt := none }) s)
/-- What is due is carried out one at a time, in order (R390). -/
def runDue (fuel : Nat) (s : State) : State :=
  match fuel, nextDue s with
  | n + 1, some e => runDue n (timerExpiry e.1 e.2 s)
  | _, _ => s
/-- All that is due now; nothing with the fatal latch set (R398). -/
def allDue (s : State) : State := if fatalSet s then s else runDue (4 * s.fault.src.length) s
/-- A timer of source a has reached its tick: it expires in its turn. -/
def graceExpiry (a : Nat) (s : State) : State := if (sourceDue s a).isEmpty then s else allDue s

/-! ### Holds and clearing (R389, R402) -/

/-- A hold of a lane or a TDC ends. -/
def holdEnd (a : Nat) (s : State) : State :=
  if !(srcOf s a).holds then s
  else
    let s := modSrc a (fun x => { x with holds := false }) s
    match srcGroup a with
    | some 0 => laneRelease (sdLane a) s
    | some 12 => candFrontReset (a - 0xA40) s
    | _ => s
/-- FAULT_CLEAR on one source that is neither ISOLATED nor FATAL. -/
def clearSrc (a : Nat) (s : State) : State :=
  let x := srcOf s a
  let s := modSrc a (fun x => { x with path := x.path && x.railsEqual, silent := false, acted := false }) s
  if x.st == .held || (x.st == .severe && x.twinAt.isNone) then
    let s := holdEnd a (modSrc a (fun x => { stopGrace x with st := .idle, win := 0 }) s)
    if x.st == .severe then evtFault a 3 0 [] s else s
  else s

/-! ### The checker exercise (R396) -/

/-- Whether the exercise skips a source. -/
def exerciseSkips (s : State) (a : Nat) : Bool :=
  srcMasked s a || srcState s a == .isolated || srcState s a == .fatal || (srcOf s a).railsEqual ||
    (match srcGroup a with | some g => decide (16 ≤ g) | none => true)
/-- The exercised check of source a, and whether it records INJ: with a real error in it, an ECC or CRC checker records both and the error is
classified, and a parity checker shows neither (R395). -/
def exerciseCheck (a : Nat) (seen : Option CheckObs) (s : State) : Bool × State :=
  match seen with
  | none => (false, s)
  | some .inj => (true, modSrc a (fun x => { x with inj := x.inj + 1 }) s)
  | some _ =>
    if checkerKind a == .ecc then (true, classify a (modSrc a (fun x => { x with inj := x.inj + 1, realInj := x.realInj + 1 }) s))
    else (false, modSrc a (fun x => { x with missed := x.missed + 1 }) s)
/-- An exercise of a source, once every 10 s: `seen` what its check showed within 10 µs, none nothing. -/
def exercise (a : Nat) (seen : Option CheckObs) (s : State) : State :=
  if !(mpRuns s) || decide (s.now < (srcOf s a).exerciseAt) || exerciseSkips s a then s
  else
    let r := exerciseCheck a seen (modSrc a (fun x => { x with exerciseAt := s.now + 10000000000 }) s)
    if r.1 then r.2 else modSrc a (fun x => { x with retryAt := some (s.now + 1000000) }) r.2
/-- The retry 1 ms later: a second miss is a SILENT fault. -/
def exerciseAgain (a : Nat) (seen : Option CheckObs) (s : State) : State :=
  if !(mpRuns s) || !(due (srcOf s a).retryAt s) then s
  else
    let s := modSrc a (fun x => { x with retryAt := none }) s
    if exerciseSkips s a then s
    else
      let r := exerciseCheck a seen s
      if r.1 then r.2 else raiseSilent a (modSrc a (fun x => { x with silent := true }) r.2)

/-! ### The events of the fault collector -/

/-- FAULT_SOURCE_EVENT (R386). -/
def execFaultSourceEvent (a : Fin 4096) (obs : CheckObs) (s : State) : Host.Outcome State Fault Refusal := nextSettled (sourceEvent a.val obs s)
/-- RAIL_PATH_FAULT (R384). -/
def execRailPathFault (a : Fin 4096) (s : State) : Host.Outcome State Fault Refusal := nextSettled (pathFault a.val s)
/-- RAIL_PATH_RECOVERY (R384): the path fault ends; PATH stays. -/
def execRailPathRecovery (a : Fin 4096) (s : State) : Host.Outcome State Fault Refusal :=
  .next (modSrc a.val (fun x => { x with railsEqual := false }) s)
/-- FAULT_WINDOW_END (R385): counts of windows that are over restart at 0. -/
def execFaultWindowEnd (g : Fin 20) (s : State) : Host.Outcome State Fault Refusal :=
  .next { s with fault.src := s.fault.src.map (fun (e : Nat × Src) =>
    (e.1, if srcGroup e.1 == some g.val && e.2.winKey != winKeyNow s g.val then { e.2 with win := 0 } else e.2)) }
/-- FAULT_GRACE_EXPIRY (R387). -/
def execFaultGraceExpiry (a : Fin 4096) (s : State) : Host.Outcome State Fault Refusal := nextSettled (graceExpiry a.val s)
/-- TWIN_FIRST_DELAY (R388). -/
def execTwinFirstDelay (a : Fin 4096) (s : State) : Host.Outcome State Fault Refusal := nextSettled (graceExpiry a.val s)
/-- ARMED_EXPIRY (R389). -/
def execArmedExpiry (a : Fin 4096) (s : State) : Host.Outcome State Fault Refusal :=
  .next (if due (srcOf s a.val).armedUntil s then modSrc a.val (fun x => { x with armedUntil := none }) s else s)
/-- QUIESCE_MASK_END (R391). -/
def execQuiesceMaskEnd (a : Fin 4096) (s : State) : Host.Outcome State Fault Refusal :=
  .next (if due (srcOf s a.val).maskUntil s then modSrc a.val (fun x => { x with maskUntil := none }) s else s)
/-- FAULT_N_PULSE_END (R392). -/
def execFaultNPulseEnd (s : State) : Host.Outcome State Fault Refusal :=
  .next (if due s.fault.pulseUntil s then { s with fault.pulseUntil := none } else s)
/-- CHECKER_EXERCISE (R396). -/
def execCheckerExercise (a : Fin 4096) (seen : Option CheckObs) (s : State) : Host.Outcome State Fault Refusal := nextSettled (exercise a.val seen s)
/-- EXERCISE_RETRY (R396). -/
def execExerciseRetry (a : Fin 4096) (seen : Option CheckObs) (s : State) : Host.Outcome State Fault Refusal := nextSettled (exerciseAgain a.val seen s)
/-- FAULT_INJECT_TIMEOUT (R404): the counts so far are answered; the checks that were not evaluated stay uninjected. -/
def execFaultInjectTimeout (s : State) : Host.Outcome State Fault Refusal :=
  nextSettled (injectDone { s with fault.inject := s.fault.inject.map (fun i => if i.until_ ≤ s.now then { i with left := 0 } else i) })

/-! ### The fault commands (R401 to R406) -/

/-- The state code of FAULT_READ. -/
def srcCode (t : SrcState) : Nat := match t with | .idle => 0 | .severe => 1 | .held => 2 | .isolated => 3 | .fatal => 4
/-- GRACE_LEFT in units of 10 µs. -/
def graceLeft (s : State) (a : Nat) : Nat :=
  let x := srcOf s a
  match minBy (fun t => t) ([x.grace, x.pathGrace, x.silentGrace].filterMap id) with
  | some t => min 1048575 ((t - tickNow s + 9) / 10)
  | none => 0
/-- The response of FAULT_READ OP 1. -/
def sourceWords (s : State) (a : Nat) : List Word :=
  let x := srcOf s a
  [w32 (srcCode (srcState s a) + 8 * b2n (srcMasked s a) + 16 * b2n x.path + 32 * b2n x.silent + 64 * srcClass s a +
        256 * (srcGroup a).getD 0 + 8192 * b2n (srcArmed s a)),
   w32 (winCount s a), x.total, x.masked, x.inj, x.realInj, x.missed, x.actions, w32 (graceLeft s a),
   w32 x.lastTick, w32 (x.lastTick / 2 ^ 32)]
/-- FAULT_READ (R401). -/
def cmdFaultRead (c : Ctx) (req : List Word) (s : State) : CmdOut :=
  let w := wd req 0
  let op := fld w 3 0
  let a := fld w 15 4
  ladder [(fld w 31 18 != 0 || op = 0 || decide (3 < op) || (op = 1 && (srcGroup a).isNone), .invalid), (c.gate, .wrongState)] s fun _ =>
    if op = 1 then okWith (sourceWords s a) s
    else if op = 2 then
      let b := fld w 17 16
      okWith (w32 b :: (List.range 32).map (fun j =>
        w32 (((List.range 32).map (fun i =>
          let a := 1024 * b + 32 * j + i
          if (srcGroup a).isSome && (srcState s a != .idle || (srcOf s a).path || (srcOf s a).silent) then 2 ^ i else 0)).foldl (· + ·) 0))) s
    else
      let l := s.fault.latch.getD (0, 0)
      okWith [w32 (b2n (fatalSet s) + 16 * l.1), w32 l.2, w32 (l.2 / 2 ^ 32), w32 (reasonSet s.fault.reasons),
              w32 (b2n (faultLow s) + 2 * b2n s.fault.faultAssert), w32 (tickNow s), w32 (tickNow s / 2 ^ 32)] s
/-- FAULT_CLEAR (R402, R408): what expires in this tick runs first. ACTED is whether the action of a named source's latest raise, not cleared since,
has started. -/
def cmdFaultClear (c : Ctx) (req : List Word) (s : State) : CmdOut :=
  let w := wd req 0
  let a := fld w 11 0
  let all := bitOf w 12
  let off := fun (s : State) (a : Nat) => srcState s a == .isolated || srcState s a == .fatal
  ladder [(fld w 31 13 != 0 || (srcGroup a).isNone, .invalid), (c.gate || (!all && off s a), .wrongState)] s fun _ =>
    let l := if all then groupSources ((srcGroup a).getD 0) else [a]
    let t := allDue s
    let hit := l.any (fun a => (srcOf t a).acted && !(off s a))
    okWith [w32 (b2n hit)] (foldS l (fun a s => if off s a then s else clearSrc a s) t)
/-- Whether a group allows an ACTION (R382). -/
def actionOk (g act : Nat) : Bool :=
  act == 0 || act == 3 || act == (policyDefault g).action || (act == 2 && (g == 1 || g == 3 || g == 4 || g == 5 || g == 6 || g == 7 || g == 8 || g == 10))
/-- FAULT_POLICY (R382, R403). -/
def cmdFaultPolicy (c : Ctx) (req : List Word) (s : State) : CmdOut :=
  let g := fld (wd req 0) 4 0
  let op := fld (wd req 0) 11 8
  let bad := resBad req [(0, 7, 5), (0, 31, 12)] || decide (18 < g) || op = 0 || decide (2 < op) ||
    (if op = 1 then
      resBad req [(1, 7, 2), (1, 31, 20), (2, 31, 22), (3, 31, 20)] || fld (wd req 1) 1 0 = 3 || fld (wd req 1) 15 8 = 0 ||
        !(actionOk g (fld (wd req 1) 18 16)) || fld (wd req 2) 21 0 = 0 || decide (3600000 < fld (wd req 2) 21 0) ||
        fld (wd req 3) 19 0 = 0 || decide (1000000 < fld (wd req 3) 19 0)
     else wordsBad req 1 3)
  ladder [(bad, .invalid), (c.gate, .wrongState)] s fun _ =>
    if op = 1 then
      let new : Policy := { cls := fld (wd req 1) 1 0, n := fld (wd req 1) 15 8, w := fld (wd req 2) 21 0, grace := fld (wd req 3) 19 0
                            action := fld (wd req 1) 18 16, twinFirst := bitOf (wd req 1) 19 }
      let gen := policyGen s g + 1
      okNone { s with fault.policy := tset s.fault.policy g { old := policyOf s g, new := new, from_ := tickNow s + 1, gen := gen } }
    else
      let p := policySet s g
      okWith [w32 (p.cls + 256 * p.n + 65536 * p.action + 524288 * b2n p.twinFirst), w32 p.w, w32 p.grace] s
/-- FAULT_INJECT (R395, R404): it waits for its checks. -/
def cmdFaultInject (c : Ctx) (req : List Word) (s : State) : CmdOut :=
  let w := wd req 0
  let a := fld w 11 0
  let mode := fld w 13 12
  let n := fld (wd req 1) 7 0
  let bad := fld w 31 15 != 0 || fld (wd req 1) 31 8 != 0 || mode = 0 || mode = 3 || n = 0 || (mode = 2 && n != 1) ||
    (match srcGroup a with | some g => decide (16 ≤ g) | none => true)
  let x := srcOf s a
  ladder [(bad, .invalid),
          (c.gate || srcMasked s a || srcState s a == .isolated || srcState s a == .fatal || x.railsEqual, .wrongState)] s fun _ =>
    let id := s.fault.injectSeq
    (.waits (.inject id), { s with
      fault.injectSeq := id + 1
      fault.inject := s.fault.inject ++ [{ id := id, addr := a, mode := mode, classify := bitOf w 14, left := n, until_ := s.now + 1000000 }] })
/-- Whether FAULT_PIN may clear a reason for an object (R393). -/
def reasonClears (s : State) (r obj : Nat) : Bool :=
  match r with
  | 1 => false | 8 => false
  | 2 => domUp s (32 + obj) | 3 => domUp s obj | 10 => domUp s 34
  | 7 => !(srcOf s obj).railsEqual
  | _ => true
/-- FAULT_PIN (R405). -/
def cmdFaultPin (c : Ctx) (req : List Word) (s : State) : CmdOut :=
  let w := wd req 0
  let op := fld w 3 0
  ladder [(fld w 31 5 != 0 || fld (wd req 1) 31 16 != 0 || op = 0 || decide (4 < op), .invalid), (c.gate, .wrongState)] s fun _ =>
    let s :=
      if op = 1 then { s with fault.faultAssert := bitOf w 4 }
      else if op = 2 then
        foldS s.fault.reasons (fun e s => if bitOf (wd req 1) e.1 && reasonClears s e.1 e.2 then clearReason e.1 e.2 s else s) s
      else if op = 3 then setReason 11 0 s
      else s
    okWith [w32 (reasonSet s.fault.reasons)] s

end Sys2Proof.Machine
end

