-- ==== Sys2Proof/Machine/System.lean ====
section
/-! DEFINITION. The system commands (15_command_reference.md, R441 to R445 and R453), and the violation log. -/

namespace Sys2Proof.Machine

/-- SYS_INFO (R442). -/
def cmdSysInfo (_ : Ctx) (_ : List Word) (s : State) : CmdOut :=
  okWith [0x00A15120, fwState s, (Config.uniqueId.setWidth 32), ((Config.uniqueId >>> 32).setWidth 32),
    w32 (700 + Config.coreMvAbove700 % 101),
    w32 (b2n s.pins.strap + 2 * ((List.range 64).filter (fun p => pcRetired s p)).length + 256 * b2n (fatalSet s)),
    s.boot.boots, w32 ((s.now - s.boot.porstAt) / 1000000000)] s

/-- Whether an index is in range for a BLOCK (R443). -/
def blockOk (blk idx : Nat) : Bool :=
  match blk with
  | 1 => true | 2 => true | 3 => decide (idx < 8) | 4 => decide (idx < 32) | 5 => idx == 0 | 6 => decide (idx < 42) | 7 => idx == 0
  | _ => false
/-- SYS_RESET_BLOCK (R443): it waits for the reset's end; the MP's is answered first. -/
def cmdSysResetBlock (c : Ctx) (req : List Word) (s : State) : CmdOut :=
  let w := wd req 0
  let blk := fld w 3 0
  let idx := fld w 15 8
  ladder [(fld w 7 4 != 0 || fld w 31 16 != 0 || !(blockOk blk idx), .invalid),
          (c.gate || (match blockDomain blk idx with | some d => !(domUp s d) | none => false), .wrongState)] s fun _ =>
    let s := blockReset blk idx s
    if blk = 7 then okNone s else (.waits (.resetBlock blk idx), s)

/-- Whether any use of the deep path, or a host queue, is configured. -/
def deepUse (s : State) : Bool := !s.pool.q.isEmpty || !s.braid.isEmpty || !s.welt.isEmpty
/-- SYS_POWER_DOMAIN (R444, R470). -/
def cmdSysPowerDomain (c : Ctx) (req : List Word) (s : State) : CmdOut :=
  let w := wd req 0
  let d := fld w 5 0
  let op := fld w 11 8
  let off : Bool := op == 2 && ((decide (32 ≤ d) && decide (d < 34) && deepUse s) || (d == 34 && (!s.braid.isEmpty || !s.welt.isEmpty)) ||
    (d == 35 && s.twin.paired))
  ladder [(fld w 7 6 != 0 || fld w 31 12 != 0 || decide (35 < d) || op = 0 || decide (3 < op), .invalid),
          (c.gate || off || (op = 1 && fatalSet s), .wrongState)] s fun _ =>
    let x := domOf s d
    let on : Bool := op == 1
    if op = 3 || (x.sw.isNone && x.up == on && !(s.power.queue.any (fun e => e.1 == d))) then okWith [domWord s d] s
    else
      (.waits (.domain d on),
        if x.sw.isSome then s
        else if 4 ≤ switchings s || !s.power.queue.isEmpty then { s with power.queue := s.power.queue ++ [(d, on)] }
        else startSwitch d on s)

/-- The event codes (R454). -/
def eventCodes : List Nat :=
  [0x0101, 0x0102, 0x0201, 0x0401, 0x0402, 0x0501, 0x0601, 0x0602, 0x0701, 0x0801, 0x0802, 0x0803, 0x0804, 0x0901, 0x0902, 0x0903, 0x0904,
   0x0905, 0x0A01, 0x0B01, 0x0B02, 0x0C01, 0x0C02, 0x0C03, 0x0D01, 0x0E01]
/-- The codes that cannot be masked (R422). -/
def unmaskable : List Nat := [0x0701, 0x0C02, 0x0C03, 0x0101, 0x0E01]
/-- SYS_EVENT_MASK (R445). -/
def cmdSysEventMask (c : Ctx) (req : List Word) (s : State) : CmdOut :=
  let w := wd req 0
  let code := fld w 15 0
  let op := fld w 19 16
  ladder [(fld w 31 20 != 0 || op = 0 || decide (3 < op) || !(eventCodes.contains code), .invalid),
          (c.gate || (op = 1 && unmaskable.contains code), .wrongState)] s fun _ =>
    let l := s.host.evMasked.filter (· != code)
    let s := if op = 1 then { s with host.evMasked := l ++ [code] } else if op = 2 then { s with host.evMasked := l } else s
    okWith [w32 (b2n (s.host.evMasked.contains code))] s

/-- SYS_VIOLATION_READ (R423, R437): the log, oldest first, and both it and the displaced count are emptied. -/
def cmdSysViolationRead (c : Ctx) (_ : List Word) (s : State) : CmdOut :=
  ladder [(c.gate, .wrongState)] s fun _ =>
    let l := s.host.violLog
    okWith (w32 (l.length + 65536 * s.host.violDisplaced) ::
      l.flatMap (fun v => [w32 v.off, violInfo (some v) 1] ++ nsWords v.ns)) { s with host.violLog := [], host.violDisplaced := 0 }

/-- What the response of a SYS_CONTINUE asked for out of order carries: any words, at most as many as fit (R424). -/
def openParts (s : State) : List Word := (List.range (Config.freeNat s.free % 256)).map (fun i => w32 (Config.freeNat (s.free + 1 + i)))
/-- The words of the held response from PART on, and the PART last asked for. -/
def heldPart (s : State) (m code part : Nat) : List Word × Nat :=
  match (mbxOf s m).held with
  | some h => if h.code = code then (h.words.drop (255 * part), h.last) else ([], 0)
  | none => ([], 0)
/-- The held response of mailbox m has been asked for PART. -/
def partAsked (m part : Nat) (s : State) : State :=
  modMbx m (fun x => { x with held := x.held.map (fun h => { h with last := part }) }) s
/-- SYS_CONTINUE (R441). A PART that does not ascend is misuse: the words it gets are open (R424). -/
def cmdSysContinue (c : Ctx) (req : List Word) (s : State) : CmdOut :=
  let w := wd req 0
  let part := fld w 23 16
  let m := c.mbx.getD 16
  let h := heldPart s m (fld w 15 0) part
  ladder [(fld w 31 24 != 0 || part = 0, .invalid), (c.gate || h.1.isEmpty, .wrongState)] s fun _ =>
    if h.2 < part then okWith (h.1.take 255) (partAsked m part s)
    else okWith (openParts s) { s with free := s.free + 256 }

end Sys2Proof.Machine
end

