-- ==== Sys2Proof/Machine/Diag.lean ====
section
/-! DEFINITION. Test and diagnostics (17_test_and_diagnostics.md): pattern generators and checkers, loopbacks, eye scans, built-in
self-test and boundary scan, with their commands (R449 to R453). -/

namespace Sys2Proof.Machine

/-! ### Patterns (R449, R479 to R483) -/

/-- Whether TARGET and ID name a lane or a channel. -/
def prbsTargetOk (t id : Nat) : Bool :=
  match t with | 1 => decide (id < 256) | 2 => decide (id < 256) | 3 => decide (id < 8) | 4 => true | 5 => true | _ => false
/-- The lane key of TARGET 1 to 3. -/
def prbsLane (t id : Nat) : Nat := kindLane t id
/-- Whether a pattern is allowed for a target; a line lane without a port has no mode to rule it out. -/
def patternAllowed (s : State) (t id p : Nat) : Bool :=
  if 4 ≤ t then p == 5 || p == 6
  else decide (1 ≤ p) && decide (p ≤ 7) && (p != 7 || laneMode s (prbsLane t id) != some 0)
/-- The channel key of TARGET 4 or 5. -/
def prbsChan (t id : Nat) : Nat := chKey (t == 4) id
/-- Whether a channel target exists. -/
def prbsFound (s : State) (t id : Nat) : Bool := decide (t < 4) || thas s.chan (prbsChan t id)
/-- Whether the target can carry a test (R453). -/
def prbsReady (s : State) (t id : Nat) : Bool :=
  if t < 4 then domUp s (laneDomain (prbsLane t id)) && (laneOf s (prbsLane t id)).st != .off
  else
    let k := prbsChan t id
    match tget? s.chan k with
    | some c => c.en && decide (1 ≤ cType c.words) && decide (cType c.words ≤ 7) && !(isServer s k) &&
        (match chanSlice s k with | some sl => domUp s sl | none => false)
    | none => false
/-- The channel generators, or checkers, on the slice of a target other than its own. -/
def prbsUsed (s : State) (t id : Nat) : Nat :=
  (s.test.prbs.filter (fun e => e.1 / 16384 == t && e.1 != prbsKey t id && (e.2.gen || e.2.chk) &&
    chanSlice s (prbsChan t (e.1 % 16384)) == chanSlice s (prbsChan t id))).length
/-- PRBS_CONFIG (R449): a checker that is configured starts its counts anew. -/
def cmdPrbsConfig (c : Ctx) (req : List Word) (s : State) : CmdOut :=
  let w := wd req 0
  let v := wd req 1
  let t := fld w 2 0
  let id := fld w 21 8
  let gen := bitOf v 0
  let chk := bitOf v 1
  let p := fld v 5 2
  let bad := resBad req [(0, 7, 3), (0, 31, 22), (1, 31, 7)] || !(prbsTargetOk t id) || (t = 5 && gen) || (t = 4 && chk) ||
    (if gen || chk || p != 0 then !(patternAllowed s t id p) else false)
  ladder [(bad, .invalid), (!(prbsFound s t id), .notFound), (c.gate || !(prbsReady s t id), .wrongState),
          (decide (4 ≤ t) && (gen || chk) && decide (16 ≤ prbsUsed s t id), .noRes)] s fun _ =>
    let old := tget s.test.prbs {} (prbsKey t id)
    let new : Prbs := if chk then { gen := gen, chk := true, pattern := p, inv := bitOf v 6 }
      else { old with gen := gen, chk := false, lock := false, pattern := p, inv := bitOf v 6 }
    okNone { s with test.prbs := tset s.test.prbs (prbsKey t id) new }
/-- PRBS_READ (R449). -/
def cmdPrbsRead (c : Ctx) (req : List Word) (s : State) : CmdOut :=
  let w := wd req 0
  let t := fld w 2 0
  let id := fld w 21 8
  ladder [(resBad req [(0, 7, 3), (0, 31, 22), (1, 31, 1)] || !(prbsTargetOk t id), .invalid), (!(prbsFound s t id), .notFound),
          (c.gate || !(prbsReady s t id), .wrongState)] s fun _ =>
    let x := tget s.test.prbs {} (prbsKey t id)
    let ws := [w32 (b2n x.lock + 2 * b2n x.lost), w32 x.errored.toNat, w32 (x.errored.toNat / 2 ^ 32), w32 x.compared.toNat,
      w32 (x.compared.toNat / 2 ^ 32), x.losses]
    okWith ws (if bitOf (wd req 1) 0 then
      { s with test.prbs := tupd s.test.prbs (prbsKey t id) (fun x => { x with lost := false, errored := 0, compared := 0, losses := 0 }) } else s)

/-- Bits compared while locked join a checker's counts. -/
def prbsCount (cmp err : Nat) (x : Prbs) : Prbs :=
  if x.lock then { x with compared := x.compared + BitVec.ofNat 64 cmp, errored := x.errored + BitVec.ofNat 64 err } else x
/-- PRBS_CHECKER_LOCK (R480): a checker that seeds locks; one that is locked counts the bits compared since. -/
def execPrbsCheckerLock (t : PrbsTarget) (cmp err : Nat) (s : State) : Host.Outcome State Fault Refusal :=
  .next { s with test.prbs := tupd s.test.prbs (prbsTargetKey t) (fun x =>
    if x.chk then prbsCount cmp err { x with lock := true } else x) }
/-- PRBS_CHECKER_LOCK_LOSS (R480). -/
def execPrbsCheckerLockLoss (t : PrbsTarget) (cmp err : Nat) (s : State) : Host.Outcome State Fault Refusal :=
  .next { s with test.prbs := tupd s.test.prbs (prbsTargetKey t) (fun x => prbsUnlock (prbsCount cmp err x)) }

/-! ### Loopbacks (R450, R484, R485) -/

/-- LOOPBACK_SET: a change of MODE takes a lane in TRACK once to ACQUIRE. -/
def cmdLoopbackSet (c : Ctx) (req : List Word) (s : State) : CmdOut :=
  let w := wd req 0
  let t := fld w 2 0
  let lane := fld w 15 8
  let mode := fld w 19 16
  let k := kindLane t lane
  ladder [(fld w 7 3 != 0 || fld w 31 20 != 0 || t = 0 || decide (3 < t) || (t = 3 && decide (7 < lane)) || decide (2 < mode), .invalid),
          (c.gate || !(domUp s (laneDomain k)) || (t = 3 && s.twin.paired), .wrongState)] s fun _ =>
    if tget s.test.loop 0 k = mode then okNone s
    else
      let s := { s with test.loop := if mode = 0 then tdel s.test.loop k else tset s.test.loop k mode }
      okNone (if (laneOf s k).st == .track then (if k < 256 then huntLane k (laneAcquire k s) else laneAcquire k s) else s)

/-! ### Eye scans (R452, R486) -/

/-- H of a setup word. -/
def eyeH (v : Word) : Nat := fld v 6 0
/-- V. -/
def eyeV (v : Word) : Nat := fld v 13 8
/-- Whether a setup word is out of range for a lane (R452): a lane at NRZ has one eye. -/
def eyeBad (s : State) (k : Nat) (v : Word) : Bool :=
  fld v 7 7 != 0 || fld v 15 14 != 0 || fld v 19 18 != 0 || fld v 31 24 != 0 || decide (eyeH v < 2) || decide (64 < eyeH v) || decide (eyeV v < 2) ||
    decide (fld v 17 16 = 3) || (laneMode s k = some 0 && fld v 17 16 != 0) || decide (fld v 23 20 < 6) || decide (12 < fld v 23 20)
/-- EYE_SCAN. -/
def cmdEyeScan (c : Ctx) (req : List Word) (s : State) : CmdOut :=
  let w := wd req 0
  let v := wd req 1
  let kind := fld w 1 0
  let lane := fld w 15 8
  let op := fld w 19 16
  let k := kindLane kind lane
  let scan := tget? s.test.scans k
  ladder [(fld w 7 2 != 0 || fld w 31 20 != 0 || kind = 0 || (kind = 3 && decide (7 < lane)) || op = 0 || decide (2 < op) ||
             (if op = 1 then eyeBad s k v else v != 0), .invalid),
          (c.gate || !(domUp s (laneDomain k)) || (op = 1 && (laneOf s k).st != .track) ||
             (op = 2 && !(match scan with | some x => x.done | none => false)), .wrongState),
          (op = 1 && (decide (8 ≤ (s.test.scans.filter (fun e => e.2.running)).length) ||
             (match scan with | some x => x.running | none => false)), .busy)] s fun _ =>
    if op = 1 then (.done .deferred [], { s with test.scans := tset s.test.scans k { running := true, setup := v } })
    else
      match scan with
      | some x =>
        okWith (x.setup :: (List.range ((x.points.length + 1) / 2)).map (fun i =>
          w32 (x.points.getD (2 * i) 0 + 65536 * x.points.getD (2 * i + 1) 0))) s
      | none => okNone s
/-- EYE_SCAN_DONE (R486): the H × V counts, saturating at 16 bits; counts that the command does not carry are open. -/
def execEyeScanDone (l : LaneId) (pts : List Nat) (s : State) : Host.Outcome State Fault Refusal :=
  let k := laneKey l
  .next (match tget? s.test.scans k with
    | some x =>
      if x.running then
        let n := eyeH x.setup * eyeV x.setup
        let ps := (List.range n).map (fun i => min 65535 (pts.getD i (Config.freeNat (s.free + i))))
        raise 0x0D01 clsCompletion 0 0 (0x0D05 + 65536 * (laneKind k).1 + 16777216 * (laneKind k).2) 0 0 0
          { s with test.scans := tset s.test.scans k { x with running := false, done := true, points := ps }, free := s.free + n }
      else s
    | none => s)

/-! ### Built-in self-test (R451, R487, R488) -/

/-- BIST_RUN. -/
def cmdBistRun (c : Ctx) (req : List Word) (s : State) : CmdOut :=
  let w := wd req 0
  let t := fld w 3 0
  let i := fld w 13 8
  let busyUse := if t = 1 then !(pcRetired s i) && deepUse s else s.port.any (fun e => e.1 / 8 == i)
  ladder [(fld w 7 4 != 0 || fld w 31 14 != 0 || t = 0 || decide (2 < t) || (t = 2 && decide (31 < i)), .invalid),
          (c.gate || !(domUp s (if t = 1 then 32 + i / 32 else i)) || busyUse, .wrongState),
          (s.test.bist.isSome, .busy)] s fun _ =>
    (.done .deferred [], { s with test.bist := some { target := t, index := i } })
/-- The end of a self-test: a pseudo-channel in service with a multi-bit failure is retired, a slice that fails is isolated, then
EVT_TEST_DONE. -/
def bistDone (fails : Nat) (multi : Bool) (first : Nat) (s : State) : State :=
  match s.test.bist with
  | none => s
  | some b =>
    let s := { s with test.bist := none }
    let s :=
      if b.target = 1 then
        let s := dropContent (fun p => p == b.index) s
        if pcRetired s b.index then s
        else
          let s := { s with pool.freed := tdel s.pool.freed b.index, pool.taken := tdel s.pool.taken b.index }
          if multi && fails != 0 then retirePcs [b.index] s else s
      else if fails != 0 then setReason 3 b.index (domainOut b.index .isoFc s)
      else s
    evtBist b (b2n (fails != 0)) fails first s
/-- BIST_DONE (R487). -/
def execBistDone (fails : Nat) (multi : Bool) (first : Nat) (s : State) : Host.Outcome State Fault Refusal :=
  nextSettled (bistDone fails multi first s)

/-! ### Boundary scan (R489, R490) -/

/-- The next state of the test access port. -/
def tapNext (t : Tap) (tms : Bool) : Tap :=
  match t, tms with
  | .reset, false => .idle | .reset, true => .reset
  | .idle, false => .idle | .idle, true => .selDr
  | .selDr, false => .capDr | .selDr, true => .selIr
  | .capDr, false => .shDr | .capDr, true => .ex1Dr
  | .shDr, false => .shDr | .shDr, true => .ex1Dr
  | .ex1Dr, false => .paDr | .ex1Dr, true => .upDr
  | .paDr, false => .paDr | .paDr, true => .ex2Dr
  | .ex2Dr, false => .shDr | .ex2Dr, true => .upDr
  | .upDr, false => .idle | .upDr, true => .selDr
  | .selIr, false => .capIr | .selIr, true => .reset
  | .capIr, false => .shIr | .capIr, true => .ex1Ir
  | .shIr, false => .shIr | .shIr, true => .ex1Ir
  | .ex1Ir, false => .paIr | .ex1Ir, true => .upIr
  | .paIr, false => .paIr | .paIr, true => .ex2Ir
  | .ex2Ir, false => .shIr | .ex2Ir, true => .upIr
  | .upIr, false => .idle | .upIr, true => .selDr

/-- The register an instruction selects: 0 bypass, 1 identification, 2 boundary. With PORST_N released the intrusive codes act as
BYPASS; every code not in the table does. -/
def jtagReg (ir : BitVec 6) (released : Bool) : Nat :=
  if ir = 1 then 1
  else if ir = 2 then 2
  else if (ir = 0 || ir = 8 || ir = 9) && !released then 2
  else 0
/-- A bit shifted in at the most significant end. -/
def shiftIn {n : Nat} (x : BitVec n) (b : Bool) : BitVec n := (x >>> 1) ||| (if b then 1#n <<< (n - 1) else 0)
/-- One rising edge of TCK: capture and shift in the present state, then the next state. -/
def tckRise (tms tdi : Bool) (s : State) : State :=
  let j := s.test.jtag
  let reg := jtagReg j.ir s.pins.porstN
  let n := Config.boundaryLength
  let j' : Jtag :=
    match j.tap with
    | .capIr => { j with irShift := 1 }
    | .shIr => { j with irShift := shiftIn j.irShift tdi }
    | .capDr =>
      if reg = 1 then { j with idShift := 0x15120C4B }
      else if reg = 2 then { j with bsr := (List.range n).map (fun i => Config.freeBit (s.free + i)) }
      else { j with bypass := false }
    | .shDr =>
      if reg = 1 then { j with idShift := shiftIn j.idShift tdi }
      else if reg = 2 then { j with bsr := j.bsr.drop 1 ++ [tdi] }
      else { j with bypass := tdi }
    | _ => j
  let t := tapNext j.tap tms
  { s with
    test.jtag := { j' with tap := t, ir := if t == .reset then 1 else j'.ir }
    free := if j.tap == .capDr && reg == 2 then s.free + n else s.free }
/-- One falling edge: the update states latch, and TDO shows the shifted register's last bit. -/
def tckFall (s : State) : State :=
  let j := s.test.jtag
  let reg := jtagReg j.ir s.pins.porstN
  let j := match j.tap with
    | .upIr => { j with ir := j.irShift, tdo := none }
    | .upDr => { j with latch := if reg = 2 then j.bsr else j.latch, tdo := none }
    | .shIr => { j with tdo := some (j.irShift.getLsbD 0) }
    | .shDr => { j with tdo := if reg = 1 then some (j.idShift.getLsbD 0) else if reg = 2 then j.bsr.head? else some j.bypass }
    | _ => { j with tdo := none }
  { s with test.jtag := j }
/-- JTAG_TCK_EDGE (R489). -/
def execJtagTckEdge (rising tms tdi : Bool) (s : State) : Host.Outcome State Fault Refusal :=
  .next (if rising then tckRise tms tdi s else tckFall s)
/-- TRST_N_ASSERT (R489). -/
def execTrstNAssert (s : State) : Host.Outcome State Fault Refusal :=
  .next { s with test.jtag := { s.test.jtag with tap := .reset, ir := 1, tdo := none } }

end Sys2Proof.Machine
end

