-- ==== Sys2Proof/Machine/Ports.lean ====
section
/-! DEFINITION. Lane, port and alignment commands (02_lanes_and_ports.md, 03_frame_alignment.md, R446 to R448). -/

namespace Sys2Proof.Machine

/-! ### Lane commands (R446, R447) -/

/-- Whether KIND and LANE name no lane. -/
def laneBadId (kind lane : Nat) : Bool := kind = 0 || (kind = 3 && decide (7 < lane))
/-- Whether a taps word breaks the limits of R61. -/
def tapsBad (v : Word) : Bool :=
  let p2 := fld v 3 0
  let p1 := fld v 12 8
  let m := fld v 21 16
  let t1 := fld v 28 24
  fld v 7 4 != 0 || fld v 15 13 != 0 || fld v 23 22 != 0 || fld v 31 29 != 0 || decide (m < 16) || decide (63 < p2 + p1 + m + t1)
/-- A lane that starts acquisition over, with the processes it feeds (R62, R80). -/
def laneReadapt (k : Nat) (s : State) : State := if k < 256 then huntLane k (laneAcquire k s) else laneAcquire k s
/-- The monitoring points of a port (R129): its lanes, its section and its FlexE instances. -/
def portPoints (p : Nat) (q : Port) : List Nat :=
  (portLanes p q).map (fun k => monAddr 1 0 k 0 0) ++
    (if isSdh q then [monAddr 2 0 p 0 0, monAddr 2 0 p 0 1] else (List.range (sectionInst q)).map (fun i => monAddr 2 0 p i 0)) ++
    (List.range (flexeInst q)).map (fun i => monAddr 6 0 p i 0)
/-- A free bit picks whether to change by f. -/
def perhaps (f : State → State) (s : State) : State := let r := drawBit s; if r.1 then f r.2 else r.2
/-- A monitoring point whose defects and counts are open (R424). -/
def openPoint (a : Nat) (s : State) : State :=
  let n := s.free
  { s with
    free := n + 6
    mon := tupd s.mon a (fun m => { m with
      raw := BitVec.ofNat 20 (Config.freeNat n)
      sec := { m.sec with nb := Config.freeNat (n + 1), neEb := Config.freeNat (n + 2), feEb := Config.freeNat (n + 3) }
      viol := BitVec.ofNat 64 (Config.freeNat (n + 4)), bei := BitVec.ofNat 64 (Config.freeNat (n + 5)) }) }
/-- A channel whose traffic is open (R424): what is under way in it may be lost. -/
def openTraffic (k : Nat) (s : State) : State :=
  perhaps (updChan k (fun c => { c with txBytes := [], fifo := [], fifoRun := false, rx := {}, pktCur := 0, pktDropping := false })) s
/-- The channel at key k and those it serves, with their points, in an open condition (R424). -/
def openChan (fuel k : Nat) (s : State) : State :=
  match fuel with
  | 0 => s
  | f + 1 =>
    let pts := (s.mon.map (·.1)).filter (fun a => [3, 4, 5].contains (aLayer a) && chKey (aDir a == 1) (aId a) == k)
    foldS (servedBy s k) (openChan f) (foldS pts openPoint (openTraffic k s))
/-- A port and the channels it serves in an open condition (R424): any of its processes may lose alignment, and its defects are open. -/
def openPort (p : Nat) (s : State) : State :=
  match portAt s p with
  | none => s
  | some q =>
    let s := foldS (procList q) (fun i => perhaps (updPort p (fun q => updProc i (toHunt q) q))) s
    let s := foldS (portPoints p q) openPoint (perhaps (updPort p (fun q => { q with lof := true })) s)
    foldS ((s.chan.filter (fun e => serverOf e.1 e.2.words == .port p)).map (·.1)) (openChan treeDepth) s
/-- Whether port p serves an enabled channel. -/
def portServing (s : State) (p : Nat) : Bool := s.chan.any (fun e => e.2.en && serverOf e.1 e.2.words == .port p)
/-- LANE_CONFIG changing an inversion on a lane of a port that serves an enabled channel is misuse: the traffic, alignment and defects of the
port and its channels are open (R16, R424). -/
def inversionMisuse (k : Nat) (v1 : Word) (s : State) : State :=
  let l := laneOf s k
  if k < 256 && (l.rxInv != bitOf v1 0 || l.txInv != bitOf v1 1) then
    match portOfLane s k with
    | some (p, _) => if portServing s p then openPort p s else s
    | none => s
  else s
/-- The settings of LANE_CONFIG OP 1. -/
def laneSettings (v1 v2 : Word) (l : LaneRec) : LaneRec :=
  { l with rxInv := bitOf v1 0, txInv := bitOf v1 1, freeze := bitOf v1 2, margin := fld v1 15 8, pre2 := fld v2 3 0, pre1 := fld v2 12 8,
           main := fld v2 21 16, post1 := fld v2 28 24 }
/-- LANE_CONFIG. -/
def cmdLaneConfig (c : Ctx) (req : List Word) (s : State) : CmdOut :=
  let w := wd req 0
  let v1 := wd req 1
  let v2 := wd req 2
  let op := fld w 19 16
  let k := kindLane (fld w 1 0) (fld w 15 8)
  ladder [(fld w 7 2 != 0 || fld w 31 20 != 0 || laneBadId (fld w 1 0) (fld w 15 8) || op = 0 || decide (2 < op) ||
             (if op = 1 then fld v1 7 4 != 0 || fld v1 31 16 != 0 || decide (100 < fld v1 15 8) || tapsBad v2 else v1 != 0 || v2 != 0), .invalid),
          (c.gate || !(domUp s (laneDomain k)) || (op = 1 && bitOf v1 3 && (laneOf s k).st != .track), .wrongState)] s fun _ =>
    if op = 2 then
      let l := laneOf s k
      okWith [w32 (b2n l.rxInv + 2 * b2n l.txInv + 4 * b2n l.freeze + 256 * l.margin), tapsWord l] s
    else
      let s := modLane k (laneSettings v1 v2) (inversionMisuse k v1 s)
      okNone (if bitOf v1 3 then laneReadapt k s else s)

/-- The STATE code of R447. -/
def laneCode (t : LaneState) : Nat := match t with | .off => 0 | .idle => 1 | .acquire => 2 | .track => 3
/-- LANE_STATUS: the MODE of a line lane that no port uses is open. -/
def cmdLaneStatus (c : Ctx) (req : List Word) (s : State) : CmdOut :=
  let w := wd req 0
  let k := kindLane (fld w 1 0) (fld w 15 8)
  ladder [(fld w 7 2 != 0 || fld w 31 16 != 0 || laneBadId (fld w 1 0) (fld w 15 8), .invalid),
          (c.gate || !(domUp s (laneDomain k)), .wrongState)] s fun _ =>
    let l := laneOf s k
    let m := laneMode s k
    let fab := 256 ≤ k && k < 512
    okWith [w32 (laneCode l.st + 4 * b2n l.los + 8 * b2n (laneLol l) + 16 * b2n l.freeze + 32 * b2n l.held +
              64 * (m.getD (Config.freeNat s.free % 4)) + 256 * l.snr),
            if laneFec s k then l.preFecErr else 0xFFFFFFFF, l.acqFail, l.bufSlip, if fab then l.badType else 0, if fab then l.unknownCh else 0,
            tapsWord l]
      (if m.isNone then { s with free := s.free + 1 } else s)

/-! ### Port commands (R67 to R70, R448) -/

/-- The port that PORT_CREATE words describe. -/
def portOfWords (now : Nat) (req : List Word) : Port :=
  let v := wd req 1
  let q : Port := { width := fld (wd req 0) 15 8, proto := fld (wd req 0) 23 16, fec := fld v 3 0, foicM := fld v 7 4, foicK := fld v 11 8,
                    flexePhy := bitOf v 12, txMap := fld (wd req 2) 23 0, rxMap := fld (wd req 3) 23 0, oofSince := some now, lastTrackAt := now }
  { q with procs := freshProcs q now }
/-- Whether a map word is the identity map 0 or a permutation with zeros beyond the width (R60). -/
def mapOk (m width : Nat) : Bool :=
  m == 0 || ((List.range width).all (fun j => (List.range width).any (fun i => mapEntry m i == j)) && m / 8 ^ width == 0)
/-- Whether PORT_CREATE words are outside R48, R51, R53, R58 or R60. -/
def portBad (p : Nat) (req : List Word) : Bool :=
  let w := fld (wd req 0) 15 8
  let proto := fld (wd req 0) 23 16
  let v := wd req 1
  resBad req [(0, 31, 24), (1, 31, 15), (2, 31, 24), (3, 31, 24)] || !([1, 2, 4, 8].contains w) || p % 8 % w != 0 ||
    !(protoOk proto w (fld v 3 0)) ||
    (if proto = 4 then !(foicOk (fld v 7 4) (fld v 11 8) w) else fld v 7 4 != 0 || fld v 11 8 != 0) ||
    (bitOf v 12 && !([0x12, 0x13, 0x14].contains proto)) || fld v 14 13 != 0 || !(mapOk (fld (wd req 2) 23 0) w) || !(mapOk (fld (wd req 3) 23 0) w)

/-- The overhead contexts of a port's section. -/
def portOh (p : Nat) (q : Port) : List Nat := if isEth q then [] else (List.range (sectionInst q)).map (fun i => ohKey 0 p i)

/-- PORT_CREATE (R67, R68). -/
def cmdPortCreate (c : Ctx) (req : List Word) (s : State) : CmdOut :=
  let p := fld (wd req 0) 7 0
  let q := portOfWords s.now req
  ladder [(portBad p req, .invalid), (c.denied, .denied),
          (c.gate || !(domUp s (p / 8)) || (portLanes p q).any (fun k => (portOfLane s k).isSome), .wrongState)] s fun _ =>
    let s := { s with port := tset s.port p q, oh := (portOh p q).foldl (fun t k => tset t k {}) s.oh }
    okNone (monCreate (portPoints p q) (foldS (portLanes p q) laneStart s))

/-- Whether an object refers to port p (R69): a channel, an MSP leg, a FlexE group, or an enabled line-recovered selector. -/
def portUsed (s : State) (p : Nat) : Bool :=
  s.chan.any (fun e => serverOf e.1 e.2.words == .port p) ||
    s.prot.any (fun e => gMsp e.2.words && (gLegRx e.2.words false == p || gLegRx e.2.words true == p)) ||
    s.flex.any (fun e => e.2.phys.any (fun f => f.port == p)) ||
    (candOf s (8 + p / 8)).st != .unused && fld (wd (candOf s (8 + p / 8)).words 1) 7 0 == p
/-- A port is removed with its processes, points and section contexts; its lanes go to OFF (R62, R69, R99). -/
def portRemove (p : Nat) (q : Port) (s : State) : State :=
  let s := foldS (portLanes p q) laneOff s
  monDelete (portPoints p q) { s with port := tdel s.port p, oh := (portOh p q).foldl tdel s.oh }
/-- PORT_DELETE (R69). -/
def cmdPortDelete (c : Ctx) (req : List Word) (s : State) : CmdOut :=
  let p := fld (wd req 0) 7 0
  ladder [(fld (wd req 0) 31 8 != 0, .invalid), (c.denied, .denied), (!(thas s.port p), .notFound), (c.gate || portUsed s p, .wrongState)] s fun _ =>
    match portAt s p with
    | some q => okNone (portRemove p q s)
    | none => okNone s

/-- The LLM_MAP word of physical lane i of an OTU4 port (R448). -/
def llmWord (q : Port) (i : Nat) : Word :=
  w32 (((List.range 5).map (fun j =>
    let r := procOf q (5 * i + j + 1)
    (if r.st == .hunt then 31 else r.ident.getD 31) * 32 ^ j)).foldl (· + ·) 0)
/-- PORT_STATUS (R70, R448). DESIGN CHOICE (log 37): R76 has the port's dLOS and dLOL reported here and R448's response has no field for
them; STATE alone tells of them. -/
def cmdPortStatus (c : Ctx) (req : List Word) (s : State) : CmdOut :=
  let w := wd req 0
  let p := fld w 7 0
  let i := fld w 13 8
  ladder [(fld w 31 14 != 0 || decide (48 < i), .invalid),
          (!(match portAt s p with | some q => (procList q).contains i | none => false), .notFound),
          (c.gate || !(domUp s (p / 8)), .wrongState)] s fun _ =>
    match portAt s p with
    | some q =>
      let r := procOf q i
      okWith ([w32 (portState s p q)] ++ (List.range 8).map (fun i => w32 (if i < q.width then laneSkew p q i else 0)) ++
        (List.range 4).map (fun i => if q.proto = 3 then llmWord q i else 0) ++
        [r.oofEvents, r.realign, r.imitation, r.slotFull, r.oomEvents, q.skewFail, q.acqTime]) s
    | none => okNone s

/-- ALIGN_CONFIG (R95 to R97). -/
def cmdAlignConfig (c : Ctx) (req : List Word) (s : State) : CmdOut :=
  let w := wd req 0
  let v := wd req 1
  let t := fld w 3 0
  let id := fld w 21 8
  let delta := fld v 6 4
  let pli := fld v 31 16
  let bad := resBad req [(0, 7, 4), (0, 31, 22), (1, 3, 2), (1, 15, 7)] || t = 0 || decide (2 < t) || (t = 1 && decide (255 < id)) ||
    (t = 1 && (delta != 0 || pli != 0)) || (t = 2 && (bitOf v 0 || (pli != 0 && decide (pli < 4))))
  let found := if t = 1 then thas s.port id else (match chanAt s false id with | some x => isGfp x.words | none => false)
  ladder [(bad, .invalid), (c.denied, .denied), (c.gate, .wrongState), (!found, .notFound),
          (t = 1 && bitOf v 0 && !(match portAt s id with | some q => isOtn q | none => false), .invalid)] s fun _ =>
    if t = 1 then
      okNone (updPort id (fun q =>
        let q := { q with mfasQual := bitOf v 0 }
        if bitOf v 1 then { q with procs := q.procs.map (fun (e : Nat × Proc) => (e.1, if (hunterKind q e.1).isSome then rehunt q e.2 else e.2)) }
        else q) s)
    else
      okNone (updChan (chKey false id) (fun x =>
        let x := { x with gfpDelta := if delta = 0 then 1 else delta, gfpMaxPli := if pli = 0 then 65535 else pli }
        if bitOf v 1 then { x with gfp := gfpHunt x } else x) s)

/-! ### Events on a lane (R62 to R66, R73 to R75) -/

/-- SIGNAL_DETECT_PRESENT (R73): a lane whose receiver runs clears dLOS and goes from IDLE to ACQUIRE. -/
def execSignalDetectPresent (l : LaneId) (s : State) : Host.Outcome State Fault Refusal :=
  let k := laneKey l
  let x := laneOf s k
  nextSettled (if x.st == .idle && !x.held then laneAcquire k (modLane k (fun x => { x with los := false }) s) else s)
/-- SIGNAL_DETECT_ABSENT (R73). -/
def execSignalDetectAbsent (l : LaneId) (s : State) : Host.Outcome State Fault Refusal :=
  let k := laneKey l
  nextSettled (if (laneOf s k).st == .off then s
    else huntLane k (laneIdle k (modLane k (fun x => { x with los := true }) s)))
/-- The receive coefficients of a lane mode: CTLE, feed-forward and feedback taps (R45). -/
def coefCount (mode : Nat) : Nat := if mode = 0 then 9 else if mode = 1 then 26 else 34
/-- CDR_LOCK_ACQUIRED (R62): a lane in ACQUIRE whose equaliser has converged within the acquisition limit goes to TRACK, with the
coefficients that its initial adaptation has trained. -/
def execCdrLockAcquired (l : LockedLane) (s : State) : Host.Outcome State Fault Refusal :=
  let k := laneKey l.lane
  let x := laneOf s k
  let m := (laneMode s k).getD 2
  nextSettled (if x.st == .acquire && decide (s.now ≤ x.acqSince + acqLimit m) then
      let s := modLane k (fun x => { x with st := .track, below := 0, coef := (l.coefs.take (coefCount m)).zipIdx.map (fun e => (e.2, e.1)) }) s
      match (if k < 256 then portOfLane s k else none) with
      | some (p, _) => updPort p (fun q => { q with lastTrackAt := s.now }) s
      | none => s
    else s)
/-- ACQUISITION_LIMIT_EXPIRY (R62). -/
def execAcquisitionLimitExpiry (l : LaneId) (s : State) : Host.Outcome State Fault Refusal :=
  let k := laneKey l
  let x := laneOf s k
  nextSettled (match laneMode s k with
    | some m =>
      if x.st == .acquire && decide (x.acqSince + acqLimit m ≤ s.now) then laneIdle k (modLane k (fun x => { x with acqFail := x.acqFail + 1 }) s)
      else s
    | none => s)
/-- CDR_LOCK_LOST (R62). -/
def execCdrLockLost (l : LaneId) (s : State) : Host.Outcome State Fault Refusal :=
  let k := laneKey l
  nextSettled (if (laneOf s k).st == .track then laneReadapt k s else s)
/-- LANE_BUFFER_SLIP (R75). -/
def execLaneBufferSlip (l : LaneId) (s : State) : Host.Outcome State Fault Refusal :=
  let k := laneKey l
  nextSettled (if (laneOf s k).st == .track then
      huntLane k (modLane k (fun x => { x with bufSlip := x.bufSlip + 1, slipUntil := some (s.now + 100000) }) s)
    else s)
/-- SLIP_DLOL_EXPIRY (R75). -/
def execSlipDlolExpiry (l : LaneId) (s : State) : Host.Outcome State Fault Refusal :=
  nextSettled (if due (laneOf s (laneKey l)).slipUntil s then modLane (laneKey l) (fun x => { x with slipUntil := none }) s else s)

/-- A margin judgement (R66): EVT_LANE_MARGIN at the tenth visit in a row below the threshold, once until the estimate has recovered. -/
def marginStep (k snr : Nat) (s : State) : State :=
  let thr := marginThreshold s k
  let x := laneOf s k
  let n := if snr < thr then x.below + 1 else 0
  let s := modLane k (fun x => { x with snr := snr, below := n, marginRaised := x.marginRaised && !decide (thr + 10 < snr) }) s
  if 10 ≤ n && !x.marginRaised then
    raise 0x0201 clsAlarm (if k < 256 then 1 else 0) (if k < 256 then k else 0) ((laneKind k).1 + 256 * (laneKind k).2) snr thr 0
      (modLane k (fun x => { x with marginRaised := true }) s)
  else s
/-- CONTINUOUS_ADAPTATION_VISIT (R64 to R66): one coefficient moves by at most one step; a frozen lane, a lane under a scan and a
halted MP do nothing. -/
def execContinuousAdaptationVisit (l : LaneId) (coef : Fin 34) (step : Fin 3) (snr : Fin 65536) (s : State) :
    Host.Outcome State Fault Refusal :=
  let k := laneKey l
  let x := laneOf s k
  let scan := match tget? s.test.scans k with | some sc => sc.running | none => false
  .next (if mpRuns s && x.st == .track && !x.freeze && !scan then
      marginStep k snr.val (modLane k (fun x => if coef.val < coefCount ((laneMode s k).getD 2) then
        { x with coef := tmod x.coef 0 coef.val (· + ((step.val : Int) - 1)) } else x) s)
    else s)

/-! ### Alignment events (R78 to R88) -/

/-- Whether what lies under process i of a port delivers: its lanes are in TRACK without dLOL, and for an OTUC instance the FlexO group is
aligned, for a FlexE instance the port is. -/
def procLive (s : State) (p : Nat) (q : Port) (i : Nat) : Bool :=
  (procLanes p q i).all (fun k => laneTracks s k && !(laneBad (laneOf s k))) && (decide (i < 33) || (procOf q 0).st == .inFrame)
/-- FAS_PATTERN_MATCH (R78, R79). -/
def execFasPatternMatch (p : Fin 256) (proc : Fin 49) (pos : Nat) (sig : List Byte) (qual : Byte) (s : State) :
    Host.Outcome State Fault Refusal :=
  nextSettled (match portAt s p.val with
    | some q =>
      match hunterKind q proc.val with
      | some h =>
        if procLive s p.val q proc.val && patternOk h sig then
          updPort p.val (updProc proc.val (fun r => fasOpen r (pos % framePeriod q) qual)) s
        else s
      | none => s
    | none => s)
/-- FAS_CANDIDATE_CHECK (R78 to R80, R98). -/
def execFasCandidateCheck (p : Fin 256) (proc : Fin 49) (slot : Fin 16) (seen : FasSeen) (qual : Byte) (s : State) :
    Host.Outcome State Fault Refusal :=
  nextSettled (match portAt s p.val with
    | some q =>
      match hunterKind q proc.val with
      | some h =>
        if procLive s p.val q proc.val then
          updPort p.val (fasChecked h proc.val slot.val seen.bytes qual seen.arrival s.now) s
        else s
      | none => s
    | none => s)
/-- Set or clear dLOF of a port or of a FlexE instance once its condition has held for 3 ms. -/
def lofStep (p i : Nat) (v : Bool) (s : State) : State :=
  updPort p (fun q =>
    if i = 0 then (if held3ms (if v then q.oofSince else q.okSince) s.now then { q with lof := v } else q)
    else if 33 ≤ i && hasOwnLof q i then
      updProc i (fun r => if held3ms (if v then r.oofSince else r.okSince) s.now then { r with lof := v } else r) q
    else q) s
/-- DLOF_DECLARE (R81, R88). -/
def execDlofDeclare (p : Fin 256) (proc : Fin 49) (s : State) : Host.Outcome State Fault Refusal := nextSettled (lofStep p.val proc.val true s)
/-- DLOF_CLEAR (R81, R88). -/
def execDlofClear (p : Fin 256) (proc : Fin 49) (s : State) : Host.Outcome State Fault Refusal := nextSettled (lofStep p.val proc.val false s)
/-- Set or clear dLOFLANE of a per-lane process (R81). -/
def lofLaneStep (p i : Nat) (v : Bool) (s : State) : State :=
  updPort p (fun q =>
    if 1 ≤ i && i ≤ 32 then updProc i (fun r => if held3ms (if v then r.oofSince else r.okSince) s.now then { r with lof := v } else r) q
    else q) s
/-- DLOFLANE_DECLARE (R81). -/
def execDloflaneDeclare (p : Fin 256) (proc : Fin 49) (s : State) : Host.Outcome State Fault Refusal :=
  nextSettled (lofLaneStep p.val proc.val true s)
/-- DLOFLANE_CLEAR (R81). -/
def execDloflaneClear (p : Fin 256) (proc : Fin 49) (s : State) : Host.Outcome State Fault Refusal :=
  nextSettled (lofLaneStep p.val proc.val false s)
/-- Set or clear dLOM of a process with a multiframe (R83). -/
def lomStep (p i : Nat) (v : Bool) (s : State) : State :=
  updPort p (fun q =>
    if hasMf q i then updProc i (fun r => if held3ms (if v then r.oomSince else r.imSince) s.now then { r with lom := v } else r) q else q) s
/-- DLOM_DECLARE (R83). -/
def execDlomDeclare (p : Fin 256) (proc : Fin 49) (s : State) : Host.Outcome State Fault Refusal := nextSettled (lomStep p.val proc.val true s)
/-- DLOM_CLEAR (R83). -/
def execDlomClear (p : Fin 256) (proc : Fin 49) (s : State) : Host.Outcome State Fault Refusal := nextSettled (lomStep p.val proc.val false s)

/-- FLEXO_FRAME (R86): the marker of one interface lane; the frame of port lane 0 carries the group's OMFI. -/
def execFlexoFrame (p : Fin 256) (lane : Fin 8) (am : Bool) (ident : FlexoIdent) (omfi : Byte) (arrival : Nat) (s : State) :
    Host.Outcome State Fault Refusal :=
  let i := lane.val + 1
  nextSettled (match portAt s p.val with
    | some q =>
      if q.proto = 4 && lane.val < q.width && procLive s p.val q i then
        updPort p.val (fun q =>
          let q := updProc i (fun r => { amStep r am with ident := if am then some (8 * ident.pid.val + ident.lane.val) else r.ident, arrival := arrival }) q
          if lane.val = 0 && (procOf q 0).st == .inFrame then updProc 0 (fun r => mfStep r omfi) q else q) s
      else s
    | none => s)
/-- PCS_ALIGNMENT_MARKER (R87). -/
def execPcsAlignmentMarker (p : Fin 256) (pcs : Fin 32) (sync : List Bool) (am : Bool) (lane : Fin 32) (arrival : Nat) (s : State) :
    Host.Outcome State Fault Refusal :=
  let i := pcs.val + 1
  nextSettled (match portAt s p.val with
    | some q =>
      if isEth q && pcs.val < pcsLanes q && procLive s p.val q i then
        updPort p.val (updProc i (pcsStep q sync am lane.val arrival)) s
      else s
    | none => s)

/-- What the overhead of a FlexE frame of an instance tells its group (R169, R170): whether group number and PHY map are those configured, the
calendar in use, and the acknowledgement. -/
def flexTell (p inst : Nat) (f : FlexOh) (s : State) : State :=
  { s with flex := s.flex.map (fun (e : Nat × FlexGroup) =>
      if e.2.phys.any (fun x => x.port == p) then
        let same : Bool := f.group == e.2.num && f.phys.length == e.2.phys.length && e.2.phys.all (fun x => f.phys.contains x.num)
        (e.1, { e.2 with
          phys := e.2.phys.map (fun x => if x.port == p then { x with bad := x.bad.filter (· != inst) ++ (if same then [] else [inst]) } else x)
          rxActive := b2n f.inUse
          switching := match e.2.switching with | some (cal, t, a) => some (cal, t, a || f.ca == (cal == 1)) | none => none })
      else e) }
/-- FLEXE_OVERHEAD_FRAME (R88, R169, R170). -/
def execFlexeOverheadFrame (p : Fin 256) (inst : Fin 16) (f : FlexOh) (s : State) : Host.Outcome State Fault Refusal :=
  let i := 33 + inst.val
  nextSettled (match portAt s p.val with
    | some q =>
      if inst.val < flexeInst q && procLive s p.val q i then
        let q' := updProc i (fun r => let r := ohFrameStep q r f.found; if f.found then omfStep r f.omf else { r with omfCount := r.omfCount + 1 }) q
        let s := updPort p.val (fun _ => q') s
        if f.found && (procOf q' i).st == .inFrame then flexTell p.val inst.val f s else s
      else s
    | none => s)

/-! ### Fabric lanes (R90 to R92) -/

/-- HAGIL_HEADER (R90): the eight header bytes at the examined position of a lane with codeword lock. -/
def execHagilHeader (l : Fin 256) (hdr : List Byte) (s : State) : Host.Outcome State Fault Refusal :=
  let x := laneOf s (256 + l.val)
  let r := fabRxOf s l.val
  let ok : Bool := hdr.length == 8 && crc8 (hdr.take 7) == hdr.getD 7 0
  nextSettled (if laneTracks s (256 + l.val) && !(laneBad x) && r.lock then
      { s with fabRx := tset s.fabRx l.val { r with hag := hdrStep r.hag ok false (some 512) 512 } } else s)
/-- FABRIC_CODEWORD (R92). -/
def execFabricCodeword (l : Fin 256) (oks : BitVec 16) (s : State) : Host.Outcome State Fault Refusal :=
  nextSettled (if laneTracks s (256 + l.val) && !(laneBad (laneOf s (256 + l.val))) then
      { s with fabRx := tset s.fabRx l.val (codewordStep (fabRxOf s l.val) oks) } else s)

end Sys2Proof.Machine
end

