-- ==== Sys2Proof/Machine/Bytes.lean ====
section
/-! DEFINITION. Overhead commands and frames (04_overhead_and_parity.md): OH_READ, OH_WRITE, TTI_SET, TTI_READ, received and transmitted
frames. A channel number names the ingress and the egress channel of that number (log 20). -/

namespace Sys2Proof.Machine

/-! ### What a command names (R125, R126) -/

/-- The number of indices of a KIND. -/
def ohIndices (kind : Nat) : Nat := match kind with | 1 => 64 | 2 => 64 | 3 => 23 | 4 => 9 | _ => 256
/-- The indices that are W at some time (R100, R104, R113). -/
def ohWritable (kind i : Nat) : Bool :=
  match kind with
  | 1 => decide (10 ≤ i) && decide (i ≤ 13)
  | 2 => [16, 17, 18, 29, 44, 45].contains i || (decide (48 ≤ i) && decide (i ≤ 61))
  | 3 => [2, 3, 4, 5, 6, 8, 9, 19, 22].contains i || (decide (10 ≤ i) && decide (i ≤ 18))
  | 4 => [4, 6, 7, 8].contains i
  | 6 => true
  | _ => false
/-- Whether a channel of TYPE t carries the layer that KIND names. -/
def ohLayer (kind t : Nat) : Bool := if kind = 4 then isVc t else isOdu t
/-- The channels of number ch that carry the layer of KIND with the instance, the ingress one first. -/
def ohChans (s : State) (kind ch inst : Nat) : List Nat :=
  ([chKey false ch, chKey true ch]).filter (fun k => match tget? s.chan k with
    | some c => ohLayer kind (cType c.words) && decide (inst < (if cType c.words = 8 then max 1 (cN c.words) else 1))
    | none => false)
/-- The contexts that a command names, the receiving one first. -/
def ohNamed (s : State) (kind id inst : Nat) : List Nat :=
  if kind = 1 then (match portAt s id with | some q => if isOtn q && inst < sectionInst q then [ohKey 0 id inst] else [] | none => [])
  else if kind = 3 then (match portAt s id with | some q => if isSdh q && inst = 0 then [ohKey 0 id 0] else [] | none => [])
  else (ohChans s kind id inst).map (fun k => ohKey (if kind = 4 then 2 else 1) k inst)
/-- The channel key of a context. -/
def ohObj (key : Nat) : Nat := key / 16 % 65536
/-- The context that receives: the first named. -/
def ohRx (l : List Nat) : Nat := l.headD 0
/-- The context that transmits: the egress channel where there is one, else the ingress channel's own output. -/
def ohTx (l : List Nat) : Nat := l.getLastD 0
/-- The communication channel of SUB, in CHANNEL mode, on a server. -/
def commOn (s : State) (eg : Bool) (srv : Server) (sub : Nat) : Option Nat :=
  (s.chan.find? (fun e => keyEg e.1 == eg && cType e.2.words == 0x40 && cSub e.2.words == sub && serverOf e.1 e.2.words == srv &&
    !(bitOf (wd e.2.words 1) 24))).map (·.1)
/-- The overhead indices that SUB binds (R104, R113, R123). -/
def commIdx (sub : Nat) : List Nat :=
  match sub with
  | 1 => [10, 11] | 2 => [48, 49] | 3 => [50, 51] | 4 => [4, 5, 6] | 5 => (List.range 9).map (· + 10) | _ => []
/-- Whether the EXP bytes of a channel number are class A: a Braid member's (R188), a bridge leg's (R269) or a Welt copy's (R270). -/
def expTaken (s : State) (id : Nat) : Bool :=
  s.braid.any (fun e => [e.2.rx, e.2.tx].any (fun d => match d with | some d => d.members.any (fun m => m.ch == id) | none => false)) ||
    s.bridge.any (fun e => e.1 == id || e.2.leg1 == id) || s.welt.any (fun e => e.2.c0.ch == id || e.2.c1.ch == id)
/-- Whether a level of the APS/PCC bytes of a channel number is class A: a leg's of a protection group, of its sink or its source (R260). -/
def apsTaken (s : State) (id : Nat) : Bool :=
  s.prot.any (fun e => let w := e.2.words
    !(gMsp w) && ((gTx w && (gLegTx w false == id || gLegTx w true == id)) || (gRx w && (gLegRx w false == id || gLegRx w true == id))))
/-- Whether an index is class A at present (R100, R126): bound, or used by a Braid member, a bridge leg, a Welt copy or a protection group. A
channel number names the channels of both directions (log 20). -/
def ohTaken (s : State) (kind id i : Nat) : Bool :=
  match kind with
  | 1 => [10, 11].contains i && (commOn s true (.port id) 1).isSome
  | 2 =>
    ([48, 49].contains i && (commOn s true (.chan (chKey true id)) 2).isSome) ||
      ([50, 51].contains i && (commOn s true (.chan (chKey true id)) 3).isSome) ||
      ([44, 45].contains i && expTaken s id) || (decide (52 ≤ i) && decide (i ≤ 55) && apsTaken s id)
  | 3 => ([8, 9].contains i && s.prot.any (fun e => gMsp e.2.words && (gLegRx e.2.words false == id || gLegRx e.2.words true == id))) ||
      ([4, 5, 6].contains i && (commOn s true (.port id) 4).isSome) || (decide (10 ≤ i) && decide (i ≤ 18) && (commOn s true (.port id) 5).isSome)
  | _ => false

/-- Fields that OH_READ and OH_WRITE check alike. -/
def ohBad (req : List Word) (write : Bool) : Bool :=
  let w := wd req 0
  let v := wd req 1
  let kind := fld w 3 0
  let n := fld v 16 8
  fld w 7 5 != 0 || fld w 31 26 != 0 || fld v 31 22 != 0 || kind = 0 || decide (6 < kind) || ((kind = 1 || kind = 3) && decide (255 < fld w 21 8)) ||
    ((kind = 3 || kind = 4) && fld w 25 22 != 0) || decide (ohIndices kind ≤ fld v 7 0) || decide (ohIndices kind < fld v 7 0 + n) ||
    (if write then bitOf w 4 || kind = 5 || decide (16 < n) || decide (4 < fld v 19 17) || (fld v 19 17 != 0 && kind != 2) ||
        fld v 21 20 = 3 || (fld v 21 20 != 0 && kind != 2 && kind != 4) || (List.range n).any (fun i => !(ohWritable kind (fld v 7 0 + i)))
     else n = 0 || fld v 21 17 != 0)

/-! ### OH_READ (R125, R127) -/

/-- Byte i that a read gives, with the number of free values to use where the device has none. -/
def ohByte (s : State) (kind key : Nat) (tx : Bool) (i : Nat) : Byte :=
  let o := ohOf s key
  let open_ := Config.freeByte (s.free + i)
  if kind = 5 then
    (if tx then (match tget? s.chan (ohObj key) with | some c => txPsi s (ohObj key) (key % 16) c.words i | none => open_)
     else match (tget o.psi {} i).val with | some v => BitVec.ofNat 8 v | none => open_)
  else if kind = 6 then (if tx then tget o.ftfl 0 i else (tget? o.ftflRx i).getD open_)
  else match (if tx then o.tx else o.rx) with | some f => tget f.bytes 0 i | none => open_
/-- OH_READ. A value the device has not yet sent or accepted is open. -/
def cmdOhRead (c : Ctx) (req : List Word) (s : State) : CmdOut :=
  let w := wd req 0
  let v := wd req 1
  let kind := fld w 3 0
  let tx := bitOf w 4
  let l := ohNamed s kind (fld w 21 8) (fld w 25 22)
  let key := if tx then ohTx l else ohRx l
  let o := ohOf s key
  ladder [(ohBad req false, .invalid), (l.isEmpty, .notFound), (c.gate || (!tx && !o.everInFrame), .wrongState)] s fun _ =>
    let n := fld v 16 8
    let cap := if tx then o.tx else o.rx
    let head := match cap with
      | some f => w32 (if kind = 3 || kind = 4 then 0 else f.mfas.toNat) :: nsWords f.ns
      | none => [w32 (Config.freeNat (s.free + 256) % 256), w32 (Config.freeNat (s.free + 257)), w32 (Config.freeNat (s.free + 258))]
    okWith (head ++ packWords ((List.range n).map (fun i => ohByte s kind key tx (fld v 7 0 + i))) ((n + 3) / 4)) { s with free := s.free + 259 }

/-! ### OH_WRITE (R121, R122, R125 to R127) -/

/-- The bytes of a write wait for the next transmitted frame; FTFL bytes for the next multiframe. Only bits 1 to 5 of K2 are written. DESIGN
CHOICES (log 38): KIND 2 index 29, the one byte of FTFL that a frame carries, writes all 256 bytes of the multiframe; an APS/PCC byte is
written for every level, since OH_WRITE names none. -/
def ohWriteBytes (kind first : Nat) (bs : List Byte) (o : Oh) : Oh :=
  bs.zipIdx.foldl (fun (o : Oh) (e : Byte × Nat) =>
    let i := first + e.2
    if kind = 6 then { o with ftflWaiting := tset o.ftflWaiting i e.1 }
    else if kind = 2 && i = 29 then { o with ftflWaiting := (List.range 256).foldl (fun t j => tset t j e.1) o.ftflWaiting }
    else if kind = 2 && 52 ≤ i && i ≤ 55 then
      { o with waiting := (List.range 8).foldl (fun t lvl => tset t (apsKey lvl (i - 52)) e.1) o.waiting }
    else { o with waiting := tset o.waiting i (if kind = 3 && i = 9 then e.1 &&& 0xF8 else e.1) }) o
/-- OH_WRITE. -/
def cmdOhWrite (c : Ctx) (req : List Word) (s : State) : CmdOut :=
  let w := wd req 0
  let v := wd req 1
  let kind := fld w 3 0
  let id := fld w 21 8
  let n := fld v 16 8
  let l := ohNamed s kind id (fld w 25 22)
  let maint := fld v 19 17
  let ds := fld v 21 20
  ladder [(ohBad req true, .invalid), (c.denied, .denied), (l.isEmpty, .notFound),
          (c.gate || (List.range n).any (fun i => ohTaken s kind id (fld v 7 0 + i)), .wrongState)] s fun _ =>
    let s := if n = 0 then s else updOh (ohTx l) (ohWriteBytes kind (fld v 7 0) ((reqBytes req 2 ((n + 3) / 4)).take n)) s
    okNone (foldS l (fun k => updOh (k / 16 * 16) (fun o => { o with
      maintWaiting := if maint = 0 then o.maintWaiting else some maint
      dsWaiting := if ds = 0 then o.dsWaiting else some (ds == 2) })) s)

/-! ### Traces (R116 to R118) -/

/-- The KIND of R125 whose objects a TTI KIND names. -/
def ttiKind (kind : Nat) : Nat := match kind with | 1 => 1 | 2 => 2 | 3 => 2 | 4 => 3 | _ => 4
/-- The trace level of a TTI KIND and LEVEL. -/
def ttiLevel (kind lvl : Nat) : Nat := if kind = 3 then lvl else 0
/-- The monitoring point of a context's trace. -/
def ttiPoint (s : State) (key lvl : Nat) : Nat :=
  if key / 1048576 = 0 then monAddr 2 0 (ohObj key) (key % 16) 0
  else match tget? s.chan (ohObj key) with | some c => chanPoint (ohObj key) (cType c.words) (key % 16) lvl | none => 0
/-- Fields of word 0 that TTI_SET and TTI_READ check alike. -/
def ttiBad (w : Word) : Bool :=
  let kind := fld w 3 0
  kind = 0 || decide (5 < kind) || fld w 31 26 != 0 || (if kind = 3 then fld w 6 4 = 0 || fld w 6 4 = 7 else fld w 6 4 != 0) ||
    ((kind = 1 || kind = 4) && decide (255 < fld w 21 8)) || (kind != 1 && fld w 25 22 != 0)
/-- TTI_SET. -/
def cmdTtiSet (c : Ctx) (req : List Word) (s : State) : CmdOut :=
  let w := wd req 0
  let v := wd req 1
  let kind := fld w 3 0
  let which := bitOf w 7
  let mode := fld v 1 0
  let fmt := fld v 3 2
  let bs := reqBytes req 2 16
  let len := traceLen (decide (kind ≤ 3)) fmt
  let bad := ttiBad w || fld v 31 4 != 0 || (!which && mode != 0) ||
    (if kind ≤ 3 then fmt != 0 || bs.getD 0 0 != 0 || bs.getD 16 0 != 0 else if kind = 4 then decide (1 < fmt) else fmt = 0 || fmt = 3) ||
    (bs.drop len).any (· != 0)
  let l := ohNamed s (ttiKind kind) (fld w 21 8) (fld w 25 22)
  let lvl := ttiLevel kind (fld w 6 4)
  ladder [(bad, .invalid), (c.denied, .denied), (l.isEmpty, .notFound), (c.gate, .wrongState)] s fun _ =>
    if !which then
      okNone (updOh (ohTx l) (fun o => { o with trace := tmod o.trace {} lvl (fun t => { t with txNext := some (bs.take len, fmt) }) }) s)
    else
      okNone (foldS l (fun k s =>
        let s := updOh k (fun o => { o with trace := tmod o.trace {} lvl (fun t => { t with exp := bs.take len, expFormat := fmt, timMode := mode }) }) s
        if mode = 0 then setRaw (ttiPoint s k lvl) 13 false s else s) s)
/-- TTI_READ. DESIGN CHOICE (log 38): of a channel number in use in both directions, WHAT = 0 reads the egress channel's context, ACCEPTED
and dTIM of word 0 included, and WHAT = 1 and 2 the ingress channel's. -/
def cmdTtiRead (c : Ctx) (req : List Word) (s : State) : CmdOut :=
  let w := wd req 0
  let what := fld (wd req 1) 1 0
  let kind := fld w 3 0
  let l := ohNamed s (ttiKind kind) (fld w 21 8) (fld w 25 22)
  let lvl := ttiLevel kind (fld w 6 4)
  ladder [(ttiBad w || bitOf w 7 || fld (wd req 1) 31 2 != 0 || what = 3, .invalid), (l.isEmpty, .notFound), (c.gate, .wrongState)] s fun _ =>
    let key := if what = 0 then ohTx l else ohRx l
    let t := tget (ohOf s key).trace {} lvl
    let tx := if 3 < kind && t.txFormat = 1 then crc7Byte t.tx :: (t.tx.drop 1) else t.tx
    let bs := if what = 0 then tx else if what = 1 then t.exp else t.acc.getD []
    let fmt := if what = 0 then t.txFormat else if what = 1 then t.expFormat else if t.acc.isSome then t.accFormat else 0
    okWith (w32 (b2n t.acc.isSome + 2 * b2n ((rawOf s (ttiPoint s key lvl)).getLsbD 13) + 4 * fmt) :: packWords bs 16) s

/-! ### Received frames (R80, R82, R106 to R114, R123, R124) -/

/-- Received communication bytes of a server's frame go to the channels bound to them (R123). -/
def rxComm (srv : Server) (f : RxFrame) (s : State) : State :=
  foldS [1, 2, 3, 4, 5] (fun sub s =>
    match commOn s false srv sub with
    | some k => if (commIdx sub).all (fun i => thas f.oh i) then chanToFabric k ((commIdx sub).map (rxb f)) false false s else s
    | none => s) s
/-- The APS value of a context, when this frame's value is accepted, reaches the groups that use it (R264); one that repeats is passed on
only while FOP_PM counts (R266). -/
def rxAps (msp : Bool) (key obj lvl : Nat) (s : State) : State :=
  let a := tget (ohOf s key).acc {} (16 * lvl + fAps)
  match (if a.cnt = 3 then a.val else none) with
  | some v => foldS (apsGroups s msp obj (if msp then 0 else lvl)) (fun n s =>
      match tget? s.prot n with
      | some g => if g.apsRx == some v && (g.fopPm || g.fopPmCnt == 0) then s else apsAccept n v s
      | none => s) s
  | none => s
/-- A received frame of an alignment process of port p. -/
def rxProc (p i : Nat) (f : RxFrame) (s : State) : State :=
  match portAt s p with
  | none => s
  | some q =>
    let h := (hunterKind q i).isSome
    let r0 := procOf q i
    if !((procList q).contains i) || (h && !(procLive s p q i)) || r0.st == .hunt then s
    else
      let r1 : Proc := { (if h then frameCheck r0 f.sig f.mfas else r0) with arrival := if 1 ≤ i && i ≤ 32 then f.arrival else r0.arrival }
      let r2 := if isOtn q && hasMf q i && !(q.proto == 4 && i == 0) then mfStep r1 f.mfas else r1
      let s := updPort p (updProc i (fun _ => r2)) s
      let live := r2.st == .inFrame
      let oof := r2.st == .oof
      if isOtn q && (if q.proto = 4 then decide (33 ≤ i) else i == 0) then rxComm (.port p) f (rxOtu p (i - 33) live oof f s)
      else if isSdh q && i = 0 then rxAps true (ohKey 0 p 0) p 8 (rxComm (.port p) f (rxStm p live f s))
      else s
/-- A received ODU frame of a channel. -/
def rxOduFrame (k inst : Nat) (f : RxFrame) (s : State) : State :=
  let st := ohFrame s (ohKey 1 k inst)
  match tget? s.chan k with
  | none => s
  | some c =>
    if st == .hunt || !(isOdu (cType c.words)) then s
    else
      let live := st == .inFrame
      let s := rxOdu k inst live (st == .oof) f s
      let s := if live then rxJust k inst f s else s
      if inst != 0 then s
      else
        let s := rxComm (.chan k) f s
        let s := if live then rxVcat k f s else s
        let s := if !keyEg k && f.mfas.toNat % 16 = 0 then braidFrameZero (keyCh k) s else s
        if !keyEg k && live && (List.range 4).all (fun j => thas f.oh (52 + j)) then
          let lvl := f.mfas.toNat % 8
          let v := (bytesWord ((List.range 4).map (fun j => rxb f (52 + j)))).toNat
          rxAps false (ohKey 1 k 0) (keyCh k) lvl (accField (ohKey 1 k 0) lvl fAps 3 v s)
        else s
/-- RX_FRAME. -/
def execRxFrame (o : FrameObj) (f : RxFrame) (s : State) : Host.Outcome State Fault Refusal :=
  nextSettled (match o with
    | .proc p i => rxProc p.val i.val f s
    | .odu eg ch inst => rxOduFrame (chKey eg ch.val) inst.val f s
    | .vc eg ch =>
      let st := ohFrame s (ohKey 2 (chKey eg ch.val) 0)
      (match chanAt s eg ch.val with
       | some c => if st == .hunt || !(isVc (cType c.words)) then s else
           let live := st == .inFrame
           let s := rxVc (chKey eg ch.val) live f s
           if live then rxVcat (chKey eg ch.val) f s else s
       | none => s))

/-! ### Transmitted frames (R102, R110, R120, R127, R162, R180) -/

/-- The next n bytes of an egress communication channel (R123, R159): 0x00 while it is dead or has none. -/
def commTake (k n : Nat) (s : State) : List Byte × State :=
  match tget? s.chan k with
  | none => ([], s)
  | some c =>
    if replOf s k c != rNone then (List.replicate n 0, s)
    else
      let c := if n ≤ c.out.length then c
        else match c.fifo with
          | b :: r => { c with out := c.out ++ b, fifo := r }
          | [] => if hasFifo c then { c with fifoRun := false } else c
      ((c.out ++ List.replicate n 0).take n,
        updChan k (fun _ => { c with out := c.out.drop n, delivered := c.delivered + min n c.out.length }) s)
/-- The bytes that the bound communication channels of a server send in a frame, by index (R104, R113, R123). -/
def commBytes (srv : Server) (s : State) : Table Byte × State :=
  ([1, 2, 3, 4, 5] : List Nat).foldl (fun (a : Table Byte × State) sub =>
    match commOn a.2 true srv sub with
    | some k =>
      let r := commTake k (commIdx sub).length a.2
      (((commIdx sub).zip r.1).foldl (fun t e => tset t e.1 e.2) a.1, r.2)
    | none => a) ([], s)

/-- The leaf outputs that a frame of an object carries: the object itself where it is a leaf, and the client leaves it maps. Each is adapted
where its mapping takes idle or pointer adaptation, and gives what the frame draws. -/
def txDraw (self : List Nat) (srv : Server) (f : TxFrame) (s : State) : State :=
  let clients := (leavesUnder s srv).filter (fun k => match tget? s.chan k with
    | some c => !(isOdu (cType c.words)) && !(isVc (cType c.words)) && cType c.words != 0x40 | none => false)
  foldS ((self.filter (fun k => !(isServer s k))) ++ clients) (fun k s => updChan k (leafDraw f.draw) (adaptClient k s)) s
/-- A transmitted ODU frame, with the EXP bytes of a Braid member or a bridge leg, its communication channels, justification control and
VCOH. -/
def txOduFrame (k inst : Nat) (f : TxFrame) (s : State) : State :=
  match tget? s.chan k with
  | none => s
  | some c =>
    if !(isOdu (cType c.words)) || !(match chanSlice s k with | some sl => domUp s sl | none => false) ||
        !decide (inst < (if cType c.words = 8 then max 1 (cN c.words) else 1)) then s
    else
      let o := ohOf s (ohKey 1 k inst)
      let n := (o.txMfas + 1).toNat
      let omfi := (o.txOmfi + 1) % omfiLen (cType c.words)
      let e := if keyEg k && inst = 0 then memberFrame (keyCh k) n s else (none, s)
      let e := if keyEg k && inst = 0 && e.1.isNone then bridgeFrame (keyCh k) n e.2 else e
      let g := if inst = 0 then commBytes (.chan k) e.2 else ([], e.2)
      let j := txJust k inst n omfi (updOh (ohKey 1 k inst) (fun o => { o with txOmfi := omfi }) g.2)
      let v := if inst = 0 then txVcoh k n j.2 else ([], j.2)
      let s := txOdu k inst ((j.1 ++ v.1).foldl (fun t e => tset t e.1 e.2) g.1) e.1 f v.2
      if inst = 0 then txDraw [k] (.chan k) f s else s
/-- A transmitted frame of a VC-4 or VC-4-Xc, with its pointer and its H4: what waited takes effect on all of them together (R127). -/
def txVcFrame (k : Nat) (f : TxFrame) (s : State) : State :=
  match tget? s.chan k with
  | some c =>
    if isVc (cType c.words) && (match chanSlice s k with | some sl => domUp s sl | none => false) then
      let h := txH4 k (txPointer k (updOh (ohKey 2 k 0) (txBegin false) s))
      txDraw [k] (.chan k) f (txVc k h.1 f h.2)
    else s
  | none => s
/-- The frame of the top ODU that an OTU frame or OTUC instance of port p is to carry: the one formed since the port's last frame, or one formed
now. Both have one MFAS (R104, R115, R124). -/
def oduReady (p inst : Nat) (f : TxFrame) (s : State) : State :=
  match topOdu s p with
  | none => s
  | some k =>
    let s := if (ohOf s (ohKey 1 k inst)).txMfas = (ohOf s (ohKey 0 p inst)).txMfas then txOduFrame k inst f s else s
    updOh (ohKey 0 p inst) (fun o => { o with txMfas := (ohOf s (ohKey 1 k inst)).txMfas - 1 }) s
/-- A transmitted frame of a port. -/
def txPort (p i : Nat) (f : TxFrame) (s : State) : State :=
  match portAt s p with
  | none => s
  | some q =>
    if !(domUp s (p / 8)) || !((procList q).contains i) then s
    else if isOtn q then
      (if (if q.proto = 4 then decide (33 ≤ i) else i == 0) then
        let r := commBytes (.port p) s
        lineSend p f.range (txOtu p (i - 33) r.1 f (oduReady p (i - 33) f r.2))
      else s)
    else if i != 0 then s
    else if isSdh q then
      let r := commBytes (.port p) s
      lineSend p f.range (txDraw [] (.port p) f (txStm p r.1 f r.2))
    else lineSend p f.range (txDraw [] (.port p) f s)
/-- TX_FRAME. -/
def execTxFrame (o : FrameObj) (f : TxFrame) (s : State) : Host.Outcome State Fault Refusal :=
  nextSettled (match o with
    | .proc p i => txPort p.val i.val f s
    | .odu eg ch inst => txOduFrame (chKey eg ch.val) inst.val f s
    | .vc eg ch => txVcFrame (chKey eg ch.val) f s)
/-- GFP_CMF_TIMER (R120): a client management frame is sent and the next one falls due 100 ms later. -/
def execGfpCmfTimer (eg : Bool) (ch : Fin 16384) (s : State) : Host.Outcome State Fault Refusal :=
  let k := chKey eg ch.val
  .next (match tget? s.chan k with
    | some c =>
      let key := chanOh k c.words
      if due (ohOf s key).cmfAt s then updOh key (fun o => { o with cmfAt := some (s.now + 100000000) }) s else s
    | none => s)

end Sys2Proof.Machine
end

