-- ==== Sys2Proof/Machine/Channels.lean ====
section
/-! DEFINITION. Channel and cross-connect commands, FlexE groups and the events of the data path (06_mapping_and_multiplexing.md). -/

namespace Sys2Proof.Machine

/-! ### Uses of a channel -/

/-- Whether a protection group, a Welt pair, a Braid group or a Welt bridge uses a channel (R183, R188, R260, R269, R270). -/
def chanUsed (s : State) (k : Nat) : Bool :=
  let ch := keyCh k
  if keyEg k then
    s.prot.any (fun e => !(gMsp e.2.words) && gTx e.2.words && (gLegTx e.2.words false == ch || gLegTx e.2.words true == ch)) ||
      s.braid.any (fun e => match e.2.tx with | some d => d.members.any (fun m => m.ch == ch) | none => false) ||
      s.bridge.any (fun e => e.1 == ch || e.2.leg1 == ch)
  else
    s.prot.any (fun e => !(gMsp e.2.words) && gRx e.2.words && (gLegRx e.2.words false == ch || gLegRx e.2.words true == ch)) ||
      s.braid.any (fun e => match e.2.rx with | some d => d.members.any (fun m => m.ch == ch) | none => false) ||
      s.welt.any (fun e => e.2.c0.ch == ch || e.2.c1.ch == ch)
/-- Whether a channel number is in use in a direction: by a channel or a Braid client (R189). -/
def chTaken (s : State) (eg : Bool) (ch : Nat) : Bool :=
  thas s.chan (chKey eg ch) || s.braid.any (fun e => match (if eg then e.2.tx else e.2.rx) with
    | some d => d.clients.any (fun c => c.ch == ch) | none => false)
/-- Whether a channel can never be connected (R157, R158, R166): a server, a VCAT group or member, an egress top ODU, or a communication
channel that is passed transparently. -/
def noLeaf (s : State) (k : Nat) (c : Chan) : Bool :=
  isServer s k || cType c.words == 0x12 || (cVcg c.words).isSome || (keyEg k && isTopOdu k c) || bitOf (wd c.words 1) 24
/-- Whether another source uses fabric channel f onto the fabric (R173, R223): an ingress leaf, a queue, a Braid client, a Welt pair or a
protection group. -/
def fabSource (s : State) (f : Nat) : Bool :=
  s.chan.any (fun e => !(keyEg e.1) && cFabric e.2 == f) ||
    s.pool.q.any (fun e => e.2.owner == 0 && qRdKind e.2 == 2 && qRdFab e.2 == f) ||
    s.braid.any (fun e => match e.2.rx with | some d => d.clients.any (fun c => c.fabricCh == f) | none => false) ||
    s.welt.any (fun e => e.2.fabricCh == f) ||
    s.prot.any (fun e => !(gMsp e.2.words) && gRx e.2.words && fld (wd e.2.words 3) 23 0 == f)
/-- Whether the egress leaf at key k may not take fabric channel f on its slice (R173): two other leaves take it, one of another TYPE or
rate does, or a queue or Braid client of the slice is written from it. -/
def fabSinkBad (s : State) (k f : Nat) : Bool :=
  match tget? s.chan k, chanSlice s k with
  | some c, some sl =>
    let others := (s.chan.filter (fun e => e.1 != k && keyEg e.1 && cFabric e.2 == f && chanSlice s e.1 == some sl)).map (·.1)
    decide (2 ≤ others.length) || others.any (fun j => match tget? s.chan j with
        | some d => cType d.words != cType c.words || chanRate s j != chanRate s k | none => false) ||
      s.pool.q.any (fun e => e.2.owner == 0 && qWrKind e.2 == 2 && qWrSlice e.2 == sl && qWrFab e.2 == f) ||
      s.braid.any (fun e => match e.2.tx with | some d => d.clients.any (fun x => x.slice == sl && x.fabricCh == f) | none => false)
  | _, _ => true
/-- Whether a connection of the leaf at key k to fabric channel f breaks R173. -/
def fabBad (s : State) (k f : Nat) : Bool := if keyEg k then fabSinkBad s k f else fabSource s f

/-! ### CHAN_CREATE (R155, R156, R160, R164 to R167, R181, R182) -/

/-- The tributary slots of a server ODU. -/
def slotCount (w : List Word) : Nat := match cType w with | 3 => 8 | 5 => 80 | 8 => 20 * cN w | _ => 0
/-- The slots that a rate in kbit/s takes of a slot size in kbit/s (R164). -/
def slotsFor (rate size : Nat) : Nat := (rate * 10001 + 10000 * size - 1) / (10000 * size)
/-- The slots of a lower-order ODU of TYPE t and N in a server of TYPE srv; none where it does not fit. -/
def loSlots (srv t n : Nat) : Option Nat :=
  match srv, t with
  | 3, 1 => some 1 | 3, 2 => some 2 | 3, 6 => if n ≤ 8 then some n else none
  | 5, 1 => some 1 | 5, 2 => some 2 | 5, 3 => some 8 | 5, 4 => some 8 | 5, 6 => some n
  | 5, 7 => some (slotsFor (typeRate 7 n) 1301709)
  | 8, 3 => some 2 | 8, 4 => some 2 | 8, 5 => some 20
  | 8, 6 => some (slotsFor (typeRate 6 n) 5240907) | 8, 7 => some (slotsFor (typeRate 7 n) 5240907)
  | _, _ => none
/-- The PROC of a lower-order ODU (R164). -/
def loProc (srv t : Nat) : Nat := if srv = 3 && t = 2 then 2 else 1
/-- Whether the AU-4s of MAP are those of R172: one, or X consecutive ones from k · X + 1. -/
def auMapOk (w : List Word) (au : Nat) : Bool :=
  let x := if cType w = 0x11 then cN w else 1
  let m := cMap w
  m.length == x && m.all (fun i => decide (i ≤ au)) && (m.headD 1 - 1) % x == 0 && m == (List.range x).map (fun i => m.headD 1 + i)
/-- Whether TYPE, PROC, N, MAP and SUB suit a port as server. -/
def portServes (q : Port) (w : List Word) : Bool :=
  let t := cType w
  let noMap := (cMap w).isEmpty && cTpn w == 0
  cProc w == 0 &&
  (match t with
   | 0x03 => q.proto == 1 && cN w == 0 && noMap
   | 0x04 => q.proto == 2 && cN w == 0 && noMap
   | 0x05 => q.proto == 3 && cN w == 0 && noMap
   | 0x08 => q.proto == 4 && cN w == otucN q && noMap
   | 0x10 => isSdh q && cN w == 0 && cTpn w == 0 && auMapOk w (if q.proto = 5 then 64 else 256)
   | 0x11 => isSdh q && [4, 16, 64, 256].contains (cN w) && cTpn w == 0 && auMapOk w (if q.proto = 5 then 64 else 256)
   | 0x20 => isEth q && !q.flexePhy && cN w == 0 && noMap
   | 0x21 => q.flexePhy && cN w == 0 && noMap
   | 0x22 => q.proto == 5 && cN w == 0 && noMap
   | 0x30 => isEth q && !q.flexePhy && cN w == 0 && noMap
   | 0x40 => cN w == 0 && noMap && (if cSub w = 1 then isOtn q else isSdh q && (cSub w == 4 || cSub w == 5))
   | _ => false)
/-- Whether TYPE, PROC, N, MAP and SUB suit a channel with words v as server. -/
def chanServes (v w : List Word) : Bool :=
  let t := cType w
  let srv := cType v
  let noMap := (cMap w).isEmpty && cTpn w == 0
  if isOdu t then
    (match loSlots srv t (cN w) with
     | some n =>
       cProc w == loProc srv t && (cMap w).length == n && decide (n ≤ slotCount v) && (cMap w).all (fun i => decide (i ≤ slotCount v)) &&
         decide (1 ≤ cTpn w) && decide (cTpn w ≤ slotCount v)
     | none => false)
  else
    noMap && cN w == 0 &&
    (match t with
     | 0x20 => (srv == 4 && cProc w == 3) || (srv == 5 && cProc w == 1) || (srv == 7 && cProc w == 4 && [5, 40, 80, 160, 320].contains (cN v))
     | 0x21 => srv == 7 && cProc w == 4
     | 0x22 => srv == 3 && (cProc w == 2 || cProc w == 3)
     | 0x30 => cProc w == 5 && ((isOdu srv && srv != 8) || isVc srv || srv == 0x12)
     | 0x40 => isOdu srv && (cSub w == 2 || cSub w == 3) && cProc w == 0
     | _ => false)
/-- Whether the N of a lower-order ODU is in range. -/
def oduNOk (w : List Word) : Bool :=
  match cType w with
  | 6 => decide (1 ≤ cN w) && decide (cN w ≤ 80) | 7 => decide (1 ≤ cN w) | 8 => decide (1 ≤ cN w) | 0x11 => [4, 16, 64, 256].contains (cN w)
  | _ => cN w == 0
/-- Fields of CHAN_CREATE's words 1 to 18 that are reserved, inapplicable to TYPE or out of range, apart from what the server decides. -/
def chanFieldsBad (w : List Word) : Bool :=
  let t := cType w
  let odu := isOdu t
  let member := t == 0x10 || t == 3 || t == 5
  !([1, 2, 3, 4, 5, 6, 7, 8, 0x10, 0x11, 0x12, 0x20, 0x21, 0x22, 0x30, 0x40].contains t) ||
    resBad w [(0, 31, 24), (1, 15, 15), (1, 31, 25), (2, 31, 18), (13, 1, 1), (13, 31, 14), (14, 31, 15), (15, 31, 24), (16, 15, 10),
      (16, 31, 26), (18, 15, 8)] ||
    decide (5 < cProc w) || (!(cSrvCh w) && decide (255 < cServer w)) || (t == 0x12 && (cServer w != 0 || cSrvCh w || cProc w != 0)) ||
    (if t = 0x40 then cSub w = 0 || decide (5 < cSub w) || (bitOf (wd w 1) 24 && cSub w != 2 && cSub w != 3) else cSub w != 0 || bitOf (wd w 1) 24) ||
    !(oduNOk w) || (!odu && cTpn w != 0) || (!odu && !(isVc t) && !((cMap w).isEmpty)) ||
    (if odu then (List.range 6).any (fun i => cMode w (i + 1) == 3) else wd w 13 != 0) || (!odu && !(isVc t) && wd w 14 != 0) ||
    ((t = 0x12 || bitOf (wd w 1) 24) && fld (wd w 15) 23 0 != 0) ||
    (!(isGfp w) && fld (wd w 16) 9 0 != 0) ||
    (if t = 0x12 then cMaxDd w = 0 || decide (256 < cMaxDd w) || fld (wd w 17) 31 10 != 0 || decide (720 < fld (wd w 17) 9 0)
     else fld (wd w 16) 25 16 != 0 ||
      (if member then fld (wd w 17) 31 23 != 0 || (t == 3 && decide (15 < cSq w)) || (t == 5 && decide (3 < cSq w)) else wd w 17 != 0)) ||
    (!odu && !(isVc t) && cPtExp w != 0) || (if t = 0x21 then !(cSrvCh w) && cFlexe w = 0 else cFlexe w != 0)
/-- Whether the server of words w exists in the direction; a VCAT group has none. -/
def srvExists (s : State) (eg : Bool) (w : List Word) : Bool :=
  if cType w = 0x12 then true
  else if cSrvCh w then thas s.chan (chKey eg (cServer w))
  else if cType w = 0x21 then (flexeGroupOf s (cServer w)).isSome
  else thas s.port (cServer w)
/-- Whether TYPE, server and PROC do not go together (R156, R160, R164); a server that does not exist cannot be judged. -/
def comboBad (s : State) (eg : Bool) (w : List Word) : Bool :=
  if cType w = 0x12 then false
  else if cSrvCh w then (match tget? s.chan (chKey eg (cServer w)) with | some d => !(chanServes d.words w) | none => false)
  else match portAt s (cServer w) with | some q => !(portServes q w) | none => false

/-- The keys of the other channels directly on the server of words w. -/
def siblings (s : State) (k : Nat) (w : List Word) : List Chan :=
  (s.chan.filter (fun e => e.1 != k && keyEg e.1 == keyEg k && serverOf e.1 e.2.words == serverOf k w)).map (·.2)
/-- Whether two channels on one server stand in each other's way: slots, AU-4s or TPN shared, one communication channel twice, or a client
beside anything but another CID of the same linear GFP-F server. -/
def clash (v w : List Word) : Bool :=
  let t := cType v
  let u := cType w
  if t = 0x40 || u = 0x40 then t == u && cSub v == cSub w
  else if isOdu t && isOdu u then (cMap v).isEmpty || (cMap v).any (fun i => (cMap w).contains i) || cTpn v == cTpn w
  else if isVc t && isVc u then (cMap v).any (fun i => (cMap w).contains i)
  else if t = 0x21 && u = 0x21 && !(cSrvCh v) then cFlexe v == cFlexe w
  else if isGfp v && isGfp w then !(bitOf (wd v 16) 0 && bitOf (wd w 16) 0) || fld (wd v 16) 8 1 == fld (wd w 16) 8 1
  else true
/-- The lower-order levels above and with an ODU, counted to its top ODU. -/
def oduDepth (s : State) (fuel : Nat) (eg : Bool) (w : List Word) : Nat :=
  match fuel with
  | 0 => 0
  | f + 1 =>
    if cSrvCh w && isOdu (cType w) then
      (match tget? s.chan (chKey eg (cServer w)) with | some d => 1 + oduDepth s f eg d.words | none => 1)
    else 0
/-- The deskew buffer that a slice's VCAT groups reserve, in bytes (R167): kbit/s times units of 8 µs are thousandths of a byte. -/
def deskewUse (s : State) (sl : Nat) : Nat :=
  ((s.chan.filter (fun e => cType e.2.words == 0x12 && chanSlice s e.1 == some sl)).map (fun e =>
    (chanRate s e.1 * cMaxDd e.2.words + 16383999) / 16384000 * 16384)).foldl (· + ·) 0
/-- The points of LAYER 3 to 5. -/
def pathPoints (s : State) : Nat := (s.mon.filter (fun e => decide (3 ≤ aLayer e.1) && decide (aLayer e.1 ≤ 5))).length
/-- The channels of a slice in a direction, Braid clients among them (R155, R189). -/
def sliceChans (s : State) (sl : Nat) (eg : Bool) : Nat :=
  (s.chan.filter (fun e => keyEg e.1 == eg && chanSlice s e.1 == some sl)).length +
    (s.braid.map (fun e => match (if eg then e.2.tx else e.2.rx) with
      | some d => (d.clients.filter (fun c => c.slice == sl)).length | none => 0)).foldl (· + ·) 0
/-- Whether the channel limits, monitoring points, deskew buffers or fabric capacity are exceeded (row 5 of R182). -/
def chanOver (s s' : State) (k : Nat) : Bool :=
  (match chanSlice s' k with
   | some sl => decide (2048 < sliceChans s' sl (keyEg k)) || decide (4194304 < deskewUse s' sl)
   | none => false) ||
    decide (2 < oduDepth s' 8 (keyEg k) ((tget? s'.chan k).map (·.words) |>.getD [])) || decide (65536 < pathPoints s') || !(fits s s')

/-- The contexts of a channel. -/
def chanCtx (k : Nat) (w : List Word) : List Nat :=
  (List.range (if cType w = 8 then max 1 (cN w) else 1)).map (fun i => ohKey (if isVc (cType w) then 2 else 1) k i)
/-- The monitoring points of a channel (R129). -/
def chanPoints (k : Nat) (w : List Word) : List Nat :=
  let t := cType w
  if isOdu t then
    (List.range (if t = 8 then max 1 (cN w) else 1)).flatMap (fun i =>
      ((List.range 7).filter (fun l => cMode w l != 0)).map (fun l => chanPoint k t i l))
  else if isVc t then [chanPoint k t 0 0]
  else if isGfp w then [monAddr 5 (b2n (keyEg k)) (keyCh k) 0 0]
  else []
/-- The bytes that the host wrote and that a binding takes over are discarded (R100, R128). -/
def dropWritten (key : Nat) (idx : List Nat) (s : State) : State :=
  updOh key (fun o => { o with written := o.written.filter (fun e => !(idx.contains e.1)), waiting := o.waiting.filter (fun e => !(idx.contains e.1)) }) s
/-- IAE goes out for 16 frames in the OTU that carries an egress ODU (R111). -/
def iaeStart (k : Nat) (w : List Word) (s : State) : State :=
  if keyEg k && isOdu (cType w) then
    match rootPort s treeDepth k with
    | some p => foldS (List.range 16) (fun i => updOh (ohKey 0 p i) (fun o => { o with iaeFrames := 16 })) s
    | none => s
  else s
/-- A channel with its contexts and points, not connected; an egress top ODU counts MFAS on from its port's frames. A member of an LCAS group does not carry from the start (R168); a CBR client ends
what the multiplex section of its port had declared (R156). -/
def chanAdd (k : Nat) (w : List Word) (en : Bool) (s : State) : State :=
  let grouped := match (cVcg w).bind (fun g => tget? s.chan (chKey (keyEg k) g)) with | some d => cLcas d.words | none => false
  let c : Chan := { words := w, en := en, ndfNext := en && keyEg k && isVc (cType w), carrying := !grouped }
  let mf := fun (x : Nat) => if keyEg k && isOdu (cType w) && !(cSrvCh w) then (ohOf s (ohKey 0 (cServer w) (x % 16))).txMfas else 255
  let s := { s with chan := tset s.chan k c, oh := (chanCtx k w).foldl (fun t x => tset t x { txMfas := mf x }) s.oh }
  let s := iaeStart k w (monCreate (chanPoints k w) s)
  let s := if cType w = 0x22 && !(keyEg k) && !(cSrvCh w) then updMon (monAddr 2 0 (cServer w) 0 1) (fun m => { m with raw := 0 }) s else s
  if cType w = 0x40 && keyEg k && !(bitOf (wd w 1) 24) then
    match serverOf k w with
    | .port p => dropWritten (ohKey 0 p 0) (commIdx (cSub w)) s
    | .chan k' => dropWritten (ohKey 1 k' 0) (commIdx (cSub w)) s
    | _ => s
  else s
/-- Whether RETURN_CH names no channel at all (row 3 of R182). -/
def retMissing (s : State) (w : List Word) : Bool :=
  match cRet w with | some r => !(thas s.chan (chKey false r)) && !(thas s.chan (chKey true r)) | none => false
/-- Whether RETURN_CH is not of the opposite direction and the same type (row 4). -/
def retBad (s : State) (eg : Bool) (w : List Word) : Bool :=
  match cRet w with
  | some r => (match chanAt s (!eg) r with | some d => cType d.words != cType w | none => true)
  | none => false
/-- Whether a VCAT member does not suit its group: its members are of another type or slice, or its SQ is taken. -/
def vcatClash (s : State) (k : Nat) (w : List Word) : Bool :=
  match cVcg w with
  | some g =>
    let gk := chKey (keyEg k) g
    (vcatMembers s gk).any (fun m => m != k && (match tget? s.chan m with
      | some d => cType d.words != cType w || cSq d.words == cSq w || chanSlice s m != chanSlice s k | none => false))
  | none => false
/-- Whether a channel is a member of a Braid group. -/
def isMember (s : State) (k : Nat) : Bool :=
  s.braid.any (fun e => match (if keyEg k then e.2.tx else e.2.rx) with | some d => d.members.any (fun m => m.ch == keyCh k) | none => false)
/-- Whether the server of words w has no room for a channel beside its use (row 4 of R182): a channel that the data path or a group uses, that is
connected or a VCAT member, or an ODU whose PM is not operational for a client. A communication channel takes overhead bytes only, and is
refused on a Braid member alone, which carries no other channel (R188). -/
def serverTaken (s : State) (k : Nat) (w : List Word) : Bool :=
  match serverOf k w with
  | .chan k' =>
    isMember s k' || (cType w != 0x40 && (chanUsed s k' || (match tget? s.chan k' with
      | some d => !(cConns d).isEmpty || (cVcg d.words).isSome || (!(isOdu (cType w)) && isOdu (cType d.words) && cMode d.words 0 != 2)
      | none => false)))
  | _ => false
/-- Whether the server port is the protection section of an MSP group. -/
def mspServer (s : State) (w : List Word) : Bool :=
  !(cSrvCh w) && cType w != 0x12 && s.prot.any (fun e => gMsp e.2.words && gLegRx e.2.words true == cServer w)
/-- Whether VCG names no VCAT group (row 3 of R182). -/
def vcgMissing (s : State) (eg : Bool) (w : List Word) : Bool :=
  match cVcg w with
  | some g => !(match chanAt s eg g with | some d => cType d.words == 0x12 | none => false)
  | none => false
/-- Row 4 of R182 but for the gate: s1 is s with the channel. -/
def createBlocked (s s1 : State) (k : Nat) (w : List Word) : Bool :=
  let eg := keyEg k
  let f := fld (wd w 15) 23 0
  let srvDown := match chanSlice s1 k with | some sl => !(domUp s sl) | none => false
  chTaken s eg (keyCh k) || srvDown || (siblings s k w).any (fun d => clash d.words w) || mspServer s w || serverTaken s k w || retBad s eg w ||
    vcatClash s1 k w || (f != 0 && ((match tget? s1.chan k with | some x => noLeaf s1 k x | none => true) || fabBad s1 k f)) ||
    (cType w = 0x21 && !(cSrvCh w) && chanRate s1 k = 0)
/-- CHAN_CREATE. -/
def cmdChanCreate (c : Ctx) (req : List Word) (s : State) : CmdOut :=
  let eg := bitOf (wd req 0) 14
  let k := chKey eg (fld (wd req 0) 13 0)
  let f := fld (wd req 15) 23 0
  let s1 := chanAdd k req (bitOf (wd req 0) 15) s
  let s2 := if f = 0 then s1 else connectFabric k f s1
  ladder [(chanFieldsBad req || comboBad s eg req, .invalid), (c.denied, .denied),
          (!(srvExists s eg req) || retMissing s req || vcgMissing s eg req, .notFound),
          (c.gate || createBlocked s s1 k req, .wrongState), (chanOver s s2 k, .noRes)] s fun _ => okNone s2

/-! ### CHAN_DELETE and CHAN_MODIFY (R183, R184) -/

/-- A channel is removed with its connection, slots, contexts, points and tests; its return partners' accumulators are discarded
(R128, R483). -/
def chanRemove (k : Nat) (s : State) : State :=
  match tget? s.chan k with
  | none => s
  | some c =>
    let ps := (partnersOf s k).flatMap (fun e => chanCtx e.1 e.2.words)
    let s := foldS ps (fun x => updOh x (fun o => { o with back := [] })) s
    let s := monDelete (chanPoints k c.words) { s with chan := tdel s.chan k, oh := (chanCtx k c.words).foldl tdel s.oh }
    { s with test.prbs := tdel s.test.prbs (prbsKey (if keyEg k then 4 else 5) (keyCh k)) }
/-- Whether a number names a client of a Braid group (R189, R220). -/
def isClient (s : State) (k : Nat) : Bool :=
  s.braid.any (fun e => match (if keyEg k then e.2.tx else e.2.rx) with | some d => d.clients.any (fun c => c.ch == keyCh k) | none => false)
/-- CHAN_DELETE. -/
def cmdChanDelete (c : Ctx) (req : List Word) (s : State) : CmdOut :=
  let k := chKey (bitOf (wd req 0) 14) (fld (wd req 0) 13 0)
  let held := match tget? s.chan k with | some x => (cConns x).any (fun y => y.kind != 1) | none => false
  ladder [(fld (wd req 0) 31 15 != 0, .invalid), (c.denied, .denied), (!(thas s.chan k) && !(isClient s k), .notFound),
          (c.gate || isClient s k || !(servedBy s k).isEmpty || !(vcatMembers s k).isEmpty || held || chanUsed s k, .wrongState)] s fun _ => okNone (chanRemove k s)

/-- The words of a channel as they stand: EN and FABRIC_CH follow the channel. -/
def chanWords (c : Chan) : List Word :=
  let w0 := wd c.words 0
  (List.range 19).map (fun i =>
    if i = 0 then w32 (w0.toNat - 32768 * b2n (bitOf w0 15) + 32768 * b2n (cEn c))
    else if i = 15 then w32 (cFabric c) else wd c.words i)
/-- The words of a CHAN_MODIFY OP 0: word 0 as it stands. -/
def modWords (c : Chan) (req : List Word) : List Word := wd (chanWords c) 0 :: (List.range 18).map (fun i => wd req (i + 1))
/-- Whether a modification changes more than R184 allows. -/
def modDiffers (c : Chan) (w : List Word) : Bool :=
  let v := chanWords c
  let same := fun (i hi lo : Nat) => fld (wd v i) hi lo == fld (wd w i) hi lo
  !((List.range 19).all (fun i => i == 13 || i == 14 || i == 16 || i == 17 || i == 18 || wd v i == wd w i) && same 16 8 0 && same 16 31 26 &&
    (if cType v = 0x12 then same 17 31 10 else same 17 31 0) && same 18 31 16)
/-- A level whose mode changes (R128): its accepted values and defects are discarded, of PM the accepted PSI among them. -/
def modeChange (k : Nat) (w w' : List Word) (lvl : Nat) (s : State) : State :=
  if cMode w lvl = cMode w' lvl then s
  else foldS (chanCtx k w) (fun key s =>
    let s := updOh key (fun o => { o with
      acc := o.acc.filter (fun (e : Nat × Acc) => e.1 / 16 != lvl)
      psi := if lvl = 0 then [] else o.psi
      trace := o.trace.map (fun (e : Nat × Trace) => if e.1 = lvl then (e.1, { e.2 with acc := none, cnt := 0, collect := [] }) else e) }) s
    updMon (chanPoint k (cType w) (key % 16) lvl) (fun m => { m with raw := 0 }) s) s
/-- The channel at key k with words w'. -/
def chanModify (k : Nat) (w' : List Word) (s : State) : State :=
  match tget? s.chan k with
  | none => s
  | some c =>
    let w := c.words
    let s := foldS (List.range 7) (modeChange k w w') (updChan k (fun c => { c with words := w' }) s)
    let gone := (chanPoints k w).filter (fun a => !((chanPoints k w').contains a))
    msiSettle k (iaeStart k w' (monCreate (chanPoints k w') (monDelete gone s)))
/-- The queues that the ingress leaf at key k writes lose their writer's open packet when it is disabled (R234). -/
def writersStop (k : Nat) (s : State) : State :=
  if keyEg k then s
  else foldS ((s.pool.q.filter (fun e => e.2.owner = 0 && e.2.writer == some (keyCh k))).map (·.1)) writerGone s
/-- EN of a channel commanded (R174, R234): in effect from the leaf's next boundary on; a queue that it writes loses an open packet at once. -/
def chanEnable (k : Nat) (en : Bool) (s : State) : State :=
  match tget? s.chan k with
  | none => s
  | some c =>
    if cEn c = en then s
    else iaeStart k c.words (leafNext k (fun p => { p with en := en }) (if en then s else writersStop k s))
/-- The status words of R184. -/
def chanStatus (s : State) (k : Nat) (c : Chan) : List Word :=
  let n := c.counts
  let bits := (vcatMembers s k).map (fun m => match tget? s.chan m with
    | some d => if cSq d.words < 32 && (if cLcas c.words then d.carrying else keyEg k || !(vcatBad s k m)) then 2 ^ (cSq d.words) else 0 | none => 0)
  [w32 (b2n (cEn c) + 2 * b2n (fabFail s k c) + 4 * b2n (keyEg k && fabricOf c != 0 && c.rx.exp.isNone) + 8 * b2n (cType c.words == 0x12 && ssf s k)),
    w32 (if cType c.words = 0x12 then bits.foldl (· + ·) 0 else 0), n.framesTx, n.framesRx, n.seqGap, n.seqLate, n.seqOut, n.seqResync,
    n.adaptPos, n.adaptNeg, n.adaptErr, n.fifoSlip, n.gfpFrames, n.gfpChecCorr, n.gfpHecErr, n.gfpFcsErr, n.gfpDiscard, n.gfpCmf,
    c.gfp.imitation, c.gfp.lossEvents, n.pktDrop]
/-- Whether a channel's modified words make its PM unfit for its use (row 4 of R184): a client rides on the ODU, or a Braid group has it as a
member, and the PM would not be operational. -/
def pmNeeded (s : State) (k : Nat) (w : List Word) : Bool :=
  isOdu (cType w) && cMode w 0 != 2 &&
    ((servedBy s k).any (fun j => match tget? s.chan j with | some d => !(isOdu (cType d.words)) && cType d.words != 0x40 | none => false) ||
      (chanUsed s k && s.braid.any (fun e => [e.2.rx, e.2.tx].any (fun d => match d with
        | some y => y.members.any (fun m => m.ch == keyCh k) | none => false))))
/-- The reserved bits of words 1 to 18, which can be judged where the channel does not exist (R14). -/
def modReserved (req : List Word) : Bool :=
  resBad req [(1, 15, 15), (1, 31, 25), (2, 31, 18), (13, 1, 1), (13, 31, 14), (14, 31, 15), (15, 31, 24), (16, 15, 10), (16, 31, 26),
    (17, 31, 23), (18, 15, 8)]
/-- The other channels of the protection groups, Braid sides, bridges and Welt pairs that use the channel at key k. -/
def usedWith (s : State) (k : Nat) : List Nat :=
  let eg := keyEg k
  let ch := keyCh k
  let ls : List (List Nat) :=
    (s.prot.filter (fun e => !(gMsp e.2.words))).flatMap (fun e => let w := e.2.words
      (if eg && gTx w then [[gLegTx w false, gLegTx w true]] else []) ++ (if !eg && gRx w then [[gLegRx w false, gLegRx w true]] else [])) ++
    s.braid.map (fun e => match (if eg then e.2.tx else e.2.rx) with | some d => d.members.map (·.ch) | none => []) ++
    (if eg then s.bridge.map (fun e => [e.1, e.2.leg1]) else s.welt.map (fun e => [e.2.c0.ch, e.2.c1.ch]))
  ((ls.filter (fun l => l.contains ch)).flatMap (fun l => (l.filter (· != ch)).map (chKey eg))).eraseDups
/-- Bytes that are open, as many as there were. -/
def openBytes (n : Nat) (l : List Byte) : List Byte := (List.range l.length).map (fun i => Config.freeByte (n + i))
/-- The traffic that the pair or group of the channel at key k has formed and not yet sent is open (R424). -/
def openMerged (k : Nat) (s : State) : State :=
  let hit := fun (d : Option Side) => match d with | some d => d.members.any (fun m => m.ch == keyCh k) | none => false
  let side := fun (b : Bool) (d : Side) => if b then { d with clients := d.clients.map (fun c => { c with txBytes := openBytes s.free c.txBytes }) } else d
  { s with
    free := s.free + 504
    welt := s.welt.map (fun (e : Nat × Welt) =>
      if !(keyEg k) && (e.2.c0.ch == keyCh k || e.2.c1.ch == keyCh k) then (e.1, { e.2 with txBytes := openBytes s.free e.2.txBytes }) else e)
    braid := s.braid.map (fun (e : Nat × Braid) => (e.1, { e.2 with rx := e.2.rx.map (side (!(keyEg k) && hit e.2.rx)) })) }
/-- CHAN_MODIFY OP 0 on an enabled channel is misuse (R16, R424): the traffic, defects and PM of the channel, of those it serves and of its pair
or group are open. -/
def modifyMisuse (k : Nat) (s : State) : State :=
  match tget? s.chan k with
  | none => s
  | some c =>
    if !(cEn c) then s
    else
      let ks := usedWith s k
      let use := (s.mon.map (·.1)).filter (fun a =>
        (aLayer a == 8 && !(keyEg k) && (match tget? s.welt (aId a) with | some w => w.c0.ch == keyCh k || w.c1.ch == keyCh k | none => false)) ||
          (aLayer a == 7 && (match tget? s.braid (aId a) with
            | some b => [b.rx, b.tx].any (fun d => match d with | some d => d.members.any (fun m => m.ch == keyCh k) | none => false) | none => false)))
      openMerged k (foldS use openPoint (foldS ks (openChan treeDepth) (openChan treeDepth k s)))
/-- CHAN_MODIFY. -/
def cmdChanModify (c : Ctx) (req : List Word) (s : State) : CmdOut :=
  let w := wd req 0
  let k := chKey (bitOf w 14) (fld w 13 0)
  let op := fld w 27 24
  let x := tget? s.chan k
  let w' := match x with | some d => modWords d req | none => []
  let s' := chanModify k w' s
  let mod := op == 0
  ladder [(fld w 23 15 != 0 || fld w 31 28 != 0 || decide (4 < op) ||
             (mod && (match x with | some d => modDiffers d w' || chanFieldsBad w' | none => modReserved req)), .invalid),
          (c.denied, .denied), ((x.isNone && !(mod && isClient s k)) || (mod && retMissing s w'), .notFound),
          (c.gate || (mod && (isClient s k || (chanUsed s k && (match x with | some d => !(cEn d) | none => false)) || retBad s (keyEg k) w' || pmNeeded s k w')), .wrongState),
          (mod && chanOver s s' k, .noRes)] s fun _ =>
    match op, x with
    | 0, _ => okNone (modifyMisuse k s')
    | 1, _ => okNone (chanEnable k true s)
    | 2, _ => okNone (chanEnable k false s)
    | 3, some d => okWith (chanWords d) s
    | _, some d => okWith (chanStatus s k d) s
    | _, none => okNone s

/-! ### XC_CONNECT and XC_DISCONNECT (R173, R174, R185, R222, R223) -/

/-- Whether the types and rates of a leaf and a queue's other end do not go together. -/
def queueLeafBad (s : State) (k : Nat) (c : Chan) (q : Queue) : Bool :=
  if qPkt q then !(isPkt (cType c.words))
  else !(isStream c.words) ||
    (if keyEg k then
      (if qWrKind q = 2 then (chanRate s k + 9999) / 10000 != qAdmit q
       else match q.writer with | some i => chanRate s (chKey false i) != chanRate s k ||
            (match chanAt s false i with | some d => cType d.words != cType c.words | none => false) | none => false)
     else if qRdKind q = 1 then
      chanRate s (readerKey q) != chanRate s k || (match tget? s.chan (readerKey q) with | some d => cType d.words != cType c.words | none => false)
     else false)
/-- Whether a queue connection breaks the limits (row 4 of R185). -/
def queueConnBad (s : State) (k n : Nat) (c : Chan) : Bool :=
  match queueAt s n with
  | none => true
  | some q =>
    q.owner != 0 || queueLeafBad s k c q ||
      (if keyEg k then qRdKind q != 1 || qRdCh q != keyCh k || some (qRdSlice q) != chanSlice s k
       else qWrKind q != 1 || q.writer.isSome || some (qWrSlice q) != chanSlice s k)
/-- Whether a hairpin breaks the limits. -/
def hairpinBad (s : State) (i e : Nat) (c : Chan) : Bool :=
  match tget? s.chan e with
  | some d => noLeaf s e d || chanUsed s e || !(cConns d).isEmpty || cType d.words != cType c.words || chanRate s e != chanRate s i || chanSlice s e != chanSlice s i
  | none => true
/-- Reserved or out-of-range fields of both commands. -/
def xcBad (req : List Word) : Bool :=
  let w := wd req 0
  let v := wd req 1
  let kind := fld w 19 16
  fld w 15 15 != 0 || fld w 31 20 != 0 || kind = 0 || decide (3 < kind) ||
    (match kind with
     | 1 => fld v 31 24 != 0 || fld v 23 0 = 0 | 2 => fld v 31 14 != 0 || bitOf w 14 | _ => fld v 31 20 != 0)
/-- Whether a stream queue's LIMIT is short of its hold and 64 cells (R245). -/
def holdShort (s : State) (q : Queue) : Bool := !(qPkt q) && qHold q != 0 && decide (q.limit < holdCells s q + 64)
/-- Whether the connection of the leaf at key k to a target breaks row 4 of R185: an ingress leaf goes to two places at most, of which the
Varric cross-feed stage is one where its port is single-homed here (R22). -/
def connBad (s : State) (k kind t : Nat) : Bool :=
  match tget? s.chan k with
  | some d =>
    noLeaf s k d || chanUsed s k || (if keyEg k then !(cConns d).isEmpty else decide (2 ≤ (cConns d).length + b2n (crossHomed s k)) || (kind = 1 && cFabric d != 0)) ||
      (match kind with | 1 => fabBad s k t | 2 => hairpinBad s k (chKey true t) d | _ => queueConnBad s k t d)
  | none => true
/-- The state with that connection. -/
def connMade (kind k t : Nat) (s : State) : State :=
  match kind with | 1 => connectFabric k t s | 2 => connectHairpin (keyCh k) t s | _ => connectQueue k t s
/-- Whether a queue that a connection completes has a LIMIT short of its hold. -/
def connShort (kind t : Nat) (s' : State) : Bool :=
  kind = 3 && (match queueAt s' t with | some q => holdShort s' q | none => false)
/-- XC_CONNECT. -/
def cmdXcConnect (c : Ctx) (req : List Word) (s : State) : CmdOut :=
  let w := wd req 0
  let k := chKey (bitOf w 14) (fld w 13 0)
  let kind := fld w 19 16
  let t := fld (wd req 1) 23 0
  let missing := !(thas s.chan k) || (kind = 2 && !(thas s.chan (chKey true t))) || (kind = 3 && (queueAt s t).isNone)
  let s' := connMade kind k t s
  ladder [(xcBad req, .invalid), (c.denied, .denied), (missing, .notFound), (c.gate || connBad s k kind t, .wrongState),
          (!(fits s s') || connShort kind t s', .noRes)] s fun _ => okNone s'
/-- Whether a connection of the channel at key k is the one of kind and target that XC_DISCONNECT names: an egress leaf's queue is named
by its number. -/
def connNamed (s : State) (k kind t : Nat) (y : Conn) : Bool :=
  y.kind == kind && (y.target == t || (kind == 3 && keyEg k && (match queueAt s t with
    | some q => qRdKind q == 1 && qRdCh q == keyCh k && q.owner == 0 | none => false)))
/-- XC_DISCONNECT. -/
def cmdXcDisconnect (c : Ctx) (req : List Word) (s : State) : CmdOut :=
  let w := wd req 0
  let k := chKey (bitOf w 14) (fld w 13 0)
  let kind := fld w 19 16
  let t := fld (wd req 1) 23 0
  let y := (tget? s.chan k).bind (fun d => (cConns d).find? (connNamed s k kind t))
  ladder [(xcBad req, .invalid), (c.denied, .denied), (y.isNone, .notFound), (c.gate || chanUsed s k, .wrongState)] s fun _ =>
    okNone (disconnect k kind (match y with | some y => y.target | none => t) s)

/-! ### FlexE groups (R169, R170) -/

/-- The key of a group engine. -/
def flexKey (sl grp : Nat) : Nat := 2 * sl + grp
/-- The PHYs of an OP 1, in ascending PHY number. -/
def flexPhys (req : List Word) : List FlexPhy :=
  let l := ((List.range 8).map (fun i => wd req (2 + i))).filter (fun w => bitOf w 16)
  let ps : List FlexPhy := l.map (fun w => { port := fld w 7 0, num := fld w 15 8 })
  (List.range 255).flatMap (fun n => ps.filter (fun x => x.num == n))
/-- The 100G instances of a list of PHYs. -/
def flexInsts (s : State) (ps : List FlexPhy) : Nat :=
  (ps.map (fun x => match portAt s x.port with | some q => flexeInst q | none => 0)).foldl (· + ·) 0
/-- Whether a client size in slots is supported (R169). -/
def flexeSizeOk (n : Nat) : Bool := n == 0 || n == 2 || n == 8 || n % 5 == 0
/-- The slots of a calendar in the layout of OP 2. -/
def calWords (l : List Nat) : List Word := (List.range 10).map (fun i => w32 (l.getD (2 * i) 0 + 65536 * l.getD (2 * i + 1) 0))
/-- The slots of an OP 2. -/
def calSlots (req : List Word) : List Nat := (List.range 20).map (fun j => fld (wd req (2 + j / 2)) (16 * (j % 2) + 15) (16 * (j % 2)))
/-- Whether an OP 1 is invalid: a reserved field, a group or PHY number out of range, no PHY, one twice, or unused words not 0. -/
def flexCreateBad (req : List Word) : Bool :=
  let ws := (List.range 8).map (fun i => wd req (2 + i))
  let ps := flexPhys req
  let n := fld (wd req 1) 19 0
  fld (wd req 1) 31 20 != 0 || n = 0 || decide (1048574 < n) || ws.any (fun w => fld w 31 17 != 0 || (!(bitOf w 16) && w != 0)) || ps.isEmpty ||
    ws.any (fun w => bitOf w 16 && (fld w 15 8 = 0 || fld w 15 8 = 255)) ||
    ps.any (fun x => decide (1 < (ps.filter (fun y => y.num == x.num)).length) || decide (1 < (ps.filter (fun y => y.port == x.port)).length))
/-- Whether the PHYs of an OP 1 cannot form a group of the slice (R58, R169). -/
def flexPhysBad (s : State) (sl : Nat) (ps : List FlexPhy) : Bool :=
  let protos := ps.map (fun x => match portAt s x.port with | some q => if q.flexePhy then q.proto else 0 | none => 0)
  ps.any (fun x => x.port / 8 != sl) || protos.any (fun p => p == 0 || p != protos.headD 0) ||
    ps.any (fun x => s.flex.any (fun e => e.2.phys.any (fun y => y.port == x.port)))
/-- The slot list of an instance's calendar. -/
def calOf (g : FlexGroup) (inst cal : Nat) : List Nat := tget g.cal (List.replicate 20 0) (2 * inst + cal)
/-- The client channels of a group. -/
def flexClients (s : State) (g : FlexGroup) : List Nat :=
  (s.chan.filter (fun e => cType e.2.words == 0x21 && !(cSrvCh e.2.words) && (minBy (·.num) g.phys).map (·.port) == some (cServer e.2.words))).map (·.1)
/-- A group with a calendar active in both directions, for the check of fabric capacity (R170, R178). -/
def flexBoth (key cal : Nat) (s : State) : State := { s with flex := tupd s.flex key (fun g => { g with active := cal, rxActive := cal }) }
/-- A group after its transmit calendar switched. -/
def flexSwitched (key cal : Nat) (s : State) : State :=
  { s with flex := tupd s.flex key (fun g => { g with active := cal, switching := none }) }
/-- EVT_FLEXE_SWITCH (R455). -/
def evtFlexe (key status : Nat) (s : State) : State :=
  match tget? s.flex key with
  | some g => raise 0x0501 clsCompletion 2 ((minBy (·.num) g.phys).map (·.port) |>.getD 0) (key / 2 + 32 * (key % 2)) status g.active 0 s
  | none => s
/-- The fields of FLEXE_CALENDAR that a row 1 of R170 refuses, for OP 1 to 5. A client of a size that is not supported is refused at OP 3; its
instances may be written one by one. -/
def flexBad (s : State) (key op : Nat) (req : List Word) : Bool :=
  let v := wd req 1
  let g := tget? s.flex key
  (op = 1 && flexCreateBad req) || ((op = 2 || op = 5) && (fld v 31 6 != 0 ||
      (match g with | some x => decide (flexInsts s x.phys ≤ fld v 4 0) | none => false))) ||
    (op = 3 && (match g with
      | some x => ((List.range (flexInsts s x.phys)).flatMap (fun i => calOf x i (1 - x.active))).any (fun id =>
          id != 0 && !(flexeSizeOk (flexeSlots x (1 - x.active) id))) | none => false))
/-- Whether the state of the group or its PHYs forbids an OP (row 4 of R170). -/
def flexBlocked (s : State) (sl key op cal : Nat) (ps : List FlexPhy) : Bool :=
  match tget? s.flex key with
  | some x => op = 1 || (op = 2 && cal == x.active) || (op = 3 && x.switching.isSome) || (op = 4 && !(flexClients s x).isEmpty)
  | none => op = 1 && (!(domUp s sl) || flexPhysBad s sl ps)
/-- FLEXE_CALENDAR (R170). -/
def cmdFlexeCalendar (c : Ctx) (req : List Word) (s : State) : CmdOut :=
  let w := wd req 0
  let v := wd req 1
  let op := fld w 3 0
  let sl := fld w 8 4
  let key := flexKey sl (fld w 9 9)
  let inst := fld v 4 0
  let cal := fld v 5 5
  let g := tget? s.flex key
  let ps := flexPhys req
  let s' := match g with | some x => flexBoth key (1 - x.active) s | none => s
  ladder [(fld w 31 10 != 0 || op = 0 || decide (5 < op) || flexBad s key op req, .invalid), (c.denied, .denied),
          (if op = 1 then ps.any (fun x => !(thas s.port x.port)) else g.isNone, .notFound),
          (c.gate || flexBlocked s sl key op cal ps, .wrongState), (op = 3 && !(fits s s'), .noRes)] s fun _ =>
    match op, g with
    | 1, _ => okNone { s with flex := tset s.flex key { num := fld v 19 0, phys := ps } }
    | 2, _ => okNone { s with flex := tupd s.flex key (fun x => { x with cal := tset x.cal (2 * inst + cal) (calSlots req) }) }
    | 3, some x => (.done .deferred [], { s with flex := tupd s.flex key (fun y => { y with switching := some (1 - x.active, s.now + 1000000000, false) }) })
    | 4, _ => okNone { s with flex := tdel s.flex key }
    | _, some x => okWith ([w32 (b2n x.mismatch + 2 * x.active), w32 (inst + 32 * cal)] ++ calWords (calOf x inst cal)) s
    | _, none => okNone s
/-- FLEXE_CR_ACK (R170). -/
def execFlexeCrAck (sl : Fin 32) (grp : Fin 2) (s : State) : Host.Outcome State Fault Refusal :=
  .next { s with flex := tupd s.flex (flexKey sl.val grp.val) (fun g =>
    { g with switching := match g.switching with | some (cal, t, _) => some (cal, t, true) | none => none }) }
/-- FLEXE_CALENDAR_SWITCH (R170): at the multiframe boundary after the acknowledgement. A standby follows its partner's decision. -/
def execFlexeCalendarSwitch (sl : Fin 32) (grp : Fin 2) (s : State) : Host.Outcome State Fault Refusal :=
  let key := flexKey sl.val grp.val
  nextSettled (match (tget? s.flex key).bind (·.switching) with
    | some (cal, _, true) => if ownDecides s then evtFlexe key 0 (flexSwitched key cal (sendDecision s)) else s
    | _ => s)
/-- FLEXE_ACK_TIMEOUT (R170). -/
def execFlexeAckTimeout (sl : Fin 32) (grp : Fin 2) (s : State) : Host.Outcome State Fault Refusal :=
  let key := flexKey sl.val grp.val
  .next (match (tget? s.flex key).bind (·.switching) with
    | some (_, t, false) =>
      if t ≤ s.now then evtFlexe key 9 { s with flex := tupd s.flex key (fun g => { g with switching := none }) } else s
    | _ => s)

/-! ### Data path events -/

/-- GFP_CORE_HEADER (R90, R91, R163): the header at the examined byte. On SYNC, a header is corrected and its frame delivered. -/
def execGfpCoreHeader (ch : Fin 16384) (hdr : Word) (f : GfpFrame) (s : State) : Host.Outcome State Fault Refusal :=
  let k := chKey false ch.val
  nextSettled (match tget? s.chan k with
    | none => s
    | some c =>
      if !(isGfp c.words) || gfpCarrierFail s treeDepth k then s
      else
        let h := gfpCore hdr
        let ok := gfpHecOk h
        let fix := if ok then none else gfpCorrect h
        let pli := h / 65536
        let sync := c.gfp.st == .sync
        let good := ok || fix.isSome
        let goodPli := if ok then pli else (fix.getD 0) / 65536
        let len := if pliOk c.gfp.maxPli pli then some (pli + 4) else none
        let r := hdrStep c.gfp ok fix.isSome len (goodPli + 4)
        let r := if r.st == .hunt && c.gfp.st != .hunt then { r with delta := c.gfpDelta, maxPli := c.gfpMaxPli } else r
        let s := updChan k (fun c => { c with
          gfp := r
          counts := { c.counts with
            gfpChecCorr := if sync && fix.isSome then c.counts.gfpChecCorr + 1 else c.counts.gfpChecCorr
            gfpHecErr := if sync && !good then c.counts.gfpHecErr + 1 else c.counts.gfpHecErr } }) s
        if r.st == .sync && good then gfpDeliver k goodPli f s else s)
/-- One frame slot of slice sl, whose frame a lane in near-end loopback returns to the receive side (R484, R485). -/
def slotTurn (sl : Nat) (s : State) : State :=
  match slotNext s sl with
  | some (j, f) =>
    let l := 8 * sl + j
    if laneNear s (256 + l) && fabSync s l then settle (hagilRx l f (slotTx sl s)) else slotTx sl s
  | none => slotTx sl s
/-- HAGIL_SLOT_TX (R177): what the datapath has delivered since the last slot, then one frame slot of the slice. -/
def execHagilSlotTx (sl : Fin 32) (arr : List Arrival) (s : State) : Host.Outcome State Fault Refusal :=
  .next (if domUp s sl.val then
      slotTurn sl.val (foldS arr (fun a s =>
        let k := chKey false a.ch.val
        if chanSlice s k == some sl.val then chanToFabric k a.bytes a.eop a.bad s else s) s)
    else s)
/-- HAGIL_FRAME_RX (R179): a frame at the balls, which a lane in near-end loopback ignores; one in far-end loopback sends it back (R484). -/
def execHagilFrameRx (l : Fin 256) (f : HagilFrame) (s : State) : Host.Outcome State Fault Refusal :=
  nextSettled (if fabSync s l.val && !(laneNear s (256 + l.val)) then
      let s := if laneLooped s (256 + l.val) then { s with fabTx := tmod s.fabTx {} l.val (fun x => { x with last := some f }) } else s
      hagilRx l.val f s
    else s)
/-- SEQ_SKIP_TIMEOUT (R179). -/
def execSeqSkipTimeout (r : SeqReceiver) (s : State) : Host.Outcome State Fault Refusal :=
  nextSettled (match r with | .leaf ch => leafSkip (chKey true ch.val) s | .queue q => queueSkip q.val s)
/-- LCAS_WTR_EXPIRY (R168): the sink's member that has been without failure for WTR seconds is OK again, and carries once the source sends
NORM or EOS. -/
def execLcasWtrExpiry (eg : Bool) (ch : Fin 16384) (s : State) : Host.Outcome State Fault Refusal :=
  let m := chKey eg ch.val
  nextSettled (match tget? s.chan m with
    | some c =>
      (match cVcg c.words, c.dnuSince with
       | some g, some t =>
         (match chanAt s eg g with
          | some d => if ownDecides s && cLcas d.words && t + cWtr d.words * 1000000000 ≤ s.now then
              updChan m (fun c => { c with dnuSince := none, lcas := { c.lcas with ok := true } }) (sendDecision s) else s
          | none => s)
       | _, _ => s)
    | none => s)

end Sys2Proof.Machine
end

