-- ==== Sys2Proof/Machine/Monitors.lean ====
section
/-! DEFINITION. Defect and performance commands (05_defects_and_performance.md): DEFECT_READ, DEFECT_CONFIG, PM_READ, PM_CONFIG,
PM_HISTORY, the failure timers, the one-second pulse and the evaluation of a second. -/

namespace Sys2Proof.Machine

/-! ### Addresses (R129) -/

/-- Whether an address word has a field outside the table of monitoring layers. -/
def addrBad (w : Word) : Bool :=
  let a := w.toNat
  let l := aLayer a
  let tree := decide (3 ≤ l) && decide (l ≤ 5)
  fld w 7 5 != 0 || fld w 31 29 != 0 || l = 0 || decide (9 < l) || (bitOf w 4 && !tree) ||
    decide ((if tree then 16384 else if l = 8 then 4096 else 256) ≤ aId a) ||
    (!([2, 3, 6].contains l) && aInst a != 0) || (if l = 2 then decide (1 < aLevel a) else if l = 3 then aLevel a = 7 else aLevel a != 0)

/-! ### Defects (R148, R149) -/

/-- DEFECT_READ. -/
def cmdDefectRead (c : Ctx) (req : List Word) (s : State) : CmdOut :=
  let a := (wd req 0).toNat
  ladder [(addrBad (wd req 0) || fld (wd req 1) 31 1 != 0, .invalid), (c.gate, .wrongState), (!(thas s.mon a), .notFound)] s fun _ =>
    let m := tget s.mon {} a
    let sup := suppressorOf s a
    okWith ([w32 m.declared.toNat, w32 m.reported.toNat, w32 m.failure.toNat, w32 m.sticky.toNat] ++
        (match sup with | some x => [w32 x.1, w32 (x.2 + 2147483648)] | none => [0, 0]))
      (if bitOf (wd req 1) 0 then updMon a (fun m => { m with sticky := 0 }) s else s)

/-- DEG_M in force. -/
def degMOf (m : Mon) : Nat := if m.degM = 0 then 7 else m.degM
/-- The values that DEFECT_CONFIG gives a point: a change of DEG_M or DEG_THR restarts both counts (R138). -/
def defectSettings (s : State) (a : Nat) (v1 v2 : Word) (m : Mon) : Mon :=
  let n := { m with evtDefect := bitOf v1 0, evtFail := bitOf v1 1, tDeclare := fld v1 15 8, tClear := fld v1 23 16, degM := fld v1 27 24,
                    degThr := fld v2 23 0 }
  { n with degRestart := m.degRestart || degMOf n != degMOf m || degThr s a n != degThr s a m }
/-- DEFECT_CONFIG. -/
def cmdDefectConfig (c : Ctx) (req : List Word) (s : State) : CmdOut :=
  let a := (wd req 0).toNat
  let v1 := wd req 1
  let td := fld v1 15 8
  let dm := fld v1 27 24
  ladder [(addrBad (wd req 0) || fld v1 7 2 != 0 || fld v1 31 28 != 0 || (td != 0 && (decide (td < 5) || decide (100 < td))) ||
             decide (60 < fld v1 23 16) || dm = 1 || decide (10 < dm) || fld (wd req 2) 31 24 != 0, .invalid),
          (c.denied, .denied), (c.gate, .wrongState), (!(thas s.mon a), .notFound)] s fun _ =>
    okNone (updMon a (defectSettings s a v1 (wd req 2)) s)

/-! ### Performance (R145, R150, R151) -/

/-- The 18 words of a record (R150). -/
def pmWords (pcs prov : Bool) (r : PmRec) : List Word :=
  let head := w32 (1 + 2 * b2n r.suspect + 4 * b2n prov + 8 * b2n r.neUnavail + 16 * b2n r.feUnavail) :: w32 r.elapsed :: nsWords r.start
  head ++ (if pcs then nsWords r.corr ++ [0] ++ nsWords r.uncorr ++ List.replicate 9 0
    else [w32 r.neEs, w32 r.neSes, w32 r.neUas] ++ nsWords r.neBbe ++ [w32 r.feEs, w32 r.feSes, w32 r.feUas] ++ nsWords r.feBbe ++
      nsWords r.viol.toNat ++ nsWords r.bei.toNat)
/-- The response of a record that may not exist yet. -/
def pmReply (pcs : Bool) (r : Option (PmRec × Bool)) : List Word :=
  match r with
  | some x => pmWords pcs x.2 x.1
  | none => List.replicate 18 0
/-- Whether an address word names no layer with PM records. -/
def pmAddrBad (w : Word) : Bool := addrBad w || !(pmPoint w.toNat)
/-- PM_READ. -/
def cmdPmRead (c : Ctx) (req : List Word) (s : State) : CmdOut :=
  let a := (wd req 0).toNat
  let bin := fld (wd req 1) 1 0
  ladder [(pmAddrBad (wd req 0) || fld (wd req 1) 31 2 != 0 || bin = 3, .invalid), (c.gate, .wrongState), (!(thas s.mon a), .notFound)] s fun _ =>
    let m := tget s.mon {} a
    okWith (pmReply (pcsPoint s a)
      (if bin = 0 then m.last.map (·, true) else some (if bin = 1 then m.cur15.data else m.cur24.data, true))) s
/-- PM_HISTORY: closed bins that are not yet final are PROVISIONAL. -/
def cmdPmHistory (c : Ctx) (req : List Word) (s : State) : CmdOut :=
  let a := (wd req 0).toNat
  let v := wd req 1
  let day := bitOf v 0
  let age := fld v 6 1
  ladder [(pmAddrBad (wd req 0) || fld v 31 7 != 0 || age = 0 || decide ((if day then 7 else 32) < age), .invalid),
          (c.gate, .wrongState), (!(thas s.mon a), .notFound)] s fun _ =>
    let m := tget s.mon {} a
    let l := (if day then m.open24 else m.open15).reverse.map (fun b => (b.data, true)) ++
      (if day then m.hist24 else m.hist15).map (fun r => (r, false))
    okWith (pmReply (pcsPoint s a) (l[age - 1]?)) s
/-- A current bin zeroed by RESET_CURRENT (R151). -/
def binReset (now : Nat) (b : Bin) : Bin :=
  { b with data := { start := b.data.start, suspect := true, viol := b.data.viol, bei := b.data.bei }, from_ := now, tca := [] }
/-- PM_CONFIG. -/
def cmdPmConfig (c : Ctx) (req : List Word) (s : State) : CmdOut :=
  let w := wd req 0
  let v := wd req 1
  let a := w.toNat
  let all : Bool := aLayer a == 0
  let day := fld v 16 0
  let bad : Bool := if all then w != 0 || fld v 31 17 != 0 || wd req 2 != 0 || day % 900 != 0 || decide (85500 < day)
    else pmAddrBad w || fld v 31 6 != 0 || decide (8 < fld v 3 0)
  ladder [(bad, .invalid), (c.denied, .denied), (c.gate, .wrongState), (!all && !(thas s.mon a), .notFound)] s fun _ =>
    if all then okNone { s with pm.dayPending := if day = s.pm.dayOffset then none else some day }
    else
      okNone (updMon a (fun m =>
        let m := if fld v 3 0 = 0 then m else { m with thr := tset m.thr (fld v 3 0 + 16 * b2n (bitOf v 4)) (wd req 2).toNat }
        if bitOf v 5 then { m with cur15 := binReset s.now m.cur15, cur24 := binReset s.now m.cur24 } else m) s)

/-! ### Failure timers (R135, R137) -/

/-- Whether a timer of a point may act: for a point on a slice without power, Prihegen must run (R137). -/
def timerActs (s : State) (a : Nat) : Bool := !(pointOut s a) || mpRuns s
/-- A failure declared or cleared by the timer that ended at µs t, its event at that instant's device time. -/
def failureAt (a b : Nat) (v : Bool) (t : Nat) (s : State) : State :=
  match tget? s.mon a with
  | none => s
  | some m =>
    let s := updMon a (fun m => { m with failure := if v then m.failure ||| (1#20 <<< b) else m.failure &&& ~~~(1#20 <<< b)
                                         declAt := if v then tdel m.declAt b else m.declAt, clearAt := if v then m.clearAt else tdel m.clearAt b }) s
    if m.evtFail then
      raiseAt (if pointOut s a then devNs s - 1000 * (s.now / 1000 - t) else devNs s) 0x0401 clsAlarm (pointObject a).1 (pointObject a).2 a
        (b + 256 * b2n v + 512) 0 0 s
    else s
/-- FAILURE_DECLARE_EXPIRY. -/
def execFailureDeclareExpiry (addr : Word) (bit : Fin 20) (s : State) : Host.Outcome State Fault Refusal :=
  .next (match tget? (tget s.mon {} addr.toNat).declAt bit.val with
    | some t => if decide (t ≤ pointUs s addr.toNat) && timerActs s addr.toNat then failureAt addr.toNat bit.val true t s else s
    | none => s)
/-- FAILURE_CLEAR_EXPIRY. -/
def execFailureClearExpiry (addr : Word) (bit : Fin 20) (s : State) : Host.Outcome State Fault Refusal :=
  .next (match tget? (tget s.mon {} addr.toNat).clearAt bit.val with
    | some t => if decide (t ≤ pointUs s addr.toNat) && timerActs s addr.toNat then failureAt addr.toNat bit.val false t s else s
    | none => s)

/-! ### Seconds (R33, R36, R66, R141, R143, R274) -/

/-- Whether the pulse of the whole second that device time is in has yet to come. -/
def pulseDue (s : State) : Bool := tmcRuns s && s.pm.secStart / 1000000000 != devSec s
/-- The pre-FEC errors of the second that closes, for every lane that decodes FEC (open: the line's). -/
def lanesSecond (s : State) : State :=
  { s with
    lane := s.lane.zipIdx.map (fun (e : (Nat × LaneRec) × Nat) =>
      (e.1.1, if laneFec s e.1.1 then { e.1.2 with preFecErr := w32 (Config.freeNat (s.free + e.2)) } else e.1.2))
    free := s.free + s.lane.length }
/-- A Welt pair's errored second (R278). -/
def weltSecond (w : Welt) : Welt := { w with mergeEs := if w.esNow then w.mergeEs + 1 else w.mergeEs, esNow := false }
/-- The one-second pulse: every block closes its interval, and the tick correspondence is sampled. -/
def secondPulse (s : State) : State :=
  let s := lanesSecond (secondsClose s)
  let s := { s with
    pm.secStart := devSec s * 1000000000
    welt := s.welt.map (fun (e : Nat × Welt) => (e.1, weltSecond e.2))
    fault.corrTick := tickNow s, fault.corrNs := devNs s }
  binsAtSecond s
/-- ONE_SECOND_PULSE. -/
def execOneSecondPulse (s : State) : Host.Outcome State Fault Refusal := nextSettled (if pulseDue s then secondPulse s else s)

/-- Whether the partner's judgements take the place of this twin's own (R370). -/
def judgedByPartner (s : State) : Bool := s.twin.run && s.twin.paired && s.twin.role == .standby && s.twin.ready
/-- PM_SECOND_EVALUATION: on a READY standby the second waits for the partner's judgement. -/
def execPmSecondEvaluation (addr : Word) (s : State) : Host.Outcome State Fault Refusal :=
  let a := addr.toNat
  .next (if (tget s.mon {} a).closed.isEmpty || !(mpRuns s) || judgedByPartner s then s
    else
      let s := evalSecond a s
      if mirrorsOut s then sendFrames 0x12 1 s else s)

end Sys2Proof.Machine
end

