-- ==== Sys2Proof/Machine/Groups.lean ====
section
/-! DEFINITION. Braid commands and events (07_braid_groups.md): BRAID_CREATE, BRAID_MEMBER_ADD, BRAID_MEMBER_REMOVE, BRAID_STATUS, and what
the Braid engine does by itself. -/

namespace Sys2Proof.Machine

/-! ### BRAID_CREATE (R189, R215, R218) -/

/-- A client entry of BRAID_CREATE. -/
structure ClientEntry where
  cidx : Nat
  tx : Bool
  type : Nat
  n : Nat
  ch : Nat
  slice : Nat
  fabricCh : Nat
  deriving DecidableEq, Repr

/-- Client entry i. -/
def clientEntry (req : List Word) (i : Nat) : ClientEntry :=
  let a := wd req (4 + 3 * i)
  let b := wd req (5 + 3 * i)
  { cidx := fld a 5 0, tx := bitOf a 6, type := fld a 15 8, n := fld a 24 16, ch := fld b 13 0, slice := fld b 18 14
    fabricCh := fld (wd req (6 + 3 * i)) 23 0 }
/-- NCLI. -/
def nCli (req : List Word) : Nat := fld (wd req 3) 6 0
/-- The client entries of a command. -/
def clientEntries (req : List Word) : List ClientEntry := (List.range (nCli req)).map (clientEntry req)
/-- The reserved fields of entry i. -/
def entryRes (req : List Word) (i : Nat) : Bool :=
  resBad req [(4 + 3 * i, 7, 7), (4 + 3 * i, 31, 25), (5 + 3 * i, 31, 19), (6 + 3 * i, 31, 24)]
/-- Whether an entry's TYPE, N and FABRIC_CH are allowed (R189; the N of an Ethernet client is DEDUCED, log 6). -/
def entryOk (e : ClientEntry) : Bool :=
  e.fabricCh != 0 &&
  (match e.type with
   | 6 => decide (1 ≤ e.n) && decide (e.n ≤ 80)
   | 7 => decide (1 ≤ e.n)
   | 0x20 => [2, 5, 20, 40, 80, 160, 320].contains e.n
   | t => (decide (1 ≤ t) && decide (t ≤ 5) || t == 0x22) && e.n == 0)
/-- Fields of BRAID_CREATE out of range. -/
def braidBad (req : List Word) : Bool :=
  let w := wd req 0
  let v := wd req 1
  let op := fld w 11 8
  let dd := fld v 26 16
  fld w 31 14 != 0 || op = 0 || decide (4 < op) || fld (wd req 3) 31 7 != 0 || decide (80 < nCli req) ||
    (if op = 1 then fld v 31 27 != 0 || fld (wd req 2) 31 10 != 0 || (!(bitOf w 12) && !(bitOf w 13)) || dd = 0 || decide (1250 < dd) ||
        decide (720 < fld (wd req 2) 9 0)
     else v != 0 || wd req 2 != 0) ||
    (List.range (nCli req)).any (fun i => entryRes req i || ((op = 1 || op = 3) && !(entryOk (clientEntry req i))))

/-- Whether a client stands in the way of what exists: CIDX, CH or FABRIC_CH in use, side absent, slice down. -/
def entryClash (s : State) (g : Nat) (e : ClientEntry) : Bool :=
  (match sideOf s g e.tx with | some d => d.clients.any (fun c => c.cidx == e.cidx) | none => true) || chTaken s e.tx e.ch || !(domUp s e.slice) ||
    (if e.tx then !(egressOf s e.slice e.fabricCh).isEmpty || !(fabricQueues s e.slice e.fabricCh).isEmpty ||
        s.braid.any (fun b => match b.2.tx with | some d => d.clients.any (fun c => c.slice == e.slice && c.fabricCh == e.fabricCh) | none => false)
     else fabSource s e.fabricCh)
/-- A stream queue of group g taken from the free ones in descending number (R212, R221). -/
def braidQueue (g limit : Nat) (s : State) : Nat × State :=
  let n := freeQueue s
  (n, { s with pool.q := tset s.pool.q n { kind := 2, owner := 1, ownerId := g, limit := limit } })
/-- A client joins its side. A transmit client starts suspended while the side has no schedule (R199, R220). -/
def addClient (g : Nat) (e : ClientEntry) (s : State) : State :=
  let c : Client := { cidx := e.cidx, tx := e.tx, type := e.type, n := e.n, ch := e.ch, slice := e.slice, fabricCh := e.fabricCh }
  let maxDd := match tget? s.braid g with | some b => b.maxDd | none => 0
  let r : Nat × State := if e.tx then braidQueue g (cellsFor (clientRate c) (maxDd * 100) + 64) s else (0, s)
  updSide g e.tx (fun d => { d with clients :=
    (d.clients.filter (fun x => decide (x.cidx < e.cidx))) ++
      [{ c with queue := r.1, suspended := e.tx && totalW (weightsOf d false) == 0 }] ++ d.clients.filter (fun x => decide (e.cidx < x.cidx)) }) r.2
/-- The entries added one after another; whether one of them clashes. -/
def addClients (g : Nat) (es : List ClientEntry) (s : State) : Bool × State :=
  es.foldl (fun (a : Bool × State) e => (a.1 || entryClash a.2 g e, addClient g e a.2)) (false, s)
/-- A client leaves its side with its queue. -/
def dropClient (g : Nat) (tx : Bool) (c : Nat) (s : State) : State :=
  match (sideOf s g tx).bind (fun d => d.clients.find? (fun x => x.cidx == c)) with
  | none => s
  | some x =>
    updSide g tx (fun d => { d with clients := d.clients.filter (fun y => y.cidx != c) }) (if tx then dropQueue x.queue s else s)
/-- Whether the transmit clients exceed the capacity of the schedule in force (R198). -/
def capOver (s : State) (g : Nat) : Bool :=
  match sideOf s g true with
  | some d =>
    let W := totalW (weightsOf d false)
    W != 0 && !(capFits (rateMax s true (fun m => m.weight != 0) d) W ((d.clients.map clientRate).foldl (· + ·) 0))
  | none => false
/-- Whether a slice holds more channels than R155 allows. -/
def clientsOver (s : State) (es : List ClientEntry) : Bool := es.any (fun e => decide (2048 < sliceChans s e.slice e.tx))
/-- A new group. -/
def braidNew (req : List Word) : Braid :=
  let w := wd req 0
  let v := wd req 1
  { rx := if bitOf w 12 then some {} else none, tx := if bitOf w 13 then some {} else none, tagTx := fld v 7 0, tagExp := fld v 15 8
    maxDd := fld v 26 16, wtr := fld (wd req 2) 9 0 }
/-- A group deleted with its clients. -/
def braidDelete (g : Nat) (s : State) : State :=
  let cs := [false, true].flatMap (fun tx => match sideOf s g tx with | some d => d.clients.map (fun c => (tx, c.cidx)) | none => [])
  let s := foldS cs (fun e => dropClient g e.1 e.2) s
  monDelete [monAddr 7 0 g 0 0] { s with braid := tdel s.braid g }
/-- Whether a group still has members. -/
def hasMembers (s : State) (g : Nat) : Bool :=
  [false, true].any (fun tx => match sideOf s g tx with | some d => d.members.any (fun m => m.ch != goneCh) | none => false)
/-- BRAID_CREATE. -/
def cmdBraidCreate (c : Ctx) (req : List Word) (s : State) : CmdOut :=
  let g := fld (wd req 0) 7 0
  let op := fld (wd req 0) 11 8
  let es := clientEntries req
  let has := thas s.braid g
  let s0 := if op = 1 then monCreate [monAddr 7 0 g 0 0] { s with braid := tset s.braid g (braidNew req) } else s
  let r := addClients g es s0
  let grows : Bool := op == 1 || op == 3
  let missing := es.any (fun e => match sideOf s g e.tx with | some d => !(d.clients.any (fun x => x.cidx == e.cidx)) | none => true)
  ladder [(braidBad req, .invalid), (c.denied, .denied), (op != 1 && !has || (op = 4 && missing), .notFound),
          (c.gate || (op = 1 && has) || (op = 2 && hasMembers s g) || (grows && r.1), .wrongState),
          (grows && (!(fits s r.2) || clientsOver r.2 es || capOver r.2 g), .noRes)] s fun _ =>
    match op with
    | 1 => okNone r.2
    | 2 => okNone (braidDelete g s)
    | 3 => okNone r.2
    | _ => okNone (foldS es (fun e => dropClient g e.tx e.cidx) s)

/-! ### Members (R188, R206, R207, R209, R216, R218) -/

/-- The slowest and fastest member of a side with a new rate: within 1 to 64 (R187). -/
def ratesOk (rs : List Nat) : Bool := rs.all (fun a => decide (a ≤ 256000000) && rs.all (fun b => decide (a ≤ 64 * b))) && decide (rs.foldl (· + ·) 0 ≤ 3200000000)
/-- Whether a channel may not be a member by its TYPE or rate. -/
def memberTypeBad (s : State) (g : Nat) (tx : Bool) (k : Nat) : Bool :=
  match tget? s.chan k with
  | some c =>
    !(isOdu (cType c.words)) || cType c.words == 8 ||
      (match sideOf s g tx with
       | some d => !(ratesOk (chanRate s k :: (d.members.filter (fun m => m.ch != goneCh)).map (memberRate s tx)))
       | none => decide (256000000 < chanRate s k))
  | none => false
/-- Whether a channel cannot join as it stands: a server, connected, used elsewhere, a VCAT member, not at TERMINATE, or its slice down. -/
def memberChanBad (s : State) (k : Nat) : Bool :=
  match tget? s.chan k with
  | some c => !(servedBy s k).isEmpty || !(cConns c).isEmpty || chanUsed s k || (cVcg c.words).isSome || cMode c.words 0 != 2 ||
      (match chanSlice s k with | some sl => !(domUp s sl) | none => true)
  | none => true
/-- A member joins its side (R206, R209), a receive member with its queue; its EXP bytes are the group's (R100, R188). -/
def addMember (g : Nat) (tx spare : Bool) (midx ch : Nat) (s : State) : State :=
  let b := (tget? s.braid g).getD {}
  let rate := chanRate s (chKey tx ch)
  let solo : Bool := tx && b.rx.isNone
  let s := dropWritten (ohKey 1 (chKey tx ch) 0) [44, 45] s
  let r : Nat × State := if tx then (0, s) else braidQueue g (cellsFor rate (b.maxDd * 100)) s
  let m : Member := { midx := midx, ch := ch, spareRole := spare, queue := r.1, until_ := some (s.now + 10000000000),
                      soloAt := if solo then some (s.now + 2000000000) else none }
  updSide g tx (fun d =>
    let ms := d.members.filter (fun x => decide (x.midx % 64 ≤ midx)) ++ [m] ++ d.members.filter (fun x => decide (midx < x.midx % 64))
    { d with members := ms }) r.2
/-- Reserved fields of word 0 that both member commands have. -/
def memberBad (req : List Word) (remove : Bool) : Bool :=
  let w := wd req 0
  if remove then bitOf w 9 || fld w 31 17 != 0 else fld w 31 16 != 0 || fld (wd req 1) 31 14 != 0 || (bitOf w 9 && !(bitOf w 8))
/-- BRAID_MEMBER_ADD. -/
def cmdBraidMemberAdd (c : Ctx) (req : List Word) (s : State) : CmdOut :=
  let w := wd req 0
  let g := fld w 7 0
  let tx := bitOf w 8
  let midx := fld w 15 10
  let ch := fld (wd req 1) 13 0
  let k := chKey tx ch
  let s' := addMember g tx (bitOf w 9) midx ch s
  ladder [(memberBad req false || memberTypeBad s g tx k, .invalid), (c.denied, .denied),
          (!(thas s.braid g) || (!(thas s.chan k) && !(thas s.chan (chKey (!tx) ch))), .notFound),
          (c.gate || memberChanBad s k || (match sideOf s g tx with | some d => (memberOf d midx).isSome | none => true), .wrongState),
          (!(fits s s'), .noRes)] s fun _ => (.done .deferred [], s')

/-- A member removed at once by FORCE (R207): where the table in force gives it positions, they are lost until the next change; a receive
side that cannot go on without them realigns. A command of the member that still waits completes (R216, R219). -/
def forceRemove (g : Nat) (tx : Bool) (midx : Nat) (s : State) : State :=
  match tget? s.braid g, (sideOf s g tx).bind (fun d => (memberOf d midx).map (fun m => (d, m))) with
  | some b, some (d, m) =>
    evtMemberGone g tx m (
    if m.weight = 0 && m.pendWork != some true then dropMember g tx midx s
    else if tx then updMember g true midx (fun m => { m with midx := m.midx + 64, ch := goneCh, stitches := [], adding := false, removing := false, removes := 0, until_ := none, soloAt := none })
      (updSide g true (fun d => { d with requests := d.requests.filter (fun r => r.1 != midx) }) s)
    else if d.st == .aligned && b.tx.isSome then
      updMember g false midx (fun m => { m with midx := m.midx + 64, ch := goneCh, stitches := [], queue := 1048576, rxWork := false, nextPos := none, mark := none, fail := true,
                                                adding := false, until_ := none }) (dropQueue m.queue s)
    else toAcquire g (d.st == .aligned) (dropMember g false midx s))
  | _, _ => s
/-- A transmit member removed without FORCE (R207, R209): a WORKING one enters the next change, any other completes at once and sends
fillers for two sub-multiframe periods; on a side without opposite side this follows after 2 s. -/
def txRemove (g midx : Nat) (s : State) : State :=
  match (sideOf s g true).bind (fun d => memberOf d midx) with
  | none => s
  | some m =>
    if m.st == .working || m.pendWork == some true then txRequest g midx false s
    else
      let s := if m.adding then evtMemberNow g true midx 9 true s else s
      removesDone g midx (updMember g true midx (fun m => { m with
        adding := false, until_ := none, wtrUntil := none, withdrawAt := m.withdrawAt.orElse (fun _ => some (s.now + 2 * subPeriod s true m)) })
          (updSide g true (fun d => { d with requests := d.requests.filter (fun r => r.1 != midx) }) s))
/-- BRAID_MEMBER_REMOVE. -/
def cmdBraidMemberRemove (c : Ctx) (req : List Word) (s : State) : CmdOut :=
  let w := wd req 0
  let g := fld w 7 0
  let tx := bitOf w 8
  let midx := fld w 15 10
  let force := bitOf w 16
  let m := (sideOf s g tx).bind (fun d => memberOf d midx)
  let absent := m.isNone
  let noSide := thas s.braid g && (sideOf s g tx).isNone
  let held := match m with | some x => !tx && x.weight != 0 && !force | none => false
  ladder [(memberBad req true, .invalid), (c.denied, .denied), (!(thas s.braid g) || (absent && !noSide), .notFound),
          (c.gate || noSide || held, .wrongState)] s fun _ =>
    if !tx || force then okNone (forceRemove g tx midx s)
    else
      let solo := match tget? s.braid g with | some b => b.rx.isNone | none => false
      let s := updMember g true midx (fun m => { m with
        removing := true, removes := m.removes + 1, soloAt := if solo && !m.removing then some (s.now + 2000000000) else m.soloAt }) s
      (.done .deferred [], if solo then s else txRemove g midx s)

/-! ### BRAID_STATUS (R217) -/

/-- The three words of member m. -/
def memberWords (tx : Bool) (d : Side) (i : Nat) : List Word :=
  match d.members.find? (fun m => m.midx == i && m.ch != goneCh) with
  | some m => [w32 (mstateCode m + 4 * b2n m.fail + 8 * b2n m.seqDef + 16 * b2n m.skewDef + 32 * m.weight),
               w32 (if tx then 0 else m.delay), w32 (if tx then 0 else m.delayMax)]
  | none => [0, 0, 0]
/-- STATE of a side: a transmit side is in service while it has a schedule. -/
def sideState (tx : Bool) (d : Side) : Nat :=
  if tx then (if totalW (weightsOf d false) = 0 then 0 else 2) else match d.st with | .idle => 0 | .acquire => 1 | .aligned => 2
/-- BRAID_STATUS. -/
def cmdBraidStatus (c : Ctx) (req : List Word) (s : State) : CmdOut :=
  let w := wd req 0
  let g := fld w 7 0
  let tx := bitOf w 8
  ladder [(fld w 31 10 != 0, .invalid), (!(thas s.braid g), .notFound), (c.gate || (sideOf s g tx).isNone, .wrongState)] s fun _ =>
    match sideOf s g tx with
    | none => okNone s
    | some d =>
      okWith ([w32 (sideState tx d + 4 * b2n d.schedAct + 8 * b2n d.schedPend), w32 (declaredOf s (monAddr 7 0 g 0 0)).toNat, w32 (capacityMbit s tx d)] ++
          nsWords (suspendedWord d) ++ [d.lost, d.hec, d.bgoErr] ++ (List.range 64).flatMap (memberWords tx d))
        (if bitOf w 9 then updSide g tx (fun d => { d with members := d.members.map (fun m => { m with delayMax := m.delay }) }) s else s)

/-! ### The engine's own events -/

/-- Whether the Braid engine receives from a member: the engine domain and the member's slice are on. -/
def memberUp (s : State) (g midx : Nat) : Bool :=
  domUp s 34 && (match (sideOf s g false).bind (fun d => memberOf d midx) with
    | some m => (match chanSlice s (chKey false m.ch) with | some sl => domUp s sl | none => false)
    | none => false)
/-- BGO_ACCEPT (R194). -/
def execBgoAccept (g : Fin 256) (midx : Fin 64) (bgo : List Byte) (ts : Nat) (s : State) : Host.Outcome State Fault Refusal :=
  nextSettled (if memberUp s g.val midx.val then bgoAccept g.val midx.val bgo ts s else s)
/-- STITCH_SLOT_RX (R200). -/
def execStitchSlotRx (g : Fin 256) (midx : Fin 64) (bytes : List Byte) (s : State) : Host.Outcome State Fault Refusal :=
  nextSettled (if memberUp s g.val midx.val then stitchRx g.val midx.val bytes s else s)
/-- BRAID_ROUND_READ (R203). -/
def execBraidRoundRead (g : EngineRead 256) (s : State) : Host.Outcome State Fault Refusal := nextSettled (roundRead g.id.val (g.ue.map (·.val)) s)
/-- BRAID_ROUND_FORMED (R197). -/
def execBraidRoundFormed (g : EngineRead 256) (s : State) : Host.Outcome State Fault Refusal := nextSettled (roundFormed g.id.val (g.ue.map (·.val)) s)
/-- Whether a side has come to its switch round (R205): the source when it has formed every round before N*, or forms none; the sink when it
has read them, or, with no start round, when a member's ANCHOR has reached N*. -/
def switchDue (s : State) (g : Nat) (tx : Bool) : Bool :=
  match sideOf s g tx with
  | some d =>
    d.schedPend && (match d.nStar with
      | some n =>
        if tx then totalW (weightsOf d false) == 0 || roundLe n d.round
        else if d.start.isSome then roundLe n d.round
        else d.members.any (fun m => match m.anchor with | some a => roundLe n a.round | none => false)
      | none => false)
  | none => false
/-- BRAID_SWITCH_ROUND (R205). -/
def execBraidSwitchRound (g : Fin 256) (tx : Bool) (s : State) : Host.Outcome State Fault Refusal :=
  nextSettled (if switchDue s g.val tx then (if tx then txSwitch g.val s else rxSwitch g.val s) else s)
/-- BRAID_ADD_TIMEOUT (R206): an addition that no announced change completes is withdrawn. -/
def execBraidAddTimeout (g : Fin 256) (tx : Bool) (midx : Fin 64) (s : State) : Host.Outcome State Fault Refusal :=
  nextSettled (match (sideOf s g.val tx).bind (fun d => memberOf d midx.val) with
    | some m =>
      if m.adding && due m.until_ s && m.pendWork != some true then evtMemberGone g.val tx m (dropMember g.val tx midx.val s) else s
    | none => s)
/-- BRAID_MEMBER_WTR_EXPIRY (R208). -/
def execBraidMemberWtrExpiry (g : Fin 256) (midx : Fin 64) (s : State) : Host.Outcome State Fault Refusal :=
  nextSettled (match (sideOf s g.val true).bind (fun d => memberOf d midx.val) with
    | some m =>
      if due m.wtrUntil s && m.far && m.st == .adding && txSliceUp s m then
        let s := updMember g.val true midx.val (fun m => { m with wtrUntil := none }) s
        if m.replaced then evtMemberNow g.val true midx.val 0 false (updMember g.val true midx.val (fun m => { m with st := .spare, replaced := false }) s)
        else txRequest g.val midx.val true s
      else s
    | none => s)
/-- BRAID_SOLO_SIDE_DELAY (R209). -/
def execBraidSoloSideDelay (g : Fin 256) (tx : Bool) (midx : Fin 64) (s : State) : Host.Outcome State Fault Refusal :=
  nextSettled (match (sideOf s g.val tx).bind (fun d => memberOf d midx.val) with
    | some m =>
      if tx && due m.soloAt s then
        let s := updMember g.val true midx.val (fun m => { m with soloAt := none }) s
        if m.removing then txRemove g.val midx.val s
        else if m.adding then farChange g.val midx.val true s else s
      else s
    | none => s)
/-- BRAID_MEMBER_WITHDRAWN (R207). -/
def execBraidMemberWithdrawn (g : Fin 256) (midx : Fin 64) (s : State) : Host.Outcome State Fault Refusal :=
  nextSettled (match (sideOf s g.val true).bind (fun d => memberOf d midx.val) with
    | some m => if due m.withdrawAt s then dropMember g.val true midx.val s else s
    | none => s)
/-- BRAID_CLIENT_DATA_TIMEOUT (R200). -/
def execBraidClientDataTimeout (g : Fin 256) (cidx : Fin 64) (s : State) : Host.Outcome State Fault Refusal :=
  nextSettled (match (sideOf s g.val false).bind (fun d => d.clients.find? (fun c => c.cidx == cidx.val)) with
    | some c =>
      if !c.ssf && (match c.lastData with | some t => decide (t + 1000000 ≤ s.now) | none => true) then
        updClient g.val false cidx.val (fun c => { c with ssf := true }) s
      else s
    | none => s)
/-- BGO_ABSENCE (R202). -/
def execBgoAbsence (g : Fin 256) (midx : Fin 64) (s : State) : Host.Outcome State Fault Refusal :=
  nextSettled (match (sideOf s g.val false).bind (fun d => memberOf d midx.val) with
    | some m =>
      (match m.bgoAt with
       | some t => if t + 3 * subPeriod s false m ≤ s.now then updMember g.val false midx.val (fun m => { m with bgoAt := none }) s else s
       | none => s)
    | none => s)

end Sys2Proof.Machine
end

