-- ==== Sys2Proof/Machine/Queues.lean ====
section
/-! DEFINITION. Queue commands and the pool's own events (08_queue_pool.md): QUEUE_CONFIG, QUEUE_COUNT, QUEUE_FLUSH, QUEUE_SCAN,
POOL_STATUS, the writer, the reader, flushes and the patrol scrub. -/

namespace Sys2Proof.Machine

/-! ### QUEUE_CONFIG (R222 to R224, R255, R256) -/

/-- The queue that words 0 to 9 describe. -/
def queueOfWords (now : Nat) (req : List Word) : Queue :=
  let q : Queue := { kind := fld (wd req 0) 25 24, cfg := (List.range 9).map (fun i => wd req (i + 1)), limit := fld (wd req 1) 28 0, meterAt := now }
  { q with meter := (qBurst q * 1024000000 : Nat) }
/-- Reserved fields of words 1 to 9. -/
def queueRes (req : List Word) : Bool :=
  resBad req [(1, 31, 29), (2, 31, 7), (3, 31, 24), (4, 31, 21), (5, 31, 24), (6, 31, 15), (7, 31, 15), (8, 31, 16), (9, 31, 17)]
/-- Whether a field is out of range or does not apply (R237, R245, R255). -/
def queueBad (s : State) (q : Queue) : Bool :=
  let wk := qWrKind q
  let rk := qRdKind q
  let pkt := qPkt q
  let rated := pkt || wk == 2
  !([1, 2].contains q.kind) || !([1, 2].contains wk) || !([1, 2].contains rk) || decide (q.limit < (if pkt then 8 else 64)) || decide (allocatable s < q.limit) ||
    (if wk = 2 then qWrFab q = 0 else qWrFab q != 0) || (if rk = 2 then qRdFab q = 0 || qRdCh q != 0 else qRdFab q != 0) ||
    (if rated then qAdmit q = 0 || decide (25600 < qAdmit q) else qAdmit q != 0) ||
    (if pkt then decide (qBurst q < 16) || decide (16384 < qBurst q) else qBurst q != 0) ||
    (if pkt && rk = 1 then decide (qQuantum q < 64) else qQuantum q != 0) ||
    (if pkt then qHold q != 0 else decide (125000 < qHold q) || (wk = 2 && holdShort s q))
/-- Whether OP 2 changes a field that it may not. -/
def queueFixed (q n : Queue) : Bool := q.kind == n.kind && [1, 2, 3, 4, 8].all (fun i => wd q.cfg i == wd n.cfg i)
/-- The host queues read by an egress leaf, beside queue x. -/
def readBy (s : State) (ch x : Nat) : List (Nat × Queue) := s.pool.q.filter (fun e => e.1 != x && e.2.owner == 0 && qRdKind e.2 == 1 && qRdCh e.2 == ch)
/-- Whether the egress leaf RD_CH cannot read queue x (R223). -/
def readerBad (s : State) (x : Nat) (q : Queue) : Bool :=
  let k := readerKey q
  match tget? s.chan k with
  | none => true
  | some c =>
    let set := readBy s (qRdCh q) x
    noLeaf s k c || chanUsed s k || chanSlice s k != some (qRdSlice q) ||
      (cConns c).any (fun y => y.kind != 3 || !(set.any (fun e => e.1 == y.target) || y.target == x)) ||
      (if qPkt q then !(isPkt (cType c.words)) || set.any (fun e => !(qPkt e.2))
       else isPkt (cType c.words) || !set.isEmpty || (qWrKind q = 2 && (chanRate s k + 9999) / 10000 != qAdmit q))
/-- Whether another receiver of slice sl takes fabric channel f. -/
def sinkTaken (s : State) (sl f : Nat) : Bool :=
  !(egressOf s sl f).isEmpty || !(fabricQueues s sl f).isEmpty ||
    s.braid.any (fun e => match e.2.tx with | some d => d.clients.any (fun c => c.slice == sl && c.fabricCh == f) | none => false)
/-- Row 1 of R256: a field out of range, or one that OP 2 may not change. -/
def queueConfigBad (s : State) (x op : Nat) (n : Queue) (req : List Word) : Bool :=
  let w := wd req 0
  fld w 31 26 != 0 || op = 0 || decide (4 < op) ||
    (if op = 1 || op = 2 then queueRes req || queueBad s n || (op = 2 && (match queueAt s x with | some q => q.owner = 0 && !(queueFixed q n) | none => false))
     else fld w 25 24 != 0 || wordsBad req 1 9)
/-- Whether no channel has the number RD_CH. -/
def queueNoReader (s : State) (n : Queue) : Bool :=
  qRdKind n = 1 && !(thas s.chan (chKey true (qRdCh n))) && !(thas s.chan (chKey false (qRdCh n)))
/-- Whether a new queue's ends are not free or their slices down (R223). -/
def queueEndsBad (s : State) (n : Queue) : Bool :=
  !(domUp s (qWrSlice n)) || !(domUp s (qRdSlice n)) || (qWrKind n = 2 && sinkTaken s (qWrSlice n) (qWrFab n)) || (qRdKind n = 2 && fabSource s (qRdFab n))
/-- Row 4 of R256 but for the gate. -/
def queueBlocked (s : State) (x op : Nat) (n : Queue) : Bool :=
  (match queueAt s x with
   | some q => q.owner != 0 || op = 1 || (op = 3 && ((qWrKind q = 1 && q.writer.isSome) || (qRdKind q = 1 && q.rdConn)))
   | none => false) ||
    ((op = 1 || op = 2) && qRdKind n = 1 && readerBad s x n) || (op = 1 && queueEndsBad s n)
/-- The state with queue x made or its words replaced. -/
def queueSet (x op : Nat) (n : Queue) (s : State) : State :=
  let joined := match tget? s.chan (readerKey n) with | some d => d.conns.any (fun y => y.kind == 3) | none => false
  if op = 1 then { s with pool.q := tset s.pool.q x { n with rdConn := qRdKind n = 1 && joined } }
  else updQ x (fun q => { q with cfg := n.cfg, limit := n.limit }) (fillMeter x s)
/-- Row 5 of R256: s' is s with that queue. -/
def queueOver (s s' : State) (x op : Nat) (n : Queue) : Bool :=
  !(fits s s') || (qRdKind n = 1 && decide (1024 < (readBy s (qRdCh n) x).length + 1)) ||
    (match queueAt s' x with | some q => op = 2 && qWrKind q = 1 && holdShort s' q | none => false)
/-- QUEUE_CONFIG. -/
def cmdQueueConfig (c : Ctx) (req : List Word) (s : State) : CmdOut :=
  let x := fld (wd req 0) 19 0
  let op := fld (wd req 0) 23 20
  let n := queueOfWords s.now req
  let sets : Bool := op == 1 || op == 2
  let s' := queueSet x op n s
  ladder [(queueConfigBad s x op n req, .invalid), (c.denied, .denied),
          ((op != 1 && (queueAt s x).isNone) || (sets && queueNoReader s n), .notFound), (c.gate || queueBlocked s x op n, .wrongState),
          (sets && queueOver s s' x op n, .noRes)] s fun _ =>
    match op, queueAt s x with
    | 3, some _ => okNone (dropQueue x (flushQ x s))
    | 4, some q => okWith q.cfg s
    | _, _ => okNone s'

/-! ### QUEUE_COUNT, QUEUE_FLUSH, QUEUE_SCAN, POOL_STATUS (R239, R252 to R254, R256) -/

/-- QUEUE_COUNT. -/
def cmdQueueCount (c : Ctx) (req : List Word) (s : State) : CmdOut :=
  let x := fld (wd req 0) 19 0
  ladder [(fld (wd req 0) 31 20 != 0, .invalid), ((queueAt s x).isNone, .notFound), (c.gate, .wrongState)] s fun _ =>
    match queueAt s x with
    | none => okNone s
    | some q =>
      okWith [w32 (q.kind + 4 * q.owner + 16 * b2n q.open_ + 32 * b2n q.discard), w32 (qCells q), w32 q.limit, w32 q.items, q.lost, q.poolDrop,
        q.flushDiscard, q.oversizeDrop, q.badDrop, q.rateDrop, q.flushed, q.eccDrop] s
/-- QUEUE_FLUSH: at once where the writer holds no partly filled cell, else within 1 µs. -/
def cmdQueueFlush (c : Ctx) (req : List Word) (s : State) : CmdOut :=
  let x := fld (wd req 0) 19 0
  ladder [(fld (wd req 0) 31 20 != 0, .invalid), (c.denied, .denied), ((queueAt s x).isNone, .notFound),
          (c.gate || (match queueAt s x with | some q => q.owner != 0 | none => false), .wrongState)] s fun _ =>
    match queueAt s x with
    | none => okNone s
    | some q =>
      if q.partialBytes.isEmpty then okNone (takeFlush x s)
      else (.waits (.flush x), updQ x (fun q => { q with flushAt := some (q.flushAt.getD (s.now + 1000)) }) s)
/-- A bit of each queue of a block, as 32 words. -/
def scanWords (s : State) (blk : Nat) (p : Queue → Bool) : List Word :=
  (List.range 32).map (fun i =>
    w32 (((s.pool.q.filter (fun e => e.1 / 32 == 32 * blk + i && p e.2)).map (fun e => 2 ^ (e.1 % 32))).foldl (· + ·) 0))
/-- QUEUE_SCAN. -/
def cmdQueueScan (c : Ctx) (req : List Word) (s : State) : CmdOut :=
  let blk := fld (wd req 0) 9 0
  ladder [(fld (wd req 0) 31 11 != 0, .invalid), (c.gate, .wrongState)] s fun _ =>
    okWith (w32 blk :: scanWords s blk (·.changed) ++ scanWords s blk (fun q => !q.chain.isEmpty))
      (if bitOf (wd req 0) 10 then
        { s with pool.q := s.pool.q.map (fun (e : Nat × Queue) => if e.1 / 1024 = blk then (e.1, { e.2 with changed := false }) else e) }
       else s)
/-- The free cells of the pool, and the least of any pseudo-channel in S. -/
def freeTotals (s : State) : Nat × Nat :=
  let l := (allocSet s).map (freePc s)
  (l.foldl (· + ·) 0, match l with | [] => 0 | a :: r => r.foldl min a)
/-- POOL_STATUS. -/
def cmdPoolStatus (c : Ctx) (_ : List Word) (s : State) : CmdOut :=
  ladder [(c.gate, .wrongState)] s fun _ =>
    let f := freeTotals s
    let map := s.boot.retired.toNat
    okWith [w32 (outsideS s + 256 * b2n (halfOffCmd s 0) + 512 * b2n (halfOffCmd s 1)), w32 map, w32 (map / 4294967296), w32 (allocatable s), w32 f.1,
      w32 (reserved s), w32 f.2, w32 (budget s / 10000), w32 (deepLoad s / 10000), s.pool.poolDropTotal, s.pool.descErr, w32 s.pool.q.length,
      s.pool.scrubPasses] s

/-! ### The writer, the reader and the scrub (R232, R239, R243, R246) -/

/-- Whether a slice's datapath writes a word into a host queue: its connected ingress leaf is enabled and its slice is on. -/
def leafWrites (s : State) (q : Queue) : Bool :=
  q.owner == 0 && qWrKind q == 1 && domUp s (qWrSlice q) &&
    (match q.writer with | some c => (match chanAt s false c with | some x => x.en | none => false) | none => false)
/-- WRITER_WORD: a word of 32 bytes at most into a host queue, or bytes of a Welt copy's blocks (R232, R272). -/
def execWriterWord (q : Fin 1048576) (bytes : List Byte) (first last bad : Bool) (s : State) : Host.Outcome State Fault Refusal :=
  nextSettled (match queueAt s q.val with
    | none => s
    | some x =>
      if leafWrites s x then writeWord q.val (bytes.take 32) first last bad s
      else if x.owner = 2 && weltTakes s q.val then flushPending q.val (streamPut ((bytes.take 32).length + 2) q.val (bytes.take 32) s)
      else s)
/-- FLUSH_TAKES_EFFECT (R239, R240). -/
def execFlushTakesEffect (q : Fin 1048576) (s : State) : Host.Outcome State Fault Refusal :=
  nextSettled (match queueAt s q.val with
    | some x => if x.flushAt.isSome && (due x.flushAt s || x.partialBytes.isEmpty) then takeFlush q.val s else s
    | none => s)
/-- QUEUE_READ: the queue that the scheduler serves next, or a stream queue, gives one cell. -/
def execQueueRead (q : Fin 1048576) (ue : Bool) (s : State) : Host.Outcome State Fault Refusal :=
  nextSettled (match queueAt s q.val with
    | none => s
    | some x =>
      if x.owner != 0 || !(readerReady s x) then s
      else if !(qPkt x) then readStreamCell q.val ue s
      else if x.items = 0 then s
      else
        match setOf x with
        | none => readPacketCell q.val ue s
        | some k =>
          let r := schedPick k s
          if r.1 = some q.val then readPacketCell q.val ue r.2 else s)
/-- A cell found uncorrectable (R246): the fault collector hears of it, and where it is stored in a queue BAD is set in its descriptor, which is
checked as it is read (R228). -/
def scrubCell (c : Nat) (s : State) : State :=
  match s.pool.q.find? (fun e => e.2.chain.contains c) with
  | none => ueSeen c s
  | some e =>
    let s := ueSeen c s
    if e.2.chain.getLast? = some c && !e.2.partialBytes.isEmpty then s
    else if !(descOk s e.2 c false) then flushDesc e.1 c s
    else modDesc c (fun h => if h / 256 % 2 = 1 then h else h + 256) s
/-- PATROL_SCRUB: a stored cell with an uncorrectable error is marked BAD; the last cell of S ends a pass (R246, R254). -/
def execPatrolScrub (cell : Fin 503316480) (ue : Bool) (s : State) : Host.Outcome State Fault Refusal :=
  let c := cell.val
  nextSettled (if !(mpRuns s) || !((allocSet s).contains (c % 64)) then s
    else
      let s := if ue then scrubCell c s else s
      if c / 64 = 7864319 && (allocSet s).getLast? == some (c % 64) then { s with pool.scrubPasses := s.pool.scrubPasses + 1 } else s)

end Sys2Proof.Machine
end

