-- ==== Sys2Proof/Machine/Legs.lean ====
section
/-! DEFINITION. Protection and Welt commands and timers (09_welt_and_line_protection.md). -/

namespace Sys2Proof.Machine

/-! ### Legs and copies -/

/-- A channel exists in some direction under this number. -/
def chExists (s : State) (ch : Nat) : Bool := thas s.chan (chKey false ch) || thas s.chan (chKey true ch)
/-- Whether an ODU channel cannot be taken as a leg or copy (R260, R269, R270): a server, connected, used elsewhere, a VCAT member, or its
slice down; an egress one also where it is a top ODU (R158). -/
def legBad (s : State) (k : Nat) : Bool :=
  match tget? s.chan k with
  | some c => !(isOdu (cType c.words)) || isServer s k || !(cConns c).isEmpty || chanUsed s k || (cVcg c.words).isSome || (keyEg k && isTopOdu k c) ||
      (match chanSlice s k with | some sl => !(domUp s sl) | none => true)
  | none => true
/-- Whether two channels differ in TYPE or N. -/
def legsDiffer (s : State) (a b : Nat) : Bool :=
  match tget? s.chan a, tget? s.chan b with
  | some x, some y => cType x.words != cType y.words || cN x.words != cN y.words
  | _, _ => true
/-- Whether a fabric channel is taken on the slice of the egress channel at key k. -/
def legSinkTaken (s : State) (k f : Nat) : Bool := match chanSlice s k with | some sl => sinkTaken s sl f | none => true

/-! ### PROT_GROUP_CREATE (R259 to R261, R280, R285) -/

/-- Reserved fields of words 1 to 5. -/
def protRes (req : List Word) : Bool :=
  resBad req [(1, 15, 14), (1, 31, 30), (2, 15, 14), (2, 31, 30), (3, 31, 24), (4, 31, 24), (5, 3, 3), (5, 7, 7), (5, 15, 15), (5, 31, 26)]
/-- HOLD_OFF or WTR out of range. -/
def protTimesBad (req : List Word) : Bool := decide (100 < fld (wd req 5) 14 8) || decide (720 < fld (wd req 5) 25 16)
/-- Whether the fields of OP 1 do not go together. -/
def protBad (req : List Word) : Bool :=
  let w := req
  let a := gArch w
  let fr := fld (wd w 3) 23 0
  let ft := fld (wd w 4) 23 0
  a = 0 || decide (6 < a) ||
    (if gMsp w then !(gRx w) || !(gTx w) || gSnc w != 0 || gMon w != 0 || gAps w != 0 || wd w 2 != 0 || fr != 0 || ft != 0 ||
        decide (255 < gLegRx w false) || decide (255 < gLegRx w true)
     else (if a = 1 then !(gRx w) && !(gTx w) else !(gRx w) || !(gTx w)) || gSnc w = 3 || gAps w = 7 || gMon w = 7 ||
        (gSnc w = 0 && gMon w != 0) || (gSnc w = 2 && gMon w = 0) || (gRx w != (fr != 0)) || (gTx w != (ft != 0)))
/-- Whether a port or channel that a group names does not exist. -/
def protMissing (s : State) (w : List Word) : Bool :=
  if gMsp w then [false, true].any (fun p => !(thas s.port (gLegRx w p)))
  else [false, true].any (fun p => (gRx w && !(chExists s (gLegRx w p))) || (gTx w && !(chExists s (gLegTx w p))))
/-- Whether an MSP group's ports do not suit (R261). -/
def mspBad (s : State) (w : List Word) : Bool :=
  let a := gLegRx w false
  let b := gLegRx w true
  match portAt s a, portAt s b with
  | some p, some q =>
    a = b || a / 8 != b / 8 || p.proto != q.proto || !(isSdh p) || !(domUp s (a / 8)) ||
      s.chan.any (fun e => serverOf e.1 e.2.words == .port b) ||
      s.prot.any (fun e => gMsp e.2.words && [false, true].any (fun x => gLegRx e.2.words x == a || gLegRx e.2.words x == b))
  | _, _ => true
/-- Whether an ODU group's legs or fabric channels are not free. -/
def snpBad (s : State) (w : List Word) : Bool :=
  (gRx w && (let a := chKey false (gLegRx w false)
             let b := chKey false (gLegRx w true)
             a = b || legBad s a || legBad s b || legsDiffer s a b || fabSource s (fld (wd w 3) 23 0))) ||
  (gTx w && (let a := chKey true (gLegTx w false)
             let b := chKey true (gLegTx w true)
             a = b || legBad s a || legBad s b || legsDiffer s a b || legSinkTaken s a (fld (wd w 4) 23 0) || legSinkTaken s b (fld (wd w 4) 23 0)))
/-- A new group: its legs connected, its APS bytes its own (R100, R260). -/
def protAdd (n : Nat) (w : List Word) (s : State) : State :=
  let g : Prot := { words := w, holdOff := fld (wd w 5) 14 8, wtr := fld (wd w 5) 25 16, bridge := !(gOneToOne w) }
  let s := { s with prot := tset s.prot n g }
  if gMsp w then foldS [false, true] (fun p => dropWritten (ohKey 0 (gLegRx w p) 0) [8, 9]) s
  else
    let drop := fun (k : Nat) => dropWritten (ohKey 1 k 0) ((List.range 4).map (apsKey (gAps w)))
    let s := if gRx w then connectFabric (chKey false (gLegRx w false)) (fld (wd w 3) 23 0)
        (foldS [false, true] (fun p => drop (chKey false (gLegRx w p))) s) else s
    if gTx w then
      let s := foldS [false, true] (fun p => drop (chKey true (gLegTx w p))) s
      let s := connectFabric (chKey true (gLegTx w false)) (fld (wd w 4) 23 0) s
      if gOneToOne w then s else connectFabric (chKey true (gLegTx w true)) (fld (wd w 4) 23 0) s
    else s
/-- A group deleted: its legs return unconnected. -/
def protDrop (n : Nat) (s : State) : State :=
  match tget? s.prot n with
  | none => s
  | some g =>
    let w := g.words
    let ks := if gMsp w then [] else
      (if gRx w then [chKey false (gLegRx w false), chKey false (gLegRx w true)] else []) ++
      (if gTx w then [chKey true (gLegTx w false), chKey true (gLegTx w true)] else [])
    foldS ks (fun k => updChan k (fun c => { restartLeaf c with conns := [] })) { s with prot := tdel s.prot n }
/-- Words 1 to 5 with HOLD_OFF and WTR replaced. -/
def protWordsWith (w req : List Word) : List Word :=
  (List.range 6).map (fun i => if i = 5 then w32 (fld (wd w 5) 7 0 + 256 * fld (wd req 5) 14 8 + 65536 * fld (wd req 5) 25 16) else wd w i)
/-- PROT_GROUP_CREATE. OP 3 reads HOLD_OFF and WTR and no other field. -/
def cmdProtGroupCreate (c : Ctx) (req : List Word) (s : State) : CmdOut :=
  let w := wd req 0
  let n := fld w 10 0
  let op := fld w 15 12
  let has := thas s.prot n
  let s' := protAdd n req s
  ladder [(bitOf w 11 || fld w 31 25 != 0 || op = 0 || decide (4 < op) ||
             (if op = 1 then protRes req || protTimesBad req || protBad req else if op = 3 then protRes req || protTimesBad req else wordsBad req 1 5), .invalid),
          (c.denied, .denied), ((op != 1 && !has) || (op = 1 && protMissing s req), .notFound),
          (c.gate || (op = 1 && (has || (if gMsp req then mspBad s req else snpBad s req))), .wrongState),
          (op = 1 && !(fits s s'), .noRes)] s fun _ =>
    match op, tget? s.prot n with
    | 1, _ => okNone s'
    | 2, _ => okNone (protDrop n s)
    | 3, some g => okNone { s with prot := tset s.prot n { g with holdOff := fld (wd req 5) 14 8, wtr := fld (wd req 5) 25 16, words := protWordsWith g.words req } }
    | _, some g => okWith (g.words.drop 1) s
    | _, none => okNone s

/-! ### PROT_COMMAND and PROT_STATUS (R281, R282) -/

/-- The priority of an external command. -/
def cmdPri (cmd : Nat) : Nat := match cmd with | 1 => 2 | 2 => 4 | 3 => 7 | 4 => 7 | 5 => 9 | _ => 1
/-- PROT_COMMAND. -/
def cmdProtCommand (c : Ctx) (req : List Word) (s : State) : CmdOut :=
  let w := wd req 0
  let n := fld w 10 0
  let cmd := fld w 15 12
  let low := match tget? s.prot n with | some g => decide ((topReq g).1.pri < cmdPri cmd) | none => false
  ladder [(bitOf w 11 || fld w 31 16 != 0 || decide (5 < cmd), .invalid), (c.denied, .denied), (!(thas s.prot n), .notFound),
          (c.gate || (cmd != 0 && cmd != 1 && low), .wrongState)] s fun _ =>
    let t := { s with prot := tupd s.prot n (fun g => { g with ext := cmd }) }
    okNone (if (tget? s.prot n).map (·.ext) == some cmd then t else sendDecision t)
/-- PROT_STATUS; K2 bits 6–8 of APS_TX are those that the protection port transmits (R113, R261). A far-end value that has not been accepted yet is open; the seconds left in WTR are rounded up. -/
def cmdProtStatus (c : Ctx) (req : List Word) (s : State) : CmdOut :=
  let n := fld (wd req 0) 10 0
  ladder [(fld (wd req 0) 31 11 != 0, .invalid), (!(thas s.prot n), .notFound), (c.gate, .wrongState)] s fun _ =>
    match tget? s.prot n with
    | none => okNone s
    | some g =>
      let left := match g.wtrUntil with | some t => (t - s.now + 999999999) / 1000000000 | none => 0
      let k2 := match portAt s (gLegRx g.words true) with
        | some q => if gMsp g.words then (txK s (gLegRx g.words true) q (ohOf s (ohKey 0 (gLegRx g.words true) 0))).2.toNat % 8 else 0
        | none => 0
      okWith ([w32 (g.top + 16 * b2n g.topRemote + 32 * b2n g.sel + 64 * b2n g.bridge + 128 * b2n g.fopPm + 256 * b2n g.fopNr + 512 * g.ext +
            4096 * b2n g.sf.1 + 8192 * b2n g.sf.2 + 16384 * b2n g.sd.1 + 32768 * b2n g.sd.2 + 65536 * left), g.apsTx + w32 (256 * k2),
          w32 (g.apsRx.getD (Config.freeNat s.free)), g.switches] ++ nsWords g.lastSwitch)
        (if g.apsRx.isNone then { s with free := s.free + 1 } else s)

/-! ### WELT_CREATE and WELT_STATUS (R269, R270, R277, R283 to R285) -/

/-- Whether a field of WELT_CREATE is reserved for the OP or out of range. -/
def weltBad (s : State) (req : List Word) : Bool :=
  let w := wd req 0
  let op := fld w 15 12
  let v := wd req 4
  let typeBad := fun (k : Nat) => match tget? s.chan k with | some c => !(isOdu (cType c.words)) || cType c.words == 8 | none => false
  let eg : Bool := op == 5
  fld w 31 16 != 0 || op = 0 || decide (6 < op) || resBad req [(1, 31, 14), (2, 31, 14), (3, 31, 24), (4, 15, 10), (4, 31, 24)] ||
    (decide (5 ≤ op) && fld w 11 0 != 0) ||
    (match op with
     | 1 => fld (wd req 3) 23 0 = 0 || bitOf v 9 || fld v 7 0 = 0 || decide (250 < fld v 7 0) ||
        (match tget? s.chan (chKey false (fld (wd req 1) 13 0)) with
         | some _ => decide (fld v 7 0 * 100000 * 65536 ≤ tDec (chanRate s (chKey false (fld (wd req 1) 13 0)))) | none => false)
     | 5 => fld (wd req 3) 23 0 = 0 || fld v 15 0 != 0
     | 3 => wordsBad req 1 3 || fld v 7 0 != 0 || fld v 31 10 != 0
     | 6 => wordsBad req 2 3
     | _ => wordsBad req 1 4) ||
    ((op = 1 || op = 5) && (typeBad (chKey eg (fld (wd req 1) 13 0)) || typeBad (chKey eg (fld (wd req 2) 13 0))))
/-- A new pair (R270, R277), the EXP bytes of its copies its own; while the engine domain is off it is DISABLED (R472). -/
def weltAdd (n : Nat) (req : List Word) (s : State) : State :=
  let v := wd req 4
  let p : Welt := { c0 := { ch := fld (wd req 1) 13 0 }, c1 := { ch := fld (wd req 2) 13 0 }, fabricCh := fld (wd req 3) 23 0, window := fld v 7 0
                    wtag := fld v 23 16, auto := bitOf v 8 }
  let s := foldS [p.c0.ch, p.c1.ch] (fun x => dropWritten (ohKey 1 (chKey false x) 0) [44, 45]) s
  let s := weltEnable n (monCreate [monAddr 8 0 n 0 0] { s with welt := tset s.welt n p })
  if domUp s 34 then s else weltDisable n s
/-- A pair deleted: its queues return, its copies are unconnected. -/
def weltDrop (n : Nat) (s : State) : State :=
  match tget? s.welt n with
  | none => s
  | some p =>
    let s := if p.st == .disabled then s else dropQueue p.c1.queue (dropQueue p.c0.queue s)
    let s := updChan (chKey false p.c0.ch) (fun c => { restartLeaf c with conns := [] }) s
    monDelete [monAddr 8 0 n 0 0] { s with welt := tdel s.welt n }
/-- A new bridge (R269): both legs take the fabric channel, their EXP bytes are its own, and both carry the frames of the one ODU from the
same frame on. -/
def bridgeAdd (req : List Word) (s : State) : State :=
  let a := fld (wd req 1) 13 0
  let b := fld (wd req 2) 13 0
  let f := fld (wd req 3) 23 0
  let s := { s with bridge := tset s.bridge a { leg1 := b, fabricCh := f, wtag := fld (wd req 4) 23 16 } }
  let s := foldS [a, b] (fun x => dropWritten (ohKey 1 (chKey true x) 0) [44, 45]) s
  let s := updOh (ohKey 1 (chKey true b) 0) (fun o => { o with txMfas := (ohOf s (ohKey 1 (chKey true a) 0)).txMfas }) s
  connectFabric (chKey true b) f (connectFabric (chKey true a) f s)
/-- A bridge deleted. -/
def bridgeDrop (a : Nat) (s : State) : State :=
  match tget? s.bridge a with
  | none => s
  | some b => foldS [a, b.leg1] (fun x => updChan (chKey true x) (fun c => { restartLeaf c with conns := [] })) { s with bridge := tdel s.bridge a }
/-- Whether the two channels of OP 1 or OP 5 or their fabric channel are not free. -/
def weltClash (s : State) (eg : Bool) (req : List Word) : Bool :=
  let a := chKey eg (fld (wd req 1) 13 0)
  let b := chKey eg (fld (wd req 2) 13 0)
  let f := fld (wd req 3) 23 0
  a = b || legBad s a || legBad s b || legsDiffer s a b ||
    (if eg then chanSlice s a != chanSlice s b || legSinkTaken s a f else fabSource s f)
/-- Row 3 of R285. -/
def weltMissing (s : State) (op n : Nat) (req : List Word) : Bool :=
  let a := fld (wd req 1) 13 0
  ((op = 2 || op = 3 || op = 4) && !(thas s.welt n)) || (op = 6 && !(thas s.bridge a)) ||
    ((op = 1 || op = 5) && (!(chExists s a) || !(chExists s (fld (wd req 2) 13 0))))
/-- Row 4 of R285 but for the gate. -/
def weltBlocked (s : State) (op n : Nat) (req : List Word) : Bool :=
  (op = 1 && (thas s.welt n || weltClash s false req)) || (op = 5 && (thas s.bridge (fld (wd req 1) 13 0) || weltClash s true req)) ||
    (op = 3 && bitOf (wd req 4) 9 && ((match tget? s.welt n with | some p => p.st != .disabled | none => false) || !(domUp s 34)))
/-- The state that OP 1, 3 or 5 leaves. -/
def weltSet (op n : Nat) (req : List Word) (s : State) : State :=
  match op with
  | 1 => weltAdd n req s
  | 5 => bridgeAdd req s
  | 3 =>
    let s := updWelt n (fun p => { p with auto := bitOf (wd req 4) 8 }) s
    if bitOf (wd req 4) 9 then weltEnable n s else s
  | _ => s
/-- WELT_CREATE. -/
def cmdWeltCreate (c : Ctx) (req : List Word) (s : State) : CmdOut :=
  let n := fld (wd req 0) 11 0
  let op := fld (wd req 0) 15 12
  let s' := weltSet op n req s
  ladder [(weltBad s req, .invalid), (c.denied, .denied), (weltMissing s op n req, .notFound), (c.gate || weltBlocked s op n req, .wrongState),
          ((op = 5 && decide (4096 ≤ s.bridge.length)) || ((op = 1 || op = 3 || op = 5) && !(fits s s')), .noRes)] s fun _ =>
    match op, tget? s.welt n with
    | 2, _ => okNone (weltDrop n s)
    | 4, some p => okNone (if p.st == .run then weltRealign n s else s)
    | 6, _ => okNone (bridgeDrop (fld (wd req 1) 13 0) s)
    | _, _ => okNone s'
/-- WELT_STATUS. -/
def cmdWeltStatus (c : Ctx) (req : List Word) (s : State) : CmdOut :=
  let w := wd req 0
  let n := fld w 11 0
  ladder [(fld w 31 13 != 0, .invalid), (!(thas s.welt n), .notFound), (c.gate, .wrongState)] s fun _ =>
    match tget? s.welt n with
    | none => okNone s
    | some p =>
      okWith [w32 (weltCode p + 4 * b2n p.last + 8 * copyCode p.c0 + 32 * copyCode p.c1 + 128 * b2n p.readAlt + 256 * b2n p.c0.mismatch + 512 * b2n p.c1.mismatch),
          w32 (declaredOf s (monAddr 8 0 n 0 0)).toNat, w32 (unsx 32 p.delay), w32 p.delayMax, w32 p.c0.hold, w32 p.c1.hold, p.c0.played, p.c1.played,
          p.switches, p.rescued, p.unrecovered, p.aisBlocks, p.early, p.late, p.seqErr, p.wsoErr, p.mergeEs, p.realign]
        (if bitOf w 12 then updWelt n (fun p => { p with delayMax := p.delay.natAbs }) s else s)

/-! ### The engine's own events -/

/-- WSO_ACCEPT (R272), while the engine domain and the copy's slice are on: the repetitions received, and the device time of the block's first
byte (R11, R32). -/
def execWsoAccept (w : Fin 4096) (copy : Fin 2) (reps : List (List Byte)) (start : BitVec 64) (frac : BitVec 16) (ended : Bool) (s : State) :
    Host.Outcome State Fault Refusal :=
  let c : Bool := copy.val == 1
  nextSettled (match tget? s.welt w.val with
    | some p =>
      if domUp s 34 && (match chanSlice s (chKey false (copyOf p c).ch) with | some sl => domUp s sl | none => false) then
        wsoAccept w.val c reps (start.toNat * 65536 + frac.toNat) ended s else s
    | none => s)
/-- WELT_PLAYOUT (R276): the block's playout point has come. In ACQUIRE, where no block has one, the output is a block of ODU-AIS (R277),
which AIS_BLOCKS does not count. -/
def execWeltPlayout (w : EngineRead 4096) (s : State) : Host.Outcome State Fault Refusal :=
  nextSettled (match tget? s.welt w.id.val with
    | some p =>
      if p.st == .acquire && domUp s 34 then weltOut w.id.val aisBlock s
      else if p.st == .run && domUp s 34 && (match p.playAt with | some t => decide (t ≤ devFine s) | none => false) then
        weltPlayout w.id.val (w.ue.map (·.val)) s
      else s
    | none => s)
/-- WELT_ABSENT_TIMER (R275). -/
def execWeltAbsentTimer (w : Fin 4096) (copy : Fin 2) (s : State) : Host.Outcome State Fault Refusal :=
  let c : Bool := copy.val == 1
  nextSettled (match tget? s.welt w.val with
    | some p =>
      let per := blockPeriod (weltRate s p)
      if copySilent per s.now (copyOf p c) then setCopyState w.val c .absent (updWelt w.val (modCopy c (silenced per s.now)) s) else s
    | none => s)
/-- WELT_ACQUIRE_TIMER (R277). -/
def execWeltAcquireTimer (w : Fin 4096) (s : State) : Host.Outcome State Fault Refusal :=
  nextSettled (match tget? s.welt w.val with
    | some p =>
      (match p.firstAt with
       | some t => if p.st == .acquire && decide (t + (windowFine p - tDec (weltRate s p)) / 65536 ≤ s.now) then weltAnchor w.val s else s
       | none => s)
    | none => s)
/-- WELT_NO_COPY_IN (R277). -/
def execWeltNoCopyIn (w : Fin 4096) (s : State) : Host.Outcome State Fault Refusal :=
  nextSettled (match tget? s.welt w.val with
    | some p =>
      (match p.noInSince with
       | some t => if p.st == .run && decide (t + 1000000000 ≤ s.now) && (p.c0.lastAt.isSome || p.c1.lastAt.isSome) then weltRealign w.val s else s
       | none => s)
    | none => s)
/-- WELT_REALIGN_AUTO (R277). -/
def execWeltRealignAuto (w : Fin 4096) (s : State) : Host.Outcome State Fault Refusal :=
  nextSettled (match tget? s.welt w.val with
    | some p =>
      (match p.rangeSince with
       | some t =>
         if p.st == .run && p.auto && p.range && decide (t + 10000000000 ≤ s.now) && (p.c0.st == .isIn || p.c1.st == .isIn) then weltRealign w.val s else s
       | none => s)
    | none => s)
/-- HOLD_OFF_EXPIRY (R263): k is 0 SF-W, 1 SF-P, 2 SD-W, 3 SD-P. -/
def execHoldOffExpiry (g : Fin 2048) (k : Fin 4) (s : State) : Host.Outcome State Fault Refusal :=
  nextSettled (match tget? s.prot g.val with
    | some x =>
      if due (tget? x.hold k.val) s then
        let y := { x with hold := tdel x.hold k.val }
        { s with prot := tset s.prot g.val (if reqBit k.val true x then setReq k.val false true y else y) }
      else s
    | none => s)
/-- PROT_WTR_EXPIRY (R265). -/
def execProtWtrExpiry (g : Fin 2048) (s : State) : Host.Outcome State Fault Refusal :=
  nextSettled (match tget? s.prot g.val with
    | some x => if due x.wtrUntil s && ownDecides s then { s with prot := tset s.prot g.val { x with wtrUntil := none } } else s
    | none => s)
/-- FOP_NR_TIMER (R266). -/
def execFopNrTimer (g : Fin 2048) (s : State) : Host.Outcome State Fault Refusal :=
  nextSettled (match tget? s.prot g.val with
    | some x =>
      (match x.nrSince with
       | some t => if !x.fopNr && decide (t + 50000000 ≤ s.now) then
           evtProtFop g.val false true true { s with prot := tset s.prot g.val { x with fopNr := true } } else s
       | none => s)
    | none => s)

end Sys2Proof.Machine
end

