-- ==== Sys2Proof/Machine/Clocks.lean ====
section
/-! DEFINITION. Timing commands and events (10_timing_core.md): SYS_TIME_SET, TMC_REF_CONFIG, TMC_SELECT, TMC_STATUS, TMC_DCO_STEER,
TMC_OUTPUT_CONFIG, TMC_HISTORY, candidates, locks, switches, the OCXO, loop updates, pulses and the whole-second crossing. -/

namespace Sys2Proof.Machine

/-! ### SYS_TIME_SET (R309) -/

/-- SYS_TIME_SET. -/
def cmdSysTimeSet (c : Ctx) (req : List Word) (s : State) : CmdOut :=
  let op := fld (wd req 0) 1 0
  let ns := (wd req 1).toNat + 4294967296 * (wd req 2).toNat
  let frac := fld (wd req 3) 15 0
  let x : Int := sx 64 ns * 65536 + (frac : Int)
  let whole : Bool := x % 65536000000000 == 0
  let st := (dpllOf s 0).st
  let bad := resBad req [(0, 31, 2), (3, 31, 16)] || op = 0 || op = 3 || (op = 1 && (ns % 1000000000 != 0 || frac != 0))
  ladder [(bad, .invalid), (c.denied, .denied),
          (c.gate || (op = 2 && !whole && timeAligned s 0 && (st == .locking || st == .locked)), .wrongState)] s fun _ =>
    if op = 1 then (.waits .timeSet, { s with tmc.waitingTime := some ns }) else okNone (stepTimeBy x s)

/-- WHOLE_SECOND_CROSSING: the second closes as an ordinary second, and device time takes the value, its sub-second phase kept. DESIGN CHOICE
(log 23): a step by OP 1 at a crossing that is also the old bin's own end leaves that bin complete; only the bin that opens is SUSPECT. -/
def execWholeSecondCrossing (s : State) : Host.Outcome State Fault Refusal :=
  match s.tmc.waitingTime with
  | none => .next s
  | some v =>
    if tmcRuns s && (pulseDue s || decide (devNs s % 1000000000 ≤ 5)) then
      let s := if pulseDue s then secondPulse s else s
      let s := { s with tmc.waitingTime := none }
      let s := if devSec s * 1000000000 = v then s else stepTime (v * 2 ^ 48 + s.tmc.dt.toNat % (1000000000 * 2 ^ 48)) s
      nextSettled (finishWaiting (fun k => k == .timeSet) .ok [] s)
    else .next s
/-- PULSE_REFERENCE_EDGE: `sub` is the edge's place within the clock cycle, in 1/65,536 ns. -/
def execPulseReferenceEdge (c : Fin 8) (sub : Fin 327680) (s : State) : Host.Outcome State Fault Refusal := nextSettled (pulseIn c.val sub.val s)

/-! ### TMC_REF_CONFIG (R291 to R295, R317, R323) -/

/-- Whether TMC_REF_CONFIG words 1 to 7 hold a value out of range for candidate c. -/
def refBad (c : Nat) (pulse : Bool) (req : List Word) : Bool :=
  let sel := decide (8 ≤ c) && decide (c < 40)
  let fr := fld (wd req 1) 29 0
  let ac := acceptTen (wd req 3)
  let rj := rejectTen (wd req 3)
  resBad req [(1, 31, 30), (2, 31, 11), (3, 15, 13), (3, 31, 29), (4, 15, 12), (4, 23, 22), (4, 31, 28), (5, 31, 16), (7, 31, 16)] ||
    (pulse && decide (8 ≤ c)) || (if c < 8 && !pulse then decide (fr < 1000) || decide (750000000 < fr) else fr != 0) ||
    (!sel && (wd req 2 != 0 || fld (wd req 4) 27 24 = 0)) || decide (5000 < ac) || decide (5000 < rj) || decide (rj ≤ ac) ||
    decide (3600 < fld (wd req 4) 11 0) || decide (60 < fld (wd req 4) 21 16) ||
    (fld (wd req 5) 15 0 != 0 && decide (fld (wd req 5) 15 0 < 10))
/-- Whether a selector's port refuses the binding. -/
def refPortBad (s : State) (c : Nat) (req : List Word) : Bool :=
  let p := fld (wd req 2) 7 0
  match portAt s p with
  | some q => p / 8 != c - 8 || !(sliceUp s (c - 8)) || decide (q.width ≤ fld (wd req 2) 10 8) ||
      (fld (wd req 4) 27 24 = 0 && q.proto != 5 && q.proto != 6)
  | none => false
/-- A candidate's configuration written, its state untouched. -/
def refStore (pulse : Bool) (req : List Word) (x : Candidate) : Candidate :=
  { x with words := (List.range 7).map (fun i => wd req (i + 1)), pulse := pulse }
/-- A candidate starts in WAITING with QUAL_INIT, its front reset at the next front-sample instant (R344); activity, offsets and phase are open
until they are measured. -/
def candBegin (c : Nat) (s : State) : State :=
  let n := s.free
  modCand c (fun x => candStart (cQualInit x) s.now { x with
    st := .waiting, faults := (if x.st == .unused then 0 else x.faults), activity := candSource s c && Config.freeBit n
    off1 := Config.freeInt n, off10 := Config.freeInt (n + 1), phase := Config.freeInt (n + 2)
    tdc := none, phaseAt := s.now * 65536, bounds := [], front := { x.front with resetDue := true } }) { s with free := n + 3 }
/-- What makes a candidate another source. -/
def sourceChanged (a b : Candidate) : Bool :=
  cFreq a != cFreq b || a.pulse != b.pulse || cPort a != cPort b || cLane a != cLane b
/-- Selection after a change of QL or PRIO (R317): every DPLL whose rank of the candidate changed, cause 4. -/
def rankReselect (c : Nat) (old : Candidate) (s : State) : State :=
  let x := candOf s c
  let q := fld (wd old.words 3) 27 24 != fld (wd x.words 3) 27 24
  foldS ((List.range 4).filter (fun d => q || cPrio old d != cPrio x d)) (fun d => runSelect d 4) s
/-- TMC_REF_CONFIG with READ = 0 taken. -/
def refApply (c : Nat) (en pulse : Bool) (req : List Word) (s : State) : State :=
  let old := candOf s c
  let s := modCand c (refStore pulse req) s
  if !en then
    if candOn old then
      candReselect c true (evtRef c 5 (modCand c (fun x => { x with st := .unused, activity := false, timerUntil := none, timerLeft := 0, front := frontReset x.front }) s))
    else s
  else if !(candOn old) || sourceChanged old (candOf s c) then candReselect c false (candBegin c s)
  else rankReselect c old s
/-- TMC_REF_CONFIG. -/
def cmdTmcRefConfig (c : Ctx) (req : List Word) (s : State) : CmdOut :=
  let w := wd req 0
  let n := fld w 5 0
  let en := bitOf w 8
  let pulse := bitOf w 9
  let rd := bitOf w 10
  let sel : Bool := decide (8 ≤ n) && decide (n < 40) && en
  let bad := resBad req [(0, 7, 6), (0, 31, 11)] || decide (41 < n) || (if rd then en || pulse || wordsBad req 1 7 else refBad n pulse req)
  ladder [(bad, .invalid), (c.denied, .denied), (!rd && sel && (portAt s (fld (wd req 2) 7 0)).isNone, .notFound),
          (c.gate || (!rd && sel && refPortBad s n req), .wrongState)] s fun _ =>
    if rd then okWith (candOf s n).words s else okNone (refApply n en pulse req s)

/-! ### TMC_SELECT (R289, R298, R299, R306, R318) -/

/-- OCXO_IN is lost or re-configured (R289): the correction is frozen. -/
def ocxoLost (s : State) : State :=
  if s.tmc.ocxoActive then
    let s := { s with tmc.ocxoActive := false, tmc.ocxoSlew := true }
    raise 0x0904 clsState 0 0 0 0 0 0 (foldS (List.range 4) (fun d => stick d 7) s)
  else s
/-- MODE set to DCO: the loop is opened and the word kept. -/
def toDco (d : Nat) (s : State) : State :=
  let s := enterState d .dco s
  let s := modDpll d (fun x => { x with sel := none, switch := none, heldAdj := 0, err := 0 }) s
  match (dpllOf s d).pendSelect with
  | some (op, c) => applySelect d op c (modDpll d (fun x => { x with pendSelect := none }) s)
  | none => s
/-- MODE set to AUTO: LOCKING on the selection's target, built out, or HOLDOVER on the word kept. -/
def fromDco (d : Nat) (s : State) : State :=
  let s := modDpll d (fun x => { x with spread := none, following := followNow s d }) s
  match selectTarget s d with
  | some c => startLoop d c true s
  | none => enterState d .holdover s
/-- TMC_SELECT OP 1 taken. -/
def dpllConfig (d : Nat) (ws : List Word) (s : State) : State :=
  let s := modDpll d (fun x => { x with cfg := ws }) s
  let dco := bitOf (wd ws 0) 0
  let x := dpllOf s d
  if dco && x.st != .dco then toDco d s
  else if !dco && x.st == .dco then fromDco d s
  else match x.sel with
    | some c => if keeps s d c then s else runSelect d 0 s
    | none => s
/-- TMC_SELECT OP 2 to OP 5 taken: held while a switch is in progress. -/
def dpllForce (d op c : Nat) (s : State) : State :=
  if (dpllOf s d).switch.isSome then modDpll d (fun x => { x with pendSelect := some (op, c) }) s
  else runSelect d (opCause op) (applySelect d op c s)
/-- Whether words 1 to 4 of TMC_SELECT OP 1 hold a value out of range. -/
def dpllBad (s : State) (d : Nat) (req : List Word) : Bool :=
  let bw := fld (wd req 2) 21 0
  resBad req [(1, 31, 6), (2, 31, 22), (4, 15, 12)] || (bitOf (wd req 1) 4 && d != 0) || decide (4000000 < bw) ||
    decide (3600 < fld (wd req 4) 11 0) ||
    !(ratioOk (cfgR s) (cfgD s) (dpllOf s d).rho (if bw = 0 then 1000 else bw))
/-- TMC_SELECT. -/
def cmdTmcSelect (c : Ctx) (req : List Word) (s : State) : CmdOut :=
  let w := wd req 0
  let d := fld w 1 0
  let op := fld w 7 4
  let n := fld w 13 8
  let ox := fld (wd req 1) 7 6
  let bad := resBad req [(0, 3, 2), (0, 31, 14)] || op = 0 || decide (7 < op) || (if op = 2 then decide (41 < n) else n != 0) ||
    (if op = 1 then dpllBad s d req
     else if op = 7 then resBad req [(1, 5, 0), (1, 31, 8)] || ox = 3 || wordsBad req 2 3
     else wordsBad req 1 4)
  ladder [(bad, .invalid), (c.denied, .denied), (c.gate, .wrongState)] s fun _ =>
    if op = 1 then okNone (dpllConfig d ((List.range 4).map (fun i => wd req (i + 1))) s)
    else if op = 6 then
      let g := (dpllOf s d).cfg
      okWith (w32 ((wd g 0).toNat + 64 * s.tmc.ocxoCfg) :: (List.range 3).map (fun i => wd g (i + 1))) s
    else if op = 7 then
      okNone (if s.tmc.ocxoCfg = ox then s
        else { ocxoLost s with tmc.ocxoCfg := ox, tmc.ocxoSince := if ox = 0 then none else some s.now })
    else okNone (dpllForce d op n s)

/-! ### TMC_DCO_STEER (R307, R319) -/

/-- TMC_DCO_STEER. -/
def cmdTmcDcoSteer (c : Ctx) (req : List Word) (s : State) : CmdOut :=
  let d := fld (wd req 0) 1 0
  let op := fld (wd req 0) 7 4
  let x := dpllOf s d
  let v := sx 40 ((wd req 1).toNat + 4294967296 * fld (wd req 2) 7 0)
  let word := if op = 2 then x.dco + v else v
  let bad := resBad req [(0, 3, 2), (0, 31, 8), (2, 31, 8)] || op = 0 || decide (3 < op) ||
    (if op = 3 then wd req 2 != 0 else decide (dcoMax < word) || decide (word < -dcoMax))
  ladder [(bad, .invalid), (c.denied, .denied),
          (c.gate || (if op = 3 then x.st == .freeRun || x.st == .holdover else x.st != .dco), .wrongState)] s fun _ =>
    if op = 3 then okNone (phaseAdj d (sx 32 (wd req 1).toNat) s) else okNone (modDpll d (fun x => { x with dco := word }) s)

/-! ### TMC_OUTPUT_CONFIG (R310 to R313, R320) -/

/-- Whether TMC_OUTPUT_CONFIG holds a value out of range for a clock output. -/
def clkBad (req : List Word) : Bool :=
  let hz := fld (wd req 1) 29 0
  let f := hz * 65536 + fld (wd req 2) 15 0
  let top := if fld (wd req 0) 9 8 = 2 then 250000000 else 800000000
  resBad req [(2, 19, 16), (4, 15, 0), (5, 0, 0), (5, 31, 16)] || decide (hz < 1000) || decide (top * 65536 < f) ||
    decide (1000000000000 * 65536 < 2 * (sx 32 (wd req 3).toNat).natAbs * f)
/-- Whether it holds a value out of range for a pulse output. -/
def pulseBad (req : List Word) : Bool :=
  let per := fld (wd req 1) 29 0
  let wid := fld (wd req 2) 19 0
  fld (wd req 0) 9 8 != 2 || fld (wd req 0) 7 6 != 0 || decide (per < 100) || decide (1000000 < per) || 1000000 % per != 0 ||
    wid = 0 || decide (per < 2 * wid) || decide (1000 * per ≤ (sx 32 (wd req 3).toNat).natAbs)
/-- A clock output's words taken: an output not driven takes them at once; one that changes frequency or format runs on as it did until it has
stopped and restarts; PHASE and the source DPLL change at the next rising edge, so no cycle is shorter than half a period (R312). -/
def clkApply (s : State) (fresh re : Bool) (old o : Output) : Output :=
  let t := s.now * 65536
  let ws := clkWords old t
  if fresh || !(outOn o) then { o with run := o.words, turn := none, gate := false, gateAt := 0 }
  else if re || old.restartUntil.isSome then { o with run := ws, turn := none }
  else if wd o.words 3 == wd ws 3 && fld (wd o.words 0) 7 6 == fld (wd ws 0) 7 6 then { o with run := o.words, turn := none }
  else { o with run := ws, turn := some (clkReach s ws 0, o.words) }
/-- An output's words taken: PULSE outputs jump when enabled or re-timed, and otherwise jump or slew as ANNEAL says; an enabled output
whose frequency or format changes is held low. -/
def outApply (n : Nat) (ws : List Word) (s : State) : State :=
  let old := outOf s n
  let o : Output := { old with words := ws }
  let fresh : Bool := !(outOn old)
  let freq : Bool := wd ws 1 != wd old.words 1 || (decide (n < 16) && fld (wd ws 2) 15 0 != fld (wd old.words 2) 15 0)
  let re : Bool := freq || fld (wd ws 0) 9 8 != fld (wd old.words 0) 9 8
  let o := { o with restartUntil := if !(outOn o) then none else if !fresh && re then some s.now else old.restartUntil }
  if n < 16 then modOut n (fun _ => clkApply s fresh re old o) s
  else
    let jump : Bool := fresh || !(outOn o) || freq || !(bitOf (wd ws 5) 0)
    let o := if jump then { o with pos := pulseTarget o, aligned := true, last := none } else { o with aligned := o.pos == pulseTarget o }
    let s := modOut n (fun _ => o) s
    if o.aligned && !old.aligned && outOn o && !fresh then evtOutput n true s else s
/-- TMC_OUTPUT_CONFIG. -/
def cmdTmcOutputConfig (c : Ctx) (req : List Word) (s : State) : CmdOut :=
  let w := wd req 0
  let n := fld w 4 0
  let rd := bitOf w 12
  let bad := fld w 31 13 != 0 || decide (19 < n) ||
    (if rd then wordsBad req 1 5
     else fld w 9 8 = 3 || fld w 11 10 = 3 || resBad req [(1, 31, 30), (2, 31, 20), (4, 31, 16), (5, 15, 1)] ||
       (if n < 16 then clkBad req else pulseBad req))
  ladder [(bad, .invalid), (c.denied, .denied), (c.gate, .wrongState)] s fun _ =>
    if rd then okWith (w32 ((wd (outOf s n).words 0).toNat / 32 * 32 + n) :: (List.range 5).map (fun i => wd (outOf s n).words (i + 1))) s
    else okNone (outApply n ((List.range 6).map (fun i => wd req i)) s)
/-- CLKOUT_RESTART: the output restarts at its new setting. -/
def execClkoutRestart (n : Fin 20) (s : State) : Host.Outcome State Fault Refusal :=
  .next (if (outOf s n.val).restartUntil.isSome then
    gateSettle (modOut n.val (fun o => { o with restartUntil := none, run := o.words, turn := none }) s) else s)
/-- PULSE_EDGE. -/
def execPulseEdge (k : Fin 4) (s : State) : Host.Outcome State Fault Refusal := .next (pulseEdge (16 + k.val) s)

/-! ### TMC_STATUS and TMC_HISTORY (R314, R315, R321, R322) -/

/-- A mask of candidates as two words. -/
def candMask (p : Nat → Bool) : List Word :=
  let v := ((List.range 42).map (fun c => if p c then 2 ^ c else 0)).foldl (· + ·) 0
  [w32 v, w32 (v / 4294967296)]
/-- The 32-bit code of a signed number, saturating. -/
def satWord (v : Int) : Word := w32 (unsx 32 (clampI (-2147483648) 2147483647 v))
/-- The two words of a 40-bit or 64-bit signed number of n bits. -/
def longWords (n : Nat) (v : Int) : List Word := [w32 (unsx n v), w32 (unsx n v / 4294967296)]
/-- The DPLL response. -/
def dpllWords (s : State) (d : Nat) : List Word :=
  let x := dpllOf s d
  w32 (dstateCode x.st + 8 * x.sel.getD 63 + 512 * b2n x.forced.isSome + 1024 * b2n x.hoForced + 2048 * b2n x.disagree +
      4096 * b2n (hoValid s d) + 8192 * b2n s.tmc.ocxoActive) ::
    w32 x.sticky.toNat :: longWords 40 (dcoUse x) ++ [satWord x.err] ++ longWords 64 (if x.sel.isSome then x.b else 0) ++
    candMask (fun c => (candOf s c).st == .qualified) ++ candMask (fun c => (candOf s c).dissent.getLsbD d) ++
    candMask (selectable s d)
/-- Seconds left in a candidate's timer. -/
def waitLeft (s : State) (x : Candidate) : Nat :=
  ((match x.timerUntil with | some u => u - s.now | none => x.timerLeft) + 999999999) / 1000000000
/-- The candidate response. -/
def candWords (s : State) (d c : Nat) : List Word :=
  let x := candOf s c
  [w32 (cstateCode x + 4 * b2n x.activity + 8 * candQl s c + 128 * b2n (x.dissent.getLsbD d) + 256 * (waitLeft s x % 4096)),
   satWord x.off1, satWord x.off10, w32 (unsx 32 (phaseCand s c - phaseNow s d)), x.faults]
/-- TMC_STATUS. -/
def cmdTmcStatus (c : Ctx) (req : List Word) (s : State) : CmdOut :=
  let w := wd req 0
  let d := fld w 1 0
  let clr := bitOf w 2
  let cq := bitOf w 3
  let n := fld w 9 4
  ladder [(fld w 31 10 != 0 || decide (41 < n) || (cq && clr), .invalid), (c.gate, .wrongState)] s fun _ =>
    if cq then okWith (candWords s d n) s
    else okWith (dpllWords s d) (if clr then modDpll d (fun x => { x with sticky := 0 }) s else s)

/-- The words of a DPLL's record. -/
def dpllHistWords (r : DpllHist) : List Word :=
  w32 (dstateCode r.st + 8 * r.sel + 512 * b2n r.gap + 1024 * r.sticky.toNat) :: longWords 40 r.dco ++ [satWord r.err]
/-- The words of a candidate's record. -/
def candHistWords (r : CandHist) : List Word :=
  [satWord r.off1, w32 (cstateCode { st := r.st } + 4 * b2n r.actLost + 8 * b2n r.dissent0 + 16 * b2n r.gap)]
/-- A TMC_HISTORY response from the starts and words of the records; with none, the start of the second at AGE is open. -/
def histReply (l : List (Nat × List Word)) (s : State) : CmdOut :=
  match l with
  | [] => okWith [0, w32 (Config.freeNat s.free), w32 (Config.freeNat (s.free + 1))] { s with free := s.free + 2 }
  | r :: _ => okWith (w32 l.length :: nsWords r.1 ++ l.flatMap (·.2)) s
/-- The records of the seconds from number n on towards older ones, newest first, as far as they follow each other. -/
def histRun {α : Type} (sec : α → Int) (n : Int) (l : List α) : List α :=
  match l with
  | [] => []
  | a :: r => if n < sec a then histRun sec n r else if sec a = n then a :: histRun sec (n - 1) r else []
/-- TMC_HISTORY: AGE counts closed seconds. -/
def cmdTmcHistory (c : Ctx) (req : List Word) (s : State) : CmdOut :=
  let k := fld (wd req 0) 1 0
  let i := fld (wd req 0) 7 2
  let age := fld (wd req 1) 19 0
  let n := fld (wd req 2) 6 0
  let bad := resBad req [(0, 31, 8), (1, 31, 20), (2, 31, 7)] || k = 0 || k = 3 || decide ((if k = 1 then 3 else 41) < i) || age = 0 ||
    n = 0 || decide ((if k = 1 then 63 else 126) < n)
  ladder [(bad, .invalid), (c.gate, .wrongState)] s fun _ =>
    let sec : Int := (s.tmc.secs : Int) + 1 - (age : Int)
    if k = 1 then histReply (((histRun (·.sec) sec (dpllOf s i).hist).take n).map (fun r => (r.start, dpllHistWords r))) s
    else histReply (((histRun (·.sec) sec (tget s.tmc.candHist [] i)).take n).map (fun r => (r.start, candHistWords r))) s

/-! ### Candidates (R290 to R293, R297) -/

/-- TMC_SECOND_BOUNDARY. -/
def execTmcSecondBoundary (meas : SecondMeas) (s : State) : Host.Outcome State Fault Refusal := nextSettled (secondBoundary meas s)
/-- CANDIDATE_ACTIVITY_LOSS. -/
def execCandidateActivityLoss (c : Fin 42) (s : State) : Host.Outcome State Fault Refusal := nextSettled (activityLost c.val s)
/-- How far a phase sample departs from the extrapolation of the preceding samples at OFFSET_1S, in 1/65,536 ns (R292). -/
def departure (s : State) (c : Nat) (v : Int) : Nat :=
  let x := candOf s c
  (candPhase s c (unwrapTdc s c x.tdc v) - phaseOn x.phase x.off1 (s.now * 65536 - x.phaseAt)).natAbs
/-- CANDIDATE_PHASE_JUMP: `phase` is the TDC sample in 1/65,536 ns; it is a jump when it departs by more than PJ_THR. -/
def execCandidatePhaseJump (c : Fin 42) (phase : Int) (s : State) : Host.Outcome State Fault Refusal :=
  let x := candOf s c.val
  nextSettled (if candOn x && cPjThr x != 0 && decide (65536 * cPjThr x < departure s c.val phase) then candFault c.val 3 s else s)
/-- CANDIDATE_WAIT_EXPIRY: selection takes the candidate up at the next second boundary. -/
def execCandidateWaitExpiry (c : Fin 42) (s : State) : Host.Outcome State Fault Refusal :=
  let x := candOf s c.val
  nextSettled (if x.st == .waiting && due x.timerUntil s && x.activity && decide (x.off1.natAbs ≤ cAccept x) then
    evtRef c.val 4 (modCand c.val (fun x => { x with st := .qualified, timerUntil := none, timerLeft := 0 }) s) else s)

/-! ### DPLLs (R289, R299, R303, R307, R331) -/

/-- Whether a timer that started at t has run for n ns. -/
def ranFor (t : Option Nat) (n : Nat) (s : State) : Bool := match t with | some a => decide (a + n ≤ s.now) | none => false
/-- DPLL_LOCK_DETECT. -/
def execDpllLockDetect (d : Fin 4) (s : State) : Host.Outcome State Fault Refusal :=
  let x := dpllOf s d.val
  nextSettled (if x.st == .locking && x.valid && ranFor x.lockSince 2000000000 s then enterState d.val .locked s else s)
/-- DPLL_LOCK_LOSS. -/
def execDpllLockLoss (d : Fin 4) (s : State) : Host.Outcome State Fault Refusal :=
  let x := dpllOf s d.val
  nextSettled (if x.st == .locked && x.valid && ranFor x.lossSince 1000000000 s then enterState d.val .locking s else s)
/-- SWITCH_COMPLETION: `phi` is the TDC sample of a clock target at the completion instant, in 1/65,536 ns. -/
def execSwitchCompletion (d : Fin 4) (phi : Int) (s : State) : Host.Outcome State Fault Refusal := nextSettled (switchDone d.val phi s)
/-- OCXO_QUALIFY. -/
def execOcxoQualify (s : State) : Host.Outcome State Fault Refusal :=
  .next (if s.tmc.ocxoCfg != 0 && !s.tmc.ocxoActive && ranFor s.tmc.ocxoSince 60000000000 s then
    raise 0x0904 clsState 0 0 1 0 0 0 { s with tmc.ocxoActive := true } else s)
/-- OCXO_DISQUALIFY. -/
def execOcxoDisqualify (s : State) : Host.Outcome State Fault Refusal :=
  .next (if s.tmc.ocxoCfg = 0 then s else { ocxoLost s with tmc.ocxoSince := some s.now })
/-- LOOP_UPDATE: `sub` is the instant's place within the clock cycle, in 1/65,536 ns. -/
def execLoopUpdate (d : Fin 4) (sub : Fin 327680) (s : State) : Host.Outcome State Fault Refusal := .next (loopUpdate d.val sub.val s)
/-- Every candidate's timer follows the validity of its front output (R346). -/
def candTimers (s : State) : State := foldS (List.range 42) (fun c s => if candOn (candOf s c) then modCand c (candTimer s.now) s else s) s
/-- FRONT_SAMPLE. -/
def execFrontSample (xs : List TdcRun) (s : State) : Host.Outcome State Fault Refusal :=
  .next (candTimers (frontSample (xs.map (fun h => (h.c.val, h.xs))) s))
/-- FADE_COMPLETE. -/
def execFadeComplete (c : Fin 42) (s : State) : Host.Outcome State Fault Refusal := .next (fadeComplete c.val s)
/-- PHASE_ADJ_SPREAD_END. -/
def execPhaseAdjSpreadEnd (d : Fin 4) (s : State) : Host.Outcome State Fault Refusal :=
  .next (match (dpllOf s d.val).spread with
    | some r => if r.start + r.len ≤ s.now then dcoSettle (modDpll d.val (fun x => { x with spread := none }) s) else s
    | none => s)

/-! ### Temper commands (R337 to R349) -/

/-- ρ of a DPLL as TEMPER_CONFIG words 2 and 3. -/
def rhoWords (rho : Nat) : List Word :=
  [w32 (rho % 4294967296), w32 (rho % 281474976710656 / 4294967296 + 65536 * (rho / 281474976710656))]
/-- R of TEMPER_CONFIG OP 1: 0 stands for 250. -/
def temperR (req : List Word) : Nat := if fld (wd req 1) 14 0 = 0 then 250 else fld (wd req 1) 14 0
/-- D of OP 1: 0 stands for 10. -/
def temperD (req : List Word) : Nat := if fld (wd req 1) 22 16 = 0 then 10 else fld (wd req 1) 22 16
/-- ρ of OP 2: 0 stands for 1. -/
def temperRho (req : List Word) : Nat :=
  let v := fld (wd req 3) 21 0 * 4294967296 + (wd req 2).toNat
  if v = 0 then 281474976710656 else v
/-- Whether OP 1's R or D is out of range or breaks a ratio of R332. -/
def temperRatesBad (s : State) (req : List Word) : Bool :=
  resBad req [(1, 15, 15), (1, 31, 23)] || decide (temperR req < 25) || decide (25000 < temperR req) || decide (64 < temperD req) || wordsBad req 2 2 ||
    (List.range 4).any (fun d => !(ratioOk (temperR req) (temperD req) (dpllOf s d).rho (dBw (dpllOf s d))))
/-- Whether OP 2's ρ breaks a ratio of R332. -/
def temperRhoBad (s : State) (d : Nat) (req : List Word) : Bool :=
  wd req 1 != 0 || fld (wd req 3) 31 22 != 0 || !(ratioOk (cfgR s) (cfgD s) (temperRho req) (dBw (dpllOf s d)))
/-- TEMPER_CONFIG: the resets of OP 1 and OP 3 take effect at the next front-sample instant (R344). -/
def cmdTemperConfig (c : Ctx) (req : List Word) (s : State) : CmdOut :=
  let w := wd req 0
  let op := fld w 3 0
  let d := fld w 5 4
  let n := fld w 11 6
  let bad := fld w 31 12 != 0 || op = 0 || decide (4 < op) || ((op = 1 || op = 3) && d != 0) || (if op = 3 then decide (41 < n) else n != 0) ||
    (if op = 1 then temperRatesBad s req else if op = 2 then temperRhoBad s d req else wordsBad req 1 3)
  ladder [(bad, .invalid), (c.denied, .denied), (c.gate, .wrongState)] s fun _ =>
    if op = 1 then okNone { s with tmc.rateDue := some (temperR req, temperD req) }
    else if op = 2 then okNone (modDpll d (fun x => { x with rho := temperRho req }) s)
    else if op = 3 then okNone (modCand n (fun x => { x with front := { x.front with resetDue := true } }) s)
    else okWith (w32 (cfgR s + 65536 * cfgD s) :: rhoWords (dpllOf s d).rho) s

/-- The staging record after a segment: a segment with FIRST = 0 first clears it. -/
def segStaged (first n : Nat) (req : List Word) (t : Table Int) : Table Int :=
  ((List.range n).map (fun i => (first + i, sx 24 (wd req (3 + i)).toNat))).foldl (fun t e => tset t e.1 e.2) (if first = 0 then [] else t)
/-- The coefficients of a staging record in order. -/
def stagedCoefs (t : Table Int) : List Int := (List.range 511).map (fun i => tget t 0 i)
/-- The inactive bank written. -/
def putInactive (b : Bank) (f : Front) : Front := if f.active then { f with bankA := b } else { f with bankB := b }
/-- TEMPER_BANK_LOAD. -/
def cmdTemperBankLoad (c : Ctx) (req : List Word) (s : State) : CmdOut :=
  let w := wd req 0
  let n := fld w 5 0
  let op := fld w 9 8
  let commit := bitOf w 10
  let typ := bitOf w 11
  let src := fld w 21 16
  let first := fld (wd req 1) 8 0
  let cnt := fld (wd req 1) 16 9
  let gd := fld (wd req 2) 16 0
  let f := (candOf s n).front
  let staged := segStaged first cnt req f.staged
  let full : Bool := decide (511 ≤ staged.length)
  let coefs := stagedCoefs staged
  let busy := f.fade.isSome || f.pend.isSome
  let bad := resBad req [(0, 7, 6), (0, 15, 12), (0, 31, 23), (1, 31, 17), (2, 31, 17)] || decide (41 < n) || op = 0 || op = 3 ||
    (candOf s n).pulse || (List.range cnt).any (fun i => fld (wd req (3 + i)) 31 24 != 0) ||
    (if op = 2 then decide (41 < src) || first != 0 || cnt != 0 || commit || typ || gd != 0
     else fld w 22 16 != 0 || decide (510 < first) || decide (250 < cnt) || decide (511 < first + cnt) || (!commit && typ) ||
       (if commit && typ then gd = 0 || decide (130560 < gd) else gd != 0) || (commit && full && !(bankOk coefs typ gd)))
  ladder [(bad, .invalid), (c.denied, .denied), (c.gate || (commit && !full) || ((commit || op = 2) && busy), .wrongState)] s fun _ =>
    if op = 2 then okNone (modCand n (fun x => { x with front := putInactive (frontBank (candOf s src).front (bitOf w 22)) x.front }) s)
    else if commit then
      okNone (modCand n (fun x => { x with front := putInactive { factory := false, coef := coefs, typ := typ, gd := gd } { x.front with staged := [] } }) s)
    else okNone (modCand n (fun x => { x with front := { x.front with staged := staged } }) s)

/-- TEMPER_BANK_SWAP: with FADE = 0 the new bank is active at the next front sample. -/
def cmdTemperBankSwap (c : Ctx) (req : List Word) (s : State) : CmdOut :=
  let w := wd req 0
  let n := fld w 5 0
  let op := fld w 9 8
  let len := fld (wd req 1) 15 0
  let bad := resBad req [(0, 7, 6), (0, 31, 10), (1, 31, 16)] || decide (41 < n) || op = 0 || op = 3 || (op = 2 && len != 0) || (candOf s n).pulse
  ladder [(bad, .invalid), (c.denied, .denied), (c.gate, .wrongState)] s fun _ =>
    okNone (modCand n (fun x => { x with front := if op = 1 then swapRequest len x.front else { x.front with pend := none } }) s)

/-- TEMPER_STATUS. -/
def cmdTemperStatus (c : Ctx) (req : List Word) (s : State) : CmdOut :=
  let w := wd req 0
  let n := fld w 7 2
  let d := fld w 9 8
  let dp := bitOf w 0
  ladder [(resBad req [(0, 1, 1), (0, 31, 10)] || decide (41 < n), .invalid), (c.gate, .wrongState)] s fun _ =>
    if dp then
      let x := dpllOf s d
      okWith (w32 ((candUse x).getD 63 + 64 * b2n x.valid + 128 * b2n x.linear) :: rhoWords x.rho ++
        [w32 (updateRate s.tmc.cicR s.tmc.firD x.rho), w32 (bwEff s x), x.heldCnt]) s
    else
      let x := candOf s n
      let f := x.front
      let left := match f.fade with | some e => e.len - e.done | none => 0
      okWith [w32 (b2n f.active + 2 * b2n f.fade.isSome + 4 * b2n f.pend.isSome + 8 * b2n (frontValid x) + 16 * b2n x.pulse +
                32 * b2n f.bankA.typ + 64 * b2n f.bankB.typ + 128 * b2n (decide (511 ≤ f.staged.length))),
              w32 (left + 65536 * f.pend.getD 0), w32 f.bankA.gd, w32 f.bankB.gd, w32 (bankCrc f.bankA), w32 (bankCrc f.bankB),
              w32 (gdTotal s x)] s

end Sys2Proof.Machine
end

