-- ==== Sys2Proof/Machine/Pairs.lean ====
section
/-! DEFINITION. Twin commands and events (12_twin_pair.md): TWIN_CONFIG, TWIN_STATUS, TWIN_SWITCH, TWIN_COMMIT, heartbeats, the claim,
handover, the link, the steps of a commit, decisions, snapshots and cross-feed. -/

namespace Sys2Proof.Machine

/-! ### TWIN_CONFIG, TWIN_STATUS, TWIN_SWITCH, TWIN_COMMIT (R373 to R378) -/

/-- The rate of a port in kbit/s, counted as R38 counts channels. -/
def portRate (q : Port) : Nat :=
  if q.proto = 1 then typeRate 3 1 else if q.proto = 2 then typeRate 4 1 else if q.proto = 3 then typeRate 5 1
  else if q.proto = 4 then typeRate 8 (otucN q) else if q.proto = 5 then 9953280 else if q.proto = 6 then 39813120 else ethRate q.proto
/-- The rates of the single-homed ports together. -/
def xfeedLoad (s : State) : Nat := ((s.port.filter (fun e => homingOf s e.1 != 0)).map (fun e => portRate e.2)).foldl (· + ·) 0
/-- HOMING of 16 ports as a word. -/
def homingWord (s : State) (i : Nat) : Word := w32 (((List.range 16).map (fun k => homingOf s (16 * i + k) * 4 ^ k)).foldl (· + ·) 0)
/-- TWIN_CONFIG. -/
def cmdTwinConfig (c : Ctx) (req : List Word) (s : State) : CmdOut :=
  let w := wd req 0
  let v := wd req 1
  let op := fld w 3 0
  let paired := bitOf w 4
  let p := fld v 7 0
  let hom := fld v 9 8
  let bad := fld w 31 7 != 0 || fld v 31 10 != 0 || op = 0 || decide (3 < op) || hom = 3 || (op != 1 && fld w 6 4 != 0) || (op != 2 && v != 0)
  ladder [(bad, .invalid), (c.denied, .denied),
          (c.gate || (op = 2 && thas s.port p) || (op = 1 && ((!paired && !s.twin.staging.isEmpty) || (paired && s.twin.strapConflict))), .wrongState),
          (op = 2 && hom != 0 && decide (1600000000 < xfeedLoad s), .noRes)] s fun _ =>
    match op with
    | 1 =>
      let again : Bool := paired && s.twin.role == .standby && (match s.twin.partner with | some h => h.paired | none => false)
      okNone <| claimCheck { s with
                      twin.paired := paired, twin.follow := bitOf w 5, twin.claimUnsync := bitOf w 6
                      twin.resynced := s.twin.resynced && paired && !again, twin.resyncing := s.twin.resyncing && paired && !again }
    | 2 => okNone { s with twin.homing := if hom = 0 then tdel s.twin.homing p else tset s.twin.homing p hom }
    | _ => okWith (w32 (3 + 16 * b2n s.twin.paired + 32 * b2n s.twin.follow + 64 * b2n s.twin.claimUnsync) :: (List.range 16).map (homingWord s)) s

/-- TWIN_STATUS: TIME_OFFSET is held in ps. -/
def cmdTwinStatus (c : Ctx) (_ : List Word) (s : State) : CmdOut :=
  let t := s.twin
  ladder [(c.gate, .wrongState)] s fun _ =>
    okWith ([w32 (roleCode t.role + 8 * b2n s.pins.strap + 16 * b2n t.paired + 32 * t.partnerSt + 128 * b2n t.linkUp + 256 * b2n t.vhbOk +
        512 * b2n t.hbxOk + 1024 * b2n t.arbAsserted + 2048 * b2n t.arbDrive + 4096 * b2n t.ready + 8192 * b2n t.histSync +
        16384 * b2n t.arbFault + 32768 * b2n t.strapConflict), t.txn, w32 t.staging.length] ++ nsWords t.roleTime ++
      [t.switchovers, t.hbLost, t.resyncs, w32 (xfeedLoad s / 10000), satWord t.timeOffset]) s

/-- Whether both heartbeats have been lost for 1 ms with the line asserted (R365, R376). -/
def lostLong (s : State) : Bool := ranFor s.twin.bothLostAt 1000000 s
/-- TWIN_SWITCH. -/
def cmdTwinSwitch (c : Ctx) (req : List Word) (s : State) : CmdOut :=
  let op := fld (wd req 0) 3 0
  let t := s.twin
  let ok : Bool := t.run && match op with
    | 1 => t.role == .active && t.linkUp && t.partnerSt == 2
    | 2 => t.role == .active && !t.linkUp
    | 3 => t.role == .standby && lostLong s && t.arbAsserted
    | _ => t.role == .out && !(fatalSet s)
  ladder [(fld (wd req 0) 31 4 != 0 || op = 0 || decide (4 < op), .invalid), (c.gate || !ok, .wrongState)] s fun _ =>
    match op with
    | 1 => (.waits (.switch 1), setRole .handover 3 { s with twin.handoverAt := some (devFine s + 100000 * 65536), twin.seenActive := false })
    | 2 => (.waits (.switch 2), setRole .yield 4 { s with twin.yieldUntil := some (s.now + 1000000) })
    | 3 => okNone (setRole .active 5 s)
    | _ => okNone (claimCheck (setRole .startup 9 s))

/-- The response of TWIN_COMMIT. -/
def commitWords (s : State) : List Word := [s.twin.txn, w32 s.twin.staging.length] ++ nsWords s.twin.tApply
/-- TWIN_COMMIT: OP 2 leaves a transaction under way alone. -/
def cmdTwinCommit (c : Ctx) (req : List Word) (s : State) : CmdOut :=
  let op := fld (wd req 0) 3 0
  let t := s.twin
  ladder [(fld (wd req 0) 31 4 != 0 || op = 0 || decide (3 < op), .invalid), (c.denied, .denied),
          (c.gate || (op != 3 && !t.paired) || (op = 1 && (!t.linkUp || t.partnerSt != 2 || t.commit != .none)), .wrongState)] s fun _ =>
    match op with
    | 1 => (.waits .commit, sendFrames 0x11 1 { s with
        twin.commit := .prepared (s.now + 2000000 + 10000 * t.staging.length), twin.commitLen := t.staging.length })
    | 2 => let s := { s with twin.staging := t.staging.take t.commitLen }
           okWith (commitWords s) s
    | _ => okWith (commitWords s) s

/-! ### Heartbeats (R356, R357) -/

/-- HEARTBEAT_TIMER. -/
def execHeartbeatTimer (s : State) : Host.Outcome State Fault Refusal :=
  .next (if s.twin.run && s.twin.role != .out && s.twin.role != .yield && decide (s.twin.hbNextAt ≤ s.now) then sendHeartbeat s else s)
/-- HEARTBEAT_RX. -/
def execHeartbeatRx (h : Heartbeat) (s : State) : Host.Outcome State Fault Refusal := nextSettled (heartbeatRx h s)
/-- HBX_EDGE. -/
def execHbxEdge (s : State) : Host.Outcome State Fault Refusal :=
  nextSettled (if s.twin.run then
      let was := s.twin.hbxOk
      let s := heartbeatSeen { s with twin.hbxOk := true, twin.hbxAt := some s.now }
      if was then s else evtPartner 2 s
    else s)
/-- VARRIC_HEARTBEAT_LOSS. -/
def execVarricHeartbeatLoss (s : State) : Host.Outcome State Fault Refusal :=
  nextSettled (if s.twin.run && s.twin.vhbOk && ranFor s.twin.vhbAt 50000 s then heartbeatLost { s with twin.vhbOk := false } else s)
/-- HBX_HEARTBEAT_LOSS. -/
def execHbxHeartbeatLoss (s : State) : Host.Outcome State Fault Refusal :=
  nextSettled (if s.twin.run && s.twin.hbxOk && ranFor s.twin.hbxAt 50000 s then heartbeatLost { s with twin.hbxOk := false } else s)

/-! ### The claim and handover (R353, R354, R358, R363, R365) -/

/-- Whether a waiting command is a TWIN_SWITCH. -/
def isSwitch (k : WaitKind) : Bool := match k with | .switch _ => true | _ => false
/-- ARB_CLAIM_RELEASED. -/
def execArbClaimReleased (s : State) : Host.Outcome State Fault Refusal :=
  nextSettled (
    let s := { s with twin.arbAsserted := false }
    if s.twin.run then arbFaultStep (arbOpen s) (claimCheck (lostTimer s)) else s)
/-- ARB_CLAIM_ASSERTED. -/
def execArbClaimAsserted (s : State) : Host.Outcome State Fault Refusal :=
  nextSettled (
    let s := { s with twin.arbAsserted := true }
    if !s.twin.run then s
    else
      let s := arbFaultStep (s.twin.arbFault && bothLost s) (lostTimer s)
      match s.twin.role with
      | .startup => setRole .standby 11 s
      | .claimWait => setRole .standby 11 s
      | .yield => finishWaiting isSwitch .ok [] (setRole .standby 4 s)
      | .active => { s with twin.activeN := s.twin.arbDrive }
      | .handover => { s with twin.activeN := s.twin.arbDrive }
      | _ => s)
/-- CLAIM_DELAY_EXPIRY. -/
def execClaimDelayExpiry (s : State) : Host.Outcome State Fault Refusal :=
  nextSettled (if s.twin.run && s.twin.role == .claimWait && due s.twin.claimUntil s then
      if s.twin.arbAsserted then setRole .standby 11 s else setRole .active (if s.twin.claimFromStandby then 1 else 2) s
    else s)
/-- HANDOVER_AT_REACHED: the standby that sent ACK becomes ACTIVE. -/
def execHandoverAtReached (s : State) : Host.Outcome State Fault Refusal :=
  nextSettled (match s.twin.accepted with
    | some t =>
      if s.twin.run && s.twin.role == .standby && decide (t ≤ devFine s) then
        if (match s.twin.hbSent with | some h => h.ack | none => false) then sendHeartbeat (setRole .active 3 s)
        else { s with twin.accepted := none }
      else s
    | none => s)
/-- HANDOVER_RELEASE. -/
def execHandoverRelease (s : State) : Host.Outcome State Fault Refusal :=
  nextSettled (match s.twin.handoverAt with
    | some t =>
      if s.twin.run && s.twin.role == .handover && decide (t + 9000 * 65536 ≤ devFine s) then
        if s.twin.seenActive then finishWaiting isSwitch .ok [] (setRole .standby 3 s)
        else finishWaiting isSwitch .timeout [] (setRole .active 3 s)
      else s
    | none => s)
/-- YIELD_TIMEOUT: the twin claims if the line is released; an asserted line is the partner's claim. -/
def execYieldTimeout (s : State) : Host.Outcome State Fault Refusal :=
  nextSettled (if s.twin.run && s.twin.role == .yield && due s.twin.yieldUntil s then
      if s.twin.arbAsserted then finishWaiting isSwitch .ok [] (setRole .standby 4 s)
      else finishWaiting isSwitch .timeout [] (setRole .active 4 s)
    else s)
/-- ARB_FAULT_TIMER. -/
def execArbFaultTimer (s : State) : Host.Outcome State Fault Refusal :=
  nextSettled (if s.twin.run && s.twin.role == .standby && lostLong s && s.twin.arbAsserted then arbFaultStep true s else s)

/-! ### The link (R355, R373) -/

/-- VARRIC_LINK_UP. -/
def execVarricLinkUp (s : State) : Host.Outcome State Fault Refusal :=
  nextSettled (if s.twin.run && !s.twin.linkUp && varricLanes s then evtPartner 1 { fedLanes false s with twin.linkUp := true } else s)
/-- VARRIC_LINK_DOWN. -/
def execVarricLinkDown (s : State) : Host.Outcome State Fault Refusal := nextSettled (linkDown s)
/-- XFEED_FRAME_RX (R29, R373): the content of a single-homed port's frame enters the slice after PCS and FEC decode, and goes to the channels
that the framers find in it as if it came from the port's own lanes; on the twin that owns the optics it goes to the transmitter. The
overhead of the frames in it comes as RX_FRAME and the like. -/
def execXfeedFrameRx (p : Fin 256) (x : Xfeed) (s : State) : Host.Outcome State Fault Refusal :=
  nextSettled (if s.twin.linkUp && thas s.port p.val && homingOf s p.val != 0 && domUp s (p.val / 8) then
      let s := { s with twin.xfed := tset s.twin.xfed p.val x.bytes }
      if portFed s p.val then
        foldS (x.found.filter (fun a => rootPort s treeDepth (chKey false a.ch.val) == some p.val)) (fun a => chanToFabric (chKey false a.ch.val) a.bytes a.eop a.bad) s
      else s
    else s)

/-! ### The steps of a commit on the active twin (R368, R369) -/

/-- PREPARED arrives: T_apply is 500 µs on, rounded up to 100 µs; a mismatch ends the commit and keeps the staging. -/
def preparedRx (ok : Bool) (s : State) : State :=
  match s.twin.commit with
  | .prepared dl =>
    if s.now ≤ dl then
      if ok then sendFrames 0x11 1 { s with twin.commit := .ack ((devNs s + 500000 + 99999) / 100000 * 100000) }
      else finishWaiting (· == .commit) .wrongState [] (evtPartner 5 { s with twin.commit := .none, twin.commitLen := 0 })
    else s
  | _ => s
/-- COMMIT_ACK arrives, 100 µs before T_apply at the latest. -/
def commitAckRx (s : State) : State :=
  match s.twin.commit with
  | .ack t => if devNs s + 100000 < t then { s with twin.commit := .apply t } else s
  | _ => s
/-- TWIN_COMMIT_TIMEOUT: paused while the MP is not running (R20). -/
def execTwinCommitTimeout (s : State) : Host.Outcome State Fault Refusal :=
  let late : Bool := match s.twin.commit with
    | .prepared dl => decide (dl < s.now)
    | .ack t => decide (t ≤ devNs s + 100000)
    | _ => false
  nextSettled (if late && mpRuns s then finishWaiting (· == .commit) .timeout [] { s with twin.commit := .none, twin.commitLen := 0 } else s)
/-- COMMIT arrives on the standby: COMMIT_ACK goes out, and the transaction will apply. -/
def commitRx (tApply : Nat) (s : State) : State :=
  if s.twin.run && s.twin.linkUp && s.twin.role == .standby && s.twin.rxPrepared then
    sendFrames 0x11 1 { s with twin.rxPrepared := false, twin.rxApply := some tApply }
  else s

/-! ### Mirrored decisions and seconds (R370) -/

/-- Whether the standby takes its partner's decisions: the link is up and it is READY. -/
def followsPartner (s : State) : Bool := judgedByPartner s && s.twin.linkUp
/-- A mirrored protection decision: the selector, bridge, top request, transmitted APS, WTR left in ns and external command. -/
def protDecided (n : Nat) (sel bridge : Bool) (top : Nat) (remote : Bool) (aps : Word) (wtrLeft ext : Nat) (s : State) : State :=
  match tget? s.prot n with
  | none => s
  | some g =>
    let moved := sel != g.sel
    let g' : Prot := { g with
      top := top, topRemote := remote, sel := sel, bridge := bridge, dnr := top = oduCode 11, apsTx := aps, ext := ext
      wtrUntil := if wtrLeft = 0 then none else some (s.now + wtrLeft)
      switches := if moved then g.switches + 1 else g.switches
      lastSwitch := if moved then devNs s else g.lastSwitch }
    let s := protConns g g' { s with prot := tset s.prot n g' }
    if moved then evtProtSwitch n g' s else s
/-- A mirrored decision applied. -/
def decided (d : Decision) (s : State) : State :=
  match d with
  | .prot g sel bridge top remote aps wtrLeft ext => protDecided g.val sel bridge top.val remote aps wtrLeft ext.val s
  | .welt w bsn sel => updWelt w.val (fun p => { p with decided := some (bsn.toNat, sel) }) s
  | .braid g tx n sus =>
    if tx then
      let s := match sideOf s g.val true with
        | some x => if x.schedPend then updSide g.val true (fun d => { d with nStar := some n }) s else beginChange g.val (some n) s
        | none => s
      updSide g.val true (fun d => { d with givenSus := some sus.toNat }) s
    else updSide g.val false (fun d => if d.schedPend then { d with nStar := some n } else d) s
  | .lcas eg ch carrying =>
    updChan (chKey eg ch.val) (fun c => { c with carrying := carrying, dnuSince := none, lcas := { c.lcas with ok := carrying } }) s
  | .flexe sl grp cal =>
    let key := flexKey sl.val grp.val
    if thas s.flex key then evtFlexe key 0 (flexSwitched key cal.val s) else s
/-- The closed second that a snapshot judges: this twin's own, or one without counts. -/
def snapshotSec (m : Mon) (j : Snapshot) (s : State) : ClosedSec :=
  match m.closed.find? (fun c => c.start == j.start) with
  | some c => c
  | none =>
    let e := s.now - (devNs s - (j.start + 1000000000))
    { c := {}, start := j.start, begins := e - 1000000000, closes := e, viol := m.viol, bei := m.bei }
/-- Whether a snapshot's second has closed on this twin. -/
def snapshotPast (m : Mon) (j : Snapshot) (s : State) : Bool :=
  m.closed.any (fun c => c.start == j.start) || decide (j.start + 1000000000 ≤ devNs s)
/-- A snapshot: the active twin's judgement takes the place of this twin's own for that second. -/
def snapshotRx (a : Nat) (j : Snapshot) (s : State) : State :=
  match tget? s.mon a with
  | none => s
  | some m =>
    if snapshotPast m j s then
      judgePoint a { na := false, es := j.neEs, ses := j.neSes, bbe := j.neBbe, unavail := false, second := snapshotSec m j s }
        { na := j.feNa, es := j.feEs, ses := j.feSes, bbe := j.feBbe, unavail := false, second := snapshotSec m j s }
        { s with mon := tset s.mon a { m with closed := m.closed.filter (fun c => c.start != j.start) } }
    else s

/-! ### Resynchronisation (R371, R380) -/

/-- The active twin's current bins, written into a point of the standby. -/
def pmCopy (s : State) (e : PmCopy) : State :=
  { s with mon := tupd s.mon e.addr.toNat (fun m => { m with cur15.data := e.cur15, cur24.data := e.cur24 }) }
/-- The active twin's closed bins. -/
def pmHistCopy (s : State) (e : PmHistCopy) : State :=
  { s with mon := tupd s.mon e.addr.toNat (fun m => { m with hist15 := e.hist15, hist24 := e.hist24 }) }
/-- The active twin's timing history, its seconds numbered by this twin's count. -/
def timingCopy (s : State) (e : TimingCopy) : State :=
  match e with
  | .dpll d l => modDpll d.val (fun x => { x with hist := l.map (fun r => { r with sec := (s.tmc.secs : Int) + 1 - r.sec }) }) s
  | .cand c l => { s with tmc.candHist := tset s.tmc.candHist c.val (l.map (fun r => { r with sec := (s.tmc.secs : Int) + 1 - r.sec })) }
/-- The current PM bins have followed the configuration, and the standby is synchronised. -/
def resyncReady (bins : List PmCopy) (s : State) : State :=
  if s.twin.resyncing then
    let s := if s.twin.role == .standby then bins.foldl pmCopy s else s
    evtPartner 4 { s with twin.resyncing := false, twin.resynced := s.twin.resynced || s.twin.role == .standby }
  else s
/-- The standby holds the active twin's PM and timing history. -/
def histSynced (pm : List PmHistCopy) (tim : List TimingCopy) (s : State) : State :=
  if s.twin.linkUp && s.twin.paired && s.twin.resyncAt.isSome && !s.twin.histSync then
    let s := if s.twin.role == .standby then tim.foldl timingCopy (pm.foldl pmHistCopy s) else s
    evtPartner 4 { s with twin.histSync := true, twin.resyncAt := none }
  else s

end Sys2Proof.Machine
end

