-- ==== Sys2Proof/Machine/Firmware.lean ====
section
/-! DEFINITION. Images, the boot flash and the firmware commands (14_host_interface_and_firmware.md, R425 to R437). -/

namespace Sys2Proof.Machine

/-! ### Slots and images (R425 to R427) -/

/-- The size of a slot in bytes. -/
def slotSize : Nat := 25165824
/-- Slot i: 0 A, 1 B. -/
def slotOf (f : Firmware) (i : Nat) : Slot := if i = 0 then f.slotA else f.slotB
/-- s with slot i changed. -/
def modSlot (i : Nat) (g : Slot → Slot) (s : State) : State :=
  if i = 0 then { s with fw.slotA := g s.fw.slotA } else { s with fw.slotB := g s.fw.slotB }
/-- Byte i of a slot's words; an erased byte is 0xFF. -/
def slotByte (t : Table Word) (i : Nat) : Byte := (wordBytes (tget t 0xFFFFFFFF (i / 4))).getD (i % 4) 0
/-- The n bytes of a slot from offset lo. -/
def slotBytes (t : Table Word) (lo n : Nat) : List Byte := (List.range n).map (fun i => slotByte t (lo + i))
/-- A number from n bytes of a slot, most significant first. -/
def slotNat (t : Table Word) (lo n : Nat) : Nat := beNat (slotBytes t lo n)
/-- The header of a slot's words. -/
def hdrOf (t : Table Word) : ImgHdr :=
  { major := slotNat t 5 1, minor := slotNat t 6 1, patch := slotNat t 7 1, svn := slotNat t 8 1, mirror := slotNat t 9 1
    hitMajor := slotNat t 10 1, hitMinor := slotNat t 11 1 }
/-- The header of a slot. -/
def slotHdr (x : Slot) : ImgHdr := x.factory.getD (hdrOf x.data)
/-- The first check of R427 that an image of slot words fails, as LAST_RESULT codes it; 0 where it is valid. -/
def wordsCheck (f : Firmware) (t : Table Word) : Nat :=
  let key := slotNat t 12 1
  let len := slotNat t 16 4
  if slotNat t 0 4 != 0x50524847 || slotNat t 4 1 != 1 then 1
  else if 3 < key || f.revoked / 2 ^ key % 2 = 1 || !(Config.keyHashOk key (slotBytes t 68 97)) then 2
  else if !(Config.signatureOk (slotBytes t 0 256) (slotBytes t 256 96)) then 3
  else if 25161728 < len || !(Config.digestOk len (slotBytes t 20 48) t) then 4
  else if slotNat t 8 1 < f.counter then 5
  else 0
/-- The first check that a slot fails; the image programmed at manufacture is sound, so only the counter can refuse it. -/
def imageCheck (f : Firmware) (x : Slot) : Nat :=
  match x.factory with
  | some h => if h.svn < f.counter then 5 else 0
  | none => wordsCheck f x.data

/-- EVT_FW (R436). -/
def evtFw (cmd : Nat) (s : State) : State := raise 0x0E01 clsCompletion 0 0 cmd s.fw.lastResult 0 0 s

/-! ### FW_STAGE (R429, R430, R436) -/

/-- The slot that FW_STAGE writes: the one not running, and in RECOVERY the one not ACTIVE, or slot B. -/
def stageSlot (s : State) : Nat :=
  if s.fw.state = 4 then (match bootRec s.fw with | some r => 1 - r.active | none => 1) else 1 - s.fw.slot
/-- Data words from a byte offset of a slot on. -/
def slotWrite (off : Nat) (ws : List Word) (t : Table Word) : Table Word :=
  ws.zipIdx.foldl (fun t e => tset t (off / 4 + e.2) e.1) t
/-- FW_STAGE. -/
def cmdFwStage (c : Ctx) (req : List Word) (s : State) : CmdOut :=
  let op := fld (wd req 0) 3 0
  let off := (wd req 1).toNat
  let k := stageSlot s
  let x := slotOf s.fw k
  let n := req.length
  let bad := fld (wd req 0) 31 4 != 0 || op = 0 || decide (3 < op) ||
    (if op = 2 then decide (n < 3) || decide (255 < n) || off % 4 != 0 || decide (slotSize < off + 4 * (n - 2)) else n != 1)
  let wrong := (!s.fw.confirmed && s.fw.state != 4) || s.fw.activation.isSome || (op != 1 && x.staged = 0 && !s.fw.erasing)
  ladder [(bad, .invalid), (c.gate || wrong, .wrongState), (op != 2 && (s.fw.erasing || s.fw.checking), .busy)] s fun _ =>
    match op with
    | 1 => (.done .deferred [], { modSlot k (fun _ => {}) s with fw.erasing := true })
    | 2 => okNone { modSlot k (fun x => { x with data := slotWrite off (req.drop 2) x.data, staged := 2 }) s with fw.wrote := true }
    | _ => (.done .deferred [], { s with fw.checking := true, fw.wrote := false })
/-- FW_ERASE_DONE. -/
def execFwEraseDone (ok : Bool) (s : State) : Host.Outcome State Fault Refusal :=
  .next (if s.fw.erasing then
      let s := modSlot (stageSlot s) (fun x => { x with staged := if ok then max 1 x.staged else 0 }) s
      evtFw 0x11 { s with fw.erasing := false, fw.lastResult := if ok then 0 else 6 }
    else s)
/-- FW_CHECK_DONE: a slot written since the check began is not staged. -/
def execFwCheckDone (s : State) : Host.Outcome State Fault Refusal :=
  .next (if s.fw.checking then
      let k := stageSlot s
      let r := imageCheck s.fw (slotOf s.fw k)
      let s := if r = 0 && !s.fw.wrote then modSlot k (fun x => { x with staged := 3 }) s else s
      evtFw 0x13 { s with fw.checking := false, fw.lastResult := r }
    else s)

/-! ### FW_ACTIVATE (R430 to R433) -/

/-- Whether the running release is at least the image's HITLESS_FROM. -/
def hitlessOk (s : State) (h : ImgHdr) : Bool :=
  decide (256 * h.hitMajor + h.hitMinor ≤ 256 * s.fw.running.major + s.fw.running.minor)
/-- FW_ACTIVATE. -/
def cmdFwActivate (c : Ctx) (req : List Word) (s : State) : CmdOut :=
  let op := fld (wd req 0) 3 0
  let k := stageSlot s
  let x := slotOf s.fw k
  let wrong := s.fw.activation.isSome || (match op with
    | 1 => x.staged != 3 || !(hitlessOk s (slotHdr x))
    | 2 => x.staged != 3
    | 4 => imageCheck s.fw x != 0 || !(hitlessOk s (slotHdr x))
    | _ => false)
  ladder [(fld (wd req 0) 31 4 != 0 || op = 0 || decide (4 < op), .invalid), (c.gate || wrong, .wrongState)] s fun _ =>
    match op with
    | 2 => okNone { s with fw := bootWrite k false s.fw }
    | 3 => okNone { s with fw := { bootWrite s.fw.slot true s.fw with confirmed := true, counter := max s.fw.counter s.fw.running.svn } }
    | _ => (.done .deferred [], { s with fw.activation := some { op := op, prev := s.fw.slot, at_ := s.now }, fw.restartAt := some s.now })
/-- The new image of an activation has adopted the running configuration (R431). -/
def activationReady (s : State) : State :=
  match s.fw.activation with
  | some a =>
    let k := 1 - a.prev
    let x := slotOf s.fw k
    if s.fw.state = 2 && imageCheck s.fw x = 0 then
      let s := { s with fw.running := slotHdr x, fw.slot := k, fw.confirmed := false, fw.activation := none, fw.lastResult := 0 }
      evtFw (0x20 + a.op) (mpBack (modSlot 0 (fun x => { x with staged := 0 }) (modSlot 1 (fun x => { x with staged := 0 }) s)))
    else s
  | none => s
/-- ACTIVATION_FALLBACK (R431): an invalid image, or 1.8 s without READY; the MP restarts on the previous slot. -/
def execActivationFallback (s : State) : Host.Outcome State Fault Refusal :=
  .next (match s.fw.activation with
    | some a =>
      let r := imageCheck s.fw (slotOf s.fw (1 - a.prev))
      if s.fw.state = 2 && (r != 0 || decide (a.at_ + 1800000000 ≤ s.now)) then
        evtFw (0x20 + a.op) { s with fw := { bootWrite a.prev true s.fw with
          confirmed := true, activation := none, lastResult := if r = 0 then 7 else r } }
      else s
    | none => s)

/-! ### FW_STATUS, LOG_READ and the journal (R425, R436, R437) -/

/-- A SLOT word. -/
def slotWord (s : State) (i : Nat) : Word :=
  let x := slotOf s.fw i
  let h := slotHdr x
  w32 (h.patch + 256 * h.minor + 65536 * h.major + 16777216 * (h.svn % 64) + 1073741824 * b2n (imageCheck s.fw x == 0))
/-- FW_STATUS. -/
def cmdFwStatus (c : Ctx) (_ : List Word) (s : State) : CmdOut :=
  let f := s.fw
  ladder [(c.gate, .wrongState)] s fun _ =>
    okWith [w32 (f.state + 16 * f.slot + 32 * b2n f.confirmed + 64 * (slotOf f (stageSlot s)).staged + 256 * f.counter + 16384 * f.revoked),
      slotWord s 0, slotWord s 1, w32 f.lastResult] s
/-- The 8 words of a log entry. -/
def logWords (e : LogEntry) : List Word :=
  let k := match e.cause with
    | .pcTraining => 0 | .stackTraining => 1 | .laneCalibration => 2 | .image => 3 | .recreate => 4 | .braidRealign => 5 | .other => 6
  [w32 e.seq] ++ nsWords e.ns ++ [w32 ((Config.logSource k).toNat + 65536 * (Config.logCode k).toNat)] ++
    (List.range 4).map (fun i => Config.logArg k e.arg i)
/-- LOG_READ. -/
def cmdLogRead (c : Ctx) (req : List Word) (s : State) : CmdOut :=
  let n := fld (wd req 1) 4 0
  ladder [(fld (wd req 1) 31 5 != 0 || n = 0, .invalid), (c.gate, .wrongState)] s fun _ =>
    let l := (s.fw.log.filter (fun e => decide ((wd req 0).toNat ≤ e.seq))).take n
    okWith (w32 l.length :: l.flatMap logWords) s
/-- JOURNAL_COMPACTION (R425, R435): the log moves to its next sector; what it records stays. -/
def execJournalCompaction (s : State) : Host.Outcome State Fault Refusal :=
  .next (if mpRuns s then { s with fw.journalSector := (s.fw.journalSector + 1) % 128 } else s)

end Sys2Proof.Machine
end

