-- ==== Sys2Proof/Machine/Boot.lean ====
section
/-! DEFINITION. Supplies, resets and the start-up phases 1 to 5, 7 (16_startup_and_power_domains.md, R410, R428, R456 to R466). -/

namespace Sys2Proof.Machine

/-! ### PORST_N and the supplies (R399, R459, R460, R463, R475) -/

/-- A domain as the journal records it: without power, a switching off that was in progress taken as made. -/
def domainCold (x : Domain) : Domain := { st := match x.sw with | some (.out dest) => dest | _ => x.st }
/-- The firmware as flash and fuses keep it. -/
def fwCold (f : Firmware) : Firmware :=
  { slot := f.slot, confirmed := f.confirmed, running := f.running, rec0 := f.rec0, rec1 := f.rec1
    slotA := { f.slotA with staged := 0 }, slotB := { f.slotB with staged := 0 }
    journal := f.journal, journalSector := f.journalSector, counter := f.counter, revoked := f.revoked }
/-- The device in reset: flash, fuses, the fatal latch and its tick counter, the pins, and what lies outside the device are kept. -/
def coldState (s : State) : State :=
  { pending := s.pending, now := s.now, free := s.free
    pins := { railsOk := s.pins.railsOk, porstN := false, perstN := s.pins.perstN, strap := s.pins.strap }
    boot := { boots := s.boot.boots, retired := s.boot.retired }
    power := { dom := s.power.dom.map (fun (e : Nat × Domain) => (e.1, domainCold e.2)) }
    fw := fwCold s.fw
    fault := { latch := s.fault.latch, tickBase := s.fault.tickBase }
    host := { ringMem := s.host.ringMem, msixSent := s.host.msixSent }
    twin := { arbAsserted := s.twin.arbAsserted }
    test := { jtag := s.test.jtag } }
/-- PORST_N_ASSERT. -/
def execPorstNAssert (s : State) : Host.Outcome State Fault Refusal := .next (coldState s)
/-- SUPPLY_REMOVAL: the latch and the tick counter are cleared as well. -/
def execSupplyRemoval (s : State) : Host.Outcome State Fault Refusal :=
  .next { coldState s with pins.railsOk := false, fault := {} }
/-- SUPPLY_POWER_UP: the fatal-latch domain counts ticks from 0 (R383). -/
def execSupplyPowerUp (s : State) : Host.Outcome State Fault Refusal :=
  .next (if s.pins.railsOk then s else { s with pins.railsOk := true, fault.tickBase := s.now })
/-- PORST_N_RELEASE. -/
def execPorstNRelease (strap : Bool) (s : State) : Host.Outcome State Fault Refusal :=
  .next (if s.pins.railsOk && !s.pins.porstN then
      { s with pins.porstN := true, pins.strap := strap, boot.phase := .always, boot.porstAt := s.now, boot.imageAt := s.now } else s)
/-- PERST_N_ASSERT (R410): the endpoint, BAR0, the mailboxes and the event ring are reset; commands go on without a response. -/
def execPerstNAssert (s : State) : Host.Outcome State Fault Refusal :=
  let h := s.host
  .next { s with
    pins.perstN := false
    host := { h with
      mbx := [], bells := [], waiting := h.waiting.map (fun w => { w with mbx := none })
      ringEnable := false, ringLo := 0, ringHi := 0, ringHead := 0, ringTail := 0
      violFirst := none, violCount := 0, msixTable := [], msixPending := [], vec0Due := false, vec0At := none, busOut := .none } }
/-- PERST_N_RELEASE. -/
def execPerstNRelease (s : State) : Host.Outcome State Fault Refusal := .next { s with pins.perstN := true }

/-! ### Phases 1 to 4 (R428, R462, R466) -/

/-- STARTUP_PHASE_1_END: the FC and the TMC run, the endpoint is enabled, device time counts from 0. -/
def execStartupPhase1End (s : State) : Host.Outcome State Fault Refusal :=
  .next (if s.boot.phase == .always then
      temperReset { s with boot.phase := .image, boot.endpoint := true, fault.corrTick := tickNow s, fault.corrNs := 0, pm.secStart := 0, pm.secAt := s.now
                           tmc.secAt := s.now * 65536 }
    else s)
/-- The boot ROM runs slot k. -/
def runImage (k : Nat) (confirmed : Bool) (s : State) : State :=
  { s with boot.phase := .firmware, fw.slot := k, fw.running := slotHdr (slotOf s.fw k), fw.confirmed := confirmed }
/-- The boot ROM falls back to slot k: it becomes ACTIVE with CONFIRMED = 1. -/
def fallBack (k : Nat) (s : State) : State :=
  let s := { s with fw := bootWrite k true s.fw }
  runImage k true { s with boot.fellBack := true, boot.imageAt := s.now }
/-- STARTUP_PHASE_2_END. -/
def execStartupPhase2End (s : State) : Host.Outcome State Fault Refusal :=
  .next (if s.boot.phase == .image then
      match bootRec s.fw with
      | none => { s with boot.phase := .finished, fw.state := 4 }
      | some r =>
        let c := imageCheck s.fw (slotOf s.fw r.active)
        if c = 0 then runImage r.active r.confirmed s
        else
          let s := logAdd .image r.active { s with fw.lastResult := c }
          if imageCheck s.fw (slotOf s.fw (1 - r.active)) = 0 then fallBack (1 - r.active) s
          else { s with boot.phase := .finished, fw.state := 4 }
    else s)
/-- STARTUP_PHASE_3_END: the recorded states are taken up; with the fatal latch set, no domain is powered
and reason 8 still holds, without a new event (R399). -/
def execStartupPhase3End (s : State) : Host.Outcome State Fault Refusal :=
  .next (if s.boot.phase == .firmware then
      let s := { s with boot.boots := s.boot.boots + 1 }
      match s.fault.latch with
      | some (a, _) =>
        let s := foldS (List.range 36) (fun d s => srcsIsolate d (modDom d (fun x => { x with st := if x.st == .on then .isoFatal else x.st }) s)) s
        modSrc a (fun x => { x with st := .fatal }) { s with boot.phase := .finished, fw.state := 3, fault.reasons := if s.fault.reasons.contains (8, a) then s.fault.reasons else s.fault.reasons ++ [(8, a)] }
      | none =>
        let s := foldS (List.range 36) (fun d s =>
          let s := modDom d (fun x => { x with st := if x.st == .isoFatal then .on else x.st }) s
          if (domOf s d).st == .on then s else srcsIsolate d s) s
        { s with boot.phase := .domains }
    else s)
/-- STARTUP_PHASE_4_END. -/
def execStartupPhase4End (s : State) : Host.Outcome State Fault Refusal :=
  .next (if s.boot.phase == .domains then
      let s := foldS (List.range 36) (fun d s => if (domOf s d).st == .on then modDom d (fun x => { x with up := true }) s else s) s
      { s with boot.phase := .memLanes, boot.memDone := false, boot.lanesDone := false }
    else s)

/-! ### Phases 5a and 5b (R462 to R464) -/

/-- Phase 6 begins when both phases have ended. -/
def phase5Next (s : State) : State := if s.boot.memDone && s.boot.lanesDone then { s with boot.phase := .config } else s
/-- STARTUP_PHASE_5A_END: the pseudo-channels and stacks that failed twice are retired; the tables and lists are initialised. -/
def phase5a (pcs : BitVec 64) (stackBits : BitVec 2) (s : State) : State :=
  let bad := (List.range 2).filter (fun h => stackBits.getLsbD h && domUp s (32 + h))
  let fails := (List.range 64).filter (fun p => pcs.getLsbD p && domUp s (32 + p / 32) && !(bad.contains (p / 32)) && !(pcRetired s p))
  let gone := fails ++ (bad.flatMap halfPcs).filter (fun p => !(pcRetired s p))
  let s := { s with pool := { trained := true }, boot.memDone := true
                    boot.retired := gone.foldl (fun b p => b ||| (1#64 <<< p)) s.boot.retired }
  let s := foldS bad (fun h s => srcsIsolate (32 + h) (modDom (32 + h) (fun _ => { st := .isoFc }) s)) s
  let s := renewCopies s
  let s := foldS gone (fun p => setReason 1 p) s
  let s := foldS bad (fun h => setReason 2 h) s
  let s := foldS fails (fun p => logAdd .pcTraining p) s
  phase5Next (foldS bad (fun h => logAdd .stackTraining h) s)
/-- STARTUP_PHASE_5A_END. -/
def execStartupPhase5aEnd (pcs : BitVec 64) (stackBits : BitVec 2) (s : State) : Host.Outcome State Fault Refusal :=
  .next (if s.boot.phase == .memLanes && !s.boot.memDone then phase5a pcs stackBits s else s)
/-- The lane source of a lane. -/
def laneSrc (k : Nat) : Nat := if k < 256 then 64 * (k / 8) + k % 8 else if k < 512 then 64 * ((k - 256) / 8) + 8 + k % 8 else 0xA00 + (k - 512)
/-- A lane that fails calibration twice is held in reset. -/
def calibrationFail (k : Nat) (s : State) : State :=
  if domUp s (laneDomain k) then
    let a := laneSrc k
    logAdd .laneCalibration k (setReason 9 a (modSrc a (fun x => { x with st := .held, holds := true }) (laneHold k s)))
  else s
/-- Phase 5b: the recorded LANE_CONFIG settings apply, and the fabric and Varric lanes leave OFF. -/
def phase5b (failed : List Nat) (s : State) : State :=
  let s := foldS (s.fw.journal.filter (fun e => e.code == 0x0201)) (fun e s =>
    modLane (kindLane (fld (wd e.req 0) 1 0) (fld (wd e.req 0) 15 8)) (laneSettings (wd e.req 1) (wd e.req 2)) s) s
  let s := foldS ((List.range 256).filter (fun i => domUp s (i / 8))) (fun i s => monCreate [monAddr 9 0 i 0 0] (laneOn (256 + i) s)) s
  let s := if domUp s 35 then foldS (List.range 8) (fun i => laneOn (512 + i)) s else s
  phase5Next (foldS failed calibrationFail { s with boot.lanesDone := true })
/-- STARTUP_PHASE_5B_END. -/
def execStartupPhase5bEnd (failed : List LaneId) (s : State) : Host.Outcome State Fault Refusal :=
  .next (if s.boot.phase == .memLanes && !s.boot.lanesDone then phase5b (failed.map laneKey) s else s)

/-! ### Phase 7 and the boot time limit (R428, R462, R476) -/

/-- STARTUP_PHASE_7_END: the twin logic is released, and FW_STATE is READY. -/
def execStartupPhase7End (s : State) : Host.Outcome State Fault Refusal :=
  nextSettled (if s.boot.phase == .release then
      let s := { s with boot.phase := .finished, fw.state := 1 }
      if domUp s 35 then twinStart s else s
    else s)
/-- The device with its objects gone and no domain powered, as an image finds it that starts in place of another. -/
def startOver (s : State) : State :=
  { coldState s with
    pins := s.pins, boot := { s.boot with memDone := false, lanesDone := false }, host := s.host
    tmc := { dt := s.tmc.dt }, pm := { secStart := s.pm.secStart, secAt := s.pm.secAt }
    fault := { s.fault with reasons := [], policy := [], inject := [], defer := [] } }
/-- BOOT_READY_TIMEOUT: 8 s without READY, the other slot runs. -/
def execBootReadyTimeout (s : State) : Host.Outcome State Fault Refusal :=
  .next (
    let k := 1 - s.fw.slot
    let on : Bool := s.boot.phase != .held && s.boot.phase != .always && s.boot.phase != .image && s.boot.phase != .finished
    if s.fw.state == 0 && on && decide (s.boot.imageAt + 8000000000 ≤ s.now) && !s.boot.fellBack && imageCheck s.fw (slotOf s.fw k) == 0 then
      let s := fallBack k { startOver s with fw.lastResult := 7 }
      logAdd .image k s
    else s)

end Sys2Proof.Machine
end

