-- ==== Sys2Proof/Machine/Prihegen.lean ====
section
/-! DEFINITION. Command handling by Prihegen (R366 to R369, R380, R415 to R418, R438 to R441, R465, R508): mailboxes, scope, staging, the
configuration journal, start-up phase 6 and resynchronisation. -/

namespace Sys2Proof.Machine

/-! ### The command index (R438, R439) -/

/-- The behaviour of a command code. -/
abbrev Body := Ctx → List Word → State → CmdOut

/-- Codes 0x0101 to 0x05FF. -/
def bodyLow (code : Nat) : Option Body :=
  match code with
  | 0x0101 => some cmdSysInfo
  | 0x0102 => some cmdSysResetBlock
  | 0x0103 => some cmdSysPowerDomain
  | 0x0104 => some cmdSysTimeSet
  | 0x0105 => some cmdSysEventMask
  | 0x0106 => some cmdSysViolationRead
  | 0x0107 => some cmdSysContinue
  | 0x0201 => some cmdLaneConfig
  | 0x0202 => some cmdLaneStatus
  | 0x0203 => some cmdPortCreate
  | 0x0204 => some cmdPortDelete
  | 0x0205 => some cmdPortStatus
  | 0x0301 => some cmdAlignConfig
  | 0x0302 => some cmdOhRead
  | 0x0303 => some cmdOhWrite
  | 0x0304 => some cmdTtiSet
  | 0x0305 => some cmdTtiRead
  | 0x0401 => some cmdDefectRead
  | 0x0402 => some cmdDefectConfig
  | 0x0403 => some cmdPmRead
  | 0x0404 => some cmdPmConfig
  | 0x0405 => some cmdPmHistory
  | 0x0501 => some cmdChanCreate
  | 0x0502 => some cmdChanDelete
  | 0x0503 => some cmdChanModify
  | 0x0504 => some cmdXcConnect
  | 0x0505 => some cmdXcDisconnect
  | 0x0506 => some cmdFlexeCalendar
  | _ => none
/-- Codes 0x0601 to 0x09FF. -/
def bodyMid (code : Nat) : Option Body :=
  match code with
  | 0x0601 => some cmdBraidCreate
  | 0x0602 => some cmdBraidMemberAdd
  | 0x0603 => some cmdBraidMemberRemove
  | 0x0604 => some cmdBraidStatus
  | 0x0701 => some cmdQueueConfig
  | 0x0702 => some cmdQueueCount
  | 0x0703 => some cmdQueueFlush
  | 0x0704 => some cmdQueueScan
  | 0x0705 => some cmdPoolStatus
  | 0x0801 => some cmdProtGroupCreate
  | 0x0802 => some cmdProtCommand
  | 0x0803 => some cmdProtStatus
  | 0x0804 => some cmdWeltCreate
  | 0x0805 => some cmdWeltStatus
  | 0x0901 => some cmdTmcRefConfig
  | 0x0902 => some cmdTmcSelect
  | 0x0903 => some cmdTmcStatus
  | 0x0904 => some cmdTmcDcoSteer
  | 0x0905 => some cmdTmcOutputConfig
  | 0x0906 => some cmdTmcHistory
  | _ => none
/-- Codes 0x0A01 to 0x0EFF. -/
def bodyHigh (code : Nat) : Option Body :=
  match code with
  | 0x0A01 => some cmdTemperConfig
  | 0x0A02 => some cmdTemperBankLoad
  | 0x0A03 => some cmdTemperBankSwap
  | 0x0A04 => some cmdTemperStatus
  | 0x0B01 => some cmdTwinConfig
  | 0x0B02 => some cmdTwinStatus
  | 0x0B03 => some cmdTwinSwitch
  | 0x0B04 => some cmdTwinCommit
  | 0x0C01 => some cmdFaultRead
  | 0x0C02 => some cmdFaultClear
  | 0x0C03 => some cmdFaultPolicy
  | 0x0C04 => some cmdFaultInject
  | 0x0C05 => some cmdFaultPin
  | 0x0D01 => some cmdPrbsConfig
  | 0x0D02 => some cmdPrbsRead
  | 0x0D03 => some cmdLoopbackSet
  | 0x0D04 => some cmdBistRun
  | 0x0D05 => some cmdEyeScan
  | 0x0E01 => some cmdFwStage
  | 0x0E02 => some cmdFwActivate
  | 0x0E03 => some cmdFwStatus
  | 0x0E04 => some cmdLogRead
  | _ => none
/-- The behaviour of a code, if the table of commands has it. -/
def bodyOf (code : Nat) : Option Body := if code < 0x0600 then bodyLow code else if code < 0x0A00 then bodyMid code else bodyHigh code

/-- The fixed request lengths of the table of commands; none where the length depends on a field. -/
def fixedLen (code : Nat) : Option Nat :=
  if [0x0101, 0x0106, 0x0705, 0x0B02, 0x0E03].contains code then some 0
  else if [0x0102, 0x0103, 0x0105, 0x0107, 0x0202, 0x0204, 0x0205, 0x0502, 0x0603, 0x0604, 0x0702, 0x0703, 0x0704, 0x0802, 0x0803, 0x0805,
    0x0903, 0x0A04, 0x0B03, 0x0B04, 0x0C01, 0x0C02, 0x0D03, 0x0D04, 0x0E02].contains code then some 1
  else if [0x0301, 0x0302, 0x0305, 0x0401, 0x0403, 0x0405, 0x0504, 0x0505, 0x0602, 0x0A03, 0x0B01, 0x0C04, 0x0C05, 0x0D01, 0x0D02, 0x0D05,
    0x0E04].contains code then some 2
  else match code with
    | 0x0104 => some 4
    | 0x0201 => some 3
    | 0x0203 => some 4
    | 0x0304 => some 18
    | 0x0402 => some 3
    | 0x0404 => some 3
    | 0x0501 => some 19
    | 0x0701 => some 10
    | 0x0801 => some 6
    | 0x0804 => some 5
    | 0x0901 => some 8
    | 0x0902 => some 5
    | 0x0904 => some 3
    | 0x0905 => some 6
    | 0x0906 => some 3
    | 0x0A01 => some 4
    | 0x0C03 => some 4
    | _ => none
/-- Whether the request length is that of the table of commands, judged against the OP and count fields it carries. -/
def lenOk (code : Nat) (req : List Word) : Bool :=
  let n := req.length
  let w := wd req 0
  match fixedLen code with
  | some k => n == k
  | none =>
    match code with
    | 0x0303 => n == 2 + (fld (wd req 1) 16 8 + 3) / 4
    | 0x0503 => n == if fld w 27 24 = 0 then 19 else 1
    | 0x0506 => n == match fld w 3 0 with | 1 => 10 | 2 => 12 | 5 => 2 | _ => 1
    | 0x0601 => n == 4 + 3 * nCli req
    | 0x0A02 => n == 3 + fld (wd req 1) 16 9
    | 0x0E01 => if fld w 3 0 = 2 then decide (3 ≤ n) && decide (n ≤ 255) else n == 1
    | _ => false

/-! ### Scope and gates (R366, R367, R398, R418, R440) -/

/-- Whether a command is pair-wide. -/
def pairWide (code : Nat) (req : List Word) : Bool :=
  let w := wd req 0
  if [0x0203, 0x0204, 0x0301, 0x0303, 0x0304, 0x0402, 0x0404, 0x0501, 0x0502, 0x0504, 0x0505, 0x0601, 0x0602, 0x0603, 0x0703, 0x0802, 0x0804,
    0x0904, 0x0104, 0x0A03].contains code then true
  else match code with
    | 0x0503 => decide (fld w 27 24 ≤ 2)
    | 0x0506 => [1, 2, 3, 4].contains (fld w 3 0)
    | 0x0701 => [1, 2, 3].contains (fld w 23 20)
    | 0x0801 => [1, 2, 3].contains (fld w 15 12)
    | 0x0901 => !(bitOf w 10)
    | 0x0905 => !(bitOf w 12)
    | 0x0902 => [1, 2, 3, 4, 5, 7].contains (fld w 7 4)
    | 0x0A01 => [1, 2, 3].contains (fld w 3 0)
    | 0x0A02 => bitOf w 10 || fld w 9 8 == 2
    | 0x0B01 => fld w 3 0 == 2
    | _ => false
/-- Whether a command is a pair-control command. -/
def pairControl (code : Nat) (req : List Word) : Bool := code == 0x0B04 && [1, 2].contains (fld (wd req 0) 3 0)
/-- Whether FW_STATE restricts a command. -/
def fwGate (s : State) (code : Nat) (req : List Word) : Bool :=
  match s.fw.state with
  | 3 => !([0x0101, 0x0C01, 0x0C05, 0x0B02, 0x0E03, 0x0E04].contains code)
  | 4 => !([0x0101, 0x0E01, 0x0E03, 0x0E04].contains code) && !(code == 0x0E02 && fld (wd req 0) 3 0 == 2)
  | _ => false
/-- Whether the staging area is full. -/
def stagingFull (t : Twin) : Bool :=
  decide (4096 ≤ t.staging.length) || decide (2097152 ≤ (t.staging.map (fun e => 4 * e.req.length)).foldl (· + ·) 0)

/-! ### The journal (R508) -/

/-- Whether a command makes a setting that the journal records. -/
def journals (code : Nat) (req : List Word) : Bool :=
  let w := wd req 0
  match code with
  | 0x0904 => false
  | 0x0104 => false
  | 0x0703 => false
  | 0x0802 => fld w 15 12 != 5
  | 0x0804 => fld w 15 12 != 4
  | 0x0A01 => fld w 3 0 != 3
  | 0x0201 => fld w 19 16 == 1
  | 0x0B01 => fld w 3 0 == 1 || fld w 3 0 == 2
  | 0x0C03 => fld w 11 8 == 1
  | _ => pairWide code req
/-- Whether the object or setting that an entry makes still stands; the entries of a deleted object go with it. -/
def entryLive (s : State) (e : JEntry) : Bool :=
  let w := wd e.req 0
  let v := wd e.req 1
  let chan := thas s.chan (chKey (bitOf w 14) (fld w 13 0))
  match e.code with
  | 0x0203 => thas s.port (fld w 7 0)
  | 0x0301 => if fld w 3 0 = 1 then thas s.port (fld w 21 8) else thas s.chan (chKey false (fld w 21 8))
  | 0x0303 => !((ohNamed s (fld w 3 0) (fld w 21 8) (fld w 25 22)).isEmpty)
  | 0x0304 => !((ohNamed s (ttiKind (fld w 3 0)) (fld w 21 8) (fld w 25 22)).isEmpty)
  | 0x0402 => thas s.mon w.toNat
  | 0x0404 => w == 0 || thas s.mon w.toNat
  | 0x0501 => chan
  | 0x0503 => chan
  | 0x0504 => (match tget? s.chan (chKey (bitOf w 14) (fld w 13 0)) with
    | some d => (cConns d).any (fun y => y.kind == fld w 19 16 && y.target == fld v 23 0) | none => false)
  | 0x0506 => thas s.flex (flexKey (fld w 8 4) (fld w 9 9)) && fld w 3 0 != 4
  | 0x0601 => thas s.braid (fld w 7 0) && fld w 11 8 != 2
  | 0x0602 => (match (sideOf s (fld w 7 0) (bitOf w 8)).bind (fun d => memberOf d (fld w 15 10)) with
    | some m => m.ch == fld v 13 0 && !m.removing | none => false)
  | 0x0701 => thas s.pool.q (fld w 19 0) && fld w 23 20 != 3
  | 0x0801 => thas s.prot (fld w 10 0) && fld w 15 12 != 2
  | 0x0802 => (match tget? s.prot (fld w 10 0) with | some g => g.ext == fld w 15 12 && g.ext != 0 | none => false)
  | 0x0804 => if decide (5 ≤ fld w 15 12) then thas s.bridge (fld v 13 0) && fld w 15 12 == 5 else thas s.welt (fld w 11 0) && fld w 15 12 != 2
  | 0x0204 => false
  | 0x0502 => false
  | 0x0505 => false
  | 0x0603 => false
  | _ => true
/-- The fields of word 0 that name the setting of a command which overwrites it whole; none for commands whose entries add up. -/
def settingName (code : Nat) (req : List Word) : Option Nat :=
  let w := wd req 0
  match code with
  | 0x0802 => some (fld w 10 0)
  | 0x0901 => some (fld w 5 0)
  | 0x0902 => some (fld w 1 0 + 4 * fld w 7 4)
  | 0x0905 => some (fld w 4 0)
  | 0x0A01 => some (fld w 5 0)
  | 0x0A02 => some (w.toNat + 64 * (wd req 1).toNat)
  | 0x0A03 => some w.toNat
  | 0x0B01 => some (if fld w 3 0 = 1 then 256 else fld (wd req 1) 7 0)
  | 0x0C03 => some (fld w 4 0)
  | 0x0201 => some (kindLane (fld w 1 0) (fld w 15 8))
  | _ => none
/-- Whether a new entry takes the place of e. -/
def supersedes (n e : JEntry) : Bool :=
  n.code == e.code && (n == e || (match settingName n.code n.req with | some k => settingName e.code e.req == some k | none => false))
/-- The record of a bank: candidate, bank, TYPE, GD and, but for a factory bank, the 511 coefficients; none of a bank as a TMC reset leaves it. -/
def bankRecord (s : State) (c : Nat) (b : Bool) : List JEntry :=
  let x := frontBank (candOf s c).front b
  if x.factory then
    (if x == frontBank {} b then [] else [{ code := 0x0A02, req := [w32 c, w32 (b2n b), w32 (b2n x.typ), w32 x.gd] }])
  else [{ code := 0x0A02, req := [w32 c, w32 (b2n b), w32 (b2n x.typ), w32 x.gd] ++ (List.range 511).map (fun i => w32 (unsx 24 (x.coef.getD i 0))) }]
/-- What the journal records of a command that has taken effect. -/
def entriesOf (code : Nat) (req : List Word) (s : State) : List JEntry :=
  let n := fld (wd req 0) 5 0
  match code with
  | 0x0A03 => [{ code := code, req := [w32 n, w32 (b2n (candOf s n).front.active)] }]
  | 0x0201 => [{ code := code, req := [wd req 0, wd req 1 &&& ~~~8, wd req 2] }]
  | _ => [{ code := code, req := req }]
/-- The journal after a commit into the inactive bank of candidate c. -/
def bankJournal (c : Nat) (s : State) : State :=
  let b := !(candOf s c).front.active
  let kept := s.fw.journal.filter (fun e => !(e.code == 0x0A02 && wd e.req 0 == w32 c && wd e.req 1 == w32 (b2n b)))
  { s with fw.journal := (kept ++ bankRecord s c b).filter (entryLive s) }
/-- The journal after a command has taken effect. -/
def journalAdd (code : Nat) (req : List Word) (s : State) : State :=
  if journals code req then
    let new := entriesOf code req s
    if code == 0x0A02 then bankJournal (fld (wd req 0) 5 0) s
    else
      let kept := s.fw.journal.filter (fun e => !(new.any (fun n => supersedes n e)))
      { s with fw.journal := (kept ++ new).filter (entryLive s) }
  else s

/-! ### Running a command -/

/-- A body run where no mailbox answers: whether it was accepted, and the state; what it waits for completes unanswered. -/
def runBody (code : Nat) (req : List Word) (s : State) : Bool × State :=
  match bodyOf code with
  | none => (false, s)
  | some f =>
    let r := f {} req s
    match r.1 with
    | .waits k => (true, { r.2 with host.waiting := r.2.host.waiting ++ [{ mbx := none, kind := k }] })
    | .done _ _ => (r.1.accepted, r.2)
/-- The applied configuration combined with the commands staged. -/
def shadowOf (l : List Staged) (s : State) : State := foldS l (fun e s => (runBody e.code e.req s).2) s
/-- The commands of a transaction applied in order (R368), each recorded as it takes effect. -/
def applyTxn (l : List Staged) (s : State) : State :=
  foldS l (fun e s =>
    let r := runBody e.code e.req s
    if r.1 then journalAdd e.code e.req r.2 else s) s
/-- A staged command's status and words: what its body gives on the shadow; one that would wait gives OK. -/
def stagedReply (r : Reply) : Status × List Word :=
  match r with
  | .done st ws => (st, ws)
  | .waits _ => (.ok, [])
/-- The command of mailbox m. -/
def serve (m : Nat) (s : State) : State :=
  let hdr := mbxHdr s m
  let code := fld hdr 31 16
  let req := (List.range (fld hdr 7 0)).map (fun i => tget (mbxOf s m).req 0 (i + 1))
  let wide := pairWide code req
  let ctx : Ctx := { denied := s.twin.paired && s.twin.role != .active && (wide || pairControl code req)
                     gate := fwGate s code req, mbx := some m }
  let stages := s.twin.paired && s.twin.role == .active && wide
  match bodyOf code with
  | none => respond m .unsupported [] s
  | some f =>
    if stages && stagingFull s.twin then respond m .busy [] s
    else if !(lenOk code req) then respond m .invalid [] s
    else if stages then
      let r := f ctx req (shadowOf s.twin.staging s)
      let a := stagedReply r.1
      let s := if r.1.accepted then { s with twin.staging := s.twin.staging ++ [{ code := code, req := req }] } else s
      respond m a.1 a.2 s
    else
      let r := f ctx req s
      let s := if r.1.accepted then journalAdd code req r.2 else r.2
      match r.1 with
      | .done st ws => respond m st ws s
      | .waits k => { s with host.waiting := s.host.waiting ++ [{ mbx := some m, kind := k }] }
/-- Whether mailboxes serve commands (R418), and no MP restart is due (R431, R474). -/
def canServe (s : State) : Bool := (s.fw.state == 1 || s.fw.state == 3 || s.fw.state == 4) && s.fw.restartAt.isNone
/-- The oldest rung mailbox is taken, if any. -/
def takeOne (s : State) : State :=
  match s.host.bells with
  | [] => s
  | m :: rest => if canServe s then settle (serve m { s with host.bells := rest }) else s
/-- Commands taken in order until mailbox m is no longer rung. -/
def takeUntil (m fuel : Nat) (s : State) : State :=
  match fuel with
  | 0 => s
  | k + 1 => if s.host.bells.contains m then takeUntil m k (takeOne s) else s
/-- The header word of a request. -/
def headerWord (code : Nat) (tag : Byte) (n : Nat) : Word := w32 (code * 65536 + tag.toNat * 256 + n % 256)
/-- A command sent on a mailbox as R416 states: the payload, the header, the doorbell; then it is taken in its turn. -/
def viaMailbox (code : Nat) (m : Mbx) (tag : Byte) (req : List Word) (s : State) : Host.Outcome State Fault Refusal :=
  let base := 0x10000 + 0x1000 * m.val
  let s := foldS req.zipIdx (fun e s => busWrite (base + 4 * (e.2 + 1)) e.1 15 s) s
  let s := busWrite base (headerWord code tag req.length) 15 s
  let s := busWrite 0x100 (w32 (2 ^ m.val)) 15 s
  .next (takeUntil m.val s.host.bells.length s)
/-- COMMAND_TAKE (R417). -/
def execCommandTake (s : State) : Host.Outcome State Fault Refusal := .next (takeOne s)

/-! ### Start-up phase 6 (R41, R393, R465, R508) -/

/-- A recorded setting made again, and whether it was accepted: banks and active banks without a fade, a FlexE calendar as switched,
an external command as it stood. -/
def replayEntry (e : JEntry) (s : State) : Bool × State :=
  let w := wd e.req 0
  match e.code with
  | 0x0201 => (true, s)
  | 0x0A02 =>
    let b : Bank := { factory := e.req.length == 4, typ := wd e.req 2 == 1, gd := (wd e.req 3).toNat, coef := (e.req.drop 4).map (fun v => sx 24 v.toNat) }
    (true, modCand w.toNat (fun x => { x with front := if wd e.req 1 == 1 then { x.front with bankB := b } else { x.front with bankA := b } }) s)
  | 0x0A03 => (true, modCand w.toNat (fun x => { x with front := { x.front with active := wd e.req 1 == 1, fade := none, pend := none } }) s)
  | 0x0802 => (thas s.prot (fld w 10 0), { s with prot := tupd s.prot (fld w 10 0) (fun g => { g with ext := fld w 15 12 }) })
  | 0x0506 =>
    let r := runBody e.code e.req s
    let key := flexKey (fld w 8 4) (fld w 9 9)
    (r.1, if r.1 && fld w 3 0 == 3 then (match tget? r.2.flex key with | some g => flexSwitched key (1 - g.active) r.2 | none => r.2) else r.2)
  | _ => runBody e.code e.req s
/-- The journal replayed; an entry that now fails is left out and logged. -/
def replayJournal (l : List JEntry) (s : State) : State :=
  foldS l (fun e s =>
    let r := replayEntry e s
    if r.1 then { r.2 with fw.journal := s.fw.journal ++ [e] } else logAdd .recreate e.code s) { s with fw.journal := [] }
/-- The reasons of recorded retirements and isolations, set again. -/
def reasonsAgain (s : State) : State :=
  let s := foldS ((List.range 64).filter (fun p => pcRetired s p)) (fun p => setReason 1 p) s
  foldS ((List.range 36).filter (fun d => (domOf s d).st == .isoFc)) (fun d s =>
    if d < 32 then setReason 3 d s else if d < 34 then setReason 2 (d - 32) s else if d = 34 then setReason 10 0 s else s) s
/-- STARTUP_PHASE_6_END. -/
def execStartupPhase6End (s : State) : Host.Outcome State Fault Refusal :=
  nextSettled (if s.boot.phase == .config then
      reasonsAgain { replayJournal s.fw.journal (budgetSettle s) with boot.phase := .release }
    else s)

/-! ### Transactions (R368, R369) -/

/-- A command of a transaction on the standby. The bank that a TEMPER_BANK_LOAD commits comes as the bank's record, because staging is not mirrored
(R350, R370); the record's form is the model's (DESIGN CHOICE, log 30). -/
def txnBody (e : Staged) (s : State) : Bool × State :=
  if e.code = 0x0A02 && e.req.length = 515 then
    let h := (e.req.drop 4).map (fun v => sx 24 v.toNat)
    let f := (candOf s (wd e.req 0).toNat).front
    (decide ((wd e.req 0).toNat ≤ 41) && wd e.req 1 == w32 (b2n (!f.active)) && f.fade.isNone && f.pend.isNone && bankOk h (wd e.req 2 == 1) (wd e.req 3).toNat,
      (replayEntry { code := e.code, req := e.req } s).2)
  else
    let r := runBody e.code e.req s
    (pairWide e.code e.req && lenOk e.code e.req && r.1, r.2)
/-- A transaction arrives: the standby checks it against its own configuration; one whose COMMIT it has acknowledged must apply first (R368). -/
def transactionRx (num : Word) (cmds : List TxnCmd) (s : State) : State :=
  let l : List Staged := cmds.map (fun e => { code := e.code.toNat, req := e.req })
  let ok := num == s.twin.txn + 1 && s.twin.rxApply.isNone &&
    (l.foldl (fun (a : Bool × State) e => let r := txnBody e a.2; (a.1 && r.1, r.2)) (true, s)).1
  if s.twin.run && s.twin.linkUp && s.twin.paired && s.twin.role == .standby then
    let s := sendFrames 0x11 1 s
    if ok then { s with twin.rxTxn := l, twin.rxTxnNum := num, twin.rxPrepared := true }
    else evtPartner 5 { s with twin.resynced := false, twin.rxTxn := if s.twin.rxApply.isSome then s.twin.rxTxn else [], twin.rxPrepared := false }
  else s
/-- The active twin at T_apply. -/
def applyActive (t : Nat) (s : State) : State :=
  let n := s.twin.commitLen
  let s := applyTxn (s.twin.staging.take n) s
  let s := { s with
    twin.txn := s.twin.txn + 1, twin.tApply := t, twin.staging := s.twin.staging.drop n, twin.commit := .none, twin.commitLen := 0 }
  finishWaiting (· == .commit) .ok (commitWords s) s
/-- The standby at T_apply. -/
def applyStandby (t : Nat) (s : State) : State :=
  let num := s.twin.rxTxnNum
  let s := foldS s.twin.rxTxn (fun e s =>
    let r := txnBody e s
    if !r.1 then s else if e.req.length = 515 then bankJournal (wd e.req 0).toNat r.2 else journalAdd e.code e.req r.2) s
  { s with twin.txn := num, twin.tApply := t, twin.rxTxn := [], twin.rxApply := none }
/-- T_APPLY_REACHED: paused while the MP is not running (R20). -/
def execTApplyReached (s : State) : Host.Outcome State Fault Refusal :=
  nextSettled (if mpRuns s then
      let s := match s.twin.commit with
        | .apply t => if t ≤ devNs s then applyActive t s else s
        | _ => s
      match s.twin.rxApply with
      | some t => if t ≤ devNs s then applyStandby t s else s
      | none => s
    else s)

/-! ### Resynchronisation (R380, R465) -/

/-- Whether an entry is a local setting, which a resynchronisation keeps. -/
def localEntry (e : JEntry) : Bool := e.code == 0x0201 || e.code == 0x0C03 || (e.code == 0x0B01 && fld (wd e.req 0) 3 0 == 1)
/-- Whether a list of entries holds a setting of this name. -/
def namesSetting (l : List JEntry) (code k : Nat) : Bool := l.any (fun e => e.code == code && settingName e.code e.req == some k)
/-- The objects of the pair-wide commands removed. -/
def blankObjects (s : State) : State :=
  let s := foldS (s.welt.map (·.1)) weltDrop s
  let s := foldS (s.bridge.map (·.1)) bridgeDrop s
  let s := foldS (s.braid.map (·.1)) braidDelete s
  let s := foldS (s.prot.map (·.1)) protDrop s
  let s := foldS (s.pool.q.map (·.1)) (fun n s => dropQueue n (flushQ n s)) s
  let s := foldS (s.chan.map (·.1)) chanRemove s
  let s := { s with flex := [] }
  foldS s.port (fun e => portRemove e.1 e.2) s
/-- Timing settings that l does not name, and monitoring settings, take their initial values. -/
def blankSettings (l : List JEntry) (s : State) : State :=
  let s := foldS ((List.range 42).filter (fun c => !(namesSetting l 0x0901 c) && (candOf s c).words != [0, 0, 0, 0, 0, 0, 0]))
    (fun c => refApply c false false [w32 c, 0, 0, 0, 0, 0, 0, 0]) s
  let s := foldS (List.range 42) (fun c => modCand c (fun x => { x with front := { x.front with
    bankA := {}, bankB := { typ := true, gd := 4608 }, active := false, fade := none, pend := none } })) s
  let s := foldS ((List.range 4).filter (fun d => !(namesSetting l 0x0902 (d + 4)))) (fun d => dpllConfig d [4, 0, 0, 0]) s
  let s := foldS (List.range 4) (fun d s => if (dpllOf s d).forced.isSome then dpllForce d 3 0 s else if (dpllOf s d).hoForced then dpllForce d 5 0 s else s) s
  let s := if l.any (fun e => e.code == 0x0902 && fld (wd e.req 0) 7 4 == 7) || s.tmc.ocxoCfg = 0 then s else { ocxoLost s with tmc.ocxoCfg := 0, tmc.ocxoSince := none }
  let s := foldS ((List.range 20).filter (fun n => !(namesSetting l 0x0905 n))) (fun n => outApply n [w32 n, 0, 0, 0, 0, 0]) s
  { s with
    twin.homing := [], pm.dayPending := some 0
    mon := s.mon.map (fun (e : Nat × Mon) => (e.1, { e.2 with
      evtDefect := false, evtFail := true, tDeclare := 0, tClear := 0, degM := 0, degThr := 0, thr := [] })) }
/-- The standby's configuration replaced by the active twin's as one commit; local settings are kept. -/
def resyncApply (l : List JEntry) (s : State) : State :=
  let keep := s.fw.journal.filter localEntry
  let s := blankSettings l (blankObjects s)
  let s := foldS l (fun e s =>
    let r := replayEntry e s
    if r.1 then { r.2 with fw.journal := s.fw.journal ++ [e] } else s) { s with fw.journal := keep }
  { s with twin.txn := (match s.twin.partner with | some h => h.txnApplied | none => s.twin.txn) }
/-- A resynchronisation starts: on the standby cfg is the active twin's configuration, in the form of its journal. -/
def resyncStart (cfg : List TxnCmd) (s : State) : State :=
  let begin_ (s : State) : State :=
    { s with twin.resyncing := true, twin.resyncs := s.twin.resyncs + 1, twin.resyncAt := some s.now, twin.histSync := false }
  let l := ((cfg.map (fun e => ({ code := e.code.toNat, req := e.req } : JEntry))).filter (fun e => !(localEntry e)))
  if s.twin.run && resyncDue s then begin_ (resyncApply l s)
  else if s.twin.run && resyncDueActive s then begin_ (sendFrames 0x11 1 s)
  else s

/-! ### Mirroring (R17, R20, R370) -/

/-- What arrives from the partner is acted on. -/
def mirrorStep (m : MirrorFrame) (s : State) : State :=
  match m with
  | .txn num cmds => transactionRx num cmds s
  | .prepared ok => preparedRx ok s
  | .commit t => commitRx t s
  | .commitAck => commitAckRx s
  | .decision dec => if followsPartner s then decided dec s else s
  | .snapshot addr j => if followsPartner s && pmPoint addr.toNat then snapshotRx addr.toNat j s else s
  | .config cfg => resyncStart cfg s
  | .bins l => resyncReady l s
  | .history pm tim => histSynced pm tim s
/-- What arrives from the partner waits while the MP is not running: mirroring and TWIN_COMMIT are paused (R17, R20). -/
def mirrorIn (m : MirrorFrame) (s : State) : State :=
  if mpRuns s then mirrorStep m s else { s with twin.mirrorHeld := s.twin.mirrorHeld ++ [m] }
/-- Mirroring resumes, with what has waited, in order. -/
def mirrorResume (s : State) : State := foldS s.twin.mirrorHeld mirrorStep { s with twin.mirrorHeld := [] }

/-- MIRROR_TRANSACTION_RX (R368). -/
def execMirrorTransactionRx (num : Word) (cmds : List TxnCmd) (s : State) : Host.Outcome State Fault Refusal :=
  nextSettled (mirrorIn (.txn num cmds) s)
/-- PREPARED_RX (R368). -/
def execPreparedRx (ok : Bool) (s : State) : Host.Outcome State Fault Refusal := nextSettled (mirrorIn (.prepared ok) s)
/-- COMMIT_RX (R368). -/
def execCommitRx (tApply : Nat) (s : State) : Host.Outcome State Fault Refusal := nextSettled (mirrorIn (.commit tApply) s)
/-- COMMIT_ACK_RX (R368). -/
def execCommitAckRx (s : State) : Host.Outcome State Fault Refusal := nextSettled (mirrorIn .commitAck s)
/-- DECISION_FRAME_RX (R370). -/
def execDecisionFrameRx (dec : Decision) (s : State) : Host.Outcome State Fault Refusal := nextSettled (mirrorIn (.decision dec) s)
/-- SNAPSHOT_FRAME_RX (R370). -/
def execSnapshotFrameRx (addr : Word) (j : Snapshot) (s : State) : Host.Outcome State Fault Refusal :=
  nextSettled (mirrorIn (.snapshot addr j) s)
/-- RESYNC_START (R380). -/
def execResyncStart (cfg : List TxnCmd) (s : State) : Host.Outcome State Fault Refusal := nextSettled (mirrorIn (.config cfg) s)
/-- RESYNC_READY (R380). -/
def execResyncReady (bins : List PmCopy) (s : State) : Host.Outcome State Fault Refusal := nextSettled (mirrorIn (.bins bins) s)
/-- HIST_SYNC_COMPLETE (R380). -/
def execHistSyncComplete (pm : List PmHistCopy) (tim : List TimingCopy) (s : State) : Host.Outcome State Fault Refusal :=
  nextSettled (mirrorIn (.history pm tim) s)
/-- MP_RESTART_COMPLETE (R20): nothing unless the MP restarts without an activation. -/
def execMpRestartComplete (s : State) : Host.Outcome State Fault Refusal :=
  nextSettled (if s.fw.state == 2 && s.fw.activation.isNone then mirrorResume (mpBack s) else s)
/-- ACTIVATION_READY (R431): the new image has adopted the running configuration. -/
def execActivationReady (s : State) : Host.Outcome State Fault Refusal := nextSettled (mirrorResume (activationReady s))

/-! ### The mailbox commands -/

/-- SYS_INFO. -/
def execSysInfo (m : Mbx) (tag : Byte) (req : List Word) (s : State) : Host.Outcome State Fault Refusal := viaMailbox 0x0101 m tag req s
/-- SYS_RESET_BLOCK. -/
def execSysResetBlock (m : Mbx) (tag : Byte) (req : List Word) (s : State) : Host.Outcome State Fault Refusal := viaMailbox 0x0102 m tag req s
/-- SYS_POWER_DOMAIN. -/
def execSysPowerDomain (m : Mbx) (tag : Byte) (req : List Word) (s : State) : Host.Outcome State Fault Refusal := viaMailbox 0x0103 m tag req s
/-- SYS_TIME_SET. -/
def execSysTimeSet (m : Mbx) (tag : Byte) (req : List Word) (s : State) : Host.Outcome State Fault Refusal := viaMailbox 0x0104 m tag req s
/-- SYS_EVENT_MASK. -/
def execSysEventMask (m : Mbx) (tag : Byte) (req : List Word) (s : State) : Host.Outcome State Fault Refusal := viaMailbox 0x0105 m tag req s
/-- SYS_VIOLATION_READ. -/
def execSysViolationRead (m : Mbx) (tag : Byte) (req : List Word) (s : State) : Host.Outcome State Fault Refusal := viaMailbox 0x0106 m tag req s
/-- SYS_CONTINUE. -/
def execSysContinue (m : Mbx) (tag : Byte) (req : List Word) (s : State) : Host.Outcome State Fault Refusal := viaMailbox 0x0107 m tag req s
/-- LANE_CONFIG. -/
def execLaneConfig (m : Mbx) (tag : Byte) (req : List Word) (s : State) : Host.Outcome State Fault Refusal := viaMailbox 0x0201 m tag req s
/-- LANE_STATUS. -/
def execLaneStatus (m : Mbx) (tag : Byte) (req : List Word) (s : State) : Host.Outcome State Fault Refusal := viaMailbox 0x0202 m tag req s
/-- PORT_CREATE. -/
def execPortCreate (m : Mbx) (tag : Byte) (req : List Word) (s : State) : Host.Outcome State Fault Refusal := viaMailbox 0x0203 m tag req s
/-- PORT_DELETE. -/
def execPortDelete (m : Mbx) (tag : Byte) (req : List Word) (s : State) : Host.Outcome State Fault Refusal := viaMailbox 0x0204 m tag req s
/-- PORT_STATUS. -/
def execPortStatus (m : Mbx) (tag : Byte) (req : List Word) (s : State) : Host.Outcome State Fault Refusal := viaMailbox 0x0205 m tag req s
/-- ALIGN_CONFIG. -/
def execAlignConfig (m : Mbx) (tag : Byte) (req : List Word) (s : State) : Host.Outcome State Fault Refusal := viaMailbox 0x0301 m tag req s
/-- OH_READ. -/
def execOhRead (m : Mbx) (tag : Byte) (req : List Word) (s : State) : Host.Outcome State Fault Refusal := viaMailbox 0x0302 m tag req s
/-- OH_WRITE. -/
def execOhWrite (m : Mbx) (tag : Byte) (req : List Word) (s : State) : Host.Outcome State Fault Refusal := viaMailbox 0x0303 m tag req s
/-- TTI_SET. -/
def execTtiSet (m : Mbx) (tag : Byte) (req : List Word) (s : State) : Host.Outcome State Fault Refusal := viaMailbox 0x0304 m tag req s
/-- TTI_READ. -/
def execTtiRead (m : Mbx) (tag : Byte) (req : List Word) (s : State) : Host.Outcome State Fault Refusal := viaMailbox 0x0305 m tag req s
/-- DEFECT_READ. -/
def execDefectRead (m : Mbx) (tag : Byte) (req : List Word) (s : State) : Host.Outcome State Fault Refusal := viaMailbox 0x0401 m tag req s
/-- DEFECT_CONFIG. -/
def execDefectConfig (m : Mbx) (tag : Byte) (req : List Word) (s : State) : Host.Outcome State Fault Refusal := viaMailbox 0x0402 m tag req s
/-- PM_READ. -/
def execPmRead (m : Mbx) (tag : Byte) (req : List Word) (s : State) : Host.Outcome State Fault Refusal := viaMailbox 0x0403 m tag req s
/-- PM_CONFIG. -/
def execPmConfig (m : Mbx) (tag : Byte) (req : List Word) (s : State) : Host.Outcome State Fault Refusal := viaMailbox 0x0404 m tag req s
/-- PM_HISTORY. -/
def execPmHistory (m : Mbx) (tag : Byte) (req : List Word) (s : State) : Host.Outcome State Fault Refusal := viaMailbox 0x0405 m tag req s
/-- CHAN_CREATE. -/
def execChanCreate (m : Mbx) (tag : Byte) (req : List Word) (s : State) : Host.Outcome State Fault Refusal := viaMailbox 0x0501 m tag req s
/-- CHAN_DELETE. -/
def execChanDelete (m : Mbx) (tag : Byte) (req : List Word) (s : State) : Host.Outcome State Fault Refusal := viaMailbox 0x0502 m tag req s
/-- CHAN_MODIFY. -/
def execChanModify (m : Mbx) (tag : Byte) (req : List Word) (s : State) : Host.Outcome State Fault Refusal := viaMailbox 0x0503 m tag req s
/-- XC_CONNECT. -/
def execXcConnect (m : Mbx) (tag : Byte) (req : List Word) (s : State) : Host.Outcome State Fault Refusal := viaMailbox 0x0504 m tag req s
/-- XC_DISCONNECT. -/
def execXcDisconnect (m : Mbx) (tag : Byte) (req : List Word) (s : State) : Host.Outcome State Fault Refusal := viaMailbox 0x0505 m tag req s
/-- FLEXE_CALENDAR. -/
def execFlexeCalendar (m : Mbx) (tag : Byte) (req : List Word) (s : State) : Host.Outcome State Fault Refusal := viaMailbox 0x0506 m tag req s
/-- BRAID_CREATE. -/
def execBraidCreate (m : Mbx) (tag : Byte) (req : List Word) (s : State) : Host.Outcome State Fault Refusal := viaMailbox 0x0601 m tag req s
/-- BRAID_MEMBER_ADD. -/
def execBraidMemberAdd (m : Mbx) (tag : Byte) (req : List Word) (s : State) : Host.Outcome State Fault Refusal := viaMailbox 0x0602 m tag req s
/-- BRAID_MEMBER_REMOVE. -/
def execBraidMemberRemove (m : Mbx) (tag : Byte) (req : List Word) (s : State) : Host.Outcome State Fault Refusal := viaMailbox 0x0603 m tag req s
/-- BRAID_STATUS. -/
def execBraidStatus (m : Mbx) (tag : Byte) (req : List Word) (s : State) : Host.Outcome State Fault Refusal := viaMailbox 0x0604 m tag req s
/-- QUEUE_CONFIG. -/
def execQueueConfig (m : Mbx) (tag : Byte) (req : List Word) (s : State) : Host.Outcome State Fault Refusal := viaMailbox 0x0701 m tag req s
/-- QUEUE_COUNT. -/
def execQueueCount (m : Mbx) (tag : Byte) (req : List Word) (s : State) : Host.Outcome State Fault Refusal := viaMailbox 0x0702 m tag req s
/-- QUEUE_FLUSH. -/
def execQueueFlush (m : Mbx) (tag : Byte) (req : List Word) (s : State) : Host.Outcome State Fault Refusal := viaMailbox 0x0703 m tag req s
/-- QUEUE_SCAN. -/
def execQueueScan (m : Mbx) (tag : Byte) (req : List Word) (s : State) : Host.Outcome State Fault Refusal := viaMailbox 0x0704 m tag req s
/-- POOL_STATUS. -/
def execPoolStatus (m : Mbx) (tag : Byte) (req : List Word) (s : State) : Host.Outcome State Fault Refusal := viaMailbox 0x0705 m tag req s
/-- PROT_GROUP_CREATE. -/
def execProtGroupCreate (m : Mbx) (tag : Byte) (req : List Word) (s : State) : Host.Outcome State Fault Refusal := viaMailbox 0x0801 m tag req s
/-- PROT_COMMAND. -/
def execProtCommand (m : Mbx) (tag : Byte) (req : List Word) (s : State) : Host.Outcome State Fault Refusal := viaMailbox 0x0802 m tag req s
/-- PROT_STATUS. -/
def execProtStatus (m : Mbx) (tag : Byte) (req : List Word) (s : State) : Host.Outcome State Fault Refusal := viaMailbox 0x0803 m tag req s
/-- WELT_CREATE. -/
def execWeltCreate (m : Mbx) (tag : Byte) (req : List Word) (s : State) : Host.Outcome State Fault Refusal := viaMailbox 0x0804 m tag req s
/-- WELT_STATUS. -/
def execWeltStatus (m : Mbx) (tag : Byte) (req : List Word) (s : State) : Host.Outcome State Fault Refusal := viaMailbox 0x0805 m tag req s
/-- TMC_REF_CONFIG. -/
def execTmcRefConfig (m : Mbx) (tag : Byte) (req : List Word) (s : State) : Host.Outcome State Fault Refusal := viaMailbox 0x0901 m tag req s
/-- TMC_SELECT. -/
def execTmcSelect (m : Mbx) (tag : Byte) (req : List Word) (s : State) : Host.Outcome State Fault Refusal := viaMailbox 0x0902 m tag req s
/-- TMC_STATUS. -/
def execTmcStatus (m : Mbx) (tag : Byte) (req : List Word) (s : State) : Host.Outcome State Fault Refusal := viaMailbox 0x0903 m tag req s
/-- TMC_DCO_STEER. -/
def execTmcDcoSteer (m : Mbx) (tag : Byte) (req : List Word) (s : State) : Host.Outcome State Fault Refusal := viaMailbox 0x0904 m tag req s
/-- TMC_OUTPUT_CONFIG. -/
def execTmcOutputConfig (m : Mbx) (tag : Byte) (req : List Word) (s : State) : Host.Outcome State Fault Refusal := viaMailbox 0x0905 m tag req s
/-- TMC_HISTORY. -/
def execTmcHistory (m : Mbx) (tag : Byte) (req : List Word) (s : State) : Host.Outcome State Fault Refusal := viaMailbox 0x0906 m tag req s
/-- TEMPER_CONFIG. -/
def execTemperConfig (m : Mbx) (tag : Byte) (req : List Word) (s : State) : Host.Outcome State Fault Refusal := viaMailbox 0x0A01 m tag req s
/-- TEMPER_BANK_LOAD. -/
def execTemperBankLoad (m : Mbx) (tag : Byte) (req : List Word) (s : State) : Host.Outcome State Fault Refusal := viaMailbox 0x0A02 m tag req s
/-- TEMPER_BANK_SWAP. -/
def execTemperBankSwap (m : Mbx) (tag : Byte) (req : List Word) (s : State) : Host.Outcome State Fault Refusal := viaMailbox 0x0A03 m tag req s
/-- TEMPER_STATUS. -/
def execTemperStatus (m : Mbx) (tag : Byte) (req : List Word) (s : State) : Host.Outcome State Fault Refusal := viaMailbox 0x0A04 m tag req s
/-- TWIN_CONFIG. -/
def execTwinConfig (m : Mbx) (tag : Byte) (req : List Word) (s : State) : Host.Outcome State Fault Refusal := viaMailbox 0x0B01 m tag req s
/-- TWIN_STATUS. -/
def execTwinStatus (m : Mbx) (tag : Byte) (req : List Word) (s : State) : Host.Outcome State Fault Refusal := viaMailbox 0x0B02 m tag req s
/-- TWIN_SWITCH. -/
def execTwinSwitch (m : Mbx) (tag : Byte) (req : List Word) (s : State) : Host.Outcome State Fault Refusal := viaMailbox 0x0B03 m tag req s
/-- TWIN_COMMIT. -/
def execTwinCommit (m : Mbx) (tag : Byte) (req : List Word) (s : State) : Host.Outcome State Fault Refusal := viaMailbox 0x0B04 m tag req s
/-- FAULT_READ. -/
def execFaultRead (m : Mbx) (tag : Byte) (req : List Word) (s : State) : Host.Outcome State Fault Refusal := viaMailbox 0x0C01 m tag req s
/-- FAULT_CLEAR. -/
def execFaultClear (m : Mbx) (tag : Byte) (req : List Word) (s : State) : Host.Outcome State Fault Refusal := viaMailbox 0x0C02 m tag req s
/-- FAULT_POLICY. -/
def execFaultPolicy (m : Mbx) (tag : Byte) (req : List Word) (s : State) : Host.Outcome State Fault Refusal := viaMailbox 0x0C03 m tag req s
/-- FAULT_INJECT. -/
def execFaultInject (m : Mbx) (tag : Byte) (req : List Word) (s : State) : Host.Outcome State Fault Refusal := viaMailbox 0x0C04 m tag req s
/-- FAULT_PIN. -/
def execFaultPin (m : Mbx) (tag : Byte) (req : List Word) (s : State) : Host.Outcome State Fault Refusal := viaMailbox 0x0C05 m tag req s
/-- PRBS_CONFIG. -/
def execPrbsConfig (m : Mbx) (tag : Byte) (req : List Word) (s : State) : Host.Outcome State Fault Refusal := viaMailbox 0x0D01 m tag req s
/-- PRBS_READ. -/
def execPrbsRead (m : Mbx) (tag : Byte) (req : List Word) (s : State) : Host.Outcome State Fault Refusal := viaMailbox 0x0D02 m tag req s
/-- LOOPBACK_SET. -/
def execLoopbackSet (m : Mbx) (tag : Byte) (req : List Word) (s : State) : Host.Outcome State Fault Refusal := viaMailbox 0x0D03 m tag req s
/-- BIST_RUN. -/
def execBistRun (m : Mbx) (tag : Byte) (req : List Word) (s : State) : Host.Outcome State Fault Refusal := viaMailbox 0x0D04 m tag req s
/-- EYE_SCAN. -/
def execEyeScan (m : Mbx) (tag : Byte) (req : List Word) (s : State) : Host.Outcome State Fault Refusal := viaMailbox 0x0D05 m tag req s
/-- FW_STAGE. -/
def execFwStage (m : Mbx) (tag : Byte) (req : List Word) (s : State) : Host.Outcome State Fault Refusal := viaMailbox 0x0E01 m tag req s
/-- FW_ACTIVATE. -/
def execFwActivate (m : Mbx) (tag : Byte) (req : List Word) (s : State) : Host.Outcome State Fault Refusal := viaMailbox 0x0E02 m tag req s
/-- FW_STATUS. -/
def execFwStatus (m : Mbx) (tag : Byte) (req : List Word) (s : State) : Host.Outcome State Fault Refusal := viaMailbox 0x0E03 m tag req s
/-- LOG_READ. -/
def execLogRead (m : Mbx) (tag : Byte) (req : List Word) (s : State) : Host.Outcome State Fault Refusal := viaMailbox 0x0E04 m tag req s

end Sys2Proof.Machine
end

