-- ==== Sys2Proof/Machine/Dispatch.lean ====
section
/-! DEFINITION. The dispatch: one arm per command, each one direct call of its meaning. -/

namespace Sys2Proof.Machine

def exec (i : Instr) (s : State) : Host.Outcome State Fault Refusal :=
  match i with
  | .sysInfo m tag req => Sys2Proof.Machine.execSysInfo m tag req s
  | .sysResetBlock m tag req => Sys2Proof.Machine.execSysResetBlock m tag req s
  | .sysPowerDomain m tag req => Sys2Proof.Machine.execSysPowerDomain m tag req s
  | .sysTimeSet m tag req => Sys2Proof.Machine.execSysTimeSet m tag req s
  | .sysEventMask m tag req => Sys2Proof.Machine.execSysEventMask m tag req s
  | .sysViolationRead m tag req => Sys2Proof.Machine.execSysViolationRead m tag req s
  | .sysContinue m tag req => Sys2Proof.Machine.execSysContinue m tag req s
  | .laneConfig m tag req => Sys2Proof.Machine.execLaneConfig m tag req s
  | .laneStatus m tag req => Sys2Proof.Machine.execLaneStatus m tag req s
  | .portCreate m tag req => Sys2Proof.Machine.execPortCreate m tag req s
  | .portDelete m tag req => Sys2Proof.Machine.execPortDelete m tag req s
  | .portStatus m tag req => Sys2Proof.Machine.execPortStatus m tag req s
  | .alignConfig m tag req => Sys2Proof.Machine.execAlignConfig m tag req s
  | .ohRead m tag req => Sys2Proof.Machine.execOhRead m tag req s
  | .ohWrite m tag req => Sys2Proof.Machine.execOhWrite m tag req s
  | .ttiSet m tag req => Sys2Proof.Machine.execTtiSet m tag req s
  | .ttiRead m tag req => Sys2Proof.Machine.execTtiRead m tag req s
  | .defectRead m tag req => Sys2Proof.Machine.execDefectRead m tag req s
  | .defectConfig m tag req => Sys2Proof.Machine.execDefectConfig m tag req s
  | .pmRead m tag req => Sys2Proof.Machine.execPmRead m tag req s
  | .pmConfig m tag req => Sys2Proof.Machine.execPmConfig m tag req s
  | .pmHistory m tag req => Sys2Proof.Machine.execPmHistory m tag req s
  | .chanCreate m tag req => Sys2Proof.Machine.execChanCreate m tag req s
  | .chanDelete m tag req => Sys2Proof.Machine.execChanDelete m tag req s
  | .chanModify m tag req => Sys2Proof.Machine.execChanModify m tag req s
  | .xcConnect m tag req => Sys2Proof.Machine.execXcConnect m tag req s
  | .xcDisconnect m tag req => Sys2Proof.Machine.execXcDisconnect m tag req s
  | .flexeCalendar m tag req => Sys2Proof.Machine.execFlexeCalendar m tag req s
  | .braidCreate m tag req => Sys2Proof.Machine.execBraidCreate m tag req s
  | .braidMemberAdd m tag req => Sys2Proof.Machine.execBraidMemberAdd m tag req s
  | .braidMemberRemove m tag req => Sys2Proof.Machine.execBraidMemberRemove m tag req s
  | .braidStatus m tag req => Sys2Proof.Machine.execBraidStatus m tag req s
  | .queueConfig m tag req => Sys2Proof.Machine.execQueueConfig m tag req s
  | .queueCount m tag req => Sys2Proof.Machine.execQueueCount m tag req s
  | .queueFlush m tag req => Sys2Proof.Machine.execQueueFlush m tag req s
  | .queueScan m tag req => Sys2Proof.Machine.execQueueScan m tag req s
  | .poolStatus m tag req => Sys2Proof.Machine.execPoolStatus m tag req s
  | .protGroupCreate m tag req => Sys2Proof.Machine.execProtGroupCreate m tag req s
  | .protCommand m tag req => Sys2Proof.Machine.execProtCommand m tag req s
  | .protStatus m tag req => Sys2Proof.Machine.execProtStatus m tag req s
  | .weltCreate m tag req => Sys2Proof.Machine.execWeltCreate m tag req s
  | .weltStatus m tag req => Sys2Proof.Machine.execWeltStatus m tag req s
  | .tmcRefConfig m tag req => Sys2Proof.Machine.execTmcRefConfig m tag req s
  | .tmcSelect m tag req => Sys2Proof.Machine.execTmcSelect m tag req s
  | .tmcStatus m tag req => Sys2Proof.Machine.execTmcStatus m tag req s
  | .tmcDcoSteer m tag req => Sys2Proof.Machine.execTmcDcoSteer m tag req s
  | .tmcOutputConfig m tag req => Sys2Proof.Machine.execTmcOutputConfig m tag req s
  | .tmcHistory m tag req => Sys2Proof.Machine.execTmcHistory m tag req s
  | .temperConfig m tag req => Sys2Proof.Machine.execTemperConfig m tag req s
  | .temperBankLoad m tag req => Sys2Proof.Machine.execTemperBankLoad m tag req s
  | .temperBankSwap m tag req => Sys2Proof.Machine.execTemperBankSwap m tag req s
  | .temperStatus m tag req => Sys2Proof.Machine.execTemperStatus m tag req s
  | .twinConfig m tag req => Sys2Proof.Machine.execTwinConfig m tag req s
  | .twinStatus m tag req => Sys2Proof.Machine.execTwinStatus m tag req s
  | .twinSwitch m tag req => Sys2Proof.Machine.execTwinSwitch m tag req s
  | .twinCommit m tag req => Sys2Proof.Machine.execTwinCommit m tag req s
  | .faultRead m tag req => Sys2Proof.Machine.execFaultRead m tag req s
  | .faultClear m tag req => Sys2Proof.Machine.execFaultClear m tag req s
  | .faultPolicy m tag req => Sys2Proof.Machine.execFaultPolicy m tag req s
  | .faultInject m tag req => Sys2Proof.Machine.execFaultInject m tag req s
  | .faultPin m tag req => Sys2Proof.Machine.execFaultPin m tag req s
  | .prbsConfig m tag req => Sys2Proof.Machine.execPrbsConfig m tag req s
  | .prbsRead m tag req => Sys2Proof.Machine.execPrbsRead m tag req s
  | .loopbackSet m tag req => Sys2Proof.Machine.execLoopbackSet m tag req s
  | .bistRun m tag req => Sys2Proof.Machine.execBistRun m tag req s
  | .eyeScan m tag req => Sys2Proof.Machine.execEyeScan m tag req s
  | .fwStage m tag req => Sys2Proof.Machine.execFwStage m tag req s
  | .fwActivate m tag req => Sys2Proof.Machine.execFwActivate m tag req s
  | .fwStatus m tag req => Sys2Proof.Machine.execFwStatus m tag req s
  | .logRead m tag req => Sys2Proof.Machine.execLogRead m tag req s
  | .mbxDoorbellRing v => Sys2Proof.Machine.execMbxDoorbellRing v s
  | .evtRingEnable v => Sys2Proof.Machine.execEvtRingEnable v s
  | .evtRingDisable v => Sys2Proof.Machine.execEvtRingDisable v s
  | .evtRingHeadWrite v be => Sys2Proof.Machine.execEvtRingHeadWrite v be s
  | .violInfoRead => Sys2Proof.Machine.execViolInfoRead s
  | .unimplementedRead off bes => Sys2Proof.Machine.execUnimplementedRead off bes s
  | .unimplementedWrite off v be => Sys2Proof.Machine.execUnimplementedWrite off v be s
  | .busyMailboxWrite off v be => Sys2Proof.Machine.execBusyMailboxWrite off v be s
  | .registerWrite off v be => Sys2Proof.Machine.execRegisterWrite off v be s
  | .commandTake => Sys2Proof.Machine.execCommandTake s
  | .eventDelivery => Sys2Proof.Machine.execEventDelivery s
  | .msixVector0HoldoffEnd => Sys2Proof.Machine.execMsixVector0HoldoffEnd s
  | .busViolationEventTimer => Sys2Proof.Machine.execBusViolationEventTimer s
  | .porstNAssert => Sys2Proof.Machine.execPorstNAssert s
  | .porstNRelease strap => Sys2Proof.Machine.execPorstNRelease strap s
  | .perstNAssert => Sys2Proof.Machine.execPerstNAssert s
  | .perstNRelease => Sys2Proof.Machine.execPerstNRelease s
  | .supplyRemoval => Sys2Proof.Machine.execSupplyRemoval s
  | .startupPhase1End => Sys2Proof.Machine.execStartupPhase1End s
  | .startupPhase2End => Sys2Proof.Machine.execStartupPhase2End s
  | .startupPhase3End => Sys2Proof.Machine.execStartupPhase3End s
  | .startupPhase4End => Sys2Proof.Machine.execStartupPhase4End s
  | .startupPhase5aEnd pcs stackBits => Sys2Proof.Machine.execStartupPhase5aEnd pcs stackBits s
  | .startupPhase5bEnd failed => Sys2Proof.Machine.execStartupPhase5bEnd failed s
  | .startupPhase6End => Sys2Proof.Machine.execStartupPhase6End s
  | .startupPhase7End => Sys2Proof.Machine.execStartupPhase7End s
  | .bootReadyTimeout => Sys2Proof.Machine.execBootReadyTimeout s
  | .domainSwitchesOpen d => Sys2Proof.Machine.execDomainSwitchesOpen d s
  | .domainBringUpComplete d => Sys2Proof.Machine.execDomainBringUpComplete d s
  | .blockResetEnd blk idx => Sys2Proof.Machine.execBlockResetEnd blk idx s
  | .mpRestartComplete => Sys2Proof.Machine.execMpRestartComplete s
  | .signalDetectPresent l => Sys2Proof.Machine.execSignalDetectPresent l s
  | .signalDetectAbsent l => Sys2Proof.Machine.execSignalDetectAbsent l s
  | .cdrLockAcquired l => Sys2Proof.Machine.execCdrLockAcquired l s
  | .acquisitionLimitExpiry l => Sys2Proof.Machine.execAcquisitionLimitExpiry l s
  | .cdrLockLost l => Sys2Proof.Machine.execCdrLockLost l s
  | .laneBufferSlip l => Sys2Proof.Machine.execLaneBufferSlip l s
  | .slipDlolExpiry l => Sys2Proof.Machine.execSlipDlolExpiry l s
  | .continuousAdaptationVisit l coef step snr => Sys2Proof.Machine.execContinuousAdaptationVisit l coef step snr s
  | .fasPatternMatch p proc pos sig qual => Sys2Proof.Machine.execFasPatternMatch p proc pos sig qual s
  | .fasCandidateCheck p proc slot seen qual => Sys2Proof.Machine.execFasCandidateCheck p proc slot seen qual s
  | .rxFrame o f => Sys2Proof.Machine.execRxFrame o f s
  | .dlofDeclare p proc => Sys2Proof.Machine.execDlofDeclare p proc s
  | .dlofClear p proc => Sys2Proof.Machine.execDlofClear p proc s
  | .dloflaneDeclare p proc => Sys2Proof.Machine.execDloflaneDeclare p proc s
  | .dloflaneClear p proc => Sys2Proof.Machine.execDloflaneClear p proc s
  | .dlomDeclare p proc => Sys2Proof.Machine.execDlomDeclare p proc s
  | .dlomClear p proc => Sys2Proof.Machine.execDlomClear p proc s
  | .flexoFrame p lane am ident omfi arrival => Sys2Proof.Machine.execFlexoFrame p lane am ident omfi arrival s
  | .pcsAlignmentMarker p pcs sync am lane arrival => Sys2Proof.Machine.execPcsAlignmentMarker p pcs sync am lane arrival s
  | .flexeOverheadFrame p inst f => Sys2Proof.Machine.execFlexeOverheadFrame p inst f s
  | .gfpCoreHeader ch hdr f => Sys2Proof.Machine.execGfpCoreHeader ch hdr f s
  | .hagilHeader l hdr => Sys2Proof.Machine.execHagilHeader l hdr s
  | .fabricCodeword l oks => Sys2Proof.Machine.execFabricCodeword l oks s
  | .txFrame o f => Sys2Proof.Machine.execTxFrame o f s
  | .gfpCmfTimer eg ch => Sys2Proof.Machine.execGfpCmfTimer eg ch s
  | .failureDeclareExpiry addr bit => Sys2Proof.Machine.execFailureDeclareExpiry addr bit s
  | .failureClearExpiry addr bit => Sys2Proof.Machine.execFailureClearExpiry addr bit s
  | .oneSecondPulse => Sys2Proof.Machine.execOneSecondPulse s
  | .pmSecondEvaluation addr => Sys2Proof.Machine.execPmSecondEvaluation addr s
  | .hagilSlotTx sl arr => Sys2Proof.Machine.execHagilSlotTx sl arr s
  | .hagilFrameRx l f => Sys2Proof.Machine.execHagilFrameRx l f s
  | .seqSkipTimeout r => Sys2Proof.Machine.execSeqSkipTimeout r s
  | .lcasWtrExpiry eg ch => Sys2Proof.Machine.execLcasWtrExpiry eg ch s
  | .flexeCrAck sl grp => Sys2Proof.Machine.execFlexeCrAck sl grp s
  | .flexeCalendarSwitch sl grp => Sys2Proof.Machine.execFlexeCalendarSwitch sl grp s
  | .flexeAckTimeout sl grp => Sys2Proof.Machine.execFlexeAckTimeout sl grp s
  | .bgoAccept g midx bgo ts => Sys2Proof.Machine.execBgoAccept g midx bgo ts s
  | .stitchSlotRx g midx bytes => Sys2Proof.Machine.execStitchSlotRx g midx bytes s
  | .braidRoundRead g => Sys2Proof.Machine.execBraidRoundRead g s
  | .braidRoundFormed g => Sys2Proof.Machine.execBraidRoundFormed g s
  | .braidSwitchRound g tx => Sys2Proof.Machine.execBraidSwitchRound g tx s
  | .braidAddTimeout g tx midx => Sys2Proof.Machine.execBraidAddTimeout g tx midx s
  | .braidMemberWtrExpiry g midx => Sys2Proof.Machine.execBraidMemberWtrExpiry g midx s
  | .braidSoloSideDelay g tx midx => Sys2Proof.Machine.execBraidSoloSideDelay g tx midx s
  | .braidMemberWithdrawn g midx => Sys2Proof.Machine.execBraidMemberWithdrawn g midx s
  | .braidClientDataTimeout g cidx => Sys2Proof.Machine.execBraidClientDataTimeout g cidx s
  | .bgoAbsence g midx => Sys2Proof.Machine.execBgoAbsence g midx s
  | .writerWord q bytes first last bad => Sys2Proof.Machine.execWriterWord q bytes first last bad s
  | .flushTakesEffect q => Sys2Proof.Machine.execFlushTakesEffect q s
  | .queueRead q ue => Sys2Proof.Machine.execQueueRead q ue s
  | .patrolScrub cell ue => Sys2Proof.Machine.execPatrolScrub cell ue s
  | .retirementEvaluation => Sys2Proof.Machine.execRetirementEvaluation s
  | .wsoAccept w copy reps start frac ended => Sys2Proof.Machine.execWsoAccept w copy reps start frac ended s
  | .weltPlayout w => Sys2Proof.Machine.execWeltPlayout w s
  | .weltAbsentTimer w copy => Sys2Proof.Machine.execWeltAbsentTimer w copy s
  | .weltAcquireTimer w => Sys2Proof.Machine.execWeltAcquireTimer w s
  | .weltNoCopyIn w => Sys2Proof.Machine.execWeltNoCopyIn w s
  | .weltRealignAuto w => Sys2Proof.Machine.execWeltRealignAuto w s
  | .holdOffExpiry g k => Sys2Proof.Machine.execHoldOffExpiry g k s
  | .protWtrExpiry g => Sys2Proof.Machine.execProtWtrExpiry g s
  | .fopNrTimer g => Sys2Proof.Machine.execFopNrTimer g s
  | .tmcSecondBoundary meas => Sys2Proof.Machine.execTmcSecondBoundary meas s
  | .candidateActivityLoss c => Sys2Proof.Machine.execCandidateActivityLoss c s
  | .candidatePhaseJump c dep => Sys2Proof.Machine.execCandidatePhaseJump c dep s
  | .candidateWaitExpiry c => Sys2Proof.Machine.execCandidateWaitExpiry c s
  | .dpllLockDetect d => Sys2Proof.Machine.execDpllLockDetect d s
  | .dpllLockLoss d => Sys2Proof.Machine.execDpllLockLoss d s
  | .switchCompletion d phi => Sys2Proof.Machine.execSwitchCompletion d phi s
  | .ocxoQualify => Sys2Proof.Machine.execOcxoQualify s
  | .ocxoDisqualify => Sys2Proof.Machine.execOcxoDisqualify s
  | .loopUpdate d phiO => Sys2Proof.Machine.execLoopUpdate d phiO s
  | .frontSample xs => Sys2Proof.Machine.execFrontSample xs s
  | .fadeComplete c => Sys2Proof.Machine.execFadeComplete c s
  | .phaseAdjSpreadEnd d => Sys2Proof.Machine.execPhaseAdjSpreadEnd d s
  | .pulseEdge k => Sys2Proof.Machine.execPulseEdge k s
  | .clkoutRestart n => Sys2Proof.Machine.execClkoutRestart n s
  | .wholeSecondCrossing => Sys2Proof.Machine.execWholeSecondCrossing s
  | .pulseReferenceEdge c err => Sys2Proof.Machine.execPulseReferenceEdge c err s
  | .heartbeatTimer => Sys2Proof.Machine.execHeartbeatTimer s
  | .heartbeatRx h => Sys2Proof.Machine.execHeartbeatRx h s
  | .hbxEdge => Sys2Proof.Machine.execHbxEdge s
  | .varricHeartbeatLoss => Sys2Proof.Machine.execVarricHeartbeatLoss s
  | .hbxHeartbeatLoss => Sys2Proof.Machine.execHbxHeartbeatLoss s
  | .arbClaimReleased => Sys2Proof.Machine.execArbClaimReleased s
  | .arbClaimAsserted => Sys2Proof.Machine.execArbClaimAsserted s
  | .claimDelayExpiry => Sys2Proof.Machine.execClaimDelayExpiry s
  | .handoverAtReached => Sys2Proof.Machine.execHandoverAtReached s
  | .handoverRelease => Sys2Proof.Machine.execHandoverRelease s
  | .yieldTimeout => Sys2Proof.Machine.execYieldTimeout s
  | .varricLinkUp => Sys2Proof.Machine.execVarricLinkUp s
  | .varricLinkDown => Sys2Proof.Machine.execVarricLinkDown s
  | .arbFaultTimer => Sys2Proof.Machine.execArbFaultTimer s
  | .mirrorTransactionRx num cmds => Sys2Proof.Machine.execMirrorTransactionRx num cmds s
  | .preparedRx ok => Sys2Proof.Machine.execPreparedRx ok s
  | .commitRx tApply => Sys2Proof.Machine.execCommitRx tApply s
  | .commitAckRx => Sys2Proof.Machine.execCommitAckRx s
  | .tApplyReached => Sys2Proof.Machine.execTApplyReached s
  | .twinCommitTimeout => Sys2Proof.Machine.execTwinCommitTimeout s
  | .decisionFrameRx dec => Sys2Proof.Machine.execDecisionFrameRx dec s
  | .snapshotFrameRx addr j => Sys2Proof.Machine.execSnapshotFrameRx addr j s
  | .xfeedFrameRx p x => Sys2Proof.Machine.execXfeedFrameRx p x s
  | .resyncStart cfg => Sys2Proof.Machine.execResyncStart cfg s
  | .resyncReady bins => Sys2Proof.Machine.execResyncReady bins s
  | .histSyncComplete pm tim => Sys2Proof.Machine.execHistSyncComplete pm tim s
  | .faultSourceEvent a obs => Sys2Proof.Machine.execFaultSourceEvent a obs s
  | .railPathFault a => Sys2Proof.Machine.execRailPathFault a s
  | .railPathRecovery a => Sys2Proof.Machine.execRailPathRecovery a s
  | .faultWindowEnd g => Sys2Proof.Machine.execFaultWindowEnd g s
  | .faultGraceExpiry a => Sys2Proof.Machine.execFaultGraceExpiry a s
  | .twinFirstDelay a => Sys2Proof.Machine.execTwinFirstDelay a s
  | .armedExpiry a => Sys2Proof.Machine.execArmedExpiry a s
  | .quiesceMaskEnd a => Sys2Proof.Machine.execQuiesceMaskEnd a s
  | .faultNPulseEnd => Sys2Proof.Machine.execFaultNPulseEnd s
  | .checkerExercise a seen => Sys2Proof.Machine.execCheckerExercise a seen s
  | .exerciseRetry a seen => Sys2Proof.Machine.execExerciseRetry a seen s
  | .fwEraseDone ok => Sys2Proof.Machine.execFwEraseDone ok s
  | .fwCheckDone => Sys2Proof.Machine.execFwCheckDone s
  | .activationReady => Sys2Proof.Machine.execActivationReady s
  | .activationFallback => Sys2Proof.Machine.execActivationFallback s
  | .journalCompaction => Sys2Proof.Machine.execJournalCompaction s
  | .bistDone fails multi first => Sys2Proof.Machine.execBistDone fails multi first s
  | .eyeScanDone l pts => Sys2Proof.Machine.execEyeScanDone l pts s
  | .supplyPowerUp => Sys2Proof.Machine.execSupplyPowerUp s
  | .faultInjectTimeout => Sys2Proof.Machine.execFaultInjectTimeout s
  | .prbsCheckerLock t cmp err => Sys2Proof.Machine.execPrbsCheckerLock t cmp err s
  | .prbsCheckerLockLoss t cmp err => Sys2Proof.Machine.execPrbsCheckerLockLoss t cmp err s
  | .jtagTckEdge rising tms tdi => Sys2Proof.Machine.execJtagTckEdge rising tms tdi s
  | .trstNAssert => Sys2Proof.Machine.execTrstNAssert s

end Sys2Proof.Machine
end

