-- ==== Sys2Proof/Safety.lean ====
section
/-! DEFINITION. What counts as a safe state, and the terms in which statements speak of a mailbox command: when one is taken at once, the
state in which it is taken, and the state in which it has completed. -/

namespace Sys2Proof.Machine

/-- The HBM is in its canonical form. -/
def State.memOk (s : State) : Prop := Memory.wf s.pool.mem = true

/-- A command with this code and request, sent on mailbox m, is taken at once (R416, R418, R440): the endpoint is up, the mailbox is not BUSY,
no other doorbell waits, FW_STATE is READY, no restart of the MP is due, and the request is as long as the table of commands says. -/
structure State.takes (code : Nat) (m : Mbx) (req : List Word) (s : State) : Prop where
  up : endpointUp s = true
  idle : (mbxOf s m.val).st ≠ .busy
  quiet : s.host.bells = []
  serves : s.fw.state = 1
  noRestart : s.fw.restartAt = none
  short : req.length ≤ 255
  len : lenOk code req = true

/-- The command is taken at once and takes effect at once: on a PAIRED twin it has local scope, or is a pair-control command on the
ACTIVE twin (R367). -/
structure State.ready (code : Nat) (m : Mbx) (req : List Word) (s : State) : Prop extends State.takes code m req s where
  scope : s.twin.paired = true → pairWide code req = false ∧ (s.twin.role = .active ∨ pairControl code req = false)

/-- The state in which that command is taken: the request words and the header written, the doorbell rung, and the bell taken. -/
def State.posted (code : Nat) (m : Mbx) (tag : Byte) (req : List Word) (s : State) : State :=
  let base := 0x10000 + 0x1000 * m.val
  let s := foldS req.zipIdx (fun e s => busWrite (base + 4 * (e.2 + 1)) e.1 15 s) s
  let s := busWrite base (headerWord code tag req.length) 15 s
  let s := busWrite 0x100 (w32 (2 ^ m.val)) 15 s
  { s with host.bells := [] }

/-- The state in which the command has completed with OK: t is the state its effect leaves, the journal records the setting it makes,
the response is in the mailbox, and everything that follows at once has followed. -/
def State.answered (code : Nat) (m : Mbx) (req : List Word) (ws : List Word) (t : State) : State :=
  settle (respond m.val .ok ws (journalAdd code req t))

/-- Nothing outside the signal path, the host interface, the firmware's records, the twin logic and the timing core changes from s to t: the
queue of commands and the time, the pins, start-up, power domains and block resets, the fault collector but for what it counts and raises
at the HBM's own sources (R381: a cell or descriptor that is read and found bad) and in an injection there, tests, fabric transmitters, the PM clock, the FlexE
group engines, and every byte of the HBM. -/
structure Untouched (s t : State) : Prop where
  pending : t.pending = s.pending
  now : t.now = s.now
  pins : t.pins = s.pins
  boot : t.boot = s.boot
  power : t.power = s.power
  resets : t.resets = s.resets
  fault : { t.fault with src := s.fault.src, pulseUntil := s.fault.pulseUntil, inject := s.fault.inject } = s.fault
  srcs : ∀ a, a < 0x800 ∨ 0x900 ≤ a → srcOf t a = srcOf s a
  test : t.test = s.test
  fabTx : t.fabTx = s.fabTx
  pm : t.pm = s.pm
  flex : t.flex = s.flex
  hbm : t.pool.mem = s.pool.mem

end Sys2Proof.Machine
end

