-- ==== Sys2Proof/Certificates/Slice0/Obligations.lean ====
section
/-! DEFINITION. The statements about the block: first the completion of every command, family by family, then frames, roles and the
whole machine. -/

open Sys2Proof Sys2Proof.Machine

/-! ### Mailbox commands: system (14_host_interface_and_firmware.md, 15_command_reference.md)

In the statements about mailbox commands p is the state in which the command is taken, and the state answered holds the effect, the OK
response and the journal's record (Sys2Proof/Safety.lean). -/

/-- SYS_INFO, SYS_EVENT_MASK, SYS_VIOLATION_READ and SYS_CONTINUE complete with OK: the words read, the mask set, the violation log emptied, and the
part of a held response that was asked for (R423, R441, R442, R445). -/
def Obligations.SystemCommandsComplete : Prop :=
  ∀ (m : Mbx) (tag : Byte) (req : List Word) (s : State),
    (∀ p, p = s.posted 0x0101 m tag req → s.ready 0x0101 m req →
      exec (.sysInfo m tag req) s = .next (p.answered 0x0101 m req
        [0x00A15120, fwState p, Config.uniqueId.setWidth 32, (Config.uniqueId >>> 32).setWidth 32, w32 (700 + Config.coreMvAbove700 % 101),
         w32 (b2n p.pins.strap + 2 * ((List.range 64).filter (fun k => pcRetired p k)).length + 256 * b2n (fatalSet p)),
         p.boot.boots, w32 ((p.now - p.boot.porstAt) / 1000000000)])) ∧
    (∀ p, p = s.posted 0x0105 m tag req → s.ready 0x0105 m req → fld (wd req 0) 31 20 = 0 → eventCodes.contains (fld (wd req 0) 15 0) = true →
      (fld (wd req 0) 19 16 = 1 → unmaskable.contains (fld (wd req 0) 15 0) = false →
        exec (.sysEventMask m tag req) s = .next (({ p with host.evMasked := p.host.evMasked.filter (· != fld (wd req 0) 15 0) ++ [fld (wd req 0) 15 0] } :
          State).answered 0x0105 m req [1])) ∧
      (fld (wd req 0) 19 16 = 2 →
        exec (.sysEventMask m tag req) s = .next (({ p with host.evMasked := p.host.evMasked.filter (· != fld (wd req 0) 15 0) } :
          State).answered 0x0105 m req [0])) ∧
      (fld (wd req 0) 19 16 = 3 →
        exec (.sysEventMask m tag req) s = .next (p.answered 0x0105 m req [w32 (b2n (p.host.evMasked.contains (fld (wd req 0) 15 0)))]))) ∧
    (∀ p, p = s.posted 0x0106 m tag req → s.ready 0x0106 m req →
      exec (.sysViolationRead m tag req) s = .next (({ p with host.violLog := [], host.violDisplaced := 0 } : State).answered 0x0106 m req
        (w32 (p.host.violLog.length + 65536 * p.host.violDisplaced) ::
          p.host.violLog.flatMap (fun v => [w32 v.off, violInfo (some v) 1] ++ nsWords v.ns)))) ∧
    (∀ (p : State) (h : HeldResp), p = s.posted 0x0107 m tag req → s.ready 0x0107 m req → fld (wd req 0) 31 24 = 0 →
      (mbxOf p m.val).held = some h → h.code = fld (wd req 0) 15 0 →
      h.last < fld (wd req 0) 23 16 → 255 * fld (wd req 0) 23 16 < h.words.length →
      exec (.sysContinue m tag req) s = .next ((partAsked m.val (fld (wd req 0) 23 16) p).answered 0x0107 m req ((h.words.drop (255 * fld (wd req 0) 23 16)).take 255)))

/-- SYS_RESET_BLOCK, SYS_POWER_DOMAIN and SYS_TIME_SET each run to a next state that holds their own effect. A block is reset (the MP's reset
completes with OK at once, any other's is under way and completes at its end); a domain's state is read with OK at once, a domain already
on or off completes with OK at once, and a switching is started; device time is stepped with OK at once, and a time to set is held for its
crossing (R309, R443, R444, R468, R474). -/
def Obligations.SystemControlCompletes : Prop :=
  ∀ (m : Mbx) (tag : Byte) (req : List Word) (s : State),
    (∀ p, p = s.posted 0x0102 m tag req → s.ready 0x0102 m req → fld (wd req 0) 7 4 = 0 → fld (wd req 0) 31 16 = 0 →
      blockOk (fld (wd req 0) 3 0) (fld (wd req 0) 15 8) = true →
      (∀ d, blockDomain (fld (wd req 0) 3 0) (fld (wd req 0) 15 8) = some d → domUp p d = true) →
      (fld (wd req 0) 3 0 = 7 → exec (.sysResetBlock m tag req) s = .next ((blockReset 7 (fld (wd req 0) 15 8) p).answered 0x0102 m req [])) ∧
      (fld (wd req 0) 3 0 ≠ 7 → exec (.sysResetBlock m tag req) s = .next (settle
        (let t := journalAdd 0x0102 req (blockReset (fld (wd req 0) 3 0) (fld (wd req 0) 15 8) p)
         { t with host.waiting := t.host.waiting ++ [{ mbx := some m.val, kind := .resetBlock (fld (wd req 0) 3 0) (fld (wd req 0) 15 8) }] })))) ∧
    (∀ p, p = s.posted 0x0103 m tag req → s.ready 0x0103 m req → fld (wd req 0) 7 6 = 0 → fld (wd req 0) 31 12 = 0 → fld (wd req 0) 5 0 ≤ 35 →
      (fld (wd req 0) 11 8 = 3 → exec (.sysPowerDomain m tag req) s = .next (p.answered 0x0103 m req [domWord p (fld (wd req 0) 5 0)])) ∧
      (fld (wd req 0) 11 8 = 1 → fatalSet p = false → (domOf p (fld (wd req 0) 5 0)).up = true → (domOf p (fld (wd req 0) 5 0)).sw = none →
        p.power.queue.any (fun e => e.1 == fld (wd req 0) 5 0) = false →
        exec (.sysPowerDomain m tag req) s = .next (p.answered 0x0103 m req [domWord p (fld (wd req 0) 5 0)])) ∧
      (fld (wd req 0) 11 8 = 2 → fld (wd req 0) 5 0 < 32 → (domOf p (fld (wd req 0) 5 0)).up = false → (domOf p (fld (wd req 0) 5 0)).sw = none →
        p.power.queue.any (fun e => e.1 == fld (wd req 0) 5 0) = false →
        exec (.sysPowerDomain m tag req) s = .next (p.answered 0x0103 m req [domWord p (fld (wd req 0) 5 0)])) ∧
      (fld (wd req 0) 11 8 = 1 → fatalSet p = false → (domOf p (fld (wd req 0) 5 0)).up = false → (domOf p (fld (wd req 0) 5 0)).sw = none →
        p.power.queue = [] → switchings p < 4 →
        exec (.sysPowerDomain m tag req) s = .next (settle
          (let t := journalAdd 0x0103 req (startSwitch (fld (wd req 0) 5 0) true p)
           { t with host.waiting := t.host.waiting ++ [{ mbx := some m.val, kind := .domain (fld (wd req 0) 5 0) true }] }))) ∧
      (fld (wd req 0) 11 8 = 2 → fld (wd req 0) 5 0 < 32 → (domOf p (fld (wd req 0) 5 0)).up = true → (domOf p (fld (wd req 0) 5 0)).sw = none →
        p.power.queue = [] → switchings p < 4 →
        exec (.sysPowerDomain m tag req) s = .next (settle
          (let t := journalAdd 0x0103 req (startSwitch (fld (wd req 0) 5 0) false p)
           { t with host.waiting := t.host.waiting ++ [{ mbx := some m.val, kind := .domain (fld (wd req 0) 5 0) false }] })))) ∧
    (∀ p, p = s.posted 0x0104 m tag req → s.ready 0x0104 m req → resBad req [(0, 31, 2), (3, 31, 16)] = false →
      (fld (wd req 0) 1 0 = 1 → ((wd req 1).toNat + 4294967296 * (wd req 2).toNat) % 1000000000 = 0 → fld (wd req 3) 15 0 = 0 →
        exec (.sysTimeSet m tag req) s = .next (settle
          (let t := journalAdd 0x0104 req { p with tmc.waitingTime := some ((wd req 1).toNat + 4294967296 * (wd req 2).toNat) }
           { t with host.waiting := t.host.waiting ++ [{ mbx := some m.val, kind := .timeSet }] }))) ∧
      (fld (wd req 0) 1 0 = 2 → (timeAligned p 0 = false ∨
          (sx 64 ((wd req 1).toNat + 4294967296 * (wd req 2).toNat) * 65536 + (fld (wd req 3) 15 0 : Int)) % 65536000000000 = 0) →
        exec (.sysTimeSet m tag req) s = .next ((stepTimeBy
          (sx 64 ((wd req 1).toNat + 4294967296 * (wd req 2).toNat) * 65536 + (fld (wd req 3) 15 0 : Int)) p).answered 0x0104 m req [])))

/-! ### Mailbox commands: lanes, ports and alignment (02_lanes_and_ports.md, 03_frame_alignment.md) -/

/-- LANE_CONFIG and LANE_STATUS complete with OK on a lane whose domain is on: OP 1 sets the lane's settings and, with READAPT on a lane in
TRACK, starts its acquisition over, where an inversion changed on a lane that serves an enabled channel leaves what inversionMisuse leaves
open (R16); OP 2 and LANE_STATUS answer the words of R446 and R447. -/
def Obligations.LaneCommandsComplete : Prop :=
  ∀ (m : Mbx) (tag : Byte) (req : List Word) (s p : State) (k : Nat),
    fld (wd req 0) 7 2 = 0 → laneBadId (fld (wd req 0) 1 0) (fld (wd req 0) 15 8) = false →
    k = kindLane (fld (wd req 0) 1 0) (fld (wd req 0) 15 8) → domUp p (laneDomain k) = true →
    (p = s.posted 0x0201 m tag req → s.ready 0x0201 m req → fld (wd req 0) 31 20 = 0 →
      (fld (wd req 0) 19 16 = 1 → fld (wd req 1) 7 4 = 0 → fld (wd req 1) 31 16 = 0 → fld (wd req 1) 15 8 ≤ 100 → tapsBad (wd req 2) = false →
        (bitOf (wd req 1) 3 = false → exec (.laneConfig m tag req) s =
          .next ((modLane k (laneSettings (wd req 1) (wd req 2)) (inversionMisuse k (wd req 1) p)).answered 0x0201 m req [])) ∧
        (bitOf (wd req 1) 3 = true → (laneOf p k).st = .track → exec (.laneConfig m tag req) s =
          .next ((laneReadapt k (modLane k (laneSettings (wd req 1) (wd req 2)) (inversionMisuse k (wd req 1) p))).answered 0x0201 m req []))) ∧
      (fld (wd req 0) 19 16 = 2 → wd req 1 = 0 → wd req 2 = 0 → exec (.laneConfig m tag req) s =
        .next (p.answered 0x0201 m req [w32 (b2n (laneOf p k).rxInv + 2 * b2n (laneOf p k).txInv + 4 * b2n (laneOf p k).freeze +
          256 * (laneOf p k).margin), tapsWord (laneOf p k)]))) ∧
    (∀ mode, p = s.posted 0x0202 m tag req → s.ready 0x0202 m req → fld (wd req 0) 31 16 = 0 → laneMode p k = some mode →
      exec (.laneStatus m tag req) s = .next (p.answered 0x0202 m req
        [w32 (laneCode (laneOf p k).st + 4 * b2n (laneOf p k).los + 8 * b2n (laneLol (laneOf p k)) + 16 * b2n (laneOf p k).freeze +
           32 * b2n (laneOf p k).held + 64 * mode + 256 * (laneOf p k).snr),
         if laneFec p k then (laneOf p k).preFecErr else 0xFFFFFFFF, (laneOf p k).acqFail, (laneOf p k).bufSlip,
         if 256 ≤ k ∧ k < 512 then (laneOf p k).badType else 0, if 256 ≤ k ∧ k < 512 then (laneOf p k).unknownCh else 0,
         tapsWord (laneOf p k)]))

/-- PORT_CREATE makes a port of free lanes, starts its lanes and opens its monitoring points; PORT_DELETE removes a port nothing refers to;
PORT_STATUS answers the words of R448 for an alignment process the port has (R67 to R70). -/
def Obligations.PortCommandsComplete : Prop :=
  ∀ (m : Mbx) (tag : Byte) (req : List Word) (s p : State) (n : Nat), n = fld (wd req 0) 7 0 →
    (∀ q, q = portOfWords p.now req → p = s.posted 0x0203 m tag req → s.ready 0x0203 m req → portBad n req = false → domUp p (n / 8) = true →
      (∀ k ∈ portLanes n q, portOfLane p k = none) →
      exec (.portCreate m tag req) s = .next ((monCreate (portPoints n q) (foldS (portLanes n q) laneStart
        { p with port := tset p.port n q, oh := (portOh n q).foldl (fun t k => tset t k {}) p.oh })).answered 0x0203 m req [])) ∧
    (∀ q, p = s.posted 0x0204 m tag req → s.ready 0x0204 m req → fld (wd req 0) 31 8 = 0 → portAt p n = some q → portUsed p n = false →
      exec (.portDelete m tag req) s = .next ((portRemove n q p).answered 0x0204 m req [])) ∧
    (∀ q i, p = s.posted 0x0205 m tag req → s.ready 0x0205 m req → fld (wd req 0) 31 14 = 0 → i = fld (wd req 0) 13 8 → i ≤ 48 →
      portAt p n = some q → (procList q).contains i = true → domUp p (n / 8) = true →
      exec (.portStatus m tag req) s = .next (p.answered 0x0205 m req
        ([w32 (portState p n q)] ++ (List.range 8).map (fun j => w32 (if j < q.width then laneSkew n q j else 0)) ++
          (List.range 4).map (fun j => if q.proto = 3 then llmWord q j else 0) ++
          [(procOf q i).oofEvents, (procOf q i).realign, (procOf q i).imitation, (procOf q i).slotFull, (procOf q i).oomEvents,
           q.skewFail, q.acqTime])))

/-- ALIGN_CONFIG sets a port's MFAS qualifier, and its hunters over with REALIGN; or a GFP channel's DELTA and MAX_PLI, where 0 stands for 1 and
65,535 (R95 to R97). -/
def Obligations.AlignConfigCompletes : Prop :=
  ∀ (m : Mbx) (tag : Byte) (req : List Word) (s p : State) (id : Nat), p = s.posted 0x0301 m tag req → s.ready 0x0301 m req →
    id = fld (wd req 0) 21 8 → resBad req [(0, 7, 4), (0, 31, 22), (1, 3, 2), (1, 15, 7)] = false →
    (∀ q, fld (wd req 0) 3 0 = 1 → id ≤ 255 → fld (wd req 1) 6 4 = 0 → fld (wd req 1) 31 16 = 0 → portAt p id = some q →
      (bitOf (wd req 1) 0 = true → isOtn q = true) →
      exec (.alignConfig m tag req) s = .next ((updPort id (fun q =>
        if bitOf (wd req 1) 1 then
          { q with mfasQual := bitOf (wd req 1) 0, procs := q.procs.map (fun (e : Nat × Proc) =>
              (e.1, if (hunterKind { q with mfasQual := bitOf (wd req 1) 0 } e.1).isSome
                    then rehunt { q with mfasQual := bitOf (wd req 1) 0 } e.2 else e.2)) }
        else { q with mfasQual := bitOf (wd req 1) 0 }) p).answered 0x0301 m req [])) ∧
    (∀ x, fld (wd req 0) 3 0 = 2 → bitOf (wd req 1) 0 = false → (fld (wd req 1) 31 16 = 0 ∨ 4 ≤ fld (wd req 1) 31 16) →
      chanAt p false id = some x → isGfp x.words = true → bitOf (wd req 1) 1 = false →
      exec (.alignConfig m tag req) s = .next ((updChan (chKey false id) (fun x => { x with
        gfpDelta := if fld (wd req 1) 6 4 = 0 then 1 else fld (wd req 1) 6 4
        gfpMaxPli := if fld (wd req 1) 31 16 = 0 then 65535 else fld (wd req 1) 31 16 }) p).answered 0x0301 m req []))

/-! ### Mailbox commands: overhead and traces (04_overhead_and_parity.md) -/

/-- OH_READ answers the captured frame's MFAS and time and the bytes asked for, open where the device has sent or accepted none; OH_WRITE leaves the bytes for the next
transmitted frame and sets the forced maintenance signals (R121, R125 to R127). -/
def Obligations.OverheadCommandsComplete : Prop :=
  ∀ (m : Mbx) (tag : Byte) (req : List Word) (s p : State),
    (∀ (l : List Nat) (key : Nat) (f : Captured), p = s.posted 0x0302 m tag req → s.ready 0x0302 m req → ohBad req false = false →
      l = ohNamed p (fld (wd req 0) 3 0) (fld (wd req 0) 21 8) (fld (wd req 0) 25 22) → l.isEmpty = false →
      key = (if bitOf (wd req 0) 4 then ohTx l else ohRx l) → (bitOf (wd req 0) 4 = false → (ohOf p key).everInFrame = true) →
      (if bitOf (wd req 0) 4 then (ohOf p key).tx else (ohOf p key).rx) = some f →
      exec (.ohRead m tag req) s = .next (({ p with free := p.free + 259 } : State).answered 0x0302 m req ((w32 (if fld (wd req 0) 3 0 = 3 ∨ fld (wd req 0) 3 0 = 4 then 0 else f.mfas.toNat) :: nsWords f.ns) ++
        packWords ((List.range (fld (wd req 1) 16 8)).map (fun i => ohByte p (fld (wd req 0) 3 0) key (bitOf (wd req 0) 4) (fld (wd req 1) 7 0 + i))) ((fld (wd req 1) 16 8 + 3) / 4)))) ∧
    (∀ (l : List Nat), p = s.posted 0x0303 m tag req → s.ready 0x0303 m req → ohBad req true = false →
      l = ohNamed p (fld (wd req 0) 3 0) (fld (wd req 0) 21 8) (fld (wd req 0) 25 22) → l.isEmpty = false →
      (List.range (fld (wd req 1) 16 8)).any (fun i => ohTaken p (fld (wd req 0) 3 0) (fld (wd req 0) 21 8) (fld (wd req 1) 7 0 + i)) = false →
      exec (.ohWrite m tag req) s = .next ((foldS l (fun k => updOh (k / 16 * 16) (fun o => { o with
          maintWaiting := if fld (wd req 1) 19 17 = 0 then o.maintWaiting else some (fld (wd req 1) 19 17)
          dsWaiting := if fld (wd req 1) 21 20 = 0 then o.dsWaiting else some (fld (wd req 1) 21 20 == 2) }))
        (if fld (wd req 1) 16 8 = 0 then p else updOh (ohTx l) (ohWriteBytes (fld (wd req 0) 3 0) (fld (wd req 1) 7 0)
          ((reqBytes req 2 ((fld (wd req 1) 16 8 + 3) / 4)).take (fld (wd req 1) 16 8))) p)).answered 0x0303 m req []))

/-- The words of a TTI_SET that its table allows (R116): an OTN trace of FORMAT 0 with bytes 0 and 16 zero, a J0 of FORMAT 0 or 1, a J1 of
FORMAT 1 or 2, and zero in the bytes that the trace does not use. -/
def traceWords (req : List Word) : Bool :=
  let kind := fld (wd req 0) 3 0
  let fmt := fld (wd req 1) 3 2
  let bs := reqBytes req 2 16
  !(ttiBad (wd req 0)) && fld (wd req 1) 31 4 == 0 && (bs.drop (traceLen (decide (kind ≤ 3)) fmt)).all (· == 0) &&
    (if kind ≤ 3 then fmt == 0 && bs.getD 0 0 == 0 && bs.getD 16 0 == 0 else if kind = 4 then decide (fmt ≤ 1) else fmt == 1 || fmt == 2)

/-- TTI_SET sets the trace to transmit from its next message on, or the expected trace and its format with its TIM_MODE, of every format of
every layer, where mode 0 ends dTIM; TTI_READ answers ACCEPTED, dTIM, the format and the bytes of the transmitted trace (of 16-byte
messages with the CRC-7 in their first byte), of the expected or of the accepted one (R115 to R118). -/
def Obligations.TraceCommandsComplete : Prop :=
  ∀ (m : Mbx) (tag : Byte) (req : List Word) (s p : State) (kind fmt lvl : Nat) (bs : List Byte) (l : List Nat),
    kind = fld (wd req 0) 3 0 → l = ohNamed p (ttiKind kind) (fld (wd req 0) 21 8) (fld (wd req 0) 25 22) → l.isEmpty = false →
    lvl = ttiLevel kind (fld (wd req 0) 6 4) → fmt = fld (wd req 1) 3 2 →
    (p = s.posted 0x0304 m tag req → s.ready 0x0304 m req → traceWords req = true →
      bs = (reqBytes req 2 16).take (traceLen (decide (kind ≤ 3)) fmt) →
      (bitOf (wd req 0) 7 = false → fld (wd req 1) 1 0 = 0 →
        exec (.ttiSet m tag req) s = .next ((updOh (ohTx l) (fun o => { o with trace := tmod o.trace {} lvl (fun t =>
          { t with txNext := some (bs, fmt) }) }) p).answered 0x0304 m req [])) ∧
      (bitOf (wd req 0) 7 = true →
        exec (.ttiSet m tag req) s = .next ((foldS l (fun k u =>
          let u := updOh k (fun o => { o with trace := tmod o.trace {} lvl (fun t =>
            { t with exp := bs, expFormat := fmt, timMode := fld (wd req 1) 1 0 }) }) u
          if fld (wd req 1) 1 0 = 0 then setRaw (ttiPoint u k lvl) 13 false u else u) p).answered 0x0304 m req []))) ∧
    (∀ (what key : Nat) (t : Trace), p = s.posted 0x0305 m tag req → s.ready 0x0305 m req → ttiBad (wd req 0) = false →
      bitOf (wd req 0) 7 = false → fld (wd req 1) 31 2 = 0 → what = fld (wd req 1) 1 0 → what ≤ 2 →
      key = (if what = 0 then ohTx l else ohRx l) → t = tget (ohOf p key).trace {} lvl →
      exec (.ttiRead m tag req) s = .next (p.answered 0x0305 m req
        (w32 (b2n t.acc.isSome + 2 * b2n ((rawOf p (ttiPoint p key lvl)).getLsbD 13) +
            4 * (if what = 0 then t.txFormat else if what = 1 then t.expFormat else if t.acc.isSome then t.accFormat else 0)) ::
          packWords (if what = 0 then (if 3 < kind ∧ t.txFormat = 1 then crc7Byte t.tx :: t.tx.drop 1 else t.tx)
            else if what = 1 then t.exp else t.acc.getD []) 16)))

/-! ### Mailbox commands: defects and performance (05_defects_and_performance.md) -/

/-- DEFECT_READ answers the four bit words of a point and its suppressor, and clears STICKY with CLEAR; PM_READ answers the record of the last second or of a
current bin; PM_HISTORY answers the bin AGE back, the open ones counted first (R148, R150, R151). -/
def Obligations.MonitorReadsComplete : Prop :=
  ∀ (m : Mbx) (tag : Byte) (req : List Word) (s p : State),
    (∀ (n : Mon), p = s.posted 0x0401 m tag req → s.ready 0x0401 m req → addrBad (wd req 0) = false → fld (wd req 1) 31 1 = 0 →
      thas p.mon (wd req 0).toNat = true → n = tget p.mon {} (wd req 0).toNat →
      exec (.defectRead m tag req) s = .next ((if bitOf (wd req 1) 0 then updMon (wd req 0).toNat (fun m => { m with sticky := 0 }) p else p).answered 0x0401 m req ([w32 n.declared.toNat, w32 n.reported.toNat, w32 n.failure.toNat, w32 n.sticky.toNat] ++
        (match suppressorOf p (wd req 0).toNat with | some x => [w32 x.1, w32 (x.2 + 2147483648)] | none => [0, 0])))) ∧
    (∀ (n : Mon) (bin : Nat), p = s.posted 0x0403 m tag req → s.ready 0x0403 m req → pmAddrBad (wd req 0) = false → fld (wd req 1) 31 2 = 0 →
      bin = fld (wd req 1) 1 0 → bin ≠ 3 → thas p.mon (wd req 0).toNat = true → n = tget p.mon {} (wd req 0).toNat →
      exec (.pmRead m tag req) s = .next (p.answered 0x0403 m req (pmReply (pcsPoint p (wd req 0).toNat)
        (if bin = 0 then n.last.map (·, true) else some (if bin = 1 then n.cur15.data else n.cur24.data, true))))) ∧
    (∀ (n : Mon) (age : Nat), p = s.posted 0x0405 m tag req → s.ready 0x0405 m req → pmAddrBad (wd req 0) = false → fld (wd req 1) 31 7 = 0 →
      age = fld (wd req 1) 6 1 → 1 ≤ age → age ≤ (if bitOf (wd req 1) 0 then 7 else 32) → thas p.mon (wd req 0).toNat = true →
      n = tget p.mon {} (wd req 0).toNat →
      exec (.pmHistory m tag req) s = .next (p.answered 0x0405 m req (pmReply (pcsPoint p (wd req 0).toNat) (((if bitOf (wd req 1) 0 then n.open24 else n.open15).reverse.map (fun b => (b.data, true)) ++
        (if bitOf (wd req 1) 0 then n.hist24 else n.hist15).map (fun r => (r, false)))[age - 1]?))))

/-- DEFECT_CONFIG sets a point's events, times and degrade values; PM_CONFIG sets a threshold and resets the current bins, or, for all points, the start
of the day, from the next boundary on, where it changes (R149, R151). -/
def Obligations.MonitorSettingsComplete : Prop :=
  ∀ (m : Mbx) (tag : Byte) (req : List Word) (s p : State),
    (p = s.posted 0x0402 m tag req → s.ready 0x0402 m req → addrBad (wd req 0) = false → fld (wd req 1) 7 2 = 0 →
      fld (wd req 1) 31 28 = 0 → (fld (wd req 1) 15 8 = 0 ∨ (5 ≤ fld (wd req 1) 15 8 ∧ fld (wd req 1) 15 8 ≤ 100)) →
      fld (wd req 1) 23 16 ≤ 60 → fld (wd req 1) 27 24 ≠ 1 → fld (wd req 1) 27 24 ≤ 10 → fld (wd req 2) 31 24 = 0 →
      thas p.mon (wd req 0).toNat = true →
      exec (.defectConfig m tag req) s = .next ((updMon (wd req 0).toNat (defectSettings p (wd req 0).toNat (wd req 1) (wd req 2)) p).answered 0x0402 m req [])) ∧
    (p = s.posted 0x0404 m tag req → s.ready 0x0404 m req → wd req 0 = 0 → fld (wd req 1) 31 17 = 0 → wd req 2 = 0 →
      fld (wd req 1) 16 0 % 900 = 0 → fld (wd req 1) 16 0 ≤ 85500 →
      exec (.pmConfig m tag req) s = .next (({ p with pm.dayPending := if fld (wd req 1) 16 0 = p.pm.dayOffset then none else some (fld (wd req 1) 16 0) } : State).answered 0x0404 m req [])) ∧
    (p = s.posted 0x0404 m tag req → s.ready 0x0404 m req → aLayer (wd req 0).toNat ≠ 0 → pmAddrBad (wd req 0) = false →
      fld (wd req 1) 31 6 = 0 → fld (wd req 1) 3 0 ≤ 8 → thas p.mon (wd req 0).toNat = true →
      exec (.pmConfig m tag req) s = .next ((updMon (wd req 0).toNat (fun m =>
        let m := if fld (wd req 1) 3 0 = 0 then m else { m with thr := tset m.thr (fld (wd req 1) 3 0 + 16 * b2n (bitOf (wd req 1) 4)) (wd req 2).toNat }
        if bitOf (wd req 1) 5 then { m with cur15 := binReset p.now m.cur15, cur24 := binReset p.now m.cur24 } else m) p).answered 0x0404 m req []))

/-! ### Mailbox commands: channels, connections and FlexE (06_mapping_and_multiplexing.md) -/

/-- CHAN_CREATE makes a channel with its contexts and points, connected to FABRIC_CH if it names one; CHAN_DELETE removes a channel that is no
Braid client and that nothing refers to (R182, R183). -/
def Obligations.ChannelCreationCompletes : Prop :=
  ∀ (m : Mbx) (tag : Byte) (req : List Word) (s p : State),
    (∀ (k : Nat) (t u : State), p = s.posted 0x0501 m tag req → s.ready 0x0501 m req → chanFieldsBad req = false → comboBad p (bitOf (wd req 0) 14) req = false →
      srvExists p (bitOf (wd req 0) 14) req = true → retMissing p req = false → vcgMissing p (bitOf (wd req 0) 14) req = false →
      k = chKey (bitOf (wd req 0) 14) (fld (wd req 0) 13 0) → t = chanAdd k req (bitOf (wd req 0) 15) p →
      createBlocked p t k req = false → u = (if fld (wd req 15) 23 0 = 0 then t else connectFabric k (fld (wd req 15) 23 0) t) →
      chanOver p u k = false →
      exec (.chanCreate m tag req) s = .next ((u).answered 0x0501 m req [])) ∧
    (∀ (k : Nat) (d : Chan), p = s.posted 0x0502 m tag req → s.ready 0x0502 m req → fld (wd req 0) 31 15 = 0 →
      k = chKey (bitOf (wd req 0) 14) (fld (wd req 0) 13 0) → tget? p.chan k = some d → isClient p k = false → servedBy p k = [] → vcatMembers p k = [] →
      (∀ y ∈ cConns d, y.kind = 1) → chanUsed p k = false →
      exec (.chanDelete m tag req) s = .next ((chanRemove k p).answered 0x0502 m req []))

/-- CHAN_MODIFY OP 0 gives a channel new words where only the changes of R184 are asked, and of an enabled channel leaves open what modifyMisuse
leaves open (R16); OP 1 and 2 enable and disable it, OP 3 reads it back and OP 4
answers its status and counts. -/
def Obligations.ChannelChangesComplete : Prop :=
  ∀ (m : Mbx) (tag : Byte) (req : List Word) (s p : State),
    (∀ (k : Nat) (d : Chan) (w : List Word), p = s.posted 0x0503 m tag req → s.ready 0x0503 m req → fld (wd req 0) 23 15 = 0 → fld (wd req 0) 31 28 = 0 →
      k = chKey (bitOf (wd req 0) 14) (fld (wd req 0) 13 0) → tget? p.chan k = some d → fld (wd req 0) 27 24 = 0 → w = modWords d req →
      modDiffers d w = false → chanFieldsBad w = false → retMissing p w = false → isClient p k = false → (chanUsed p k = false ∨ cEn d = true) → retBad p (keyEg k) w = false →
      pmNeeded p k w = false → chanOver p (chanModify k w p) k = false →
      exec (.chanModify m tag req) s = .next ((modifyMisuse k (chanModify k w p)).answered 0x0503 m req [])) ∧
    (∀ (k : Nat) (d : Chan), p = s.posted 0x0503 m tag req → s.ready 0x0503 m req → fld (wd req 0) 23 15 = 0 → fld (wd req 0) 31 28 = 0 →
      k = chKey (bitOf (wd req 0) 14) (fld (wd req 0) 13 0) → tget? p.chan k = some d → fld (wd req 0) 27 24 = 1 →
      exec (.chanModify m tag req) s = .next ((chanEnable k true p).answered 0x0503 m req [])) ∧
    (∀ (k : Nat) (d : Chan), p = s.posted 0x0503 m tag req → s.ready 0x0503 m req → fld (wd req 0) 23 15 = 0 → fld (wd req 0) 31 28 = 0 →
      k = chKey (bitOf (wd req 0) 14) (fld (wd req 0) 13 0) → tget? p.chan k = some d → fld (wd req 0) 27 24 = 2 →
      exec (.chanModify m tag req) s = .next ((chanEnable k false p).answered 0x0503 m req [])) ∧
    (∀ (k : Nat) (d : Chan), p = s.posted 0x0503 m tag req → s.ready 0x0503 m req → fld (wd req 0) 23 15 = 0 → fld (wd req 0) 31 28 = 0 →
      k = chKey (bitOf (wd req 0) 14) (fld (wd req 0) 13 0) → tget? p.chan k = some d → fld (wd req 0) 27 24 = 3 →
      exec (.chanModify m tag req) s = .next (p.answered 0x0503 m req (chanWords d))) ∧
    (∀ (k : Nat) (d : Chan), p = s.posted 0x0503 m tag req → s.ready 0x0503 m req → fld (wd req 0) 23 15 = 0 → fld (wd req 0) 31 28 = 0 →
      k = chKey (bitOf (wd req 0) 14) (fld (wd req 0) 13 0) → tget? p.chan k = some d → fld (wd req 0) 27 24 = 4 →
      exec (.chanModify m tag req) s = .next (p.answered 0x0503 m req (chanStatus p k d)))

/-- XC_CONNECT connects a leaf to a fabric channel, a hairpin or a queue where the limits allow it; XC_DISCONNECT takes that connection away (R185). -/
def Obligations.CrossConnectsComplete : Prop :=
  ∀ (m : Mbx) (tag : Byte) (req : List Word) (s p : State),
    (∀ (k n t : Nat), p = s.posted 0x0504 m tag req → s.ready 0x0504 m req → xcBad req = false → k = chKey (bitOf (wd req 0) 14) (fld (wd req 0) 13 0) →
      n = fld (wd req 0) 19 16 → t = fld (wd req 1) 23 0 → thas p.chan k = true → (n = 2 → thas p.chan (chKey true t) = true) →
      (n = 3 → (queueAt p t).isSome = true) → connBad p k n t = false → fits p (connMade n k t p) = true →
      connShort n t (connMade n k t p) = false →
      exec (.xcConnect m tag req) s = .next ((connMade n k t p).answered 0x0504 m req [])) ∧
    (∀ (k n t : Nat) (d : Chan) (y : Conn), p = s.posted 0x0505 m tag req → s.ready 0x0505 m req → xcBad req = false → k = chKey (bitOf (wd req 0) 14) (fld (wd req 0) 13 0) →
      n = fld (wd req 0) 19 16 → t = fld (wd req 1) 23 0 → tget? p.chan k = some d → (cConns d).find? (connNamed p k n t) = some y →
      chanUsed p k = false →
      exec (.xcDisconnect m tag req) s = .next ((disconnect k n y.target p).answered 0x0505 m req []))

/-- FLEXE_CALENDAR creates a group, writes an inactive calendar, starts a calendar switch (DEFERRED until it has been made), deletes a group and reads a
calendar (R169, R170). -/
def Obligations.FlexeCalendarCompletes : Prop :=
  ∀ (m : Mbx) (tag : Byte) (req : List Word) (s p : State),
    (∀ (key : Nat), p = s.posted 0x0506 m tag req → s.ready 0x0506 m req → fld (wd req 0) 31 10 = 0 → fld (wd req 0) 3 0 = 1 →
      flexBad p key 1 req = false → key = flexKey (fld (wd req 0) 8 4) (fld (wd req 0) 9 9) →
      flexBlocked p (fld (wd req 0) 8 4) key 1 (fld (wd req 1) 5 5) (flexPhys req) = false →
      (∀ x ∈ flexPhys req, thas p.port x.port = true) →
      exec (.flexeCalendar m tag req) s = .next (({ p with flex := tset p.flex key { num := fld (wd req 1) 19 0, phys := flexPhys req } } : State).answered 0x0506 m req [])) ∧
    (∀ (key : Nat) (g : FlexGroup), p = s.posted 0x0506 m tag req → s.ready 0x0506 m req → fld (wd req 0) 31 10 = 0 → fld (wd req 0) 3 0 = 2 →
      flexBad p key 2 req = false → key = flexKey (fld (wd req 0) 8 4) (fld (wd req 0) 9 9) →
      flexBlocked p (fld (wd req 0) 8 4) key 2 (fld (wd req 1) 5 5) (flexPhys req) = false → tget? p.flex key = some g →
      exec (.flexeCalendar m tag req) s = .next (({ p with flex := tupd p.flex key (fun x => { x with cal := tset x.cal (2 * fld (wd req 1) 4 0 + fld (wd req 1) 5 5) (calSlots req) }) } : State).answered 0x0506 m req [])) ∧
    (∀ (key : Nat) (g : FlexGroup), p = s.posted 0x0506 m tag req → s.ready 0x0506 m req → fld (wd req 0) 31 10 = 0 → fld (wd req 0) 3 0 = 3 →
      flexBad p key 3 req = false → key = flexKey (fld (wd req 0) 8 4) (fld (wd req 0) 9 9) →
      flexBlocked p (fld (wd req 0) 8 4) key 3 (fld (wd req 1) 5 5) (flexPhys req) = false → tget? p.flex key = some g →
      fits p (flexBoth key (1 - g.active) p) = true →
      exec (.flexeCalendar m tag req) s = .next (settle (respond m.val .deferred [] (journalAdd 0x0506 req ({ p with flex := tupd p.flex key (fun y => { y with switching := some (1 - g.active, p.now + 1000000000, false) }) } : State))))) ∧
    (∀ (key : Nat) (g : FlexGroup), p = s.posted 0x0506 m tag req → s.ready 0x0506 m req → fld (wd req 0) 31 10 = 0 → fld (wd req 0) 3 0 = 4 →
      flexBad p key 4 req = false → key = flexKey (fld (wd req 0) 8 4) (fld (wd req 0) 9 9) →
      flexBlocked p (fld (wd req 0) 8 4) key 4 (fld (wd req 1) 5 5) (flexPhys req) = false → tget? p.flex key = some g →
      exec (.flexeCalendar m tag req) s = .next (({ p with flex := tdel p.flex key } : State).answered 0x0506 m req [])) ∧
    (∀ (key : Nat) (g : FlexGroup), p = s.posted 0x0506 m tag req → s.ready 0x0506 m req → fld (wd req 0) 31 10 = 0 → fld (wd req 0) 3 0 = 5 →
      flexBad p key 5 req = false → key = flexKey (fld (wd req 0) 8 4) (fld (wd req 0) 9 9) →
      flexBlocked p (fld (wd req 0) 8 4) key 5 (fld (wd req 1) 5 5) (flexPhys req) = false → tget? p.flex key = some g →
      exec (.flexeCalendar m tag req) s = .next (p.answered 0x0506 m req ([w32 (b2n g.mismatch + 2 * g.active), w32 (fld (wd req 1) 4 0 + 32 * fld (wd req 1) 5 5)] ++ calWords (calOf g (fld (wd req 1) 4 0) (fld (wd req 1) 5 5)))))

/-! ### Mailbox commands: Braid groups (07_braid_groups.md) -/

/-- BRAID_CREATE makes a group with its clients, deletes a group without members, and adds and removes clients; BRAID_STATUS answers a side's words and, with
CLEAR, starts its greatest delays over (R217, R218). -/
def Obligations.BraidGroupCommandsComplete : Prop :=
  ∀ (m : Mbx) (tag : Byte) (req : List Word) (s p : State),
    (∀ (g : Nat) (r : Bool × State), p = s.posted 0x0601 m tag req → s.ready 0x0601 m req → braidBad req = false → g = fld (wd req 0) 7 0 → fld (wd req 0) 11 8 = 1 →
      thas p.braid g = false →
      r = addClients g (clientEntries req) (monCreate [monAddr 7 0 g 0 0] { p with braid := tset p.braid g (braidNew req) }) →
      r.1 = false → fits p r.2 = true → clientsOver r.2 (clientEntries req) = false → capOver r.2 g = false →
      exec (.braidCreate m tag req) s = .next ((r.2).answered 0x0601 m req [])) ∧
    (∀ (g : Nat), p = s.posted 0x0601 m tag req → s.ready 0x0601 m req → braidBad req = false → g = fld (wd req 0) 7 0 → fld (wd req 0) 11 8 = 2 →
      thas p.braid g = true → hasMembers p g = false →
      exec (.braidCreate m tag req) s = .next ((braidDelete g p).answered 0x0601 m req [])) ∧
    (∀ (g : Nat) (r : Bool × State), p = s.posted 0x0601 m tag req → s.ready 0x0601 m req → braidBad req = false → g = fld (wd req 0) 7 0 → fld (wd req 0) 11 8 = 3 →
      thas p.braid g = true → r = addClients g (clientEntries req) p → r.1 = false → fits p r.2 = true →
      clientsOver r.2 (clientEntries req) = false → capOver r.2 g = false →
      exec (.braidCreate m tag req) s = .next ((r.2).answered 0x0601 m req [])) ∧
    (∀ (g : Nat), p = s.posted 0x0601 m tag req → s.ready 0x0601 m req → braidBad req = false → g = fld (wd req 0) 7 0 → fld (wd req 0) 11 8 = 4 →
      thas p.braid g = true →
      (clientEntries req).any (fun e => match sideOf p g e.tx with | some d => !(d.clients.any (fun x => x.cidx == e.cidx)) | none => true) = false →
      exec (.braidCreate m tag req) s = .next ((foldS (clientEntries req) (fun e => dropClient g e.tx e.cidx) p).answered 0x0601 m req [])) ∧
    (∀ (g : Nat) (tx : Bool) (d : Side), p = s.posted 0x0604 m tag req → s.ready 0x0604 m req → fld (wd req 0) 31 10 = 0 → g = fld (wd req 0) 7 0 →
      tx = bitOf (wd req 0) 8 → thas p.braid g = true → sideOf p g tx = some d →
      exec (.braidStatus m tag req) s = .next ((if bitOf (wd req 0) 9 then updSide g tx (fun d => { d with members := d.members.map (fun m => { m with delayMax := m.delay }) }) p else p).answered 0x0604 m req ([w32 (sideState tx d + 4 * b2n d.schedAct + 8 * b2n d.schedPend), w32 (declaredOf p (monAddr 7 0 g 0 0)).toNat, w32 (capacityMbit p tx d)] ++
        nsWords (suspendedWord d) ++ [d.lost, d.hec, d.bgoErr] ++ (List.range 64).flatMap (memberWords tx d))))

/-- BRAID_MEMBER_ADD adds a member and answers DEFERRED until the next change has taken it in; BRAID_MEMBER_REMOVE removes a receive member, or any member
with FORCE, at once, and otherwise answers DEFERRED and starts the withdrawal (R206, R207, R209). -/
def Obligations.BraidMemberCommandsComplete : Prop :=
  ∀ (m : Mbx) (tag : Byte) (req : List Word) (s p : State),
    (∀ (g midx : Nat) (tx : Bool) (d : Side) (k : Nat) (t : State), p = s.posted 0x0602 m tag req → s.ready 0x0602 m req → memberBad req false = false → g = fld (wd req 0) 7 0 →
      tx = bitOf (wd req 0) 8 → midx = fld (wd req 0) 15 10 → thas p.braid g = true → sideOf p g tx = some d →
      k = chKey tx (fld (wd req 1) 13 0) → memberTypeBad p g tx k = false → thas p.chan k = true → memberChanBad p k = false →
      memberOf d midx = none → t = addMember g tx (bitOf (wd req 0) 9) midx (fld (wd req 1) 13 0) p → fits p t = true →
      exec (.braidMemberAdd m tag req) s = .next (settle (respond m.val .deferred [] (journalAdd 0x0602 req (t))))) ∧
    (∀ (g midx : Nat) (tx : Bool) (d : Side) (x : Member), p = s.posted 0x0603 m tag req → s.ready 0x0603 m req → memberBad req true = false → g = fld (wd req 0) 7 0 →
      tx = bitOf (wd req 0) 8 → midx = fld (wd req 0) 15 10 → thas p.braid g = true → sideOf p g tx = some d →
      memberOf d midx = some x → x.ch ≠ goneCh → (tx = false ∨ bitOf (wd req 0) 16 = true) →
      (x.weight = 0 ∨ bitOf (wd req 0) 16 = true) →
      exec (.braidMemberRemove m tag req) s = .next ((forceRemove g tx midx p).answered 0x0603 m req [])) ∧
    (∀ (g midx : Nat) (tx : Bool) (d : Side) (x : Member) (b : Braid) (t : State), p = s.posted 0x0603 m tag req → s.ready 0x0603 m req → memberBad req true = false → g = fld (wd req 0) 7 0 →
      tx = bitOf (wd req 0) 8 → midx = fld (wd req 0) 15 10 → thas p.braid g = true → sideOf p g tx = some d →
      memberOf d midx = some x → x.ch ≠ goneCh → tx = true → bitOf (wd req 0) 16 = false → tget? p.braid g = some b →
      t = updMember g true midx (fun m => { m with removing := true, removes := m.removes + 1, soloAt := if b.rx.isNone && !m.removing then some (p.now + 2000000000) else m.soloAt }) p →
      exec (.braidMemberRemove m tag req) s = .next (settle (respond m.val .deferred [] (journalAdd 0x0603 req (if b.rx.isNone then t else txRemove g midx t)))))

/-! ### Mailbox commands: queues and the pool (08_queue_pool.md) -/

/-- QUEUE_CONFIG makes a host queue of its words, replaces the words that may change, takes a queue away with what it holds, and reads a queue's words back
(R222, R255, R256). -/
def Obligations.QueueConfigCompletes : Prop :=
  ∀ (m : Mbx) (tag : Byte) (req : List Word) (s p : State),
    (∀ (x : Nat) (n : Queue), p = s.posted 0x0701 m tag req → s.ready 0x0701 m req → x = fld (wd req 0) 19 0 → n = queueOfWords p.now req →
      fld (wd req 0) 23 20 = 1 → queueConfigBad p x 1 n req = false → queueBlocked p x 1 n = false → queueNoReader p n = false →
      queueOver p (queueSet x 1 n p) x 1 n = false →
      exec (.queueConfig m tag req) s = .next ((queueSet x 1 n p).answered 0x0701 m req [])) ∧
    (∀ (x : Nat) (n : Queue), p = s.posted 0x0701 m tag req → s.ready 0x0701 m req → x = fld (wd req 0) 19 0 → n = queueOfWords p.now req →
      fld (wd req 0) 23 20 = 2 → queueConfigBad p x 2 n req = false → queueBlocked p x 2 n = false → (queueAt p x).isSome = true →
      queueNoReader p n = false → queueOver p (queueSet x 2 n p) x 2 n = false →
      exec (.queueConfig m tag req) s = .next ((queueSet x 2 n p).answered 0x0701 m req [])) ∧
    (∀ (x : Nat) (n : Queue) (q : Queue), p = s.posted 0x0701 m tag req → s.ready 0x0701 m req → x = fld (wd req 0) 19 0 → n = queueOfWords p.now req →
      fld (wd req 0) 23 20 = 3 → queueConfigBad p x 3 n req = false → queueBlocked p x 3 n = false → queueAt p x = some q →
      exec (.queueConfig m tag req) s = .next ((dropQueue x (flushQ x p)).answered 0x0701 m req [])) ∧
    (∀ (x : Nat) (n : Queue) (q : Queue), p = s.posted 0x0701 m tag req → s.ready 0x0701 m req → x = fld (wd req 0) 19 0 → n = queueOfWords p.now req →
      fld (wd req 0) 23 20 = 4 → queueConfigBad p x 4 n req = false → queueBlocked p x 4 n = false → queueAt p x = some q →
      exec (.queueConfig m tag req) s = .next (p.answered 0x0701 m req q.cfg))

/-- QUEUE_COUNT answers a queue's state and counters; QUEUE_FLUSH discards a host queue's items, with the loss event that is owed for it, within 1 µs where its writer holds a partly filled cell;
QUEUE_SCAN answers which queues of a block changed and which hold cells; POOL_STATUS answers the pool's words (R239, R252 to R256). -/
def Obligations.QueueCommandsComplete : Prop :=
  ∀ (m : Mbx) (tag : Byte) (req : List Word) (s p : State),
    (∀ (x : Nat) (q : Queue), p = s.posted 0x0702 m tag req → s.ready 0x0702 m req → x = fld (wd req 0) 19 0 → fld (wd req 0) 31 20 = 0 → queueAt p x = some q →
      exec (.queueCount m tag req) s = .next (p.answered 0x0702 m req [w32 (q.kind + 4 * q.owner + 16 * b2n q.open_ + 32 * b2n q.discard), w32 (qCells q), w32 q.limit, w32 q.items, q.lost, q.poolDrop,
        q.flushDiscard, q.oversizeDrop, q.badDrop, q.rateDrop, q.flushed, q.eccDrop])) ∧
    (∀ (x : Nat) (q : Queue), p = s.posted 0x0703 m tag req → s.ready 0x0703 m req → x = fld (wd req 0) 19 0 → fld (wd req 0) 31 20 = 0 → queueAt p x = some q →
      q.owner = 0 → q.partialBytes = [] →
      exec (.queueFlush m tag req) s = .next ((takeFlush x p).answered 0x0703 m req [])) ∧
    (∀ (x : Nat) (q : Queue), p = s.posted 0x0703 m tag req → s.ready 0x0703 m req → x = fld (wd req 0) 19 0 → fld (wd req 0) 31 20 = 0 → queueAt p x = some q →
      q.owner = 0 → q.partialBytes ≠ [] →
      exec (.queueFlush m tag req) s = .next (settle
          (let t := journalAdd 0x0703 req (updQ x (fun q => { q with flushAt := some (q.flushAt.getD (p.now + 1000)) }) p)
           { t with host.waiting := t.host.waiting ++ [{ mbx := some m.val, kind := .flush x }] }))) ∧
    (∀ (blk : Nat), p = s.posted 0x0704 m tag req → s.ready 0x0704 m req → fld (wd req 0) 31 11 = 0 → blk = fld (wd req 0) 9 0 →
      exec (.queueScan m tag req) s = .next ((if bitOf (wd req 0) 10 then
        { p with pool.q := p.pool.q.map (fun (e : Nat × Queue) => if e.1 / 1024 = blk then (e.1, { e.2 with changed := false }) else e) }
        else p).answered 0x0704 m req (w32 blk :: scanWords p blk (·.changed) ++ scanWords p blk (fun q => !q.chain.isEmpty)))) ∧
    (∀ (f : Nat × Nat) (k : Nat), p = s.posted 0x0705 m tag req → s.ready 0x0705 m req → f = freeTotals p → k = p.boot.retired.toNat →
      exec (.poolStatus m tag req) s = .next (p.answered 0x0705 m req [w32 (outsideS p + 256 * b2n (halfOffCmd p 0) + 512 * b2n (halfOffCmd p 1)), w32 k, w32 (k / 4294967296), w32 (allocatable p), w32 f.1,
        w32 (reserved p), w32 f.2, w32 (budget p / 10000), w32 (deepLoad p / 10000), p.pool.poolDropTotal, p.pool.descErr, w32 p.pool.q.length,
        p.pool.scrubPasses]))

/-! ### Mailbox commands: protection and Welt (09_welt_and_line_protection.md) -/

/-- PROT_GROUP_CREATE makes a group of two sections or two legs, deletes one, sets its times, and reads its words back; PROT_COMMAND sets the external
command, those above the top request alone; PROT_STATUS answers the group's words (R259 to R261, R280 to R282, R285). -/
def Obligations.ProtectionCommandsComplete : Prop :=
  ∀ (m : Mbx) (tag : Byte) (req : List Word) (s p : State),
    (∀ (n : Nat), p = s.posted 0x0801 m tag req → s.ready 0x0801 m req → n = fld (wd req 0) 10 0 → bitOf (wd req 0) 11 = false →
      fld (wd req 0) 31 25 = 0 → fld (wd req 0) 15 12 = 1 → protRes req = false → protTimesBad req = false → protBad req = false →
      protMissing p req = false → thas p.prot n = false → (if gMsp req then mspBad p req else snpBad p req) = false →
      fits p (protAdd n req p) = true →
      exec (.protGroupCreate m tag req) s = .next ((protAdd n req p).answered 0x0801 m req [])) ∧
    (∀ (n : Nat) (g : Prot), p = s.posted 0x0801 m tag req → s.ready 0x0801 m req → n = fld (wd req 0) 10 0 → bitOf (wd req 0) 11 = false →
      fld (wd req 0) 31 25 = 0 → fld (wd req 0) 15 12 = 2 → wordsBad req 1 5 = false → tget? p.prot n = some g →
      exec (.protGroupCreate m tag req) s = .next ((protDrop n p).answered 0x0801 m req [])) ∧
    (∀ (n : Nat) (g : Prot), p = s.posted 0x0801 m tag req → s.ready 0x0801 m req → n = fld (wd req 0) 10 0 → bitOf (wd req 0) 11 = false →
      fld (wd req 0) 31 25 = 0 → fld (wd req 0) 15 12 = 3 → protRes req = false → protTimesBad req = false → tget? p.prot n = some g →
      exec (.protGroupCreate m tag req) s = .next (({ p with prot := tset p.prot n { g with holdOff := fld (wd req 5) 14 8, wtr := fld (wd req 5) 25 16, words := protWordsWith g.words req } } : State).answered 0x0801 m req [])) ∧
    (∀ (n : Nat) (g : Prot), p = s.posted 0x0801 m tag req → s.ready 0x0801 m req → n = fld (wd req 0) 10 0 → bitOf (wd req 0) 11 = false →
      fld (wd req 0) 31 25 = 0 → fld (wd req 0) 15 12 = 4 → wordsBad req 1 5 = false → tget? p.prot n = some g →
      exec (.protGroupCreate m tag req) s = .next (p.answered 0x0801 m req (g.words.drop 1))) ∧
    (∀ (n : Nat) (g : Prot) (t : State), p = s.posted 0x0802 m tag req → s.ready 0x0802 m req → n = fld (wd req 0) 10 0 → bitOf (wd req 0) 11 = false →
      fld (wd req 0) 31 16 = 0 → fld (wd req 0) 15 12 ≤ 5 → tget? p.prot n = some g →
      (fld (wd req 0) 15 12 = 0 ∨ fld (wd req 0) 15 12 = 1 ∨ cmdPri (fld (wd req 0) 15 12) ≤ (topReq g).1.pri) →
      t = { p with prot := tupd p.prot n (fun g => { g with ext := fld (wd req 0) 15 12 }) } →
      exec (.protCommand m tag req) s = .next ((if g.ext = fld (wd req 0) 15 12 then t else sendDecision t).answered 0x0802 m req [])) ∧
    (∀ (n : Nat) (g : Prot) (left k2 : Nat), p = s.posted 0x0803 m tag req → s.ready 0x0803 m req → n = fld (wd req 0) 10 0 → fld (wd req 0) 31 11 = 0 →
      tget? p.prot n = some g → left = (match g.wtrUntil with | some t => (t - p.now + 999999999) / 1000000000 | none => 0) →
      k2 = (match portAt p (gLegRx g.words true) with
        | some q => if gMsp g.words then (txK p (gLegRx g.words true) q (ohOf p (ohKey 0 (gLegRx g.words true) 0))).2.toNat % 8 else 0
        | none => 0) →
      exec (.protStatus m tag req) s = .next ((if g.apsRx.isNone then { p with free := p.free + 1 } else p).answered 0x0803 m req ([w32 (g.top + 16 * b2n g.topRemote + 32 * b2n g.sel + 64 * b2n g.bridge + 128 * b2n g.fopPm + 256 * b2n g.fopNr + 512 * g.ext +
        4096 * b2n g.sf.1 + 8192 * b2n g.sf.2 + 16384 * b2n g.sd.1 + 32768 * b2n g.sd.2 + 65536 * left), g.apsTx + w32 (256 * k2),
        w32 (g.apsRx.getD (Config.freeNat p.free)), g.switches] ++ nsWords g.lastSwitch)))

/-- WELT_CREATE makes and deletes a pair or a bridge, sets AUTO and enables a disabled pair, and realigns a running one; WELT_STATUS answers a pair's words and,
with CLEAR, starts DELAY_MAX over (R269, R270, R277, R283 to R285). -/
def Obligations.WeltCommandsComplete : Prop :=
  ∀ (m : Mbx) (tag : Byte) (req : List Word) (s p : State),
    (∀ (n : Nat), p = s.posted 0x0804 m tag req → s.ready 0x0804 m req → n = fld (wd req 0) 11 0 → fld (wd req 0) 15 12 = 1 →
      weltBad p req = false → weltMissing p 1 n req = false → weltBlocked p 1 n req = false → fits p (weltAdd n req p) = true →
      exec (.weltCreate m tag req) s = .next ((weltAdd n req p).answered 0x0804 m req [])) ∧
    (∀ (n : Nat), p = s.posted 0x0804 m tag req → s.ready 0x0804 m req → n = fld (wd req 0) 11 0 → fld (wd req 0) 15 12 = 2 →
      weltBad p req = false → weltMissing p 2 n req = false → weltBlocked p 2 n req = false →
      exec (.weltCreate m tag req) s = .next ((weltDrop n p).answered 0x0804 m req [])) ∧
    (∀ (n : Nat) (t u : State), p = s.posted 0x0804 m tag req → s.ready 0x0804 m req → n = fld (wd req 0) 11 0 → fld (wd req 0) 15 12 = 3 →
      weltBad p req = false → weltMissing p 3 n req = false → weltBlocked p 3 n req = false →
      t = updWelt n (fun x => { x with auto := bitOf (wd req 4) 8 }) p → u = (if bitOf (wd req 4) 9 then weltEnable n t else t) →
      fits p u = true →
      exec (.weltCreate m tag req) s = .next ((u).answered 0x0804 m req [])) ∧
    (∀ (n : Nat) (x : Welt), p = s.posted 0x0804 m tag req → s.ready 0x0804 m req → n = fld (wd req 0) 11 0 → fld (wd req 0) 15 12 = 4 →
      weltBad p req = false → weltMissing p 4 n req = false → weltBlocked p 4 n req = false → tget? p.welt n = some x →
      exec (.weltCreate m tag req) s = .next ((if x.st = .run then weltRealign n p else p).answered 0x0804 m req [])) ∧
    (∀ (n : Nat), p = s.posted 0x0804 m tag req → s.ready 0x0804 m req → n = fld (wd req 0) 11 0 → fld (wd req 0) 15 12 = 5 →
      weltBad p req = false → weltMissing p 5 n req = false → weltBlocked p 5 n req = false → p.bridge.length < 4096 →
      fits p (bridgeAdd req p) = true →
      exec (.weltCreate m tag req) s = .next ((bridgeAdd req p).answered 0x0804 m req [])) ∧
    (∀ (n : Nat), p = s.posted 0x0804 m tag req → s.ready 0x0804 m req → n = fld (wd req 0) 11 0 → fld (wd req 0) 15 12 = 6 →
      weltBad p req = false → weltMissing p 6 n req = false → weltBlocked p 6 n req = false →
      exec (.weltCreate m tag req) s = .next ((bridgeDrop (fld (wd req 1) 13 0) p).answered 0x0804 m req [])) ∧
    (∀ (n : Nat) (x : Welt), p = s.posted 0x0805 m tag req → s.ready 0x0805 m req → n = fld (wd req 0) 11 0 → fld (wd req 0) 31 13 = 0 →
      tget? p.welt n = some x →
      exec (.weltStatus m tag req) s = .next ((if bitOf (wd req 0) 12 then updWelt n (fun x => { x with delayMax := x.delay.natAbs }) p else p).answered 0x0805 m req [w32 (weltCode x + 4 * b2n x.last + 8 * copyCode x.c0 + 32 * copyCode x.c1 + 128 * b2n x.readAlt + 256 * b2n x.c0.mismatch + 512 * b2n x.c1.mismatch),
        w32 (declaredOf p (monAddr 8 0 n 0 0)).toNat, w32 (unsx 32 x.delay), w32 x.delayMax, w32 x.c0.hold, w32 x.c1.hold, x.c0.played, x.c1.played,
        x.switches, x.rescued, x.unrecovered, x.aisBlocks, x.early, x.late, x.seqErr, x.wsoErr, x.mergeEs, x.realign]))

/-! ### Mailbox commands: timing (10_timing_core.md) -/

/-- TMC_REF_CONFIG gives a candidate its words, or reads them back; TMC_STATUS answers a DPLL's or a candidate's
words and TMC_HISTORY the records from AGE on (R317, R321, R322). -/
def Obligations.TimingReferencesComplete : Prop :=
  ∀ (m : Mbx) (tag : Byte) (req : List Word) (s p : State),
    (∀ (n : Nat), p = s.posted 0x0901 m tag req → s.ready 0x0901 m req → resBad req [(0, 7, 6), (0, 31, 11)] = false → n = fld (wd req 0) 5 0 →
      n ≤ 41 → bitOf (wd req 0) 10 = false → refBad n (bitOf (wd req 0) 9) req = false →
      (8 ≤ n → n < 40 → bitOf (wd req 0) 8 = true → (portAt p (fld (wd req 2) 7 0)).isSome = true ∧ refPortBad p n req = false) →
      exec (.tmcRefConfig m tag req) s = .next ((refApply n (bitOf (wd req 0) 8) (bitOf (wd req 0) 9) req p).answered 0x0901 m req [])) ∧
    (∀ (n : Nat), p = s.posted 0x0901 m tag req → s.ready 0x0901 m req → resBad req [(0, 7, 6), (0, 31, 11)] = false → n = fld (wd req 0) 5 0 →
      n ≤ 41 → bitOf (wd req 0) 10 = true → bitOf (wd req 0) 8 = false → bitOf (wd req 0) 9 = false → wordsBad req 1 7 = false →
      exec (.tmcRefConfig m tag req) s = .next (p.answered 0x0901 m req (candOf p n).words)) ∧
    (p = s.posted 0x0903 m tag req → s.ready 0x0903 m req → fld (wd req 0) 31 10 = 0 → fld (wd req 0) 9 4 ≤ 41 →
      bitOf (wd req 0) 3 = true → bitOf (wd req 0) 2 = false →
      exec (.tmcStatus m tag req) s = .next (p.answered 0x0903 m req (candWords p (fld (wd req 0) 1 0) (fld (wd req 0) 9 4)))) ∧
    (p = s.posted 0x0903 m tag req → s.ready 0x0903 m req → fld (wd req 0) 31 10 = 0 → fld (wd req 0) 9 4 ≤ 41 →
      bitOf (wd req 0) 3 = false →
      exec (.tmcStatus m tag req) s = .next ((if bitOf (wd req 0) 2 then modDpll (fld (wd req 0) 1 0) (fun x => { x with sticky := 0 }) p else p).answered 0x0903 m req (dpllWords p (fld (wd req 0) 1 0)))) ∧
    (∀ (r : DpllHist) (l rest : List DpllHist), p = s.posted 0x0906 m tag req → s.ready 0x0906 m req → resBad req [(0, 31, 8), (1, 31, 20), (2, 31, 7)] = false →
      fld (wd req 0) 1 0 = 1 → fld (wd req 0) 7 2 ≤ 3 → 1 ≤ fld (wd req 1) 19 0 → 1 ≤ fld (wd req 2) 6 0 → fld (wd req 2) 6 0 ≤ 63 →
      l = (histRun (·.sec) ((p.tmc.secs : Int) + 1 - (fld (wd req 1) 19 0 : Int)) (dpllOf p (fld (wd req 0) 7 2)).hist).take (fld (wd req 2) 6 0) → l = r :: rest →
      exec (.tmcHistory m tag req) s = .next (p.answered 0x0906 m req (w32 l.length :: nsWords r.start ++ l.flatMap dpllHistWords))) ∧
    (∀ (r : CandHist) (l rest : List CandHist), p = s.posted 0x0906 m tag req → s.ready 0x0906 m req → resBad req [(0, 31, 8), (1, 31, 20), (2, 31, 7)] = false →
      fld (wd req 0) 1 0 = 2 → fld (wd req 0) 7 2 ≤ 41 → 1 ≤ fld (wd req 1) 19 0 → 1 ≤ fld (wd req 2) 6 0 → fld (wd req 2) 6 0 ≤ 126 →
      l = (histRun (·.sec) ((p.tmc.secs : Int) + 1 - (fld (wd req 1) 19 0 : Int)) (tget p.tmc.candHist [] (fld (wd req 0) 7 2))).take (fld (wd req 2) 6 0) → l = r :: rest →
      exec (.tmcHistory m tag req) s = .next (p.answered 0x0906 m req (w32 l.length :: nsWords r.start ++ l.flatMap candHistWords))) ∧
    (p = s.posted 0x0906 m tag req → s.ready 0x0906 m req → resBad req [(0, 31, 8), (1, 31, 20), (2, 31, 7)] = false →
      (fld (wd req 0) 1 0 = 1 ∨ fld (wd req 0) 1 0 = 2) → fld (wd req 0) 7 2 ≤ (if fld (wd req 0) 1 0 = 1 then 3 else 41) →
      1 ≤ fld (wd req 1) 19 0 → 1 ≤ fld (wd req 2) 6 0 → fld (wd req 2) 6 0 ≤ (if fld (wd req 0) 1 0 = 1 then 63 else 126) →
      (fld (wd req 0) 1 0 = 1 → histRun (·.sec) ((p.tmc.secs : Int) + 1 - (fld (wd req 1) 19 0 : Int)) (dpllOf p (fld (wd req 0) 7 2)).hist = []) →
      (fld (wd req 0) 1 0 = 2 → histRun (·.sec) ((p.tmc.secs : Int) + 1 - (fld (wd req 1) 19 0 : Int)) (tget p.tmc.candHist [] (fld (wd req 0) 7 2)) = []) →
      exec (.tmcHistory m tag req) s = .next (({ p with free := p.free + 2 } : State).answered 0x0906 m req [0, w32 (Config.freeNat p.free), w32 (Config.freeNat (p.free + 1))]))

/-- TMC_SELECT sets a DPLL's mode and filter, forces or frees its selection, reads its words back or sets OCXO_IN; TMC_DCO_STEER sets, adds to or spreads over
the DCO word; TMC_OUTPUT_CONFIG sets or reads an output (R299, R306, R307, R318 to R320). -/
def Obligations.TimingControlsComplete : Prop :=
  ∀ (m : Mbx) (tag : Byte) (req : List Word) (s p : State),
    (∀ (d : Nat), p = s.posted 0x0902 m tag req → s.ready 0x0902 m req → d = fld (wd req 0) 1 0 → resBad req [(0, 3, 2), (0, 31, 14)] = false →
      fld (wd req 0) 7 4 = 1 → fld (wd req 0) 13 8 = 0 → dpllBad p d req = false →
      exec (.tmcSelect m tag req) s = .next ((dpllConfig d ((List.range 4).map (fun i => wd req (i + 1))) p).answered 0x0902 m req [])) ∧
    (∀ (d op : Nat), p = s.posted 0x0902 m tag req → s.ready 0x0902 m req → d = fld (wd req 0) 1 0 → resBad req [(0, 3, 2), (0, 31, 14)] = false →
      fld (wd req 0) 7 4 = op → 2 ≤ op → op ≤ 5 → fld (wd req 0) 13 8 ≤ 41 → (op = 2 ∨ fld (wd req 0) 13 8 = 0) →
      wordsBad req 1 4 = false →
      exec (.tmcSelect m tag req) s = .next ((dpllForce d op (fld (wd req 0) 13 8) p).answered 0x0902 m req [])) ∧
    (∀ (d : Nat) (g : List Word), p = s.posted 0x0902 m tag req → s.ready 0x0902 m req → d = fld (wd req 0) 1 0 → resBad req [(0, 3, 2), (0, 31, 14)] = false →
      fld (wd req 0) 7 4 = 6 → fld (wd req 0) 13 8 = 0 → wordsBad req 1 4 = false → g = (dpllOf p d).cfg →
      exec (.tmcSelect m tag req) s = .next (p.answered 0x0902 m req (w32 ((wd g 0).toNat + 64 * p.tmc.ocxoCfg) :: (List.range 3).map (fun i => wd g (i + 1))))) ∧
    (∀ (d ox : Nat), p = s.posted 0x0902 m tag req → s.ready 0x0902 m req → d = fld (wd req 0) 1 0 → resBad req [(0, 3, 2), (0, 31, 14)] = false →
      fld (wd req 0) 7 4 = 7 → fld (wd req 0) 13 8 = 0 → resBad req [(1, 5, 0), (1, 31, 8)] = false → ox = fld (wd req 1) 7 6 → ox ≠ 3 →
      wordsBad req 2 3 = false →
      exec (.tmcSelect m tag req) s = .next ((if p.tmc.ocxoCfg = ox then p else { ocxoLost p with tmc.ocxoCfg := ox, tmc.ocxoSince := if ox = 0 then none else some p.now }).answered 0x0902 m req [])) ∧
    (∀ (d : Nat) (v : Int), p = s.posted 0x0904 m tag req → s.ready 0x0904 m req → d = fld (wd req 0) 1 0 →
      resBad req [(0, 3, 2), (0, 31, 8), (2, 31, 8)] = false → (dpllOf p d).st = .dco →
      v = sx 40 ((wd req 1).toNat + 4294967296 * fld (wd req 2) 7 0) + (if fld (wd req 0) 7 4 = 2 then (dpllOf p d).dco else 0) →
      (fld (wd req 0) 7 4 = 1 ∨ fld (wd req 0) 7 4 = 2) → v ≤ dcoMax → -dcoMax ≤ v →
      exec (.tmcDcoSteer m tag req) s = .next ((modDpll d (fun x => { x with dco := v }) p).answered 0x0904 m req [])) ∧
    (∀ (d : Nat), p = s.posted 0x0904 m tag req → s.ready 0x0904 m req → d = fld (wd req 0) 1 0 →
      resBad req [(0, 3, 2), (0, 31, 8), (2, 31, 8)] = false → fld (wd req 0) 7 4 = 3 → wd req 2 = 0 → (dpllOf p d).st ≠ .freeRun →
      (dpllOf p d).st ≠ .holdover →
      exec (.tmcDcoSteer m tag req) s = .next ((phaseAdj d (sx 32 (wd req 1).toNat) p).answered 0x0904 m req [])) ∧
    (∀ (n : Nat), p = s.posted 0x0905 m tag req → s.ready 0x0905 m req → n = fld (wd req 0) 4 0 → fld (wd req 0) 31 13 = 0 → n ≤ 19 →
      bitOf (wd req 0) 12 = false → fld (wd req 0) 9 8 ≠ 3 → fld (wd req 0) 11 10 ≠ 3 →
      resBad req [(1, 31, 30), (2, 31, 20), (4, 31, 16), (5, 15, 1)] = false → (if n < 16 then clkBad req else pulseBad req) = false →
      exec (.tmcOutputConfig m tag req) s = .next ((outApply n ((List.range 6).map (fun i => wd req i)) p).answered 0x0905 m req [])) ∧
    (∀ (n : Nat), p = s.posted 0x0905 m tag req → s.ready 0x0905 m req → n = fld (wd req 0) 4 0 → fld (wd req 0) 31 13 = 0 → n ≤ 19 →
      bitOf (wd req 0) 12 = true → wordsBad req 1 5 = false →
      exec (.tmcOutputConfig m tag req) s = .next (p.answered 0x0905 m req (w32 ((wd (outOf p n).words 0).toNat / 32 * 32 + n) :: (List.range 5).map (fun i => wd (outOf p n).words (i + 1)))))

/-! ### Mailbox commands: the Temper filters (11_temper_chain.md) -/

/-- TEMPER_CONFIG sets R and D and starts every front over, or starts one candidate's front over, both at the next front-sample instant (the model's
`rateDue` and `resetDue`), sets a DPLL's ρ, or reads the settings back; TEMPER_STATUS
answers a DPLL's or a candidate's words (R337, R340, R344, R349). -/
def Obligations.TemperConfigCompletes : Prop :=
  ∀ (m : Mbx) (tag : Byte) (req : List Word) (s p : State),
    (p = s.posted 0x0A01 m tag req → s.ready 0x0A01 m req → fld (wd req 0) 31 12 = 0 → fld (wd req 0) 3 0 = 1 →
      fld (wd req 0) 5 4 = 0 → fld (wd req 0) 11 6 = 0 → temperRatesBad p req = false →
      exec (.temperConfig m tag req) s = .next (({ p with tmc.rateDue := some (temperR req, temperD req) } : State).answered 0x0A01 m req [])) ∧
    (∀ (d : Nat), p = s.posted 0x0A01 m tag req → s.ready 0x0A01 m req → fld (wd req 0) 31 12 = 0 → fld (wd req 0) 3 0 = 2 →
      d = fld (wd req 0) 5 4 → fld (wd req 0) 11 6 = 0 → temperRhoBad p d req = false →
      exec (.temperConfig m tag req) s = .next ((modDpll d (fun x => { x with rho := temperRho req }) p).answered 0x0A01 m req [])) ∧
    (∀ (n : Nat), p = s.posted 0x0A01 m tag req → s.ready 0x0A01 m req → fld (wd req 0) 31 12 = 0 → fld (wd req 0) 3 0 = 3 →
      n = fld (wd req 0) 11 6 → fld (wd req 0) 5 4 = 0 → n ≤ 41 → wordsBad req 1 3 = false →
      exec (.temperConfig m tag req) s = .next ((modCand n (fun x => { x with front := { x.front with resetDue := true } }) p).answered 0x0A01 m req [])) ∧
    (∀ (d : Nat), p = s.posted 0x0A01 m tag req → s.ready 0x0A01 m req → fld (wd req 0) 31 12 = 0 → fld (wd req 0) 3 0 = 4 →
      d = fld (wd req 0) 5 4 → fld (wd req 0) 11 6 = 0 → wordsBad req 1 3 = false →
      exec (.temperConfig m tag req) s = .next (p.answered 0x0A01 m req (w32 (cfgR p + 65536 * cfgD p) :: rhoWords (dpllOf p d).rho))) ∧
    (∀ (x : Dpll), p = s.posted 0x0A04 m tag req → s.ready 0x0A04 m req → resBad req [(0, 1, 1), (0, 31, 10)] = false → fld (wd req 0) 7 2 ≤ 41 →
      bitOf (wd req 0) 0 = true → x = dpllOf p (fld (wd req 0) 9 8) →
      exec (.temperStatus m tag req) s = .next (p.answered 0x0A04 m req (w32 ((candUse x).getD 63 + 64 * b2n x.valid + 128 * b2n x.linear) :: rhoWords x.rho ++
        [w32 (updateRate p.tmc.cicR p.tmc.firD x.rho), w32 (bwEff p x), x.heldCnt]))) ∧
    (∀ (x : Candidate), p = s.posted 0x0A04 m tag req → s.ready 0x0A04 m req → resBad req [(0, 1, 1), (0, 31, 10)] = false → fld (wd req 0) 7 2 ≤ 41 →
      bitOf (wd req 0) 0 = false → x = candOf p (fld (wd req 0) 7 2) →
      exec (.temperStatus m tag req) s = .next (p.answered 0x0A04 m req [w32 (b2n x.front.active + 2 * b2n x.front.fade.isSome + 4 * b2n x.front.pend.isSome + 8 * b2n (frontValid x) + 16 * b2n x.pulse +
          32 * b2n x.front.bankA.typ + 64 * b2n x.front.bankB.typ + 128 * b2n (decide (511 ≤ x.front.staged.length))),
        w32 ((match x.front.fade with | some e => e.len - e.done | none => 0) + 65536 * x.front.pend.getD 0), w32 x.front.bankA.gd, w32 x.front.bankB.gd,
        w32 (bankCrc x.front.bankA), w32 (bankCrc x.front.bankB), w32 (gdTotal p x)]))

/-- TEMPER_BANK_LOAD takes a segment into the staging record, with COMMIT makes the staged coefficients the inactive bank, or copies a bank into it;
TEMPER_BANK_SWAP asks for a fade to the inactive bank or withdraws a waiting one (R338 to R342, R347, R348). -/
def Obligations.TemperBanksComplete : Prop :=
  ∀ (m : Mbx) (tag : Byte) (req : List Word) (s p : State),
    (∀ (n first cnt : Nat) (t : Table Int), p = s.posted 0x0A02 m tag req → s.ready 0x0A02 m req → n = fld (wd req 0) 5 0 →
      resBad req [(0, 7, 6), (0, 15, 12), (0, 31, 23), (1, 31, 17), (2, 31, 17)] = false → n ≤ 41 → (candOf p n).pulse = false →
      (List.range (fld (wd req 1) 16 9)).any (fun i => fld (wd req (3 + i)) 31 24 != 0) = false → first = fld (wd req 1) 8 0 →
      cnt = fld (wd req 1) 16 9 → fld (wd req 0) 9 8 = 1 → fld (wd req 0) 22 16 = 0 → first ≤ 510 → cnt ≤ 250 → first + cnt ≤ 511 →
      t = segStaged first cnt req (candOf p n).front.staged → bitOf (wd req 0) 10 = false → bitOf (wd req 0) 11 = false →
      fld (wd req 2) 16 0 = 0 →
      exec (.temperBankLoad m tag req) s = .next ((modCand n (fun x => { x with front := { x.front with staged := t } }) p).answered 0x0A02 m req [])) ∧
    (∀ (n first cnt : Nat) (t : Table Int), p = s.posted 0x0A02 m tag req → s.ready 0x0A02 m req → n = fld (wd req 0) 5 0 →
      resBad req [(0, 7, 6), (0, 15, 12), (0, 31, 23), (1, 31, 17), (2, 31, 17)] = false → n ≤ 41 → (candOf p n).pulse = false →
      (List.range (fld (wd req 1) 16 9)).any (fun i => fld (wd req (3 + i)) 31 24 != 0) = false → first = fld (wd req 1) 8 0 →
      cnt = fld (wd req 1) 16 9 → fld (wd req 0) 9 8 = 1 → fld (wd req 0) 22 16 = 0 → first ≤ 510 → cnt ≤ 250 → first + cnt ≤ 511 →
      t = segStaged first cnt req (candOf p n).front.staged → bitOf (wd req 0) 10 = true →
      (fld (wd req 2) 16 0 = 0 ↔ bitOf (wd req 0) 11 = false) → fld (wd req 2) 16 0 ≤ 130560 → 511 ≤ t.length →
      bankOk (stagedCoefs t) (bitOf (wd req 0) 11) (fld (wd req 2) 16 0) = true → (candOf p n).front.fade = none →
      (candOf p n).front.pend = none →
      exec (.temperBankLoad m tag req) s = .next ((modCand n (fun x => { x with front := putInactive { factory := false, coef := stagedCoefs t, typ := bitOf (wd req 0) 11, gd := fld (wd req 2) 16 0 } { x.front with staged := [] } }) p).answered 0x0A02 m req [])) ∧
    (∀ (n : Nat), p = s.posted 0x0A02 m tag req → s.ready 0x0A02 m req → n = fld (wd req 0) 5 0 →
      resBad req [(0, 7, 6), (0, 15, 12), (0, 31, 23), (1, 31, 17), (2, 31, 17)] = false → n ≤ 41 → (candOf p n).pulse = false →
      (List.range (fld (wd req 1) 16 9)).any (fun i => fld (wd req (3 + i)) 31 24 != 0) = false → fld (wd req 0) 9 8 = 2 →
      fld (wd req 1) 8 0 = 0 → fld (wd req 1) 16 9 = 0 → bitOf (wd req 0) 10 = false → bitOf (wd req 0) 11 = false →
      fld (wd req 2) 16 0 = 0 → fld (wd req 0) 21 16 ≤ 41 → (candOf p n).front.fade = none → (candOf p n).front.pend = none →
      exec (.temperBankLoad m tag req) s = .next ((modCand n (fun x => { x with front := putInactive (frontBank (candOf p (fld (wd req 0) 21 16)).front (bitOf (wd req 0) 22)) x.front }) p).answered 0x0A02 m req [])) ∧
    (∀ (n : Nat), p = s.posted 0x0A03 m tag req → s.ready 0x0A03 m req → n = fld (wd req 0) 5 0 →
      resBad req [(0, 7, 6), (0, 31, 10), (1, 31, 16)] = false → n ≤ 41 → (candOf p n).pulse = false →
      (fld (wd req 0) 9 8 = 1 ∨ (fld (wd req 0) 9 8 = 2 ∧ fld (wd req 1) 15 0 = 0)) →
      exec (.temperBankSwap m tag req) s = .next ((modCand n (fun x => { x with front := if fld (wd req 0) 9 8 = 1 then swapRequest (fld (wd req 1) 15 0) x.front else { x.front with pend := none } }) p).answered 0x0A03 m req []))

/-! ### Mailbox commands: the twin pair (12_twin_pair.md) -/

/-- TWIN_CONFIG sets PAIRED, FOLLOW and CLAIM_UNSYNC, a port's HOMING, or reads them back; TWIN_STATUS answers the twin's words (R374, R375). -/
def Obligations.TwinSettingsComplete : Prop :=
  ∀ (m : Mbx) (tag : Byte) (req : List Word) (s p : State),
    (∀ (pr again : Bool), p = s.posted 0x0B01 m tag req → s.ready 0x0B01 m req → fld (wd req 0) 31 7 = 0 → fld (wd req 1) 31 10 = 0 →
      fld (wd req 0) 3 0 = 1 → (wd req 1) = 0 → pr = bitOf (wd req 0) 4 →
      (if pr then p.twin.strapConflict = false else p.twin.staging = []) →
      again = (pr && p.twin.role == .standby && (match p.twin.partner with | some h => h.paired | none => false)) →
      exec (.twinConfig m tag req) s = .next ((claimCheck { p with
          twin.paired := pr, twin.follow := bitOf (wd req 0) 5, twin.claimUnsync := bitOf (wd req 0) 6
          twin.resynced := p.twin.resynced && pr && !again, twin.resyncing := p.twin.resyncing && pr && !again }).answered 0x0B01 m req [])) ∧
    (p = s.posted 0x0B01 m tag req → s.ready 0x0B01 m req → fld (wd req 0) 31 7 = 0 → fld (wd req 1) 31 10 = 0 →
      fld (wd req 0) 3 0 = 2 → fld (wd req 0) 6 4 = 0 → fld (wd req 1) 9 8 ≠ 3 → thas p.port (fld (wd req 1) 7 0) = false →
      (fld (wd req 1) 9 8 = 0 ∨ xfeedLoad p ≤ 1600000000) →
      exec (.twinConfig m tag req) s = .next (({ p with twin.homing := if fld (wd req 1) 9 8 = 0 then tdel p.twin.homing (fld (wd req 1) 7 0) else tset p.twin.homing (fld (wd req 1) 7 0) (fld (wd req 1) 9 8) } : State).answered 0x0B01 m req [])) ∧
    (p = s.posted 0x0B01 m tag req → s.ready 0x0B01 m req → fld (wd req 0) 31 7 = 0 → fld (wd req 1) 31 10 = 0 →
      fld (wd req 0) 3 0 = 3 → fld (wd req 0) 6 4 = 0 → (wd req 1) = 0 →
      exec (.twinConfig m tag req) s = .next (p.answered 0x0B01 m req (w32 (3 + 16 * b2n p.twin.paired + 32 * b2n p.twin.follow + 64 * b2n p.twin.claimUnsync) :: (List.range 16).map (homingWord p)))) ∧
    (∀ (t : Twin), p = s.posted 0x0B02 m tag req → s.ready 0x0B02 m req → t = p.twin →
      exec (.twinStatus m tag req) s = .next (p.answered 0x0B02 m req ([w32 (roleCode t.role + 8 * b2n p.pins.strap + 16 * b2n t.paired + 32 * t.partnerSt + 128 * b2n t.linkUp + 256 * b2n t.vhbOk +
        512 * b2n t.hbxOk + 1024 * b2n t.arbAsserted + 2048 * b2n t.arbDrive + 4096 * b2n t.ready + 8192 * b2n t.histSync +
        16384 * b2n t.arbFault + 32768 * b2n t.strapConflict), t.txn, w32 t.staging.length] ++ nsWords t.roleTime ++
      [t.switchovers, t.hbLost, t.resyncs, w32 (xfeedLoad p / 10000), satWord t.timeOffset])))

/-- TWIN_SWITCH starts a handover or a yield and waits for it, claims the ACTIVE role, or leaves OUT; TWIN_COMMIT sends the transaction and waits for it,
discards what is staged, or answers it (R363, R365, R368, R376 to R378). -/
def Obligations.TwinActionsComplete : Prop :=
  ∀ (m : Mbx) (tag : Byte) (req : List Word) (s p : State),
    (p = s.posted 0x0B03 m tag req → s.ready 0x0B03 m req → fld (wd req 0) 31 4 = 0 → p.twin.run = true → fld (wd req 0) 3 0 = 1 →
      p.twin.role = .active → p.twin.linkUp = true → p.twin.partnerSt = 2 →
      exec (.twinSwitch m tag req) s = .next (settle
          (let t := journalAdd 0x0B03 req (setRole .handover 3 { p with twin.handoverAt := some (devFine p + 100000 * 65536), twin.seenActive := false })
           { t with host.waiting := t.host.waiting ++ [{ mbx := some m.val, kind := .switch 1 }] }))) ∧
    (p = s.posted 0x0B03 m tag req → s.ready 0x0B03 m req → fld (wd req 0) 31 4 = 0 → p.twin.run = true → fld (wd req 0) 3 0 = 2 →
      p.twin.role = .active → p.twin.linkUp = false →
      exec (.twinSwitch m tag req) s = .next (settle
          (let t := journalAdd 0x0B03 req (setRole .yield 4 { p with twin.yieldUntil := some (p.now + 1000000) })
           { t with host.waiting := t.host.waiting ++ [{ mbx := some m.val, kind := .switch 2 }] }))) ∧
    (p = s.posted 0x0B03 m tag req → s.ready 0x0B03 m req → fld (wd req 0) 31 4 = 0 → p.twin.run = true → fld (wd req 0) 3 0 = 3 →
      p.twin.role = .standby → lostLong p = true → p.twin.arbAsserted = true →
      exec (.twinSwitch m tag req) s = .next ((setRole .active 5 p).answered 0x0B03 m req [])) ∧
    (p = s.posted 0x0B03 m tag req → s.ready 0x0B03 m req → fld (wd req 0) 31 4 = 0 → p.twin.run = true → fld (wd req 0) 3 0 = 4 →
      p.twin.role = .out → fatalSet p = false →
      exec (.twinSwitch m tag req) s = .next ((claimCheck (setRole .startup 9 p)).answered 0x0B03 m req [])) ∧
    (p = s.posted 0x0B04 m tag req → s.ready 0x0B04 m req → fld (wd req 0) 31 4 = 0 → fld (wd req 0) 3 0 = 1 → p.twin.paired = true →
      p.twin.linkUp = true → p.twin.partnerSt = 2 → p.twin.commit = .none →
      exec (.twinCommit m tag req) s = .next (settle
          (let t := journalAdd 0x0B04 req (sendFrames 0x11 1 { p with
             twin.commit := .prepared (p.now + 2000000 + 10000 * p.twin.staging.length), twin.commitLen := p.twin.staging.length })
           { t with host.waiting := t.host.waiting ++ [{ mbx := some m.val, kind := .commit }] }))) ∧
    (∀ (t : State), p = s.posted 0x0B04 m tag req → s.ready 0x0B04 m req → fld (wd req 0) 31 4 = 0 → fld (wd req 0) 3 0 = 2 → p.twin.paired = true →
      t = { p with twin.staging := p.twin.staging.take p.twin.commitLen } →
      exec (.twinCommit m tag req) s = .next ((t).answered 0x0B04 m req (commitWords t))) ∧
    (p = s.posted 0x0B04 m tag req → s.ready 0x0B04 m req → fld (wd req 0) 31 4 = 0 → fld (wd req 0) 3 0 = 3 →
      exec (.twinCommit m tag req) s = .next (p.answered 0x0B04 m req (commitWords p)))

/-! ### Mailbox commands: fault collection (13_fault_collection.md) -/

/-- FAULT_READ answers a source's words, which sources of a block are not IDLE, or the fatal latch, reasons and tick; FAULT_CLEAR clears a source, or a group's,
after the expiries of this tick; FAULT_PIN sets or clears FAULT_N's reasons (R401, R402, R405). -/
def Obligations.FaultReadsComplete : Prop :=
  ∀ (m : Mbx) (tag : Byte) (req : List Word) (s p : State),
    (∀ (a : Nat), p = s.posted 0x0C01 m tag req → s.ready 0x0C01 m req → fld (wd req 0) 31 18 = 0 → fld (wd req 0) 3 0 = 1 →
      a = fld (wd req 0) 15 4 → (srcGroup a).isSome = true →
      exec (.faultRead m tag req) s = .next (p.answered 0x0C01 m req (sourceWords p a))) ∧
    (∀ (b : Nat), p = s.posted 0x0C01 m tag req → s.ready 0x0C01 m req → fld (wd req 0) 31 18 = 0 → fld (wd req 0) 3 0 = 2 →
      b = fld (wd req 0) 17 16 →
      exec (.faultRead m tag req) s = .next (p.answered 0x0C01 m req (w32 b :: (List.range 32).map (fun j => w32 (((List.range 32).map (fun i =>
          let a := 1024 * b + 32 * j + i
          if (srcGroup a).isSome && (srcState p a != .idle || (srcOf p a).path || (srcOf p a).silent) then 2 ^ i else 0)).foldl (· + ·) 0))))) ∧
    (∀ (l : Nat × Nat), p = s.posted 0x0C01 m tag req → s.ready 0x0C01 m req → fld (wd req 0) 31 18 = 0 → fld (wd req 0) 3 0 = 3 →
      l = p.fault.latch.getD (0, 0) →
      exec (.faultRead m tag req) s = .next (p.answered 0x0C01 m req [w32 (b2n (fatalSet p) + 16 * l.1), w32 l.2, w32 (l.2 / 2 ^ 32), w32 (reasonSet p.fault.reasons),
        w32 (b2n (faultLow p) + 2 * b2n p.fault.faultAssert), w32 (tickNow p), w32 (tickNow p / 2 ^ 32)])) ∧
    (∀ (a g : Nat) (l : List Nat) (t : State), p = s.posted 0x0C02 m tag req → s.ready 0x0C02 m req → fld (wd req 0) 31 13 = 0 → a = fld (wd req 0) 11 0 → srcGroup a = some g →
      (bitOf (wd req 0) 12 = true ∨ (srcState p a ≠ .isolated ∧ srcState p a ≠ .fatal)) →
      l = (if bitOf (wd req 0) 12 then groupSources g else [a]) → t = allDue p →
      exec (.faultClear m tag req) s = .next ((foldS l (fun a s => if srcState s a == .isolated || srcState s a == .fatal then s else clearSrc a s) t).answered 0x0C02 m req [w32 (b2n (l.any (fun a => (srcOf t a).acted && !(srcState p a == .isolated || srcState p a == .fatal))))])) ∧
    (∀ (t : State), p = s.posted 0x0C05 m tag req → s.ready 0x0C05 m req → fld (wd req 0) 31 5 = 0 → fld (wd req 1) 31 16 = 0 →
      1 ≤ fld (wd req 0) 3 0 → fld (wd req 0) 3 0 ≤ 4 →
      t = (match fld (wd req 0) 3 0 with
        | 1 => { p with fault.faultAssert := bitOf (wd req 0) 4 }
        | 2 => foldS p.fault.reasons (fun e s => if bitOf (wd req 1) e.1 && reasonClears s e.1 e.2 then clearReason e.1 e.2 s else s) p
        | 3 => setReason 11 0 p | _ => p) →
      exec (.faultPin m tag req) s = .next ((t).answered 0x0C05 m req [w32 (reasonSet t.fault.reasons)]))

/-- FAULT_POLICY sets a group's policy from the next tick on, or answers the one set last; FAULT_INJECT queues an injection and waits for its checks (R382, R395,
R403, R404). -/
def Obligations.FaultSettingsComplete : Prop :=
  ∀ (m : Mbx) (tag : Byte) (req : List Word) (s p : State),
    (∀ (g : Nat), p = s.posted 0x0C03 m tag req → s.ready 0x0C03 m req → resBad req [(0, 7, 5), (0, 31, 12)] = false → g = fld (wd req 0) 4 0 →
      g ≤ 18 → fld (wd req 0) 11 8 = 1 → resBad req [(1, 7, 2), (1, 31, 20), (2, 31, 22), (3, 31, 20)] = false →
      fld (wd req 1) 1 0 ≠ 3 → fld (wd req 1) 15 8 ≠ 0 → actionOk g (fld (wd req 1) 18 16) = true → fld (wd req 2) 21 0 ≠ 0 →
      fld (wd req 2) 21 0 ≤ 3600000 → fld (wd req 3) 19 0 ≠ 0 → fld (wd req 3) 19 0 ≤ 1000000 →
      exec (.faultPolicy m tag req) s = .next (({ p with fault.policy := tset p.fault.policy g { old := policyOf p g, new := { cls := fld (wd req 1) 1 0, n := fld (wd req 1) 15 8, w := fld (wd req 2) 21 0, grace := fld (wd req 3) 19 0, action := fld (wd req 1) 18 16, twinFirst := bitOf (wd req 1) 19 }, from_ := tickNow p + 1, gen := policyGen p g + 1 } } : State).answered 0x0C03 m req [])) ∧
    (∀ (g : Nat) (x : Policy), p = s.posted 0x0C03 m tag req → s.ready 0x0C03 m req → resBad req [(0, 7, 5), (0, 31, 12)] = false → g = fld (wd req 0) 4 0 →
      g ≤ 18 → fld (wd req 0) 11 8 = 2 → wordsBad req 1 3 = false → x = policySet p g →
      exec (.faultPolicy m tag req) s = .next (p.answered 0x0C03 m req [w32 (x.cls + 256 * x.n + 65536 * x.action + 524288 * b2n x.twinFirst), w32 x.w, w32 x.grace])) ∧
    (∀ (a g : Nat), p = s.posted 0x0C04 m tag req → s.ready 0x0C04 m req → fld (wd req 0) 31 15 = 0 → fld (wd req 1) 31 8 = 0 →
      a = fld (wd req 0) 11 0 → (fld (wd req 0) 13 12 = 1 ∨ (fld (wd req 0) 13 12 = 2 ∧ fld (wd req 1) 7 0 = 1)) →
      fld (wd req 1) 7 0 ≠ 0 → srcGroup a = some g → g < 16 → srcMasked p a = false → srcState p a ≠ .isolated → srcState p a ≠ .fatal →
      (srcOf p a).railsEqual = false →
      exec (.faultInject m tag req) s = .next (settle
          (let t := journalAdd 0x0C04 req ({ p with
             fault.injectSeq := p.fault.injectSeq + 1
             fault.inject := p.fault.inject ++
               [{ id := p.fault.injectSeq, addr := a, mode := fld (wd req 0) 13 12, classify := bitOf (wd req 0) 14, left := fld (wd req 1) 7 0, until_ := p.now + 1000000 }] } : State)
           { t with host.waiting := t.host.waiting ++ [{ mbx := some m.val, kind := .inject p.fault.injectSeq }] })))

/-! ### Mailbox commands: tests (17_test_and_diagnostics.md) -/

/-- PRBS_CONFIG starts or stops a generator and a checker, a checker with its counts at 0; PRBS_READ answers a checker's counts and, with CLEAR, starts them
over; LOOPBACK_SET loops a lane back or opens it (R449, R450, R453, R484). -/
def Obligations.PatternCommandsComplete : Prop :=
  ∀ (m : Mbx) (tag : Byte) (req : List Word) (s p : State),
    (∀ (t id x : Nat) (old y : Prbs), p = s.posted 0x0D01 m tag req → s.ready 0x0D01 m req → resBad req [(0, 7, 3), (0, 31, 22), (1, 31, 7)] = false →
      t = fld (wd req 0) 2 0 → id = fld (wd req 0) 21 8 → prbsTargetOk t id = true → prbsFound p t id = true → prbsReady p t id = true →
      x = fld (wd req 1) 5 2 → (t = 5 → bitOf (wd req 1) 0 = false) → (t = 4 → bitOf (wd req 1) 1 = false) →
      (bitOf (wd req 1) 0 = true ∨ bitOf (wd req 1) 1 = true ∨ x ≠ 0 → patternAllowed p t id x = true) →
      (4 ≤ t → bitOf (wd req 1) 0 = true ∨ bitOf (wd req 1) 1 = true → prbsUsed p t id < 16) →
      old = tget p.test.prbs {} (prbsKey t id) →
      y = (if bitOf (wd req 1) 1 then { gen := bitOf (wd req 1) 0, chk := true, pattern := x, inv := bitOf (wd req 1) 6 }
           else { old with gen := bitOf (wd req 1) 0, chk := false, lock := false, pattern := x, inv := bitOf (wd req 1) 6 }) →
      exec (.prbsConfig m tag req) s = .next (({ p with test.prbs := tset p.test.prbs (prbsKey t id) y } : State).answered 0x0D01 m req [])) ∧
    (∀ (t id : Nat) (x : Prbs), p = s.posted 0x0D02 m tag req → s.ready 0x0D02 m req → resBad req [(0, 7, 3), (0, 31, 22), (1, 31, 1)] = false →
      t = fld (wd req 0) 2 0 → id = fld (wd req 0) 21 8 → prbsTargetOk t id = true → prbsFound p t id = true → prbsReady p t id = true →
      x = tget p.test.prbs {} (prbsKey t id) →
      exec (.prbsRead m tag req) s = .next ((if bitOf (wd req 1) 0 then { p with test.prbs := tupd p.test.prbs (prbsKey t id) (fun x => { x with lost := false, errored := 0, compared := 0, losses := 0 }) }
        else p).answered 0x0D02 m req [w32 (b2n x.lock + 2 * b2n x.lost), w32 x.errored.toNat, w32 (x.errored.toNat / 2 ^ 32), w32 x.compared.toNat,
        w32 (x.compared.toNat / 2 ^ 32), x.losses])) ∧
    (∀ (k : Nat) (u : State), p = s.posted 0x0D03 m tag req → s.ready 0x0D03 m req → fld (wd req 0) 7 3 = 0 → fld (wd req 0) 31 20 = 0 →
      1 ≤ fld (wd req 0) 2 0 → fld (wd req 0) 2 0 ≤ 3 → (fld (wd req 0) 2 0 = 3 → fld (wd req 0) 15 8 ≤ 7 ∧ p.twin.paired = false) →
      k = kindLane (fld (wd req 0) 2 0) (fld (wd req 0) 15 8) → fld (wd req 0) 19 16 ≤ 2 → domUp p (laneDomain k) = true →
      u = { p with test.loop := if fld (wd req 0) 19 16 = 0 then tdel p.test.loop k else tset p.test.loop k (fld (wd req 0) 19 16) } →
      exec (.loopbackSet m tag req) s = .next ((if tget p.test.loop 0 k = fld (wd req 0) 19 16 then p else if (laneOf u k).st = .track then (if k < 256 then huntLane k (laneAcquire k u) else laneAcquire k u) else u).answered 0x0D03 m req []))

/-- BIST_RUN and EYE_SCAN OP 1 start their test and answer DEFERRED until it is over; EYE_SCAN OP 2 answers the points of a scan (R451, R452, R486, R487). -/
def Obligations.SelfTestCommandsComplete : Prop :=
  ∀ (m : Mbx) (tag : Byte) (req : List Word) (s p : State),
    (∀ (i : Nat), p = s.posted 0x0D04 m tag req → s.ready 0x0D04 m req → fld (wd req 0) 7 4 = 0 → fld (wd req 0) 31 14 = 0 →
      i = fld (wd req 0) 13 8 → p.test.bist = none → fld (wd req 0) 3 0 = 1 → domUp p (32 + i / 32) = true →
      (pcRetired p i = true ∨ deepUse p = false) →
      exec (.bistRun m tag req) s = .next (settle (respond m.val .deferred [] (journalAdd 0x0D04 req ({ p with test.bist := some { target := 1, index := i } } : State))))) ∧
    (∀ (i : Nat), p = s.posted 0x0D04 m tag req → s.ready 0x0D04 m req → fld (wd req 0) 7 4 = 0 → fld (wd req 0) 31 14 = 0 →
      i = fld (wd req 0) 13 8 → p.test.bist = none → fld (wd req 0) 3 0 = 2 → i ≤ 31 → domUp p i = true →
      p.port.any (fun e => e.1 / 8 == i) = false →
      exec (.bistRun m tag req) s = .next (settle (respond m.val .deferred [] (journalAdd 0x0D04 req ({ p with test.bist := some { target := 2, index := i } } : State))))) ∧
    (∀ (k : Nat), p = s.posted 0x0D05 m tag req → s.ready 0x0D05 m req → fld (wd req 0) 7 2 = 0 → fld (wd req 0) 31 20 = 0 →
      1 ≤ fld (wd req 0) 1 0 → (fld (wd req 0) 1 0 = 3 → fld (wd req 0) 15 8 ≤ 7) →
      k = kindLane (fld (wd req 0) 1 0) (fld (wd req 0) 15 8) → domUp p (laneDomain k) = true → fld (wd req 0) 19 16 = 1 →
      eyeBad p k (wd req 1) = false → (laneOf p k).st = .track → (p.test.scans.filter (fun e => e.2.running)).length < 8 →
      (∀ x, tget? p.test.scans k = some x → x.running = false) →
      exec (.eyeScan m tag req) s = .next (settle (respond m.val .deferred [] (journalAdd 0x0D05 req ({ p with test.scans := tset p.test.scans k { running := true, setup := wd req 1 } } : State))))) ∧
    (∀ (k : Nat) (x : Scan), p = s.posted 0x0D05 m tag req → s.ready 0x0D05 m req → fld (wd req 0) 7 2 = 0 → fld (wd req 0) 31 20 = 0 →
      1 ≤ fld (wd req 0) 1 0 → (fld (wd req 0) 1 0 = 3 → fld (wd req 0) 15 8 ≤ 7) →
      k = kindLane (fld (wd req 0) 1 0) (fld (wd req 0) 15 8) → domUp p (laneDomain k) = true → fld (wd req 0) 19 16 = 2 →
      wd req 1 = 0 → tget? p.test.scans k = some x → x.done = true →
      exec (.eyeScan m tag req) s = .next (p.answered 0x0D05 m req (x.setup :: (List.range ((x.points.length + 1) / 2)).map (fun i => w32 (x.points.getD (2 * i) 0 + 65536 * x.points.getD (2 * i + 1) 0)))))

/-! ### Mailbox commands: firmware and the log (14_host_interface_and_firmware.md) -/

/-- FW_STAGE erases the other slot, takes data words into it, and starts its check: OP 1 and OP 3 answer DEFERRED until they are over (R429, R430, R436). -/
def Obligations.FirmwareStagingCompletes : Prop :=
  ∀ (m : Mbx) (tag : Byte) (req : List Word) (s p : State),
    (∀ (k : Nat), p = s.posted 0x0E01 m tag req → s.ready 0x0E01 m req → fld (wd req 0) 31 4 = 0 → p.fw.confirmed = true → p.fw.activation = none →
      k = stageSlot p → fld (wd req 0) 3 0 = 1 → req.length = 1 → p.fw.erasing = false → p.fw.checking = false →
      exec (.fwStage m tag req) s = .next (settle (respond m.val .deferred [] (journalAdd 0x0E01 req ({ modSlot k (fun _ => {}) p with fw.erasing := true } : State))))) ∧
    (∀ (k : Nat), p = s.posted 0x0E01 m tag req → s.ready 0x0E01 m req → fld (wd req 0) 31 4 = 0 → p.fw.confirmed = true → p.fw.activation = none →
      k = stageSlot p → fld (wd req 0) 3 0 = 2 → 3 ≤ req.length → req.length ≤ 255 → (wd req 1).toNat % 4 = 0 →
      (wd req 1).toNat + 4 * (req.length - 2) ≤ slotSize → ((slotOf p.fw k).staged ≠ 0 ∨ p.fw.erasing = true) →
      exec (.fwStage m tag req) s = .next (({ modSlot k (fun x => { x with data := slotWrite (wd req 1).toNat (req.drop 2) x.data, staged := 2 }) p with fw.wrote := true } : State).answered 0x0E01 m req [])) ∧
    (∀ (k : Nat), p = s.posted 0x0E01 m tag req → s.ready 0x0E01 m req → fld (wd req 0) 31 4 = 0 → p.fw.confirmed = true → p.fw.activation = none →
      k = stageSlot p → fld (wd req 0) 3 0 = 3 → req.length = 1 → p.fw.erasing = false → p.fw.checking = false →
      (slotOf p.fw k).staged ≠ 0 →
      exec (.fwStage m tag req) s = .next (settle (respond m.val .deferred [] (journalAdd 0x0E01 req ({ p with fw.checking := true, fw.wrote := false } : State)))))

/-- FW_ACTIVATE starts the staged image without a hit or goes back to the other slot (DEFERRED until the MP runs again), selects the staged image for the next
start, or confirms the running one; FW_STATUS answers the firmware's words; LOG_READ answers entries of the log (R431 to R433, R436, R437). -/
def Obligations.FirmwareActivationCompletes : Prop :=
  ∀ (m : Mbx) (tag : Byte) (req : List Word) (s p : State),
    (∀ (k : Nat), p = s.posted 0x0E02 m tag req → s.ready 0x0E02 m req → fld (wd req 0) 31 4 = 0 → p.fw.activation = none → k = stageSlot p →
      fld (wd req 0) 3 0 = 1 → (slotOf p.fw k).staged = 3 → hitlessOk p (slotHdr (slotOf p.fw k)) = true →
      exec (.fwActivate m tag req) s = .next (settle (respond m.val .deferred [] (journalAdd 0x0E02 req ({ p with fw.activation := some { op := 1, prev := p.fw.slot, at_ := p.now }, fw.restartAt := some p.now } : State))))) ∧
    (∀ (k : Nat), p = s.posted 0x0E02 m tag req → s.ready 0x0E02 m req → fld (wd req 0) 31 4 = 0 → p.fw.activation = none → k = stageSlot p →
      fld (wd req 0) 3 0 = 2 → (slotOf p.fw k).staged = 3 →
      exec (.fwActivate m tag req) s = .next (({ p with fw := bootWrite k false p.fw } : State).answered 0x0E02 m req [])) ∧
    (∀ (k : Nat), p = s.posted 0x0E02 m tag req → s.ready 0x0E02 m req → fld (wd req 0) 31 4 = 0 → p.fw.activation = none → k = stageSlot p →
      fld (wd req 0) 3 0 = 3 →
      exec (.fwActivate m tag req) s = .next (({ p with fw := { bootWrite p.fw.slot true p.fw with confirmed := true, counter := max p.fw.counter p.fw.running.svn } } : State).answered 0x0E02 m req [])) ∧
    (∀ (k : Nat), p = s.posted 0x0E02 m tag req → s.ready 0x0E02 m req → fld (wd req 0) 31 4 = 0 → p.fw.activation = none → k = stageSlot p →
      fld (wd req 0) 3 0 = 4 → imageCheck p.fw (slotOf p.fw k) = 0 → hitlessOk p (slotHdr (slotOf p.fw k)) = true →
      exec (.fwActivate m tag req) s = .next (settle (respond m.val .deferred [] (journalAdd 0x0E02 req ({ p with fw.activation := some { op := 4, prev := p.fw.slot, at_ := p.now }, fw.restartAt := some p.now } : State))))) ∧
    (∀ (f : Firmware), p = s.posted 0x0E03 m tag req → s.ready 0x0E03 m req → f = p.fw →
      exec (.fwStatus m tag req) s = .next (p.answered 0x0E03 m req [w32 (f.state + 16 * f.slot + 32 * b2n f.confirmed + 64 * (slotOf f (stageSlot p)).staged + 256 * f.counter + 16384 * f.revoked),
        slotWord p 0, slotWord p 1, w32 f.lastResult])) ∧
    (∀ (l : List LogEntry), p = s.posted 0x0E04 m tag req → s.ready 0x0E04 m req → fld (wd req 1) 31 5 = 0 → fld (wd req 1) 4 0 ≠ 0 →
      l = (p.fw.log.filter (fun e => decide ((wd req 0).toNat ≤ e.seq))).take (fld (wd req 1) 4 0) →
      exec (.logRead m tag req) s = .next (p.answered 0x0E04 m req (w32 l.length :: l.flatMap logWords)))

/-! ### Events: the host interface (14_host_interface_and_firmware.md) -/

/-- The host's accesses to BAR0. -/
def hostAccess (i : Instr) : Bool :=
  match i with
  | .mbxDoorbellRing _ | .evtRingEnable _ | .evtRingDisable _ | .evtRingHeadWrite _ _ | .violInfoRead | .unimplementedRead _ _
  | .unimplementedWrite _ _ _ | .busyMailboxWrite _ _ _ | .registerWrite _ _ _ => true
  | _ => false

/-- With the endpoint down (R410, R459) no host access has an effect. With it up, each has its effect on BAR0 (R411 to R413, R416, R419, R423): a
doorbell rings the mailboxes of its bits; a read request of several DWORDs is Unsupported Request as a whole where one of them is unimplemented; ENABLE from 0 to 1 sets HEAD and TAIL to 0, a rewrite of the base in force changes nothing, and
clearing ENABLE disables the ring; HEAD, the base's high word, request areas and MSI-X words are written by byte enables; a write to a
response area or a read-only register changes nothing; VIOL_INFO reads and clears; an unimplemented access and a write to a BUSY mailbox
are logged. With the ring open, EVENT_DELIVERY writes the overflow record once room has returned, else the oldest record held; with no room,
or nothing to deliver, it changes nothing (R420, R421). Vector 0 follows its 10 µs (R420), EVT_BUS_VIOLATION its 1 ms (R423), and COMMAND_TAKE
takes the oldest bell where the firmware serves (R417, R418). -/
def Obligations.HostEventsComplete : Prop :=
  ∀ (s t : State), t = { s with host.busOut := .written } →
    (∀ i, hostAccess i = true → endpointUp s = false → exec i s = .next s) ∧
    (endpointUp s = true →
      (∀ v, exec (.mbxDoorbellRing v) s = .next (ringBells v t)) ∧
      (∀ v, s.host.ringEnable = false → exec (.evtRingEnable v) s = .next { t with
        host.ringLo := w32 (v.toNat / 4096 * 4096), host.ringHead := 0, host.ringTail := 0, host.ringEnable := true, host.ringOld := none
        host.ringWild := false }) ∧
      (∀ v, s.host.ringEnable = true → s.host.ringLo = w32 (v.toNat / 4096 * 4096) → exec (.evtRingEnable v) s = .next t) ∧
      (∀ v, exec (.evtRingDisable v) s = .next { t with
        host.ringLo := w32 (v.toNat / 4096 * 4096), host.ringEnable := false, host.ringOld := none }) ∧
      (∀ v be, exec (.evtRingHeadWrite v be) s =
        .next (ringHead (BitVec.ofNat 12 (mergeBytes (w32 s.host.ringHead.toNat) v be.toNat).toNat) t)) ∧
      exec .violInfoRead s = .next { s with
        host.busOut := .read (violInfo s.host.violFirst s.host.violCount), host.violFirst := none, host.violCount := 0 } ∧
      (∀ off bes l, l = unimplOf off.toNat (bes.map (·.toNat)) → l ≠ [] → exec (.unimplementedRead off bes) s =
        .next (foldS l (fun e => violation e.1 1 0 e.2) { s with host.busOut := .unsupported })) ∧
      (∀ off bes, unimplOf off.toNat (bes.map (·.toNat)) = [] → exec (.unimplementedRead off bes) s =
        .next (foldS (bes.map (·.toNat)).zipIdx (fun e => busRead (off.toNat + 4 * e.2) e.1) s)) ∧
      (∀ off v be, barImpl (off.toNat / 4 * 4) = false →
        exec (.unimplementedWrite off v be) s = .next (violation (off.toNat / 4 * 4) 2 0 be.toNat t)) ∧
      (∀ off v be m, 0x10000 ≤ off.toNat / 4 * 4 → m = barMbx (off.toNat / 4 * 4) → (mbxOf s m).st = .busy →
        exec (.busyMailboxWrite off v be) s = .next (violation (off.toNat / 4 * 4) 3 m be.toNat t)) ∧
      (∀ off v be m o, 0x10000 ≤ off.toNat / 4 * 4 → m = barMbx (off.toNat / 4 * 4) → (mbxOf s m).st ≠ .busy →
        o = off.toNat / 4 * 4 % 0x1000 → exec (.registerWrite off v be) s = .next (if o < 0x400
          then modMbx m (fun x => { x with req := tset x.req (o / 4) (mergeBytes (tget x.req 0 (o / 4)) v be.toNat) }) t else t)) ∧
      (∀ off v be i w, off.toNat / 4 * 4 = 0x1000 + 4 * i → i < 68 →
        w = mergeBytes (tget s.host.msixTable (if i % 4 = 3 then 1 else 0) i) v be.toNat →
        exec (.registerWrite off v be) s = .next (msixFlush { t with host.msixTable := tset s.host.msixTable i (if i % 4 = 3 then w &&& 1 else w) })) ∧
      (∀ off v be, off.toNat / 4 * 4 = 0x204 → s.host.ringEnable = false →
        exec (.registerWrite off v be) s = .next { t with
          host.ringLo := w32 ((ringBaseLo s).toNat / 4096 * 4096), host.ringHi := mergeBytes s.host.ringHi v be.toNat, host.ringEnable := bitOf (ringBaseLo s) 0
          host.ringOld := none }) ∧
      (∀ off v be, off.toNat / 4 * 4 ∈ [0x0, 0x4, 0x8, 0x104, 0x20C, 0x300, 0x304, 0x1800, 0x1804] →
        exec (.registerWrite off v be) s = .next t)) ∧
    (∀ (r : EvRec) (rest : List EvRec), ringOpen s = true → s.host.evHeld = r :: rest → s.host.evDiscarded = 0 →
      exec .eventDelivery s = .next (ringPut r { s with host.evHeld := rest })) ∧
    (ringOpen s = true → s.host.evDiscarded ≠ 0 → 2 * overflowHeld s < overflowCap s →
      exec .eventDelivery s = .next (ringPut { code := 0x0101, cls := clsSystem, kind := 0, num := 0, ns := devNs s, d4 := w32 s.host.evDiscarded } { s with host.evDiscarded := 0 })) ∧
    (ringOpen s = false ∨ (s.host.evHeld = [] ∧ s.host.evDiscarded = 0) → exec .eventDelivery s = .next s) ∧
    (∀ (i : Nat), s.host.vec0Due = true → s.host.vec0At = some i → i + 10000 ≤ s.now →
      exec .msixVector0HoldoffEnd s = .next (msixSend 0 { s with host.vec0Due := false })) ∧
    (∀ (v : Viol), s.host.violEvtFirst = some v → (∀ i, s.host.violEvtAt = some i → i + 1000000 ≤ s.now) →
      exec .busViolationEventTimer s = .next (raise 0x0102 clsSystem (if v.typ = 3 then 14 else 0) (if v.typ = 3 then v.mbx else 0) s.host.violSinceEvt v.off (v.typ + 4 * v.mbx + 65536 * v.be) 0
        { s with host.violSinceEvt := 0, host.violEvtFirst := none, host.violEvtAt := some s.now })) ∧
    (∀ (m : Nat) (rest : List Nat), s.host.bells = m :: rest → canServe s = true →
      exec .commandTake s = .next (settle (serve m { s with host.bells := rest }))) ∧
    (s.host.bells = [] ∨ canServe s = false → exec .commandTake s = .next s)

/-! ### Events: start-up, reset and power domains (16_startup_and_power_domains.md) -/

/-- Each phase of start-up ends where it is in hand (R462, R465): the image of the boot record runs or the other slot's, the boot is
counted, the domains recorded ON are up, memory and lanes train, the journal is replayed, and FW_STATE is READY; after 8 s without READY
the other slot runs (R428). PORST_N leaves the cold state (R460); PERST_N resets the endpoint (R410). A domain's switching, a block's
reset, the MP's restart and a retirement's evaluation end as asked for (R468, R469, R474, R20, R249). -/
def Obligations.StartupEventsComplete : Prop :=
  ∀ (s : State), 
    (exec .porstNAssert s = .next (coldState s)) ∧
    (∀ (strap : Bool), s.pins.railsOk = true → s.pins.porstN = false →
      exec (.porstNRelease strap) s = .next { s with pins.porstN := true, pins.strap := strap, boot.phase := .always, boot.porstAt := s.now, boot.imageAt := s.now }) ∧
    (∀ (h : HostIf), h = s.host → exec .perstNAssert s = .next ({ s with
      pins.perstN := false
      host := { h with
        mbx := [], bells := [], waiting := h.waiting.map (fun w => { w with mbx := none }), ringEnable := false, ringLo := 0, ringHi := 0, ringHead := 0
        ringTail := 0, violFirst := none, violCount := 0, msixTable := [], msixPending := [], vec0Due := false, vec0At := none, busOut := .none } })) ∧
    (exec .perstNRelease s = .next { s with pins.perstN := true }) ∧
    (s.boot.phase = .always →
      exec .startupPhase1End s = .next (temperReset { s with boot.phase := .image, boot.endpoint := true, fault.corrTick := tickNow s, fault.corrNs := 0, pm.secStart := 0, pm.secAt := s.now, tmc.secAt := s.now * 65536 })) ∧
    (∀ (r : BootRec), s.boot.phase = .image → bootRec s.fw = some r → imageCheck s.fw (slotOf s.fw r.active) = 0 →
      exec .startupPhase2End s = .next (runImage r.active r.confirmed s)) ∧
    (∀ (r : BootRec), s.boot.phase = .image → bootRec s.fw = some r → imageCheck s.fw (slotOf s.fw r.active) ≠ 0 →
      imageCheck s.fw (slotOf s.fw (1 - r.active)) = 0 →
      exec .startupPhase2End s = .next (fallBack (1 - r.active) (logAdd .image r.active { s with fw.lastResult := imageCheck s.fw (slotOf s.fw r.active) }))) ∧
    (∀ (r : BootRec), s.boot.phase = .image → bootRec s.fw = some r → imageCheck s.fw (slotOf s.fw r.active) ≠ 0 →
      imageCheck s.fw (slotOf s.fw (1 - r.active)) ≠ 0 →
      exec .startupPhase2End s = .next ({ logAdd .image r.active { s with fw.lastResult := imageCheck s.fw (slotOf s.fw r.active) } with boot.phase := .finished, fw.state := 4 })) ∧
    (s.boot.phase = .firmware → s.fault.latch = none → exec .startupPhase3End s = .next ({ foldS (List.range 36) (fun d s =>
        let s := modDom d (fun x => { x with st := if x.st == .isoFatal then .on else x.st }) s
        if (domOf s d).st == .on then s else srcsIsolate d s) { s with boot.boots := s.boot.boots + 1 } with boot.phase := .domains })) ∧
    (∀ (a n : Nat), s.boot.phase = .firmware → s.fault.latch = some (a, n) →
      exec .startupPhase3End s = .next (modSrc a (fun x => { x with st := .fatal })
        (let t := foldS (List.range 36) (fun d s => srcsIsolate d (modDom d (fun x => { x with st := if x.st == .on then .isoFatal else x.st }) s))
           { s with boot.boots := s.boot.boots + 1 }
         { t with boot.phase := .finished, fw.state := 3, fault.reasons := if t.fault.reasons.contains (8, a) then t.fault.reasons else t.fault.reasons ++ [(8, a)] }))) ∧
    (s.boot.phase = .domains →
      exec .startupPhase4End s = .next { foldS (List.range 36) (fun d s => if (domOf s d).st == .on then modDom d (fun x => { x with up := true }) s else s) s with
      boot.phase := .memLanes, boot.memDone := false, boot.lanesDone := false }) ∧
    (∀ (pcs : BitVec 64) (stackBits : BitVec 2), s.boot.phase = .memLanes → s.boot.memDone = false →
      exec (.startupPhase5aEnd pcs stackBits) s = .next (phase5a pcs stackBits s)) ∧
    (∀ (failed : List LaneId), s.boot.phase = .memLanes → s.boot.lanesDone = false →
      exec (.startupPhase5bEnd failed) s = .next (phase5b (failed.map laneKey) s)) ∧
    (s.boot.phase = .config →
      exec .startupPhase6End s = .next (settle (reasonsAgain { replayJournal s.fw.journal (budgetSettle s) with boot.phase := .release }))) ∧
    (∀ (t : State), s.boot.phase = .release → t = { s with boot.phase := .finished, fw.state := 1 } →
      exec .startupPhase7End s = .next (settle (if domUp t 35 then twinStart t else t))) ∧
    (∀ (k : Nat), k = 1 - s.fw.slot → s.fw.state = 0 →
      (s.boot.phase = .firmware ∨ s.boot.phase = .domains ∨ s.boot.phase = .memLanes ∨ s.boot.phase = .config ∨ s.boot.phase = .release) →
      s.boot.imageAt + 8000000000 ≤ s.now → s.boot.fellBack = false → imageCheck s.fw (slotOf s.fw k) = 0 →
      exec .bootReadyTimeout s = .next (logAdd .image k (fallBack k { startOver s with fw.lastResult := 7 }))) ∧
    (∀ (d : Fin 36) (dest : DomState) (l : State → State), (domOf s d.val).sw = some (.out dest) → ¬ (32 ≤ d.val ∧ d.val < 34) →
      l = modDom d.val (fun _ => { st := dest, up := false, sw := none }) →
      exec (.domainSwitchesOpen d) s = .next (settle (nextSwitch ((finishDomain d.val (l s)).power.queue.length + 1) (finishDomain d.val (l s))))) ∧
    (∀ (d : Fin 36) (dest : DomState) (l t : State → State), (domOf s d.val).sw = some (.out dest) → 32 ≤ d.val ∧ d.val < 34 →
      l = modDom d.val (fun _ => { st := dest, up := false, sw := none }) →
      (∀ u, t u = finishDomain d.val (renewCopies (dropContent (fun p => 32 + p / 32 == d.val)
        (if dest = .offCmd then leaveS (halfPcs (d.val - 32)) false u l else l u)))) →
      exec (.domainSwitchesOpen d) s = .next (settle (nextSwitch ((t s).power.queue.length + 1) (t s)))) ∧
    (∀ (d : Fin 36) (t : State), (domOf s d.val).sw = some .into → ¬ (32 ≤ d.val ∧ d.val < 34 ∧ (domOf s d.val).st = .offCmd) →
      t = finishDomain d.val (reportOn d.val s) → exec (.domainBringUpComplete d) s = .next (settle (nextSwitch (t.power.queue.length + 1) t))) ∧
    (∀ (d : Fin 36) (t : State), (domOf s d.val).sw = some .into → 32 ≤ d.val ∧ d.val < 34 ∧ (domOf s d.val).st = .offCmd →
      t = finishDomain d.val (budgetResume (reportOn d.val (halfReturn (d.val - 32) s))) →
      exec (.domainBringUpComplete d) s = .next (settle (nextSwitch (t.power.queue.length + 1) t))) ∧
    (∀ (b : Fin 8) (i : Fin 256), s.resets.any (fun r => r.blk == b.val && r.idx == i.val && decide (r.until_ ≤ s.now)) = true →
      exec (.blockResetEnd b i) s = .next (settle (finishWaiting (· == .resetBlock b.val i.val) .ok []
        (resetAfter b.val i.val { s with resets := s.resets.filter (fun r => !(r.blk == b.val && r.idx == i.val)) })))) ∧
    (s.fw.state = 2 → s.fw.activation = none → exec .mpRestartComplete s = .next (settle (mirrorResume (mpBack s)))) ∧
    (∀ (l : List Nat), s.pool.retiring ≠ [] → l = s.pool.retiring.map (·.pc) → exec .retirementEvaluation s = .next (settle (
        let t := renewCopies (foldS (s.pool.q.map (·.1)) (fun n u =>
          match queueAt u n with | some q => (match retireHit u q.chain with | some r => flushRetired n r u | none => u) | none => u) s)
        let t := budgetSettle (dropContent (fun p => l.contains p) { t with pool.retiring := [] })
        takeDeferred (t.fault.defer.length + 1) t)))

/-! ### Events: lanes (02_lanes_and_ports.md, 03_frame_alignment.md) -/

/-- A lane's receiver goes IDLE, ACQUIRE, TRACK with its defects: signal detect clears dLOS and starts acquisition or sets it and ends it
(R73); lock within the limit, with the coefficients that initial adaptation trained, loss of lock and the acquisition limit move the lane
(R62); a buffer slip holds dLOL for 100 µs (R75); continuous adaptation moves one coefficient by at most one step (R64 to R66); a fabric
lane examines codewords and HAGIL headers while it tracks (R90, R92). -/
def Obligations.LaneEventsComplete : Prop :=
  ∀ (s : State) (l : LaneId) (k : Nat), k = laneKey l → 
    ((laneOf s k).st = .idle → (laneOf s k).held = false →
      exec (.signalDetectPresent l) s = .next (settle (laneAcquire k (modLane k (fun x => { x with los := false }) s)))) ∧
    ((laneOf s k).st ≠ .off →
      exec (.signalDetectAbsent l) s = .next (settle (huntLane k (laneIdle k (modLane k (fun x => { x with los := true }) s))))) ∧
    (∀ (co : List Int) (p m : Nat) (q : Port), (laneOf s k).st = .acquire → laneMode s k = some m →
      s.now ≤ (laneOf s k).acqSince + acqLimit m → k < 256 → portOfLane s k = some (p, q) →
      exec (.cdrLockAcquired ⟨l, co⟩) s = .next (settle (updPort p (fun q => { q with lastTrackAt := s.now }) (modLane k (fun x => { x with st := .track, below := 0, coef := (co.take (coefCount m)).zipIdx.map (fun e => (e.2, e.1)) }) s)))) ∧
    (∀ (co : List Int) (m : Nat), (laneOf s k).st = .acquire → laneMode s k = some m → s.now ≤ (laneOf s k).acqSince + acqLimit m →
      256 ≤ k →
      exec (.cdrLockAcquired ⟨l, co⟩) s = .next (settle (modLane k (fun x => { x with st := .track, below := 0, coef := (co.take (coefCount m)).zipIdx.map (fun e => (e.2, e.1)) }) s))) ∧
    (∀ (m : Nat), laneMode s k = some m → (laneOf s k).st = .acquire → (laneOf s k).acqSince + acqLimit m ≤ s.now →
      exec (.acquisitionLimitExpiry l) s = .next (settle (laneIdle k (modLane k (fun x => { x with acqFail := x.acqFail + 1 }) s)))) ∧
    ((laneOf s k).st = .track → exec (.cdrLockLost l) s = .next (settle (laneReadapt k s))) ∧
    ((laneOf s k).st = .track →
      exec (.laneBufferSlip l) s = .next (settle (huntLane k (modLane k (fun x => { x with bufSlip := x.bufSlip + 1, slipUntil := some (s.now + 100000) }) s)))) ∧
    (∀ (t : Nat), (laneOf s k).slipUntil = some t → t ≤ s.now →
      exec (.slipDlolExpiry l) s = .next (settle (modLane k (fun x => { x with slipUntil := none }) s))) ∧
    (∀ (j : Fin 34) (d : Fin 3) (snr : Fin 65536), mpRuns s = true → (laneOf s k).st = .track → (laneOf s k).freeze = false →
      (∀ sc, tget? s.test.scans k = some sc → sc.running = false) →
      exec (.continuousAdaptationVisit l j d snr) s = .next (marginStep k snr.val (modLane k (fun x => if j.val < coefCount ((laneMode s k).getD 2) then
        { x with coef := tmod x.coef 0 j.val (· + ((d.val : Int) - 1)) } else x) s))) ∧
    (∀ (n : Fin 256) (hdr : List Byte), laneTracks s (256 + n.val) = true → laneBad (laneOf s (256 + n.val)) = false →
      (fabRxOf s n.val).lock = true → hdr.length = 8 →
      exec (.hagilHeader n hdr) s = .next (settle { s with fabRx := tset s.fabRx n.val { fabRxOf s n.val with hag := hdrStep (fabRxOf s n.val).hag (crc8 (hdr.take 7) == hdr.getD 7 0) false (some 512) 512 } })) ∧
    (∀ (n : Fin 256) (oks : BitVec 16), laneTracks s (256 + n.val) = true → laneBad (laneOf s (256 + n.val)) = false →
      exec (.fabricCodeword n oks) s = .next (settle { s with fabRx := tset s.fabRx n.val (codewordStep (fabRxOf s n.val) oks) }))

/-! ### Events: framing and frames (03_frame_alignment.md, 04_overhead_and_parity.md) -/

/-- The framing processes of a port follow what arrives: an opening match takes a slot and its check wins or discards it, and sets ACQ_TIME
where the port's one hunter wins (R78, R98), dLOF, dLOFLANE and dLOM follow 3 ms of their condition (R81, R83), and markers and PCS blocks
step a lane's alignment (R86, R87); a FlexE overhead frame is told to its group (R88). A frame is received (R80) and one formed (R110) for
a port, an ODU or a VC; a client management frame falls due every 100 ms (R120). -/
def Obligations.FrameEventsComplete : Prop :=
  ∀ (s : State) (p : Fin 256) (i : Fin 49) (q : Port), portAt s p.val = some q → 
    (∀ (h : Hunter) (pos : Nat) (sig : List Byte) (b : Byte), hunterKind q i.val = some h → procLive s p.val q i.val = true →
      patternOk h sig = true →
      exec (.fasPatternMatch p i pos sig b) s = .next (settle (updPort p.val (updProc i.val (fun r => fasOpen r (pos % framePeriod q) b)) s))) ∧
    (∀ (h : Hunter) (n : Fin 16) (sig : List Byte) (b : Byte) (arr : Nat), hunterKind q i.val = some h → procLive s p.val q i.val = true →
      exec (.fasCandidateCheck p i n ⟨sig, arr⟩ b) s = .next (settle (updPort p.val (fasChecked h i.val n.val sig b arr s.now) s))) ∧
    (∀ (h : Hunter) (n : Fin 16) (sig : List Byte) (b : Byte) (arr : Nat) (r : Proc) (u : Port),
      r = fasCheck h (procOf q i.val) n.val sig b arr → u = updProc i.val (fun _ => r) q →
      ((procOf q i.val).st = .inFrame ∨ r.st ≠ .inFrame → fasChecked h i.val n.val sig b arr s.now q = u) ∧
      ((procOf q i.val).st ≠ .inFrame → r.st = .inFrame → i.val = 0 → fasChecked h i.val n.val sig b arr s.now q = setAcq s.now u)) ∧
    (exec (.dlofDeclare p i) s = .next (settle (lofStep p.val i.val true s))) ∧
    (exec (.dlofClear p i) s = .next (settle (lofStep p.val i.val false s))) ∧
    (1 ≤ i.val → i.val ≤ 32 →
      exec (.dloflaneDeclare p i) s = .next (settle (updPort p.val (updProc i.val (fun r => if held3ms r.oofSince s.now then { r with lof := true } else r)) s))) ∧
    (1 ≤ i.val → i.val ≤ 32 →
      exec (.dloflaneClear p i) s = .next (settle (updPort p.val (updProc i.val (fun r => if held3ms r.okSince s.now then { r with lof := false } else r)) s))) ∧
    (
      exec (.dlomDeclare p i) s = .next (settle (updPort p.val (fun q => if hasMf q i.val then updProc i.val (fun r => if held3ms r.oomSince s.now then { r with lom := true } else r) q else q) s))) ∧
    (
      exec (.dlomClear p i) s = .next (settle (updPort p.val (fun q => if hasMf q i.val then updProc i.val (fun r => if held3ms r.imSince s.now then { r with lom := false } else r) q else q) s))) ∧
    (∀ (l : Fin 8) (am : Bool) (pid : Fin 256) (lm : Fin 8) (omfi : Byte) (arr : Nat), q.proto = 4 → l.val < q.width →
      procLive s p.val q (l.val + 1) = true → exec (.flexoFrame p l am ⟨pid, lm⟩ omfi arr) s = .next (settle (updPort p.val (fun q =>
        let u := updProc (l.val + 1) (fun r => { amStep r am with ident := if am then some (8 * pid.val + lm.val) else r.ident, arrival := arr }) q
        if l.val = 0 ∧ (procOf u 0).st = .inFrame then updProc 0 (fun r => mfStep r omfi) u else u) s))) ∧
    (∀ (x : Fin 32) (sync : List Bool) (am : Bool) (l : Fin 32) (arr : Nat), isEth q = true → x.val < pcsLanes q →
      procLive s p.val q (x.val + 1) = true →
      exec (.pcsAlignmentMarker p x sync am l arr) s = .next (settle (updPort p.val (updProc (x.val + 1) (pcsStep q sync am l.val arr)) s))) ∧
    (∀ (sync : List Bool) (am : Bool) (l arr : Nat) (x y : Proc), y = blockStep q { x with arrival := arr } sync →
      (y.blk = false → pcsStep q sync am l arr x = { y with
        st := .hunt, bad := 0, good := 0, oofEvents := if y.st = .inFrame then y.oofEvents + 1 else y.oofEvents }) ∧
      (y.blk = true → hasAm q = false → pcsStep q sync am l arr x = { y with st := .inFrame }) ∧
      (y.blk = true → hasAm q = true → pcsStep q sync am l arr x = { amStep y am with ident := if am then some l else y.ident })) ∧
    (∀ (n : Fin 16) (f : FlexOh) (u : Port), n.val < flexeInst q → procLive s p.val q (33 + n.val) = true → f.found = true →
      u = updProc (33 + n.val) (fun r => omfStep (ohFrameStep q r true) f.omf) q → (procOf u (33 + n.val)).st = .inFrame →
      exec (.flexeOverheadFrame p n f) s = .next (settle (flexTell p.val n.val f (updPort p.val (fun _ => u) s)))) ∧
    (∀ (f : RxFrame), exec (.rxFrame (.proc p i) f) s = .next (settle (rxProc p.val i.val f s))) ∧
    (∀ (eg : Bool) (ch : Fin 16384) (n : Fin 16) (f : RxFrame),
      exec (.rxFrame (.odu eg ch n) f) s = .next (settle (rxOduFrame (chKey eg ch.val) n.val f s))) ∧
    (∀ (eg : Bool) (ch : Fin 16384) (x : Chan) (f : RxFrame) (st : HuntState), chanAt s eg ch.val = some x → isVc (cType x.words) = true →
      st = ohFrame s (ohKey 2 (chKey eg ch.val) 0) → st = .inFrame →
      exec (.rxFrame (.vc eg ch) f) s = .next (settle (rxVcat (chKey eg ch.val) f (rxVc (chKey eg ch.val) true f s)))) ∧
    (∀ (eg : Bool) (ch : Fin 16384) (x : Chan) (f : RxFrame) (st : HuntState), chanAt s eg ch.val = some x → isVc (cType x.words) = true →
      st = ohFrame s (ohKey 2 (chKey eg ch.val) 0) → st ≠ .hunt → st ≠ .inFrame →
      exec (.rxFrame (.vc eg ch) f) s = .next (settle (rxVc (chKey eg ch.val) false f s))) ∧
    (∀ (f : TxFrame), exec (.txFrame (.proc p i) f) s = .next (settle (txPort p.val i.val f s))) ∧
    (∀ (eg : Bool) (ch : Fin 16384) (n : Fin 16) (f : TxFrame),
      exec (.txFrame (.odu eg ch n) f) s = .next (settle (txOduFrame (chKey eg ch.val) n.val f s))) ∧
    (∀ (eg : Bool) (ch : Fin 16384) (x : Chan) (f : TxFrame) (k sl : Nat) (h : Byte × State), k = chKey eg ch.val →
      tget? s.chan k = some x → isVc (cType x.words) = true → chanSlice s k = some sl → domUp s sl = true → h = txH4 k (txPointer k (updOh (ohKey 2 k 0) (txBegin false) s)) →
      exec (.txFrame (.vc eg ch) f) s = .next (settle (txDraw [k] (.chan k) f (txVc k h.1 f h.2)))) ∧
    (∀ (eg : Bool) (ch : Fin 16384) (x : Chan) (k a : Nat), tget? s.chan (chKey eg ch.val) = some x →
      k = chanOh (chKey eg ch.val) x.words → (ohOf s k).cmfAt = some a → a ≤ s.now →
      exec (.gfpCmfTimer eg ch) s = .next (updOh k (fun o => { o with cmfAt := some (s.now + 100000000) }) s))

/-! ### Events: channels and mapping (06_mapping_and_multiplexing.md) -/

/-- A GFP core header steps the delineation and a good one in SYNC delivers its frame (R90, R91, R163); a slice sends a fabric slot of what
the datapath brought (R177); a fabric frame and a skip timeout advance the order (R179), and a lane in far-end loopback sends the frame
back (R484); a member without failure for WTR returns (R168); a FlexE calendar is acknowledged, switched or given up (R170). -/
def Obligations.ChannelEventsComplete : Prop :=
  ∀ (s : State), 
    (∀ (ch : Fin 16384) (hdr : Word) (f : GfpFrame) (k : Nat) (x : Chan) (r : HdrProc), k = chKey false ch.val → tget? s.chan k = some x →
      isGfp x.words = true → gfpCarrierFail s treeDepth k = false → gfpHecOk (gfpCore hdr) = true →
      r = hdrStep x.gfp true false (if pliOk x.gfp.maxPli (gfpCore hdr / 65536) then some (gfpCore hdr / 65536 + 4) else none) (gfpCore hdr / 65536 + 4) →
      r.st = .sync →
      exec (.gfpCoreHeader ch hdr f) s = .next (settle (gfpDeliver k (gfpCore hdr / 65536) f (updChan k (fun c => { c with gfp := r }) s)))) ∧
    (∀ (sl : Fin 32) (arr : List Arrival), domUp s sl.val = true →
      exec (.hagilSlotTx sl arr) s = .next (slotTurn sl.val (foldS arr (fun a s => if chanSlice s (chKey false a.ch.val) == some sl.val then
        chanToFabric (chKey false a.ch.val) a.bytes a.eop a.bad s else s) s))) ∧
    (∀ (l : Fin 256) (f : HagilFrame), fabSync s l.val = true → laneNear s (256 + l.val) = false → laneLooped s (256 + l.val) = false →
      exec (.hagilFrameRx l f) s = .next (settle (hagilRx l.val f s))) ∧
    (∀ (l : Fin 256) (f : HagilFrame), fabSync s l.val = true → laneLooped s (256 + l.val) = true →
      exec (.hagilFrameRx l f) s = .next (settle (hagilRx l.val f { s with fabTx := tmod s.fabTx {} l.val (fun x => { x with last := some f }) }))) ∧
    (∀ (ch : Fin 16384) (k : Nat) (x : Chan), k = chKey true ch.val → tget? s.chan k = some x → seqDue s.now x.rx = true →
      exec (.seqSkipTimeout (.leaf ch)) s = .next (settle (updChan k (fun c => (seqSkip x.rx).1.foldl (fun c i => leafItem i c) (seqCount { gap := 1 } { c with rx := (seqSkip x.rx).2 })) s))) ∧
    (∀ (n : Fin 1048576) (x : Queue), queueAt s n.val = some x → seqDue s.now x.rx = true →
      exec (.seqSkipTimeout (.queue n)) s = .next (settle (foldS (seqSkip x.rx).1 (queueItem n.val) (updQ n.val (fun q => { q with rx := (seqSkip x.rx).2 }) s)))) ∧
    (∀ (eg : Bool) (ch : Fin 16384) (k g t : Nat) (x d : Chan), k = chKey eg ch.val → tget? s.chan k = some x → cVcg x.words = some g →
      x.dnuSince = some t → chanAt s eg g = some d → ownDecides s = true → cLcas d.words = true → t + cWtr d.words * 1000000000 ≤ s.now →
      exec (.lcasWtrExpiry eg ch) s = .next (settle (updChan k (fun c => { c with dnuSince := none, lcas := { c.lcas with ok := true } }) (sendDecision s)))) ∧
    (∀ (sl : Fin 32) (g : Fin 2),
      exec (.flexeCrAck sl g) s = .next { s with flex := tupd s.flex (flexKey sl.val g.val) (fun g => { g with switching := g.switching.map (fun x => (x.1, x.2.1, true)) }) }) ∧
    (∀ (sl : Fin 32) (g : Fin 2) (k t : Nat) (cal : Nat) (x : FlexGroup), k = flexKey sl.val g.val → tget? s.flex k = some x →
      x.switching = some (cal, t, true) → ownDecides s = true →
      exec (.flexeCalendarSwitch sl g) s = .next (settle (evtFlexe k 0 (flexSwitched k cal (sendDecision s))))) ∧
    (∀ (sl : Fin 32) (g : Fin 2) (k t : Nat) (cal : Nat) (x : FlexGroup), k = flexKey sl.val g.val → tget? s.flex k = some x →
      x.switching = some (cal, t, false) → t ≤ s.now →
      exec (.flexeAckTimeout sl g) s = .next (evtFlexe k 9 { s with flex := tupd s.flex k (fun g => { g with switching := none }) })) ∧
    (∀ (l : Fin 256) (f : HagilFrame), laneNear s (256 + l.val) = true → exec (.hagilFrameRx l f) s = .next (settle s))

/-! ### Events: monitoring and tests (05_defects_and_performance.md, 17_test_and_diagnostics.md) -/

/-- A failure is declared or cleared when its timer ends (R135); the one-second pulse closes a second (R33), which Prihegen evaluates once,
oldest first, and mirrors (R141). A PRBS checker locks and loses lock (R480), an eye scan ends with its points (R486), BIST ends (R487),
and the test access port steps on TCK and TRST_N (R489). -/
def Obligations.MonitorEventsComplete : Prop :=
  ∀ (s : State), 
    (∀ (a : Word) (b : Fin 20) (t : Nat), tget? (tget s.mon {} a.toNat).declAt b.val = some t → t ≤ pointUs s a.toNat →
      timerActs s a.toNat = true → exec (.failureDeclareExpiry a b) s = .next (failureAt a.toNat b.val true t s)) ∧
    (∀ (a : Word) (b : Fin 20) (t : Nat), tget? (tget s.mon {} a.toNat).clearAt b.val = some t → t ≤ pointUs s a.toNat →
      timerActs s a.toNat = true → exec (.failureClearExpiry a b) s = .next (failureAt a.toNat b.val false t s)) ∧
    (pulseDue s = true → exec .oneSecondPulse s = .next (settle (secondPulse s))) ∧
    (∀ (a : Word), (tget s.mon {} a.toNat).closed ≠ [] → mpRuns s = true → judgedByPartner s = false →
      exec (.pmSecondEvaluation a) s = .next (if mirrorsOut (evalSecond a.toNat s) then sendFrames 0x12 1 (evalSecond a.toNat s) else evalSecond a.toNat s)) ∧
    (∀ (t : PrbsTarget) (n e : Nat),
      exec (.prbsCheckerLock t n e) s = .next ({ s with test.prbs := tupd s.test.prbs (prbsTargetKey t) (fun x => if x.chk then prbsCount n e { x with lock := true } else x) })) ∧
    (∀ (t : PrbsTarget) (n e : Nat),
      exec (.prbsCheckerLockLoss t n e) s = .next { s with test.prbs := tupd s.test.prbs (prbsTargetKey t) (fun x => prbsUnlock (prbsCount n e x)) }) ∧
    (∀ (l : LaneId) (k n : Nat) (pts : List Nat) (x : Scan), k = laneKey l → tget? s.test.scans k = some x → x.running = true →
      n = eyeH x.setup * eyeV x.setup →
      exec (.eyeScanDone l pts) s = .next (raise 0x0D01 clsCompletion 0 0 (0x0D05 + 65536 * (laneKind k).1 + 16777216 * (laneKind k).2) 0 0 0
        { s with
          test.scans := tset s.test.scans k { x with
            running := false, done := true, points := (List.range n).map (fun i => min 65535 (pts.getD i (Config.freeNat (s.free + i)))) }
          free := s.free + n })) ∧
    (∀ (n first : Nat) (multi : Bool), exec (.bistDone n multi first) s = .next (settle (bistDone n multi first s))) ∧
    (∀ (tms tdi : Bool), exec (.jtagTckEdge true tms tdi) s = .next (tckRise tms tdi s)) ∧
    (∀ (tms tdi : Bool), exec (.jtagTckEdge false tms tdi) s = .next (tckFall s)) ∧
    (exec .trstNAssert s = .next ({ s with test.jtag := { s.test.jtag with tap := .reset, ir := 1, tdo := none } }))

/-! ### Events: Braid (07_braid_groups.md) -/

/-- A Braid group takes a BGO and a stitch slot of a member that is up (R194, R200), forms, reads and switches rounds (R197, R203, R205),
and its members' timers end: an addition no announced change completes, the wait to restore, the delay of a side that is alone, a
withdrawal, a client without data and a member without a BGO (R200, R202, R206 to R209). -/
def Obligations.BraidEventsComplete : Prop :=
  ∀ (s : State) (g : Fin 256) (i : Fin 64) (tx : Bool) (m : Member), 
    (∀ (bgo : List Byte) (ts : Nat), memberUp s g.val i.val = true → exec (.bgoAccept g i bgo ts) s = .next (settle (bgoAccept g.val i.val bgo ts s))) ∧
    (∀ (bs : List Byte), memberUp s g.val i.val = true → exec (.stitchSlotRx g i bs) s = .next (settle (stitchRx g.val i.val bs s))) ∧
    (∀ (r : EngineRead 256), exec (.braidRoundRead r) s = .next (settle (roundRead r.id.val (r.ue.map (·.val)) s))) ∧
    (∀ (r : EngineRead 256), exec (.braidRoundFormed r) s = .next (settle (roundFormed r.id.val (r.ue.map (·.val)) s))) ∧
    (switchDue s g.val tx = true → exec (.braidSwitchRound g tx) s = .next (settle (if tx then txSwitch g.val s else rxSwitch g.val s))) ∧
    (∀ (t : Nat), (sideOf s g.val tx).bind (fun d => memberOf d i.val) = some m → m.adding = true → m.until_ = some t → t ≤ s.now →
      m.pendWork ≠ some true → exec (.braidAddTimeout g tx i) s = .next (settle (evtMemberGone g.val tx m (dropMember g.val tx i.val s)))) ∧
    (∀ (t : Nat), (sideOf s g.val true).bind (fun d => memberOf d i.val) = some m → m.wtrUntil = some t → t ≤ s.now → m.far = true →
      m.st = .adding → m.replaced = false → txSliceUp s m = true →
      exec (.braidMemberWtrExpiry g i) s = .next (settle (txRequest g.val i.val true (updMember g.val true i.val (fun m => { m with wtrUntil := none }) s)))) ∧
    (∀ (t : Nat), (sideOf s g.val true).bind (fun d => memberOf d i.val) = some m → m.wtrUntil = some t → t ≤ s.now → m.far = true →
      m.st = .adding → m.replaced = true → txSliceUp s m = true →
      exec (.braidMemberWtrExpiry g i) s = .next (settle (evtMemberNow g.val true i.val 0 false (updMember g.val true i.val (fun m => { m with st := .spare, replaced := false })
        (updMember g.val true i.val (fun m => { m with wtrUntil := none }) s))))) ∧
    (∀ (t : Nat), (sideOf s g.val true).bind (fun d => memberOf d i.val) = some m → m.soloAt = some t → t ≤ s.now → m.removing = true →
      exec (.braidSoloSideDelay g true i) s = .next (settle (txRemove g.val i.val (updMember g.val true i.val (fun m => { m with soloAt := none }) s)))) ∧
    (∀ (t : Nat), (sideOf s g.val true).bind (fun d => memberOf d i.val) = some m → m.soloAt = some t → t ≤ s.now → m.removing = false →
      m.adding = true →
      exec (.braidSoloSideDelay g true i) s = .next (settle (farChange g.val i.val true (updMember g.val true i.val (fun m => { m with soloAt := none }) s)))) ∧
    (∀ (t : Nat), (sideOf s g.val true).bind (fun d => memberOf d i.val) = some m → m.withdrawAt = some t → t ≤ s.now →
      exec (.braidMemberWithdrawn g i) s = .next (settle (dropMember g.val true i.val s))) ∧
    (∀ (x : Client) (t : Nat), (sideOf s g.val false).bind (fun d => d.clients.find? (fun c => c.cidx == i.val)) = some x → x.ssf = false →
      x.lastData = some t → t + 1000000 ≤ s.now →
      exec (.braidClientDataTimeout g i) s = .next (settle (updClient g.val false i.val (fun c => { c with ssf := true }) s))) ∧
    (∀ (t : Nat), (sideOf s g.val false).bind (fun d => memberOf d i.val) = some m → m.bgoAt = some t →
      t + 3 * subPeriod s false m ≤ s.now →
      exec (.bgoAbsence g i) s = .next (settle (updMember g.val false i.val (fun m => { m with bgoAt := none }) s)))

/-! ### Events: queues, protection and Welt (08_queue_pool.md, 09_welt_and_line_protection.md) -/

/-- A host queue takes a word (R232), a flush takes effect (R240), the queue that is served gives a cell (R243) and a scrubbed cell with an
uncorrectable error whose descriptor holds is marked BAD and reported (R246, R254). The timers of a protection group end (R263, R265,
R266); a Welt pair accepts WSOs (R272), declares a copy absent (R275), plays out, in ACQUIRE a block of ODU-AIS (R276, R277), anchors and
realigns (R277). -/
def Obligations.PoolEventsComplete : Prop :=
  ∀ (s : State), 
    (∀ (n : Fin 1048576) (bs : List Byte) (first last bad : Bool) (x : Queue), queueAt s n.val = some x → leafWrites s x = true →
      exec (.writerWord n bs first last bad) s = .next (settle (writeWord n.val (bs.take 32) first last bad s))) ∧
    (∀ (n : Fin 1048576) (bs : List Byte) (first last bad : Bool) (x : Queue), queueAt s n.val = some x → leafWrites s x = false →
      x.owner = 2 → weltTakes s n.val = true →
      exec (.writerWord n bs first last bad) s = .next (settle (flushPending n.val (streamPut ((bs.take 32).length + 2) n.val (bs.take 32) s)))) ∧
    (∀ (n : Fin 1048576) (x : Queue) (t : Nat), queueAt s n.val = some x → x.flushAt = some t → (t ≤ s.now ∨ x.partialBytes = []) →
      exec (.flushTakesEffect n) s = .next (settle (takeFlush n.val s))) ∧
    (∀ (n : Fin 1048576) (ue : Bool) (x : Queue), queueAt s n.val = some x → x.owner = 0 → readerReady s x = true → qPkt x = false →
      exec (.queueRead n ue) s = .next (settle (readStreamCell n.val ue s))) ∧
    (∀ (n : Fin 1048576) (ue : Bool) (x : Queue) (k : Nat), queueAt s n.val = some x → x.owner = 0 → readerReady s x = true →
      qPkt x = true → x.items ≠ 0 → setOf x = some k → (schedPick k s).1 = some n.val →
      exec (.queueRead n ue) s = .next (settle (readPacketCell n.val ue (schedPick k s).2))) ∧
    (∀ (n : Fin 1048576) (ue : Bool) (x : Queue), queueAt s n.val = some x → x.owner = 0 → readerReady s x = true → qPkt x = true →
      x.items ≠ 0 → setOf x = none → exec (.queueRead n ue) s = .next (settle (readPacketCell n.val ue s))) ∧
    (∀ (cell : Fin 503316480), mpRuns s = true → (allocSet s).contains (cell.val % 64) = true → cell.val / 64 ≠ 7864319 →
      exec (.patrolScrub cell true) s = .next (settle (scrubCell cell.val s))) ∧
    (∀ (cell : Fin 503316480), mpRuns s = true → cell.val / 64 = 7864319 → (allocSet s).contains (cell.val % 64) = true →
      (allocSet s).getLast? = some (cell.val % 64) →
      exec (.patrolScrub cell false) s = .next (settle { s with pool.scrubPasses := s.pool.scrubPasses + 1 })) ∧
    (∀ (cell : Nat) (e : Nat × Queue), s.pool.q.find? (fun e => e.2.chain.contains cell) = some e →
      (e.2.chain.getLast? ≠ some cell ∨ e.2.partialBytes = []) → descOk s e.2 cell false = true → scrubCell cell s =
        modDesc cell (fun h => if h / 256 % 2 = 1 then h else h + 256) (ueSeen cell s)) ∧
    (∀ (g : Fin 2048) (k : Fin 4) (x y : Prot) (t : Nat), tget? s.prot g.val = some x → tget? x.hold k.val = some t → t ≤ s.now →
      y = { x with hold := tdel x.hold k.val } →
      exec (.holdOffExpiry g k) s = .next (settle { s with prot := tset s.prot g.val (if reqBit k.val true x then setReq k.val false true y else y) })) ∧
    (∀ (g : Fin 2048) (x : Prot) (t : Nat), tget? s.prot g.val = some x → x.wtrUntil = some t → t ≤ s.now → ownDecides s = true →
      exec (.protWtrExpiry g) s = .next (settle { s with prot := tset s.prot g.val { x with wtrUntil := none } })) ∧
    (∀ (g : Fin 2048) (x : Prot) (t : Nat), tget? s.prot g.val = some x → x.nrSince = some t → x.fopNr = false → t + 50000000 ≤ s.now →
      exec (.fopNrTimer g) s = .next (settle (evtProtFop g.val false true true { s with prot := tset s.prot g.val { x with fopNr := true } }))) ∧
    (∀ (w : Fin 4096) (n : Fin 2) (reps : List (List Byte)) (st : BitVec 64) (fr : BitVec 16) (ended : Bool) (x : Welt) (sl : Nat), tget? s.welt w.val = some x →
      domUp s 34 = true → chanSlice s (chKey false (copyOf x (n.val == 1)).ch) = some sl → domUp s sl = true →
      exec (.wsoAccept w n reps st fr ended) s = .next (settle (wsoAccept w.val (n.val == 1) reps (st.toNat * 65536 + fr.toNat) ended s))) ∧
    (∀ (w : EngineRead 4096) (x : Welt) (t : Nat), tget? s.welt w.id.val = some x → x.st = .run → domUp s 34 = true → x.playAt = some t →
      t ≤ devFine s → exec (.weltPlayout w) s = .next (settle (weltPlayout w.id.val (w.ue.map (·.val)) s))) ∧
    (∀ (w : EngineRead 4096) (x : Welt), tget? s.welt w.id.val = some x → x.st = .acquire → domUp s 34 = true →
      exec (.weltPlayout w) s = .next (settle (weltOut w.id.val aisBlock s))) ∧
    (∀ (w : Fin 4096) (n : Fin 2) (b : Bool) (x : Welt), tget? s.welt w.val = some x → b = (n.val == 1) →
      copySilent (blockPeriod (weltRate s x)) s.now (copyOf x b) = true →
      exec (.weltAbsentTimer w n) s = .next (settle (setCopyState w.val b .absent (updWelt w.val (modCopy b (silenced (blockPeriod (weltRate s x)) s.now)) s)))) ∧
    (∀ (w : Fin 4096) (x : Welt) (t : Nat), tget? s.welt w.val = some x → x.firstAt = some t → x.st = .acquire →
      t + (windowFine x - tDec (weltRate s x)) / 65536 ≤ s.now → exec (.weltAcquireTimer w) s = .next (settle (weltAnchor w.val s))) ∧
    (∀ (w : Fin 4096) (x : Welt) (t : Nat), tget? s.welt w.val = some x → x.noInSince = some t → x.st = .run → t + 1000000000 ≤ s.now →
      (x.c0.lastAt.isSome = true ∨ x.c1.lastAt.isSome = true) → exec (.weltNoCopyIn w) s = .next (settle (weltRealign w.val s))) ∧
    (∀ (w : Fin 4096) (x : Welt) (t : Nat), tget? s.welt w.val = some x → x.rangeSince = some t → x.st = .run → x.auto = true →
      x.range = true → t + 10000000000 ≤ s.now → (x.c0.st = .isIn ∨ x.c1.st = .isIn) →
      exec (.weltRealignAuto w) s = .next (settle (weltRealign w.val s)))

/-! ### Events: the timing core (10_timing_core.md, 11_temper_chain.md) -/

/-- A written time is taken at the whole-second crossing, its sub-second phase kept (R309); the second boundary and the pulse reference are
measured (R297, R308); candidates lose activity, jump and end their waits (R290, R292, R293); a DPLL locks, loses lock and completes a
switch (R299, R303); the OCXO qualifies and is lost (R289); outputs give their edges and restart; the loops, the front ends, the fades and
the spread adjustments run at their instants (R331, R329, R341). -/
def Obligations.TimingEventsComplete : Prop :=
  ∀ (s : State), 
    (s.tmc.waitingTime = none → exec .wholeSecondCrossing s = .next (s)) ∧
    (∀ (v : Nat) (t : State), s.tmc.waitingTime = some v → tmcRuns s = true → (pulseDue s = true ∨ devNs s % 1000000000 ≤ 5) →
      t = { (if pulseDue s then secondPulse s else s) with tmc.waitingTime := none } → devSec t * 1000000000 ≠ v →
      exec .wholeSecondCrossing s = .next (settle (finishWaiting (fun k => k == .timeSet) .ok [] (stepTime (v * 2 ^ 48 + t.tmc.dt.toNat % (1000000000 * 2 ^ 48)) t)))) ∧
    (∀ (v : Nat) (t : State), s.tmc.waitingTime = some v → tmcRuns s = true → (pulseDue s = true ∨ devNs s % 1000000000 ≤ 5) →
      t = { (if pulseDue s then secondPulse s else s) with tmc.waitingTime := none } → devSec t * 1000000000 = v →
      exec .wholeSecondCrossing s = .next (settle (finishWaiting (fun k => k == .timeSet) .ok [] t))) ∧
    (∀ (x : Fin 8) (sub : Fin 327680), exec (.pulseReferenceEdge x sub) s = .next (settle (pulseIn x.val sub.val s))) ∧
    (∀ (n : Fin 20) (t : Nat), (outOf s n.val).restartUntil = some t →
      exec (.clkoutRestart n) s = .next (gateSettle (modOut n.val (fun o => { o with restartUntil := none, run := o.words, turn := none }) s))) ∧
    (∀ (k : Fin 4), exec (.pulseEdge k) s = .next (pulseEdge (16 + k.val) s)) ∧
    (∀ (l : SecondMeas), exec (.tmcSecondBoundary l) s = .next (settle (secondBoundary l s))) ∧
    (∀ (x : Fin 42), candOn (candOf s x.val) = true → (candOf s x.val).activity = true →
      exec (.candidateActivityLoss x) s = .next (settle (candFault x.val 1 (modCand x.val (fun x => { x with activity := false, actLost := true }) s)))) ∧
    (∀ (x : Fin 42) (phase : Int), candOn (candOf s x.val) = true → cPjThr (candOf s x.val) ≠ 0 →
      65536 * cPjThr (candOf s x.val) < departure s x.val phase →
      exec (.candidatePhaseJump x phase) s = .next (settle (candFault x.val 3 s))) ∧
    (∀ (x : Fin 42) (t : Nat), (candOf s x.val).st = .waiting → (candOf s x.val).timerUntil = some t → t ≤ s.now →
      (candOf s x.val).activity = true → (candOf s x.val).off1.natAbs ≤ cAccept (candOf s x.val) →
      exec (.candidateWaitExpiry x) s = .next (settle (evtRef x.val 4 (modCand x.val (fun x => { x with st := .qualified, timerUntil := none, timerLeft := 0 }) s)))) ∧
    (∀ (d : Fin 4) (t : Nat), (dpllOf s d.val).st = .locking → (dpllOf s d.val).valid = true → (dpllOf s d.val).lockSince = some t →
      t + 2000000000 ≤ s.now → exec (.dpllLockDetect d) s = .next (settle (enterState d.val .locked s))) ∧
    (∀ (d : Fin 4) (t : Nat), (dpllOf s d.val).st = .locked → (dpllOf s d.val).valid = true → (dpllOf s d.val).lossSince = some t →
      t + 1000000000 ≤ s.now → exec (.dpllLockLoss d) s = .next (settle (enterState d.val .locking s))) ∧
    (∀ (d : Fin 4) (phi : Int), exec (.switchCompletion d phi) s = .next (settle (switchDone d.val phi s))) ∧
    (∀ (t : Nat), s.tmc.ocxoCfg ≠ 0 → s.tmc.ocxoActive = false → s.tmc.ocxoSince = some t → t + 60000000000 ≤ s.now →
      exec .ocxoQualify s = .next (raise 0x0904 clsState 0 0 1 0 0 0 { s with tmc.ocxoActive := true })) ∧
    (s.tmc.ocxoCfg ≠ 0 → exec .ocxoDisqualify s = .next { ocxoLost s with tmc.ocxoSince := some s.now }) ∧
    (∀ (d : Fin 4) (sub : Fin 327680), exec (.loopUpdate d sub) s = .next (loopUpdate d.val sub.val s)) ∧
    (∀ (l : List TdcRun), exec (.frontSample l) s = .next (candTimers (frontSample (l.map (fun h => (h.c.val, h.xs))) s))) ∧
    (∀ (x : Fin 42), exec (.fadeComplete x) s = .next (fadeComplete x.val s)) ∧
    (∀ (d : Fin 4) (r : Spread), (dpllOf s d.val).spread = some r → r.start + r.len ≤ s.now →
      exec (.phaseAdjSpreadEnd d) s = .next (dcoSettle (modDpll d.val (fun x => { x with spread := none }) s)))

/-! ### Events: the twin (12_twin_pair.md) -/

/-- What an arrival from the partner brings (R368, R370, R380). -/
def mirrorArrival (i : Instr) : Option MirrorFrame :=
  match i with
  | .mirrorTransactionRx num cmds => some (.txn num cmds)
  | .preparedRx ok => some (.prepared ok)
  | .commitRx t => some (.commit t)
  | .commitAckRx => some .commitAck
  | .decisionFrameRx dec => some (.decision dec)
  | .snapshotFrameRx addr j => some (.snapshot addr j)
  | .resyncStart cfg => some (.config cfg)
  | .resyncReady bins => some (.bins bins)
  | .histSyncComplete pm tim => some (.history pm tim)
  | _ => none

/-- Heartbeats go out and arrive or are lost (R356, R357), the claim line moves the role (R353, R358), a handover, a yield and a fault of
arbitration end (R358, R363, R365), the link comes and goes (R355). What arrives from the partner waits while the MP is not running (R17,
R20); else a transaction is checked, prepared, committed, acknowledged and applied at T_apply or times out (R368, R369); the standby takes
decisions and snapshots of its partner (R370) and cross-fed content (R29, R373), and is resynchronised (R380). -/
def Obligations.TwinEventsComplete : Prop :=
  ∀ (s : State), 
    (s.twin.run = true → s.twin.role ≠ .out → s.twin.role ≠ .yield → s.twin.hbNextAt ≤ s.now → exec .heartbeatTimer s = .next (sendHeartbeat s)) ∧
    (∀ (h : Heartbeat), exec (.heartbeatRx h) s = .next (settle (heartbeatRx h s))) ∧
    (∀ (t : State), s.twin.run = true → t = heartbeatSeen { s with twin.hbxOk := true, twin.hbxAt := some s.now } →
      exec .hbxEdge s = .next (settle (if s.twin.hbxOk then t else evtPartner 2 t))) ∧
    (∀ (t : Nat), s.twin.run = true → s.twin.vhbOk = true → s.twin.vhbAt = some t → t + 50000 ≤ s.now →
      exec .varricHeartbeatLoss s = .next (settle (heartbeatLost { s with twin.vhbOk := false }))) ∧
    (∀ (t : Nat), s.twin.run = true → s.twin.hbxOk = true → s.twin.hbxAt = some t → t + 50000 ≤ s.now →
      exec .hbxHeartbeatLoss s = .next (settle (heartbeatLost { s with twin.hbxOk := false }))) ∧
    (∀ (t : State), s.twin.run = true → t = { s with twin.arbAsserted := false } →
      exec .arbClaimReleased s = .next (settle (arbFaultStep (arbOpen t) (claimCheck (lostTimer t))))) ∧
    (∀ (t u : State), s.twin.run = true → t = { s with twin.arbAsserted := true } →
      u = arbFaultStep (t.twin.arbFault && bothLost t) (lostTimer t) → (u.twin.role = .startup ∨ u.twin.role = .claimWait) →
      exec .arbClaimAsserted s = .next (settle (setRole .standby 11 u))) ∧
    (∀ (t u : State), s.twin.run = true → t = { s with twin.arbAsserted := true } →
      u = arbFaultStep (t.twin.arbFault && bothLost t) (lostTimer t) → u.twin.role = .yield →
      exec .arbClaimAsserted s = .next (settle (finishWaiting isSwitch .ok [] (setRole .standby 4 u)))) ∧
    (∀ (t : Nat), s.twin.run = true → s.twin.role = .claimWait → s.twin.claimUntil = some t → t ≤ s.now → s.twin.arbAsserted = false →
      exec .claimDelayExpiry s = .next (settle (setRole .active (if s.twin.claimFromStandby then 1 else 2) s))) ∧
    (∀ (t : Nat), s.twin.run = true → s.twin.role = .claimWait → s.twin.claimUntil = some t → t ≤ s.now → s.twin.arbAsserted = true →
      exec .claimDelayExpiry s = .next (settle (setRole .standby 11 s))) ∧
    (∀ (t : Nat) (h : Heartbeat), s.twin.run = true → s.twin.accepted = some t → s.twin.role = .standby → t ≤ devFine s →
      s.twin.hbSent = some h → h.ack = true → exec .handoverAtReached s = .next (settle (sendHeartbeat (setRole .active 3 s)))) ∧
    (∀ (t : Nat), s.twin.run = true → s.twin.handoverAt = some t → s.twin.role = .handover → t + 9000 * 65536 ≤ devFine s →
      s.twin.seenActive = true → exec .handoverRelease s = .next (settle (finishWaiting isSwitch .ok [] (setRole .standby 3 s)))) ∧
    (∀ (t : Nat), s.twin.run = true → s.twin.handoverAt = some t → s.twin.role = .handover → t + 9000 * 65536 ≤ devFine s →
      s.twin.seenActive = false → exec .handoverRelease s = .next (settle (finishWaiting isSwitch .timeout [] (setRole .active 3 s)))) ∧
    (∀ (t : Nat), s.twin.run = true → s.twin.role = .yield → s.twin.yieldUntil = some t → t ≤ s.now →
      exec .yieldTimeout s = .next (settle (if s.twin.arbAsserted then finishWaiting isSwitch .ok [] (setRole .standby 4 s) else finishWaiting isSwitch .timeout [] (setRole .active 4 s)))) ∧
    (s.twin.run = true → s.twin.role = .standby → lostLong s = true → s.twin.arbAsserted = true →
      exec .arbFaultTimer s = .next (settle (arbFaultStep true s))) ∧
    (s.twin.run = true → s.twin.linkUp = false → varricLanes s = true →
      exec .varricLinkUp s = .next (settle (evtPartner 1 { fedLanes false s with twin.linkUp := true }))) ∧
    (∀ (t : State), s.twin.linkUp = true → t = fedLanes true s → exec .varricLinkDown s = .next (settle (evtPartner 1 { t with
        twin.linkUp := false, twin.resynced := false, twin.resyncing := false, twin.histSync := false, twin.aligned := false
        twin.rxTxn := if t.twin.rxApply.isSome then t.twin.rxTxn else [], twin.rxPrepared := false, twin.hbTimes := [], twin.partnerSt := if bothLost t then 0 else 1 }))) ∧
    (∀ (p : Fin 256) (x : Xfeed) (t : State), s.twin.linkUp = true → thas s.port p.val = true → homingOf s p.val ≠ 0 →
      domUp s (p.val / 8) = true → t = { s with twin.xfed := tset s.twin.xfed p.val x.bytes } →
      exec (.xfeedFrameRx p x) s = .next (settle (if portFed t p.val then foldS (x.found.filter (fun a => rootPort t treeDepth (chKey false a.ch.val) == some p.val))
        (fun a => chanToFabric (chKey false a.ch.val) a.bytes a.eop a.bad) t else t))) ∧
    (∀ (i : Instr) (f : MirrorFrame), mirrorArrival i = some f → mpRuns s = false →
      exec i s = .next (settle { s with twin.mirrorHeld := s.twin.mirrorHeld ++ [f] })) ∧
    (∀ (dl : Nat), mpRuns s = true → s.twin.commit = .prepared dl → s.now ≤ dl →
      exec (.preparedRx true) s = .next (settle (sendFrames 0x11 1 { s with twin.commit := .ack ((devNs s + 500000 + 99999) / 100000 * 100000) }))) ∧
    (∀ (dl : Nat), mpRuns s = true → s.twin.commit = .prepared dl → s.now ≤ dl →
      exec (.preparedRx false) s = .next (settle (finishWaiting (· == .commit) .wrongState [] (evtPartner 5 { s with twin.commit := .none, twin.commitLen := 0 })))) ∧
    (∀ (t : Nat), mpRuns s = true → s.twin.commit = .ack t → devNs s + 100000 < t →
      exec .commitAckRx s = .next (settle { s with twin.commit := .apply t })) ∧
    (∀ (dl : Nat), mpRuns s = true → s.twin.commit = .prepared dl → dl < s.now →
      exec .twinCommitTimeout s = .next (settle (finishWaiting (· == .commit) .timeout [] { s with twin.commit := .none, twin.commitLen := 0 }))) ∧
    (∀ (t : Nat), mpRuns s = true → s.twin.commit = .ack t → t ≤ devNs s + 100000 →
      exec .twinCommitTimeout s = .next (settle (finishWaiting (· == .commit) .timeout [] { s with twin.commit := .none, twin.commitLen := 0 }))) ∧
    (∀ (t : Nat), mpRuns s = true → s.twin.run = true → s.twin.linkUp = true → s.twin.role = .standby → s.twin.rxPrepared = true →
      exec (.commitRx t) s = .next (settle (sendFrames 0x11 1 { s with twin.rxPrepared := false, twin.rxApply := some t }))) ∧
    (∀ (dec : Decision), mpRuns s = true → followsPartner s = true → exec (.decisionFrameRx dec) s = .next (settle (decided dec s))) ∧
    (∀ (a : Word) (j : Snapshot), mpRuns s = true → followsPartner s = true → pmPoint a.toNat = true →
      exec (.snapshotFrameRx a j) s = .next (settle (snapshotRx a.toNat j s))) ∧
    (∀ (bins : List PmCopy) (t : State), mpRuns s = true → s.twin.resyncing = true → s.twin.role = .standby → t = bins.foldl pmCopy s →
      exec (.resyncReady bins) s = .next (settle (evtPartner 4 { t with twin.resyncing := false, twin.resynced := true }))) ∧
    (∀ (pm : List PmHistCopy) (tim : List TimingCopy) (n : Nat), mpRuns s = true → s.twin.linkUp = true → s.twin.paired = true →
      s.twin.resyncAt = some n → s.twin.histSync = false → s.twin.role = .standby →
      exec (.histSyncComplete pm tim) s = .next (settle (evtPartner 4 { tim.foldl timingCopy (pm.foldl pmHistCopy s) with twin.histSync := true, twin.resyncAt := none }))) ∧
    (∀ (n : Word) (cmds : List TxnCmd) (t : State), mpRuns s = true → s.twin.run = true → s.twin.linkUp = true → s.twin.paired = true →
      s.twin.role = .standby → (n ≠ s.twin.txn + 1 ∨ s.twin.rxApply.isSome = true) → t = sendFrames 0x11 1 s →
      exec (.mirrorTransactionRx n cmds) s = .next (settle (evtPartner 5 { t with twin.resynced := false, twin.rxTxn := if t.twin.rxApply.isSome then t.twin.rxTxn else [], twin.rxPrepared := false }))) ∧
    (∀ (n : Word) (cmds : List TxnCmd) (l : List Staged) (t : State), mpRuns s = true → s.twin.run = true → s.twin.linkUp = true → s.twin.paired = true → s.twin.role = .standby →
      n = s.twin.txn + 1 → s.twin.rxApply = none → l = cmds.map (fun e => { code := e.code.toNat, req := e.req }) →
      (l.foldl (fun (a : Bool × State) e => let r := txnBody e a.2; (a.1 && r.1, r.2)) (true, s)).1 = true → t = sendFrames 0x11 1 s →
      exec (.mirrorTransactionRx n cmds) s = .next (settle { t with twin.rxTxn := l, twin.rxTxnNum := n, twin.rxPrepared := true })) ∧
    (∀ (t : Nat), mpRuns s = true → s.twin.commit = .apply t → t ≤ devNs s → (applyActive t s).twin.rxApply = none →
      exec .tApplyReached s = .next (settle (applyActive t s))) ∧
    (∀ (t : Nat), mpRuns s = true → (∀ x, s.twin.commit ≠ .apply x) → s.twin.rxApply = some t → t ≤ devNs s →
      exec .tApplyReached s = .next (settle { foldS s.twin.rxTxn (fun e u => let r := txnBody e u
        if !r.1 then u else if e.req.length = 515 then bankJournal (wd e.req 0).toNat r.2 else journalAdd e.code e.req r.2) s with twin.txn := s.twin.rxTxnNum, twin.tApply := t, twin.rxTxn := [], twin.rxApply := none })) ∧
    (∀ (l : List TxnCmd) (t : State), mpRuns s = true → s.twin.run = true → resyncDue s = true →
      t = resyncApply ((l.map (fun e => ({ code := e.code.toNat, req := e.req } : JEntry))).filter (fun e => !(localEntry e))) s →
      exec (.resyncStart l) s = .next (settle { t with twin.resyncing := true, twin.resyncs := t.twin.resyncs + 1, twin.resyncAt := some t.now, twin.histSync := false })) ∧
    (∀ (l : List TxnCmd) (t : State), mpRuns s = true → s.twin.run = true → resyncDue s = false → resyncDueActive s = true →
      t = sendFrames 0x11 1 s →
      exec (.resyncStart l) s = .next (settle { t with twin.resyncing := true, twin.resyncs := t.twin.resyncs + 1, twin.resyncAt := some t.now, twin.histSync := false }))

/-! ### Events: fault collection and firmware (13_fault_collection.md, 14_host_interface_and_firmware.md) -/

/-- The fault collector takes a source's event and its path fault and recovery (R384, R386), ends windows, graces, delays, arming, quiesce
masks and the FAULT_N pulse at their ticks (R385, R387 to R389, R391, R392), and exercises and injects (R396, R404). An erase and a check
of the staged slot end (R429), an activation takes or falls back (R431), and the journal moves on a sector. -/
def Obligations.FaultEventsComplete : Prop :=
  ∀ (s : State) (a : Fin 4096), 
    (fcRuns s = true → injecting s a.val 1 = none → exec (.faultSourceEvent a .real) s = .next (settle (classify a.val s))) ∧
    (∀ (i : Inject) (t : State), fcRuns s = true → injecting s a.val 1 = some i → srcGroup a.val ≠ some 19 → t = injectCount i 1 0 0 s →
      exec (.faultSourceEvent a .inj) s = .next (settle (injectDone (if i.classify then classify a.val t else t)))) ∧
    (fcRuns s = true → srcUp s a.val = true → (srcGroup a.val).isSome = true → (srcOf s a.val).railsEqual = false →
      injecting s a.val 2 = none →
      exec (.railPathFault a) s = .next (settle (raisePath a.val (modSrc a.val (fun x => { x with railsEqual := true, path := true }) s)))) ∧
    (exec (.railPathRecovery a) s = .next (modSrc a.val (fun x => { x with railsEqual := false }) s)) ∧
    (∀ (g : Fin 20), exec (.faultWindowEnd g) s = .next ({ s with fault.src := s.fault.src.map (fun (e : Nat × Src) =>
        (e.1, if srcGroup e.1 = some g.val ∧ e.2.winKey ≠ winKeyNow s g.val then { e.2 with win := 0 } else e.2)) })) ∧
    (∀ (t : State), t = (if (sourceDue s a.val).isEmpty || fatalSet s then s else runDue (4 * s.fault.src.length) s) →
      exec (.faultGraceExpiry a) s = .next (settle t) ∧ exec (.twinFirstDelay a) s = .next (settle t)) ∧
    (∀ (n b k : Nat), nextDue s = some (b, k) → runDue (n + 1) s = runDue n (timerExpiry b k s)) ∧
    (timerExpiry a.val 3 s = groupAction a.val (modSrc a.val (fun x => { x with twinAt := none }) s)) ∧
    (∀ (t : Nat), (srcOf s a.val).armedUntil = some t → t ≤ s.now →
      exec (.armedExpiry a) s = .next (modSrc a.val (fun x => { x with armedUntil := none }) s)) ∧
    (∀ (t : Nat), (srcOf s a.val).maskUntil = some t → t ≤ s.now →
      exec (.quiesceMaskEnd a) s = .next (modSrc a.val (fun x => { x with maskUntil := none }) s)) ∧
    (∀ (t : Nat), s.fault.pulseUntil = some t → t ≤ s.now → exec .faultNPulseEnd s = .next { s with fault.pulseUntil := none }) ∧
    (∀ (seen : Option CheckObs) (t : State) (r : Bool × State), mpRuns s = true → (srcOf s a.val).exerciseAt ≤ s.now → exerciseSkips s a.val = false →
      t = modSrc a.val (fun x => { x with exerciseAt := s.now + 10000000000 }) s → r = exerciseCheck a.val seen t →
      exec (.checkerExercise a seen) s = .next (settle (if r.1 then r.2 else modSrc a.val (fun x => { x with retryAt := some (s.now + 1000000) }) r.2))) ∧
    (∀ (seen : Option CheckObs) (i : Nat) (t : State) (r : Bool × State), mpRuns s = true → (srcOf s a.val).retryAt = some i → i ≤ s.now →
      t = modSrc a.val (fun x => { x with retryAt := none }) s → exerciseSkips t a.val = false → r = exerciseCheck a.val seen t →
      exec (.exerciseRetry a seen) s = .next (settle (if r.1 then r.2 else raiseSilent a.val (modSrc a.val (fun x => { x with silent := true }) r.2)))) ∧
    (exerciseCheck a.val none s = (false, s)) ∧
    (exerciseCheck a.val (some .inj) s = (true, modSrc a.val (fun x => { x with inj := x.inj + 1 }) s)) ∧
    (∀ o, o ≠ .inj → exerciseCheck a.val (some o) s = if checkerKind a.val = .ecc
        then (true, classify a.val (modSrc a.val (fun x => { x with inj := x.inj + 1, realInj := x.realInj + 1 }) s))
        else (false, modSrc a.val (fun x => { x with missed := x.missed + 1 }) s)) ∧
    (
      exec .faultInjectTimeout s = .next (settle (injectDone { s with fault.inject := s.fault.inject.map (fun i => if i.until_ ≤ s.now then { i with left := 0 } else i) }))) ∧
    (∀ (ok : Bool) (k : Nat), s.fw.erasing = true → k = stageSlot s →
      exec (.fwEraseDone ok) s = .next (evtFw 0x11 { modSlot k (fun x => { x with staged := if ok then max 1 x.staged else 0 }) s with fw.erasing := false, fw.lastResult := if ok then 0 else 6 })) ∧
    (∀ (k : Nat), s.fw.checking = true → k = stageSlot s → s.fw.wrote = false → imageCheck s.fw (slotOf s.fw k) = 0 →
      exec .fwCheckDone s = .next (evtFw 0x13 { modSlot k (fun x => { x with staged := 3 }) s with fw.checking := false, fw.lastResult := 0 })) ∧
    (∀ (k r : Nat), s.fw.checking = true → k = stageSlot s → r = imageCheck s.fw (slotOf s.fw k) → r ≠ 0 →
      exec .fwCheckDone s = .next (evtFw 0x13 { s with fw.checking := false, fw.lastResult := r })) ∧
    (∀ (x : Activation) (k : Nat) (t : State), s.fw.activation = some x → s.fw.state = 2 → k = 1 - x.prev →
      imageCheck s.fw (slotOf s.fw k) = 0 →
      t = { s with fw.running := slotHdr (slotOf s.fw k), fw.slot := k, fw.confirmed := false, fw.activation := none, fw.lastResult := 0 } →
      exec .activationReady s = .next (settle (mirrorResume (evtFw (0x20 + x.op) (mpBack (modSlot 0 (fun x => { x with staged := 0 }) (modSlot 1 (fun x => { x with staged := 0 }) t))))))) ∧
    (∀ (x : Activation) (r : Nat), s.fw.activation = some x → s.fw.state = 2 → r = imageCheck s.fw (slotOf s.fw (1 - x.prev)) →
      (r ≠ 0 ∨ x.at_ + 1800000000 ≤ s.now) →
      exec .activationFallback s = .next (evtFw (0x20 + x.op) { s with fw := { bootWrite x.prev true s.fw with confirmed := true, activation := none, lastResult := if r = 0 then 7 else r } })) ∧
    (mpRuns s = true → exec .journalCompaction s = .next { s with fw.journalSector := (s.fw.journalSector + 1) % 128 })

/-! ### Frames -/

/-- The events that touch the signal path, the host interface, the firmware's records, the twin logic or the timing core and nothing else; a
Braid round's, where no cell it reads proves uncorrectable. -/
def signalEvent (i : Instr) : Bool :=
  match i with
  | .eventDelivery | .msixVector0HoldoffEnd | .busViolationEventTimer | .cdrLockAcquired _ | .laneBufferSlip _ | .slipDlolExpiry _
  | .fasPatternMatch _ _ _ _ _ | .fasCandidateCheck _ _ _ _ _ | .rxFrame _ _ | .dlofDeclare _ _ | .dlofClear _ _ | .dloflaneDeclare _ _
  | .dloflaneClear _ _ | .dlomDeclare _ _ | .dlomClear _ _ | .flexoFrame _ _ _ _ _ _ | .pcsAlignmentMarker _ _ _ _ _ _
  | .gfpCoreHeader _ _ _ | .hagilHeader _ _ | .fabricCodeword _ _ | .txFrame _ _ | .gfpCmfTimer _ _ | .failureDeclareExpiry _ _
  | .failureClearExpiry _ _ | .pmSecondEvaluation _ | .lcasWtrExpiry _ _ | .braidSwitchRound _ _ | .braidAddTimeout _ _ _
  | .braidMemberWtrExpiry _ _ | .braidSoloSideDelay _ _ _ | .braidMemberWithdrawn _ _ | .braidClientDataTimeout _ _ | .bgoAbsence _ _
  | .flushTakesEffect _ | .queueRead _ _ | .wsoAccept _ _ _ _ _ _ | .weltAbsentTimer _ _ | .weltAcquireTimer _ | .weltNoCopyIn _
  | .weltRealignAuto _ | .holdOffExpiry _ _ | .protWtrExpiry _ | .fopNrTimer _ | .candidateActivityLoss _ | .candidatePhaseJump _ _
  | .candidateWaitExpiry _ | .dpllLockDetect _ | .dpllLockLoss _ | .switchCompletion _ _ | .ocxoQualify | .ocxoDisqualify | .fadeComplete _
  | .phaseAdjSpreadEnd _ | .pulseEdge _ | .clkoutRestart _ | .heartbeatTimer | .hbxEdge | .varricHeartbeatLoss | .hbxHeartbeatLoss
  | .arbClaimReleased | .arbClaimAsserted | .claimDelayExpiry | .handoverAtReached | .handoverRelease | .yieldTimeout | .varricLinkUp
  | .varricLinkDown | .arbFaultTimer | .preparedRx _ | .commitRx _ | .commitAckRx | .twinCommitTimeout | .snapshotFrameRx _ _
  | .xfeedFrameRx _ _ | .resyncReady _ | .histSyncComplete _ _ | .fwEraseDone _ | .fwCheckDone | .activationFallback | .journalCompaction
  | .mbxDoorbellRing _ | .evtRingEnable _ | .evtRingDisable _ | .evtRingHeadWrite _ _ | .violInfoRead | .unimplementedRead _ _
  | .unimplementedWrite _ _ _ | .busyMailboxWrite _ _ _ | .registerWrite _ _ _ | .bgoAccept _ _ _ _ | .loopUpdate _ _ | .frontSample _ => true
  | .braidRoundRead ⟨_, ue⟩ | .braidRoundFormed ⟨_, ue⟩ => ue == []
  | _ => false

/-- FRAME of these events: the queue and the time, the pins, start-up, power domains, block resets, tests, fabric transmitters, the PM clock,
FlexE group engines and every byte of the HBM stay as they are, and of the fault collector everything but what it counts and pulses for
the HBM's own sources (a cell or descriptor that is read and found bad, R381). -/
def Obligations.SignalEventFrame : Prop :=
  ∀ (i : Instr) (s t : State), signalEvent i = true → exec i s = .next t → Untouched s t

/-- The code and the words of the mailbox commands that touch no more than that. -/
def signalCommand (i : Instr) : Option (Nat × Mbx × List Word) :=
  match i with
  | .sysInfo m _ req => some (0x0101, m, req)
  | .sysEventMask m _ req => some (0x0105, m, req)
  | .sysViolationRead m _ req => some (0x0106, m, req)
  | .sysContinue m _ req => some (0x0107, m, req)
  | .portCreate m _ req => some (0x0203, m, req)
  | .portStatus m _ req => some (0x0205, m, req)
  | .alignConfig m _ req => some (0x0301, m, req)
  | .ohWrite m _ req => some (0x0303, m, req)
  | .ttiSet m _ req => some (0x0304, m, req)
  | .ttiRead m _ req => some (0x0305, m, req)
  | .defectRead m _ req => some (0x0401, m, req)
  | .defectConfig m _ req => some (0x0402, m, req)
  | .pmRead m _ req => some (0x0403, m, req)
  | .pmHistory m _ req => some (0x0405, m, req)
  | .chanCreate m _ req => some (0x0501, m, req)
  | .chanModify m _ req => some (0x0503, m, req)
  | .xcConnect m _ req => some (0x0504, m, req)
  | .xcDisconnect m _ req => some (0x0505, m, req)
  | .braidCreate m _ req => some (0x0601, m, req)
  | .braidMemberAdd m _ req => some (0x0602, m, req)
  | .braidMemberRemove m _ req => some (0x0603, m, req)
  | .braidStatus m _ req => some (0x0604, m, req)
  | .queueConfig m _ req => some (0x0701, m, req)
  | .queueCount m _ req => some (0x0702, m, req)
  | .queueFlush m _ req => some (0x0703, m, req)
  | .queueScan m _ req => some (0x0704, m, req)
  | .poolStatus m _ req => some (0x0705, m, req)
  | .protGroupCreate m _ req => some (0x0801, m, req)
  | .protCommand m _ req => some (0x0802, m, req)
  | .weltCreate m _ req => some (0x0804, m, req)
  | .weltStatus m _ req => some (0x0805, m, req)
  | .tmcSelect m _ req => some (0x0902, m, req)
  | .tmcStatus m _ req => some (0x0903, m, req)
  | .tmcDcoSteer m _ req => some (0x0904, m, req)
  | .tmcOutputConfig m _ req => some (0x0905, m, req)
  | .temperConfig m _ req => some (0x0A01, m, req)
  | .temperBankLoad m _ req => some (0x0A02, m, req)
  | .temperBankSwap m _ req => some (0x0A03, m, req)
  | .temperStatus m _ req => some (0x0A04, m, req)
  | .twinConfig m _ req => some (0x0B01, m, req)
  | .twinStatus m _ req => some (0x0B02, m, req)
  | .twinSwitch m _ req => some (0x0B03, m, req)
  | .twinCommit m _ req => some (0x0B04, m, req)
  | .faultRead m _ req => some (0x0C01, m, req)
  | .fwStage m _ req => some (0x0E01, m, req)
  | .fwActivate m _ req => some (0x0E02, m, req)
  | .fwStatus m _ req => some (0x0E03, m, req)
  | .logRead m _ req => some (0x0E04, m, req)
  | .laneStatus m _ req => some (0x0202, m, req)
  | .ohRead m _ req => some (0x0302, m, req)
  | .protStatus m _ req => some (0x0803, m, req)
  | .tmcRefConfig m _ req => some (0x0901, m, req)
  | .tmcHistory m _ req => some (0x0906, m, req)
  | _ => none

/-- FRAME of these commands, taken at once: the same, whatever their status. -/
def Obligations.SignalCommandFrame : Prop :=
  ∀ (i : Instr) (s t : State) (code : Nat) (m : Mbx) (req : List Word),
    signalCommand i = some (code, m, req) → s.ready code m req → exec i s = .next t → Untouched s t

/-! ### The twin roles (12_twin_pair.md, R366 and R367) -/

/-- The code, mailbox, tag and words of a mailbox command. -/
def mailCommand (i : Instr) : Option (Nat × Mbx × Byte × List Word) :=
  match i with
  | .sysInfo m tag req => some (0x0101, m, tag, req)
  | .sysResetBlock m tag req => some (0x0102, m, tag, req)
  | .sysPowerDomain m tag req => some (0x0103, m, tag, req)
  | .sysTimeSet m tag req => some (0x0104, m, tag, req)
  | .sysEventMask m tag req => some (0x0105, m, tag, req)
  | .sysViolationRead m tag req => some (0x0106, m, tag, req)
  | .sysContinue m tag req => some (0x0107, m, tag, req)
  | .laneConfig m tag req => some (0x0201, m, tag, req)
  | .laneStatus m tag req => some (0x0202, m, tag, req)
  | .portCreate m tag req => some (0x0203, m, tag, req)
  | .portDelete m tag req => some (0x0204, m, tag, req)
  | .portStatus m tag req => some (0x0205, m, tag, req)
  | .alignConfig m tag req => some (0x0301, m, tag, req)
  | .ohRead m tag req => some (0x0302, m, tag, req)
  | .ohWrite m tag req => some (0x0303, m, tag, req)
  | .ttiSet m tag req => some (0x0304, m, tag, req)
  | .ttiRead m tag req => some (0x0305, m, tag, req)
  | .defectRead m tag req => some (0x0401, m, tag, req)
  | .defectConfig m tag req => some (0x0402, m, tag, req)
  | .pmRead m tag req => some (0x0403, m, tag, req)
  | .pmConfig m tag req => some (0x0404, m, tag, req)
  | .pmHistory m tag req => some (0x0405, m, tag, req)
  | .chanCreate m tag req => some (0x0501, m, tag, req)
  | .chanDelete m tag req => some (0x0502, m, tag, req)
  | .chanModify m tag req => some (0x0503, m, tag, req)
  | .xcConnect m tag req => some (0x0504, m, tag, req)
  | .xcDisconnect m tag req => some (0x0505, m, tag, req)
  | .flexeCalendar m tag req => some (0x0506, m, tag, req)
  | .braidCreate m tag req => some (0x0601, m, tag, req)
  | .braidMemberAdd m tag req => some (0x0602, m, tag, req)
  | .braidMemberRemove m tag req => some (0x0603, m, tag, req)
  | .braidStatus m tag req => some (0x0604, m, tag, req)
  | .queueConfig m tag req => some (0x0701, m, tag, req)
  | .queueCount m tag req => some (0x0702, m, tag, req)
  | .queueFlush m tag req => some (0x0703, m, tag, req)
  | .queueScan m tag req => some (0x0704, m, tag, req)
  | .poolStatus m tag req => some (0x0705, m, tag, req)
  | .protGroupCreate m tag req => some (0x0801, m, tag, req)
  | .protCommand m tag req => some (0x0802, m, tag, req)
  | .protStatus m tag req => some (0x0803, m, tag, req)
  | .weltCreate m tag req => some (0x0804, m, tag, req)
  | .weltStatus m tag req => some (0x0805, m, tag, req)
  | .tmcRefConfig m tag req => some (0x0901, m, tag, req)
  | .tmcSelect m tag req => some (0x0902, m, tag, req)
  | .tmcStatus m tag req => some (0x0903, m, tag, req)
  | .tmcDcoSteer m tag req => some (0x0904, m, tag, req)
  | .tmcOutputConfig m tag req => some (0x0905, m, tag, req)
  | .tmcHistory m tag req => some (0x0906, m, tag, req)
  | .temperConfig m tag req => some (0x0A01, m, tag, req)
  | .temperBankLoad m tag req => some (0x0A02, m, tag, req)
  | .temperBankSwap m tag req => some (0x0A03, m, tag, req)
  | .temperStatus m tag req => some (0x0A04, m, tag, req)
  | .twinConfig m tag req => some (0x0B01, m, tag, req)
  | .twinStatus m tag req => some (0x0B02, m, tag, req)
  | .twinSwitch m tag req => some (0x0B03, m, tag, req)
  | .twinCommit m tag req => some (0x0B04, m, tag, req)
  | .faultRead m tag req => some (0x0C01, m, tag, req)
  | .faultClear m tag req => some (0x0C02, m, tag, req)
  | .faultPolicy m tag req => some (0x0C03, m, tag, req)
  | .faultInject m tag req => some (0x0C04, m, tag, req)
  | .faultPin m tag req => some (0x0C05, m, tag, req)
  | .prbsConfig m tag req => some (0x0D01, m, tag, req)
  | .prbsRead m tag req => some (0x0D02, m, tag, req)
  | .loopbackSet m tag req => some (0x0D03, m, tag, req)
  | .bistRun m tag req => some (0x0D04, m, tag, req)
  | .eyeScan m tag req => some (0x0D05, m, tag, req)
  | .fwStage m tag req => some (0x0E01, m, tag, req)
  | .fwActivate m tag req => some (0x0E02, m, tag, req)
  | .fwStatus m tag req => some (0x0E03, m, tag, req)
  | .logRead m tag req => some (0x0E04, m, tag, req)
  | _ => none

/-- R366, R367: on a PAIRED twin that is not ACTIVE, a pair-wide command completes with DENIED, or with INVALID_PARAM where its fields are
wrong, and changes nothing but its mailbox. -/
def Obligations.PairWideDeniedOffActive : Prop :=
  ∀ (i : Instr) (s : State) (code : Nat) (m : Mbx) (tag : Byte) (req : List Word),
    mailCommand i = some (code, m, tag, req) → s.takes code m req → s.twin.paired = true → s.twin.role ≠ .active → pairWide code req = true →
    ∃ st, (st = .invalid ∨ st = .denied) ∧ exec i s = .next (settle (respond m.val st [] (s.posted code m tag req)))

/-- R367, R368: on the ACTIVE twin of a PAIRED pair, a pair-wide command is checked against the configuration that the staged commands
would leave and, where that accepts it, is staged; it has no other effect. With the staging area full it completes with BUSY. -/
def Obligations.PairWideStagedOnActive : Prop :=
  ∀ (i : Instr) (s p : State) (code : Nat) (m : Mbx) (tag : Byte) (req : List Word) (f : Body) (r : CmdOut),
    mailCommand i = some (code, m, tag, req) → s.takes code m req → s.twin.paired = true → s.twin.role = .active → pairWide code req = true →
    bodyOf code = some f → p = s.posted code m tag req → r = f { mbx := some m.val } req (shadowOf s.twin.staging p) →
    exec i s = .next (settle (
      if stagingFull s.twin then respond m.val .busy [] p
      else respond m.val (stagedReply r.1).1 (stagedReply r.1).2
        (if r.1.accepted then { p with twin.staging := s.twin.staging ++ [{ code := code, req := req }] } else p)))

/-! ### The machine -/

/-- A step with a command in front of the queue runs that command on the state with the rest of the queue. -/
def Obligations.StepRunsFrontCommand : Prop :=
  ∀ (c : Instr) (r : List Instr) (s : State), s.pending = c :: r → step s = exec c { s with pending := r }

/-- The model's choice (log 1): on an empty queue a step is one 5 ns cycle of the timing core's clock, in which device time, and the time counted
since reset, advance by 5 ns × (1 + y0), rounded down to 2^-48 ns, once the TMC has left reset (R308), and nothing else changes. -/
def Obligations.IdleStepIsOneCycle : Prop :=
  ∀ (s : State) (n : Int), s.pending = [] → n = 5 * 281474976710656 * (1000000000000000 + y0 s) / 1000000000000000 →
    (tmcRuns s = false → step s = .next { s with now := s.now + 5 }) ∧
    (tmcRuns s = true → step s = .next { s with
      now := s.now + 5, tmc.dt := BitVec.ofInt 112 (s.tmc.dt.toNat + n), tmc.lapse := s.tmc.lapse + n.toNat })

/-- What reset leaves where the manual says: the device held in reset (R459), no boot counted, FW_STATE BOOT, slot A active and confirmed at
manufacture (R425, R430), no fatal latch (R399), every domain without power (R462), no mailbox busy and the event ring off (R410), no
object (R465), the R and D of TEMPER_CONFIG at their defaults and every DPLL in FREE_RUN (R349, R298). Every other register holds what
log 2 names. -/
def Obligations.ResetLeaves : Prop :=
  State.reset.pending = [] ∧ State.reset.boot.phase = .held ∧ State.reset.fw.state = 0 ∧ State.reset.fw.slot = 0 ∧
    State.reset.fault.latch = none ∧ State.reset.fault.reasons = [] ∧ (∀ d, domUp State.reset d = false) ∧
    (∀ m, (mbxOf State.reset m).st = .idle) ∧ State.reset.host.ringEnable = false ∧ State.reset.port = [] ∧ State.reset.chan = [] ∧
    State.reset.braid = [] ∧ State.reset.pool.q = [] ∧ State.reset.prot = [] ∧ State.reset.welt = [] ∧ State.reset.flex = [] ∧
    State.reset.tmc.cicR = 250 ∧ State.reset.tmc.firD = 10 ∧ (∀ d, (dpllOf State.reset d).st = .freeRun)

/-- The HBM is in its canonical form after reset: nothing is listed. -/
def Obligations.ResetMemoryCanonical : Prop := State.reset.memOk ∧ State.reset.pool.mem = []

/-- Every command, in every state, answers a next state. -/
def Obligations.EveryCommandAnswers : Prop := ∀ (c : Instr) (s : State), ∃ t, exec c s = .next t

/-- No command but a step's own taking changes the queue of waiting commands, and none takes time. -/
def Obligations.CommandsKeepQueueAndTime : Prop :=
  ∀ (c : Instr) (s t : State), exec c s = .next t → t.pending = s.pending ∧ t.now = s.now

/-- INVARIANT: every step keeps the HBM in its canonical form. -/
def Obligations.StepKeepsMemoryCanonical : Prop := ∀ s t : State, s.memOk → step s = .next t → t.memOk

/-- R399: the latch and the tick counter are cleared only by the removal of every supply: no other step clears the latch, or restarts the tick counter
of a device with its rails up. A removal that is too short is no command. -/
def Obligations.FatalLatchHolds : Prop :=
  ∀ s t : State, step s = .next t → (∀ r, s.pending ≠ .supplyRemoval :: r) →
    (s.fault.latch.isSome = true → t.fault.latch = s.fault.latch) ∧ (s.pins.railsOk = true → t.fault.tickBase = s.fault.tickBase)

/-- R399: the removal of every supply clears the latch and the tick counter, which counts from the instant the rails are up again. -/
def Obligations.SupplyRemovalClearsLatch : Prop :=
  ∀ s : State, exec .supplyRemoval s = .next { coldState s with pins.railsOk := false, fault := {} } ∧
    (s.pins.railsOk = false → exec .supplyPowerUp s = .next { s with pins.railsOk := true, fault.tickBase := s.now })

/-- R427, R433: no step lowers the anti-rollback counter or changes which keys are revoked, and a pseudo-channel recorded as retired stays
so. -/
def Obligations.FusesHold : Prop :=
  ∀ s t : State, step s = .next t →
    s.fw.counter ≤ t.fw.counter ∧ t.fw.revoked = s.fw.revoked ∧ (∀ k, s.boot.retired.getLsbD k = true → t.boot.retired.getLsbD k = true)

/-- R397: sources of group 19 are never masked (a masked one sets the latch all the same) and cannot be injected, and a single event from one
of them sets the fatal latch. -/
def Obligations.LatchSourcesAreFatal : Prop :=
  ∀ (a : Fin 4096) (s : State), srcGroup a.val = some 19 →
    (∀ t, tmcRuns s = true → exec (.faultSourceEvent a .real) s = .next t → fatalSet t = true) ∧
    (∀ (m : Mbx) (tag : Byte) (req : List Word), s.ready 0x0C04 m req → fld (wd req 0) 11 0 = a.val →
      exec (.faultInject m tag req) s = .next (settle (respond m.val .invalid [] (s.posted 0x0C04 m tag req))))

/-- R432: FW_ACTIVATE OP 2 selects the staged slot for the next start-up, with CONFIRMED = 0, whatever its HITLESS_FROM, and does nothing
else: the state differs in the boot record alone. -/
def Obligations.NextStartSelected : Prop :=
  ∀ (m : Mbx) (tag : Byte) (req : List Word) (s p : State) (k : Nat), p = s.posted 0x0E02 m tag req → s.ready 0x0E02 m req →
    fld (wd req 0) 31 4 = 0 → fld (wd req 0) 3 0 = 2 → p.fw.activation = none → k = stageSlot p → (slotOf p.fw k).staged = 3 →
    ∃ r0 r1, exec (.fwActivate m tag req) s = .next ({ p with fw.rec0 := r0, fw.rec1 := r1 }.answered 0x0E02 m req []) ∧
      (bootRec { p.fw with rec0 := r0, rec1 := r1 }).map (fun r => (r.active, r.confirmed)) = some (k, false)

/-- A cell written into the HBM (R225, R226): its bytes read back, zero-filled, and its descriptor’s, with the byte order that log 5 chooses; every other byte is as before. -/
def Obligations.CellWriteStores : Prop :=
  ∀ (q : Queue) (c : Nat) (bs : List Byte) (sop eop : Bool) (s t : State), c < 503316480 → bs.length ≤ 256 → s.memOk →
    t = writeCell q c bs sop eop s →
    t.memOk ∧ memRead t.pool.mem (256 * c) 256 = bs ++ List.replicate (256 - bs.length) 0 ∧
      memRead t.pool.mem (descAddr c) 8 = descBytes c (descHi 0 (if qPkt q then bs.length else 0) sop eop false (!(qPkt q)) q.epoch.toNat) ∧
      (∀ a, (a < 256 * c ∨ 256 * c + 256 ≤ a) → (a < descAddr c ∨ descAddr c + 8 ≤ a) → memByte t.pool.mem a = memByte s.pool.mem a)

/-- PATROL_SCRUB writes the descriptor of the cell it names, and that only at an uncorrectable error, and no other byte of the HBM; a Braid
round's read or forming writes the descriptors of the cells that prove uncorrectable as it reads them, and no other byte; beside the
queues and what follows from their flush, they leave what a signal event leaves. -/
def Obligations.ScrubFrame : Prop :=
  ∀ (s t : State), s.memOk →
    (∀ (cell : Fin 503316480) (ue : Bool), exec (.patrolScrub cell ue) s = .next t →
      (∀ a, (a < descAddr cell.val ∨ descAddr cell.val + 8 ≤ a) → memByte t.pool.mem a = memByte s.pool.mem a) ∧
      (ue = false → t.pool.mem = s.pool.mem) ∧ Untouched s { t with pool.mem := s.pool.mem }) ∧
    (∀ (g : EngineRead 256), exec (.braidRoundRead g) s = .next t ∨ exec (.braidRoundFormed g) s = .next t →
      (∀ a, (∀ c ∈ g.ue, a < descAddr c.val ∨ descAddr c.val + 8 ≤ a) → memByte t.pool.mem a = memByte s.pool.mem a) ∧
      Untouched s { t with pool.mem := s.pool.mem })
end

