-- ==== Sys2Proof/Laws/Memory.lean ====
section
/-! SUPPORT. The HBM: reading after writing, and the canonical form that every write keeps. -/

namespace Sys2Proof.Machine

theorem memWfFrom_mono {m : List Host.Cell} {a b : Nat} (h : memWfFrom m b = true) (l : a ≤ b) : memWfFrom m a = true := by
  cases m with
  | nil => rfl
  | cons c r => simp only [memWfFrom, Bool.and_eq_true, decide_eq_true_eq] at h ⊢; exact ⟨⟨Nat.le_trans l h.1.1, h.1.2⟩, h.2⟩

theorem memSet_wfFrom (m : List Host.Cell) (a lo : Nat) (b : Byte) (h : memWfFrom m lo = true) (l : lo ≤ a) :
    memWfFrom (memSet m a b) lo = true := by
  induction m generalizing lo with
  | nil => grind [memSet, memWfFrom]
  | cons c r ih => grind [memSet, memWfFrom, memWfFrom_mono]

/-- A byte written keeps the canonical form. -/
theorem memSet_wf {m : List Host.Cell} (a : Nat) (b : Byte) (h : Memory.wf m = true) : Memory.wf (memSet m a b) = true :=
  memSet_wfFrom m a 0 b h (Nat.zero_le a)

/-- Bytes written keep the canonical form. -/
theorem memWrite_wf {m : List Host.Cell} (a : Nat) (bs : List Byte) (h : Memory.wf m = true) : Memory.wf (memWrite m a bs) = true := by
  induction bs generalizing m a with
  | nil => exact h
  | cons b r ih => exact ih (a + 1) (memSet_wf a b h)

theorem memDrop_wfFrom {m : List Host.Cell} {lo : Nat} (p : Nat → Bool) (h : memWfFrom m lo = true) : memWfFrom (memDrop m p) lo = true := by
  induction m generalizing lo with
  | nil => rfl
  | cons c r ih =>
    simp only [memWfFrom, Bool.and_eq_true, decide_eq_true_eq] at h
    have k := ih h.2
    unfold memDrop at k ⊢
    rw [List.filter_cons]
    split
    · simp only [memWfFrom, Bool.and_eq_true, decide_eq_true_eq]; exact ⟨h.1, k⟩
    · exact memWfFrom_mono k (by omega)

/-- Content that is lost keeps the canonical form. -/
theorem memDrop_wf {m : List Host.Cell} (p : Nat → Bool) (h : Memory.wf m = true) : Memory.wf (memDrop m p) = true := memDrop_wfFrom p h

theorem memByte_lo {m : List Host.Cell} {lo a : Nat} (h : memWfFrom m lo = true) (l : a < lo) : memByte m a = 0 := by
  cases m with
  | nil => rfl
  | cons c r =>
    simp only [memWfFrom, Bool.and_eq_true, decide_eq_true_eq] at h
    unfold memByte
    rw [if_neg (by omega), if_pos (by omega)]

theorem memByte_memSet_from {m : List Host.Cell} {lo : Nat} (a c : Nat) (b : Byte) (h : memWfFrom m lo = true) :
    memByte (memSet m a b) c = if c = a then b else memByte m c := by
  induction m generalizing lo with
  | nil => grind [memSet, memByte]
  | cons x r ih =>
    have q := ih (lo := x.1 + 1)
    have z : ∀ n, memWfFrom r (x.1 + 1) = true → n < x.1 + 1 → memByte r n = 0 := fun n k l => memByte_lo k l
    grind [memSet, memByte, memWfFrom]

/-- A byte read after a byte is written. -/
theorem memByte_memSet {m : List Host.Cell} (a c : Nat) (b : Byte) (h : Memory.wf m = true) :
    memByte (memSet m a b) c = if c = a then b else memByte m c := memByte_memSet_from a c b h

/-- A byte outside the bytes written reads as before. -/
theorem memByte_memWrite_outside {m : List Host.Cell} (a c : Nat) (bs : List Byte) (h : Memory.wf m = true)
    (o : c < a ∨ a + bs.length ≤ c) : memByte (memWrite m a bs) c = memByte m c := by
  induction bs generalizing m a with
  | nil => rfl
  | cons b r ih =>
    rw [List.length_cons] at o
    rw [memWrite, ih (a + 1) (memSet_wf a b h) (by omega), memByte_memSet a c b h, if_neg (by omega)]

/-- The bytes read where bytes were written. -/
theorem memRead_memWrite {m : List Host.Cell} (a : Nat) (bs : List Byte) (h : Memory.wf m = true) :
    memRead (memWrite m a bs) a bs.length = bs := by
  induction bs generalizing m a with
  | nil => rfl
  | cons b r ih =>
    rw [List.length_cons, memRead, memWrite, ih (a + 1) (memSet_wf a b h),
      memByte_memWrite_outside (a + 1) a r (memSet_wf a b h) (by omega), memByte_memSet a a b h, if_pos rfl]

end Sys2Proof.Machine
end

