-- ==== Sys2Proof/Laws/Kept.lean ====
section
/-! SUPPORT. What no operation of the block touches, and what it can only move one way: one lemma per operation, each from those of the
operations it calls. -/

namespace Sys2Proof.Machine

set_option linter.unusedVariables false
set_option linter.unusedSimpArgs false
set_option linter.unusedTactic false
set_option linter.unreachableTactic false

/-- What every operation keeps: the queue of commands and the time; the canonical form of the HBM; the fatal latch once set and the instant
from which ticks count (R399); the
pseudo-channels recorded as retired; the anti-rollback counter, which never falls, and the key revocations (R433); the number of
free values drawn, which never falls. -/
structure Kept (s t : State) : Prop where
  pending : t.pending = s.pending
  now : t.now = s.now
  free : s.free ≤ t.free
  mem : s.memOk → t.memOk
  latch : s.fault.latch.isSome = true → t.fault.latch = s.fault.latch
  ticks : t.fault.tickBase = s.fault.tickBase
  retired : ∀ p, s.boot.retired.getLsbD p = true → t.boot.retired.getLsbD p = true
  counter : s.fw.counter ≤ t.fw.counter
  revoked : t.fw.revoked = s.fw.revoked

theorem Kept.refl (s : State) : Kept s s := ⟨rfl, rfl, Nat.le_refl _, id, fun _ => rfl, rfl, fun _ h => h, Nat.le_refl _, rfl⟩

theorem Kept.trans {s t u : State} (h : Kept s t) (k : Kept t u) : Kept s u where
  pending := k.pending.trans h.pending
  now := k.now.trans h.now
  free := Nat.le_trans h.free k.free
  mem := fun m => k.mem (h.mem m)
  latch := fun l => (k.latch (by rw [h.latch l]; exact l)).trans (h.latch l)
  ticks := k.ticks.trans h.ticks
  retired := fun p r => k.retired p (h.retired p r)
  counter := Nat.le_trans h.counter k.counter
  revoked := k.revoked.trans h.revoked

/-- A change of other fields, that may draw free values. -/
theorem Kept.upd {s t : State} {free : Nat}
    {pins : Pins} {boot : Boot} {power : Power} {resets : List BlockReset} {host : HostIf} {fw : Firmware} {fault : FaultColl} {twin : Twin} {test : Test} {lane : Table LaneRec} {port : Table Port} {fabRx : Table FabRx} {fabTx : Table FabTx} {sliceTx : Table SliceTx} {oh : Table Oh} {mon : Table Mon} {pm : PmGlobal} {chan : Table Chan} {flex : Table FlexGroup} {braid : Table Braid} {pool : Pool} {prot : Table Prot} {bridge : Table Bridge} {welt : Table Welt} {tmc : Tmc}
    (h : Kept s t) (h1 : t.free ≤ free) (h2 : pool.mem = t.pool.mem) (h3 : fault.latch = t.fault.latch)
    (h4 : boot.retired = t.boot.retired) (h5 : fw.counter = t.fw.counter) (h6 : fw.revoked = t.fw.revoked) (h7 : fault.tickBase = t.fault.tickBase) :
    Kept s (State.mk t.pending t.now free pins boot power resets host fw fault twin test lane port fabRx fabTx sliceTx oh mon pm chan flex braid pool prot bridge welt tmc) where
  pending := h.pending
  now := h.now
  free := Nat.le_trans h.free h1
  mem := fun m => by unfold State.memOk; rw [h2]; exact h.mem m
  latch := fun l => h3.trans (h.latch l)
  ticks := h7.trans h.ticks
  retired := fun p r => by rw [h4]; exact h.retired p r
  counter := by rw [h5]; exact h.counter
  revoked := h6.trans h.revoked

/-- As upd, where no free value is drawn: such a change can be left out. -/
theorem Kept.set {s t : State}
    {pins : Pins} {boot : Boot} {power : Power} {resets : List BlockReset} {host : HostIf} {fw : Firmware} {fault : FaultColl} {twin : Twin} {test : Test} {lane : Table LaneRec} {port : Table Port} {fabRx : Table FabRx} {fabTx : Table FabTx} {sliceTx : Table SliceTx} {oh : Table Oh} {mon : Table Mon} {pm : PmGlobal} {chan : Table Chan} {flex : Table FlexGroup} {braid : Table Braid} {pool : Pool} {prot : Table Prot} {bridge : Table Bridge} {welt : Table Welt} {tmc : Tmc}
    (h2 : pool.mem = t.pool.mem) (h3 : fault.latch = t.fault.latch)
    (h4 : boot.retired = t.boot.retired) (h5 : fw.counter = t.fw.counter) (h6 : fw.revoked = t.fw.revoked) (h7 : fault.tickBase = t.fault.tickBase) :
    Kept s (State.mk t.pending t.now t.free pins boot power resets host fw fault twin test lane port fabRx fabTx sliceTx oh mon pm chan flex braid pool prot bridge welt tmc) ↔ Kept s t where
  mp h := h.trans ⟨rfl, rfl, Nat.le_refl _, fun m => by unfold State.memOk at m ⊢; rw [← h2]; exact m, fun _ => h3.symm, h7.symm,
    fun p r => by rw [← h4]; exact r, Nat.le_of_eq h5, h6.symm⟩
  mpr h := h.upd (Nat.le_refl _) h2 h3 h4 h5 h6 h7

theorem foldl_kept {α : Type} {s₀ : State} {l : List α} {f : State → α → State} {s : State} (h : Kept s₀ s)
    (k : ∀ t a, Kept t (f t a)) : Kept s₀ (l.foldl f s) := by
  induction l generalizing s with
  | nil => exact h
  | cons a r ih => exact ih (h.trans (k s a))

theorem foldPair_kept {α β : Type} {s₀ : State} {l : List α} {f : β × State → α → β × State} {b : β × State} (h : Kept s₀ b.2)
    (k : ∀ b a, Kept b.2 (f b a).2) : Kept s₀ (l.foldl f b).2 := by
  induction l generalizing b with
  | nil => exact h
  | cons a r ih => exact ih (h.trans (k b a))

/-- A change of the HBM that keeps its canonical form. -/
theorem Kept.hbm {s t : State} {m : List Host.Cell} (h : Kept s t) (k : Memory.wf t.pool.mem = true → Memory.wf m = true) :
    Kept s { t with pool.mem := m } where
  pending := h.pending
  now := h.now
  free := h.free
  mem := fun w => k (h.mem w)
  latch := h.latch
  ticks := h.ticks
  retired := h.retired
  counter := h.counter
  revoked := h.revoked

theorem foldS_kept {α : Type} {s₀ : State} {l : List α} {f : α → State → State} {s : State} (h : Kept s₀ s)
    (k : ∀ a t, Kept t (f a t)) : Kept s₀ (foldS l f s) := foldl_kept h (fun t a => k a t)

theorem ladder_kept {s₀ : State} {l : List (Bool × Status)} {s : State} {k : Unit → CmdOut} (h : Kept s₀ s)
    (hk : Kept s₀ (k ()).2) : Kept s₀ (ladder l s k).2 := by
  unfold ladder
  split
  · exact h
  · exact hk

theorem retired_kept (b : BitVec 64) (l : List Nat) (p : Nat) (h : b.getLsbD p = true) :
    (l.foldl (fun b p => b ||| (1#64 <<< p)) b).getLsbD p = true := by
  induction l generalizing b with
  | nil => exact h
  | cons a r ih => exact ih _ (by rw [BitVec.getLsbD_or, h, Bool.true_or])

/-- Pseudo-channels recorded as retired. -/
theorem Kept.retire {s t : State} {b : Boot} (h : Kept s t)
    (k : ∀ p, t.boot.retired.getLsbD p = true → b.retired.getLsbD p = true) : Kept s { t with boot := b } where
  pending := h.pending
  now := h.now
  free := h.free
  mem := h.mem
  latch := h.latch
  ticks := h.ticks
  retired := fun p r => k p (h.retired p r)
  counter := h.counter
  revoked := h.revoked

/-- The fatal latch set where it was not. -/
theorem Kept.latchSet {s t : State} {f : FaultColl} (h : Kept s t) (k : t.fault.latch.isSome = false)
    (b : f.tickBase = t.fault.tickBase) : Kept s { t with fault := f } where
  pending := h.pending
  now := h.now
  free := h.free
  mem := h.mem
  latch := fun l => by rw [h.latch l, l] at k; nomatch k
  ticks := b.trans h.ticks
  retired := h.retired
  counter := h.counter
  revoked := h.revoked

/-- A change of the firmware's part of the state: the counter does not fall. -/
theorem Kept.firm {s t : State} {f : Firmware} (h : Kept s t) (k : t.fw.counter ≤ f.counter) (r : f.revoked = t.fw.revoked) :
    Kept s { t with fw := f } where
  pending := h.pending
  now := h.now
  free := h.free
  mem := h.mem
  latch := h.latch
  ticks := h.ticks
  retired := h.retired
  counter := Nat.le_trans h.counter k
  revoked := r.trans h.revoked

theorem Kept.iteR {c : Prop} [Decidable c] {s X Y : State} (h : Kept s X) (k : Kept X Y) : Kept s (if c then Y else X) := by
  split
  · exact h.trans k
  · exact h

theorem Kept.iteL {c : Prop} [Decidable c] {s X Y : State} (h : Kept s X) (k : Kept X Y) : Kept s (if c then X else Y) := by
  split
  · exact h
  · exact h.trans k

end Sys2Proof.Machine
end

