-- ==== Sys2Proof/Laws/KeptSignal.lean ====
section
/-! SUPPORT. Kept, for the operations of lanes, alignment, channels, defects, protection and overhead. -/

namespace Sys2Proof.Machine

/-! ### Ops -/

theorem drawNat_kept {s₀ : State} {s : State} (hK : Kept s₀ s) : Kept s₀ (drawNat s).2 := by
  unfold drawNat
  try dsimp only
  repeat' first
    | with_reducible assumption
    | with_reducible refine Kept.upd ?_ (Nat.le_add_right _ _) rfl rfl rfl rfl rfl rfl

theorem drawBit_kept {s₀ : State} {s : State} (hK : Kept s₀ s) : Kept s₀ (drawBit s).2 := by
  unfold drawBit
  try dsimp only
  repeat' first
    | with_reducible assumption
    | with_reducible refine Kept.upd ?_ (Nat.le_add_right _ _) rfl rfl rfl rfl rfl rfl

theorem drawInt_kept {s₀ : State} {s : State} (hK : Kept s₀ s) : Kept s₀ (drawInt s).2 := by
  unfold drawInt
  try dsimp only
  repeat' first
    | with_reducible assumption
    | with_reducible refine Kept.upd ?_ (Nat.le_add_right _ _) rfl rfl rfl rfl rfl rfl

theorem raiseRec_kept {s₀ : State} (r : EvRec) {s : State} (hK : Kept s₀ s) : Kept s₀ (raiseRec r s) := by
  unfold raiseRec
  try dsimp only
  repeat' first
    | with_reducible assumption
    | dsimp only
    | split
    | simp (disch := rfl) only [Kept.set]

theorem raise_kept {s₀ : State} (code : Nat) (cls : Nat) (kind : Nat) (num : Nat) (d4 : Nat) (d5 : Nat) (d6 : Nat) (d7 : Nat) {s : State} (hK : Kept s₀ s) : Kept s₀ (raise code cls kind num d4 d5 d6 d7 s) := by
  unfold raise
  try dsimp only
  repeat' first
    | with_reducible assumption
    | with_reducible apply raiseRec_kept

theorem raiseAt_kept {s₀ : State} (ns : Nat) (code : Nat) (cls : Nat) (kind : Nat) (num : Nat) (d4 : Nat) (d5 : Nat) (d6 : Nat) (d7 : Nat) {s : State} (hK : Kept s₀ s) : Kept s₀ (raiseAt ns code cls kind num d4 d5 d6 d7 s) := by
  unfold raiseAt
  try dsimp only
  repeat' first
    | with_reducible assumption
    | with_reducible apply raiseRec_kept

theorem logAdd_kept {s₀ : State} (cause : LogCause) (arg : Nat) {s : State} (hK : Kept s₀ s) : Kept s₀ (logAdd cause arg s) := by
  unfold logAdd
  try dsimp only
  repeat' first
    | with_reducible assumption
    | with_reducible exact Kept.refl _
    | intro _
    | dsimp only
    | split
    | simp (disch := rfl) only [Kept.set]

/-! ### Flags -/

theorem okWith_kept {s₀ : State} (ws : List Word) {s : State} (hK : Kept s₀ s) : Kept s₀ (okWith ws s).2 := by
  unfold okWith
  try dsimp only
  repeat' first
    | with_reducible assumption

theorem okNone_kept {s₀ : State} {s : State} (hK : Kept s₀ s) : Kept s₀ (okNone s).2 := by
  unfold okNone
  try dsimp only
  repeat' first
    | with_reducible assumption

/-! ### Lanes -/

theorem setLane_kept {s₀ : State} (k : Nat) (l : LaneRec) {s : State} (hK : Kept s₀ s) : Kept s₀ (setLane k l s) := by
  unfold setLane
  try dsimp only
  repeat' first
    | with_reducible assumption
    | simp (disch := rfl) only [Kept.set]

theorem modLane_kept {s₀ : State} (k : Nat) (f : LaneRec → LaneRec) {s : State} (hK : Kept s₀ s) : Kept s₀ (modLane k f s) := by
  unfold modLane
  try dsimp only
  repeat' first
    | with_reducible assumption
    | with_reducible apply setLane_kept

theorem updPort_kept {s₀ : State} (p : Nat) (f : Port → Port) {s : State} (hK : Kept s₀ s) : Kept s₀ (updPort p f s) := by
  unfold updPort
  try dsimp only
  repeat' first
    | with_reducible assumption
    | simp (disch := rfl) only [Kept.set]

theorem eyeAbort_kept {s₀ : State} (k : Nat) {s : State} (hK : Kept s₀ s) : Kept s₀ (eyeAbort k s) := by
  unfold eyeAbort
  try dsimp only
  repeat' first
    | with_reducible assumption
    | with_reducible apply raise_kept
    | split
    | simp (disch := rfl) only [Kept.set]

theorem laneTestsLost_kept {s₀ : State} (k : Nat) {s : State} (hK : Kept s₀ s) : Kept s₀ (laneTestsLost k s) := by
  unfold laneTestsLost
  try dsimp only
  repeat' first
    | with_reducible assumption
    | with_reducible apply eyeAbort_kept
    | simp (disch := rfl) only [Kept.set]

theorem laneTestsClear_kept {s₀ : State} (k : Nat) {s : State} (hK : Kept s₀ s) : Kept s₀ (laneTestsClear k s) := by
  unfold laneTestsClear
  try dsimp only
  repeat' first
    | with_reducible assumption
    | with_reducible apply eyeAbort_kept
    | simp (disch := rfl) only [Kept.set]

theorem laneIdle_kept {s₀ : State} (k : Nat) {s : State} (hK : Kept s₀ s) : Kept s₀ (laneIdle k s) := by
  unfold laneIdle
  try dsimp only
  repeat' first
    | with_reducible assumption
    | with_reducible apply modLane_kept
    | with_reducible apply laneTestsLost_kept
    | split

theorem laneAcquire_kept {s₀ : State} (k : Nat) {s : State} (hK : Kept s₀ s) : Kept s₀ (laneAcquire k s) := by
  unfold laneAcquire
  try dsimp only
  repeat' first
    | with_reducible assumption
    | with_reducible apply modLane_kept
    | with_reducible apply laneTestsLost_kept
    | split

theorem laneOn_kept {s₀ : State} (k : Nat) {s : State} (hK : Kept s₀ s) : Kept s₀ (laneOn k s) := by
  unfold laneOn
  try dsimp only
  repeat' first
    | with_reducible assumption
    | with_reducible apply modLane_kept

theorem laneStart_kept {s₀ : State} (k : Nat) {s : State} (hK : Kept s₀ s) : Kept s₀ (laneStart k s) := by
  unfold laneStart
  try dsimp only
  repeat' first
    | with_reducible assumption
    | with_reducible apply modLane_kept
    | with_reducible apply laneOn_kept
    | split

theorem laneOff_kept {s₀ : State} (k : Nat) {s : State} (hK : Kept s₀ s) : Kept s₀ (laneOff k s) := by
  unfold laneOff
  try dsimp only
  repeat' first
    | with_reducible assumption
    | with_reducible exact Kept.refl _
    | intro _
    | dsimp only
    | with_reducible apply modLane_kept
    | with_reducible apply laneTestsClear_kept
    | split
    | simp (disch := rfl) only [Kept.set]

theorem laneRelease_kept {s₀ : State} (k : Nat) {s : State} (hK : Kept s₀ s) : Kept s₀ (laneRelease k s) := by
  unfold laneRelease
  try dsimp only
  repeat' first
    | with_reducible assumption
    | with_reducible apply modLane_kept

theorem laneReset_kept {s₀ : State} (k : Nat) {s : State} (hK : Kept s₀ s) : Kept s₀ (laneReset k s) := by
  unfold laneReset
  try dsimp only
  repeat' first
    | with_reducible assumption
    | with_reducible apply modLane_kept
    | with_reducible apply laneIdle_kept
    | split

/-! ### Varric -/

theorem sendVarric_kept {s₀ : State} (typ : Nat) (ch : Nat) (payload : List Byte) {s : State} (hK : Kept s₀ s) : Kept s₀ (sendVarric typ ch payload s) := by
  unfold sendVarric
  try dsimp only
  repeat' first
    | with_reducible assumption
    | with_reducible exact Kept.refl _
    | intro _
    | dsimp only
    | split
    | simp (disch := rfl) only [Kept.set]
    | with_reducible refine Kept.upd ?_ (Nat.le_add_right _ _) rfl rfl rfl rfl rfl rfl

theorem sendFrames_kept {s₀ : State} (typ : Nat) (n : Nat) {s : State} (hK : Kept s₀ s) : Kept s₀ (sendFrames typ n s) := by
  unfold sendFrames
  try dsimp only
  repeat' first
    | with_reducible assumption
    | with_reducible exact Kept.refl _
    | intro _
    | dsimp only
    | with_reducible apply sendVarric_kept
    | with_reducible apply foldS_kept
    | split
    | simp (disch := rfl) only [Kept.set]
    | with_reducible refine Kept.upd ?_ (Nat.le_add_right _ _) rfl rfl rfl rfl rfl rfl

theorem sendXfeed_kept {s₀ : State} (p : Nat) (bs : List Byte) {s : State} (hK : Kept s₀ s) : Kept s₀ (sendXfeed p bs s) := by
  unfold sendXfeed
  try dsimp only
  repeat' first
    | with_reducible assumption
    | with_reducible exact Kept.refl _
    | intro _
    | dsimp only
    | with_reducible apply sendVarric_kept
    | with_reducible apply foldS_kept
    | split
    | simp (disch := rfl) only [Kept.set]

theorem sendDecision_kept {s₀ : State} {s : State} (hK : Kept s₀ s) : Kept s₀ (sendDecision s) := by
  unfold sendDecision
  try dsimp only
  repeat' first
    | with_reducible assumption
    | with_reducible exact Kept.refl _
    | intro _
    | dsimp only
    | with_reducible apply sendFrames_kept
    | split

/-! ### Align -/

theorem huntLane_kept {s₀ : State} (k : Nat) {s : State} (hK : Kept s₀ s) : Kept s₀ (huntLane k s) := by
  unfold huntLane
  try dsimp only
  repeat' first
    | with_reducible assumption
    | with_reducible exact Kept.refl _
    | intro _
    | dsimp only
    | with_reducible apply updPort_kept
    | split
    | simp (disch := rfl) only [Kept.set]

theorem laneHold_kept {s₀ : State} (k : Nat) {s : State} (hK : Kept s₀ s) : Kept s₀ (laneHold k s) := by
  unfold laneHold
  try dsimp only
  repeat' first
    | with_reducible assumption
    | with_reducible exact Kept.refl _
    | intro _
    | dsimp only
    | with_reducible apply modLane_kept
    | with_reducible apply laneTestsClear_kept
    | with_reducible apply laneIdle_kept
    | with_reducible apply huntLane_kept
    | split
    | simp (disch := rfl) only [Kept.set]

theorem alignSettle_kept {s₀ : State} {s : State} (hK : Kept s₀ s) : Kept s₀ (alignSettle s) := by
  unfold alignSettle
  try dsimp only
  repeat' first
    | with_reducible assumption
    | simp (disch := rfl) only [Kept.set]

/-! ### Chans -/

theorem updChan_kept {s₀ : State} (k : Nat) (f : Chan → Chan) {s : State} (hK : Kept s₀ s) : Kept s₀ (updChan k f s) := by
  unfold updChan
  try dsimp only
  repeat' first
    | with_reducible assumption
    | simp (disch := rfl) only [Kept.set]

/-! ### Defects -/

theorem setRaw_kept {s₀ : State} (addr : Nat) (b : Nat) (v : Bool) {s : State} (hK : Kept s₀ s) : Kept s₀ (setRaw addr b v s) := by
  unfold setRaw
  try dsimp only
  repeat' first
    | with_reducible assumption
    | split
    | simp (disch := rfl) only [Kept.set]

theorem updMon_kept {s₀ : State} (addr : Nat) (f : Mon → Mon) {s : State} (hK : Kept s₀ s) : Kept s₀ (updMon addr f s) := by
  unfold updMon
  try dsimp only
  repeat' first
    | with_reducible assumption
    | simp (disch := rfl) only [Kept.set]

theorem evtDefect_kept {s₀ : State} (addr : Nat) (b : Nat) (rise : Bool) (fail : Bool) {s : State} (hK : Kept s₀ s) : Kept s₀ (evtDefect addr b rise fail s) := by
  unfold evtDefect
  try dsimp only
  repeat' first
    | with_reducible assumption
    | with_reducible apply raise_kept

theorem setFailure_kept {s₀ : State} (addr : Nat) (b : Nat) (v : Bool) {s : State} (hK : Kept s₀ s) : Kept s₀ (setFailure addr b v s) := by
  unfold setFailure
  try dsimp only
  repeat' first
    | with_reducible assumption
    | with_reducible apply updMon_kept
    | with_reducible apply evtDefect_kept
    | split

theorem bitStep_kept {s₀ : State} (addr : Nat) (b : Nat) (d : Bool) (r : Bool) {s : State} (hK : Kept s₀ s) : Kept s₀ (bitStep addr b d r s) := by
  unfold bitStep
  try dsimp only
  repeat' first
    | with_reducible assumption
    | with_reducible exact Kept.refl _
    | intro _
    | dsimp only
    | with_reducible apply updMon_kept
    | with_reducible apply evtDefect_kept
    | with_reducible apply setFailure_kept
    | split
    | simp (disch := rfl) only [Kept.set]

theorem pointStep_kept {s₀ : State} (addr : Nat) (d : BitVec 20) (r : BitVec 20) (cov : Bool) {s : State} (hK : Kept s₀ s) : Kept s₀ (pointStep addr d r cov s) := by
  unfold pointStep
  try dsimp only
  repeat' first
    | with_reducible assumption
    | with_reducible exact Kept.refl _
    | intro _
    | with_reducible apply updMon_kept
    | with_reducible apply bitStep_kept
    | with_reducible apply foldS_kept

theorem defectSettle_kept {s₀ : State} {s : State} (hK : Kept s₀ s) : Kept s₀ (defectSettle s) := by
  unfold defectSettle
  try dsimp only
  repeat' first
    | with_reducible assumption
    | with_reducible exact Kept.refl _
    | intro _
    | with_reducible apply pointStep_kept
    | with_reducible apply foldl_kept

theorem ssfSettle_kept {s₀ : State} {s : State} (hK : Kept s₀ s) : Kept s₀ (ssfSettle s) := by
  unfold ssfSettle
  try dsimp only
  repeat' first
    | with_reducible assumption
    | simp (disch := rfl) only [Kept.set]

/-! ### Protect -/

theorem evtProtSwitch_kept {s₀ : State} (n : Nat) (g : Prot) {s : State} (hK : Kept s₀ s) : Kept s₀ (evtProtSwitch n g s) := by
  unfold evtProtSwitch
  try dsimp only
  repeat' first
    | with_reducible assumption
    | with_reducible apply raise_kept

theorem evtProtFop_kept {s₀ : State} (n : Nat) (pm : Bool) (nr : Bool) (rise : Bool) {s : State} (hK : Kept s₀ s) : Kept s₀ (evtProtFop n pm nr rise s) := by
  unfold evtProtFop
  try dsimp only
  repeat' first
    | with_reducible assumption
    | with_reducible apply raise_kept

theorem protConns_kept {s₀ : State} (g : Prot) (g' : Prot) {s : State} (hK : Kept s₀ s) : Kept s₀ (protConns g g' s) := by
  unfold protConns
  try dsimp only
  repeat' first
    | with_reducible assumption
    | with_reducible apply updChan_kept
    | split

theorem protSelect_kept {s₀ : State} (n : Nat) {s : State} (hK : Kept s₀ s) : Kept s₀ (protSelect n s) := by
  unfold protSelect
  try dsimp only
  repeat' first
    | with_reducible assumption
    | with_reducible exact Kept.refl _
    | intro _
    | dsimp only
    | with_reducible apply sendDecision_kept
    | with_reducible apply evtProtSwitch_kept
    | with_reducible apply evtProtFop_kept
    | with_reducible apply protConns_kept
    | split
    | simp (disch := rfl) only [Kept.set]

theorem protTrigger_kept {s₀ : State} (n : Nat) (k : Nat) (v : Bool) {s : State} (hK : Kept s₀ s) : Kept s₀ (protTrigger n k v s) := by
  unfold protTrigger
  try dsimp only
  repeat' first
    | with_reducible assumption
    | split
    | simp (disch := rfl) only [Kept.set]

theorem protSettle_kept {s₀ : State} {s : State} (hK : Kept s₀ s) : Kept s₀ (protSettle s) := by
  unfold protSettle
  try dsimp only
  repeat' first
    | with_reducible assumption
    | with_reducible exact Kept.refl _
    | intro _
    | with_reducible apply protSelect_kept
    | with_reducible apply protTrigger_kept
    | with_reducible apply foldS_kept
    | split

theorem apsAccept_kept {s₀ : State} (n : Nat) (rx : Nat) {s : State} (hK : Kept s₀ s) : Kept s₀ (apsAccept n rx s) := by
  unfold apsAccept
  try dsimp only
  repeat' first
    | with_reducible assumption
    | with_reducible exact Kept.refl _
    | intro _
    | dsimp only
    | with_reducible apply evtProtFop_kept
    | with_reducible apply protSelect_kept
    | split
    | simp (disch := rfl) only [Kept.set]

/-! ### Overhead -/

theorem updOh_kept {s₀ : State} (key : Nat) (f : Oh → Oh) {s : State} (hK : Kept s₀ s) : Kept s₀ (updOh key f s) := by
  unfold updOh
  try dsimp only
  repeat' first
    | with_reducible assumption
    | simp (disch := rfl) only [Kept.set]

theorem accField_kept {s₀ : State} (key : Nat) (lvl : Nat) (field : Nat) (n : Nat) (v : Nat) {s : State} (hK : Kept s₀ s) : Kept s₀ (accField key lvl field n v s) := by
  unfold accField
  try dsimp only
  repeat' first
    | with_reducible assumption
    | with_reducible apply updOh_kept

theorem msiSettle_kept {s₀ : State} (k' : Nat) {s : State} (hK : Kept s₀ s) : Kept s₀ (msiSettle k' s) := by
  unfold msiSettle
  try dsimp only
  repeat' first
    | with_reducible assumption
    | with_reducible exact Kept.refl _
    | intro _
    | with_reducible apply updChan_kept
    | with_reducible apply foldS_kept
    | split

theorem rxTrace_kept {s₀ : State} (key : Nat) (addr : Nat) (lvl : Nat) (otn : Bool) (f : Trace → Trace) {s : State} (hK : Kept s₀ s) : Kept s₀ (rxTrace key addr lvl otn f s) := by
  unfold rxTrace
  try dsimp only
  repeat' first
    | with_reducible assumption
    | with_reducible apply setRaw_kept
    | with_reducible apply updOh_kept

theorem countBlock_kept {s₀ : State} (addr : Nat) (v : Option Nat) (rei : Nat) {s : State} (hK : Kept s₀ s) : Kept s₀ (countBlock addr v rei s) := by
  unfold countBlock
  try dsimp only
  repeat' first
    | with_reducible assumption
    | with_reducible apply updMon_kept

theorem backAdd_kept {s₀ : State} (key : Nat) (lvl : Nat) (v : Option Nat) {s : State} (hK : Kept s₀ s) : Kept s₀ (backAdd key lvl v s) := by
  unfold backAdd
  try dsimp only
  repeat' first
    | with_reducible assumption
    | with_reducible apply updOh_kept

theorem backTake_kept {s₀ : State} (key : Nat) (lvl : Nat) (cap : Nat) {s : State} (hK : Kept s₀ s) : Kept s₀ (backTake key lvl cap s).2 := by
  unfold backTake
  try dsimp only
  repeat' first
    | with_reducible assumption
    | with_reducible apply updOh_kept

theorem rxLevelFields_kept {s₀ : State} (key : Nat) (addr : Nat) (lvl : Nat) (base : Nat) (sm : Bool) (f : RxFrame) {s : State} (hK : Kept s₀ s) : Kept s₀ (rxLevelFields key addr lvl base sm f s) := by
  unfold rxLevelFields
  try dsimp only
  repeat' first
    | with_reducible assumption
    | with_reducible exact Kept.refl _
    | intro _
    | dsimp only
    | with_reducible apply setRaw_kept
    | with_reducible apply accField_kept
    | with_reducible apply rxTrace_kept
    | split
    | simp (disch := rfl) only [Kept.set]

theorem rxOtnLevel_kept {s₀ : State} (key : Nat) (addr : Nat) (addr0 : Nat) (lvl : Nat) (base : Nat) (inst : Nat) (sm : Bool) (term : Bool) (live : Bool) (oof : Bool) (f : RxFrame) {s : State} (hK : Kept s₀ s) : Kept s₀ (rxOtnLevel key addr addr0 lvl base inst sm term live oof f s) := by
  unfold rxOtnLevel
  try dsimp only
  repeat' first
    | with_reducible assumption
    | with_reducible exact Kept.refl _
    | intro _
    | dsimp only
    | with_reducible apply countBlock_kept
    | with_reducible apply backAdd_kept
    | with_reducible apply rxLevelFields_kept
    | split

theorem rxCapture_kept {s₀ : State} (key : Nat) (live : Bool) (f : RxFrame) {s : State} (hK : Kept s₀ s) : Kept s₀ (rxCapture key live f s) := by
  unfold rxCapture
  try dsimp only
  repeat' first
    | with_reducible assumption
    | with_reducible apply updOh_kept

theorem rxPointer_kept {s₀ : State} (k : Nat) (f : RxFrame) {s : State} (hK : Kept s₀ s) : Kept s₀ (rxPointer k f s) := by
  unfold rxPointer
  try dsimp only
  repeat' first
    | with_reducible assumption
    | with_reducible apply updChan_kept
    | with_reducible apply setRaw_kept
    | split

theorem ohSettle_kept {s₀ : State} {s : State} (hK : Kept s₀ s) : Kept s₀ (ohSettle s) := by
  unfold ohSettle
  try dsimp only
  repeat' first
    | with_reducible assumption
    | simp (disch := rfl) only [Kept.set]

theorem rxOtu_kept {s₀ : State} (p : Nat) (inst : Nat) (live : Bool) (oof : Bool) (f : RxFrame) {s : State} (hK : Kept s₀ s) : Kept s₀ (rxOtu p inst live oof f s) := by
  unfold rxOtu
  try dsimp only
  repeat' first
    | with_reducible assumption
    | with_reducible exact Kept.refl _
    | intro _
    | dsimp only
    | with_reducible apply rxOtnLevel_kept
    | with_reducible apply rxCapture_kept
    | split

theorem weltTally_kept {s₀ : State} (k : Nat) (m : Nat) (v : Option Nat) {s : State} (hK : Kept s₀ s) : Kept s₀ (weltTally k m v s) := by
  unfold weltTally
  try dsimp only
  repeat' first
    | with_reducible assumption
    | with_reducible exact Kept.refl _
    | intro _
    | dsimp only
    | split
    | simp (disch := rfl) only [Kept.set]

theorem rxOdu_kept {s₀ : State} (k : Nat) (inst : Nat) (live : Bool) (oof : Bool) (f : RxFrame) {s : State} (hK : Kept s₀ s) : Kept s₀ (rxOdu k inst live oof f s) := by
  unfold rxOdu
  try dsimp only
  repeat' first
    | with_reducible assumption
    | with_reducible exact Kept.refl _
    | intro _
    | dsimp only
    | with_reducible apply setRaw_kept
    | with_reducible apply updOh_kept
    | with_reducible apply msiSettle_kept
    | with_reducible apply rxOtnLevel_kept
    | with_reducible apply rxCapture_kept
    | with_reducible apply weltTally_kept
    | with_reducible apply foldS_kept
    | split
    | simp (disch := rfl) only [Kept.set]

theorem rxMs_kept {s₀ : State} (p : Nat) (n : Nat) (m : Nat) (v2 : Option Nat) (live : Bool) (f : RxFrame) {s : State} (hK : Kept s₀ s) : Kept s₀ (rxMs p n m v2 live f s) := by
  unfold rxMs
  try dsimp only
  repeat' first
    | with_reducible assumption
    | with_reducible exact Kept.refl _
    | intro _
    | dsimp only
    | with_reducible apply setRaw_kept
    | with_reducible apply accField_kept
    | with_reducible apply countBlock_kept
    | with_reducible apply backAdd_kept
    | split
    | simp (disch := rfl) only [Kept.set]

theorem rxStm_kept {s₀ : State} (p : Nat) (live : Bool) (f : RxFrame) {s : State} (hK : Kept s₀ s) : Kept s₀ (rxStm p live f s) := by
  unfold rxStm
  try dsimp only
  repeat' first
    | with_reducible assumption
    | with_reducible exact Kept.refl _
    | intro _
    | dsimp only
    | with_reducible apply updOh_kept
    | with_reducible apply rxTrace_kept
    | with_reducible apply countBlock_kept
    | with_reducible apply rxCapture_kept
    | with_reducible apply rxMs_kept
    | split
    | simp (disch := rfl) only [Kept.set]

theorem rxVc_kept {s₀ : State} (k : Nat) (live : Bool) (f : RxFrame) {s : State} (hK : Kept s₀ s) : Kept s₀ (rxVc k live f s) := by
  unfold rxVc
  try dsimp only
  repeat' first
    | with_reducible assumption
    | with_reducible exact Kept.refl _
    | intro _
    | dsimp only
    | with_reducible apply setRaw_kept
    | with_reducible apply updOh_kept
    | with_reducible apply accField_kept
    | with_reducible apply rxTrace_kept
    | with_reducible apply countBlock_kept
    | with_reducible apply backAdd_kept
    | with_reducible apply rxCapture_kept
    | with_reducible apply rxPointer_kept
    | split
    | simp (disch := rfl) only [Kept.set]

theorem replSettle_kept {s₀ : State} {s : State} (hK : Kept s₀ s) : Kept s₀ (replSettle s) := by
  unfold replSettle
  try dsimp only
  repeat' first
    | with_reducible assumption
    | with_reducible exact Kept.refl _
    | intro _
    | with_reducible apply updOh_kept
    | with_reducible apply foldS_kept

theorem txEnd_kept {s₀ : State} (key : Nat) (bytes : Table Byte) (f : TxFrame) {s : State} (hK : Kept s₀ s) : Kept s₀ (txEnd key bytes f s) := by
  unfold txEnd
  try dsimp only
  repeat' first
    | with_reducible assumption
    | with_reducible apply updOh_kept

theorem txOtu_kept {s₀ : State} (p : Nat) (inst : Nat) (own : Table Byte) (f : TxFrame) {s : State} (hK : Kept s₀ s) : Kept s₀ (txOtu p inst own f s) := by
  unfold txOtu
  try dsimp only
  repeat' first
    | with_reducible assumption
    | with_reducible exact Kept.refl _
    | intro _
    | dsimp only
    | with_reducible apply updOh_kept
    | with_reducible apply backTake_kept
    | with_reducible apply txEnd_kept
    | split
    | simp (disch := rfl) only [Kept.set]

theorem txLevel_kept {s₀ : State} (k : Nat) (inst : Nat) (lvl : Nat) (w : List Word) (f : TxFrame) {s : State} (hK : Kept s₀ s) : Kept s₀ (txLevel k inst lvl w f s).2 := by
  unfold txLevel
  try dsimp only
  repeat' first
    | with_reducible assumption
    | dsimp only
    | with_reducible apply backTake_kept
    | split

theorem txOdu_kept {s₀ : State} (k : Nat) (inst : Nat) (own : Table Byte) (exp : Option (Byte × Byte)) (f : TxFrame) {s : State} (hK : Kept s₀ s) :
    Kept s₀ (txOdu k inst own exp f s) := by
  unfold txOdu
  split
  · exact hK
  · dsimp only
    refine txEnd_kept _ _ _ ?_
    split
    · exact updOh_kept _ _ hK
    · exact foldPair_kept (updOh_kept _ _ hK) (fun b a => txLevel_kept _ _ _ _ _ (Kept.refl b.2))

theorem txStm_kept {s₀ : State} (p : Nat) (own : Table Byte) (f : TxFrame) {s : State} (hK : Kept s₀ s) : Kept s₀ (txStm p own f s) := by
  unfold txStm
  try dsimp only
  repeat' first
    | with_reducible assumption
    | with_reducible exact Kept.refl _
    | intro _
    | dsimp only
    | with_reducible apply updOh_kept
    | with_reducible apply backTake_kept
    | with_reducible apply txEnd_kept
    | split
    | simp (disch := rfl) only [Kept.set]

theorem txVc_kept {s₀ : State} (k : Nat) (h4 : Byte) (f : TxFrame) {s : State} (hK : Kept s₀ s) : Kept s₀ (txVc k h4 f s) := by
  unfold txVc
  try dsimp only
  repeat' first
    | with_reducible assumption
    | with_reducible exact Kept.refl _
    | intro _
    | dsimp only
    | with_reducible apply backTake_kept
    | with_reducible apply txEnd_kept
    | split
    | simp (disch := rfl) only [Kept.set]

end Sys2Proof.Machine
end

