-- ==== Sys2Proof/Laws/KeptPath.lean ====
section
/-! SUPPORT. Kept, for the operations of the deep path, mapping, Braid, Welt and monitoring. -/

namespace Sys2Proof.Machine

/-! ### Pool -/

theorem updQ_kept {s₀ : State} (n : Nat) (f : Queue → Queue) {s : State} (hK : Kept s₀ s) : Kept s₀ (updQ n f s) := by
  unfold updQ
  try dsimp only
  repeat' first
    | with_reducible assumption
    | simp (disch := rfl) only [Kept.set]

theorem bumpQ_kept {s₀ : State} (n : Nat) (c : QCount) {s : State} (hK : Kept s₀ s) : Kept s₀ (bumpQ n c s) := by
  unfold bumpQ
  try dsimp only
  repeat' first
    | with_reducible assumption
    | with_reducible apply updQ_kept
    | split
    | simp (disch := rfl) only [Kept.set]

theorem modDesc_kept {s₀ : State} (c : Nat) (f : Nat → Nat) {s : State} (hK : Kept s₀ s) : Kept s₀ (modDesc c f s) :=
  hK.hbm (memWrite_wf _ _)

theorem linkDesc_kept {s₀ : State} (c : Nat) (next : Nat) {s : State} (hK : Kept s₀ s) : Kept s₀ (linkDesc c next s) := by
  unfold linkDesc
  try dsimp only
  repeat' first
    | with_reducible assumption
    | with_reducible apply modDesc_kept

theorem freeCells_kept {s₀ : State} (cs : List Nat) {s : State} (hK : Kept s₀ s) : Kept s₀ (freeCells cs s) := by
  unfold freeCells
  try dsimp only
  repeat' first
    | with_reducible assumption
    | simp (disch := rfl) only [Kept.set]

theorem pushFrame_kept {s₀ : State} (sl : Nat) (key : Nat) (f : HagilFrame) {s : State} (hK : Kept s₀ s) : Kept s₀ (pushFrame sl key f s) := by
  unfold pushFrame
  try dsimp only
  repeat' first
    | with_reducible assumption
    | simp (disch := rfl) only [Kept.set]

theorem queueFrames_kept {s₀ : State} (n : Nat) (q : Queue) (typ : Byte) (fs : List (Byte × List Byte)) {s : State} (hK : Kept s₀ s) : Kept s₀ (queueFrames n q typ fs s) := by
  unfold queueFrames
  try dsimp only
  repeat' first
    | with_reducible assumption
    | with_reducible exact Kept.refl _
    | intro _
    | with_reducible apply updQ_kept
    | with_reducible apply pushFrame_kept
    | with_reducible apply foldS_kept
    | split

theorem queueToFabric_kept {s₀ : State} (n : Nat) (bs : List Byte) (eop : Bool) (abort : Bool) {s : State} (hK : Kept s₀ s) : Kept s₀ (queueToFabric n bs eop abort s) := by
  unfold queueToFabric
  try dsimp only
  repeat' first
    | with_reducible assumption
    | with_reducible apply updQ_kept
    | with_reducible apply queueFrames_kept
    | split

theorem flushQ_kept {s₀ : State} (n : Nat) {s : State} (hK : Kept s₀ s) : Kept s₀ (flushQ n s) := by
  unfold flushQ
  try dsimp only
  repeat' first
    | with_reducible assumption
    | with_reducible exact Kept.refl _
    | intro _
    | dsimp only
    | with_reducible apply updChan_kept
    | with_reducible apply updQ_kept
    | with_reducible apply bumpQ_kept
    | with_reducible apply freeCells_kept
    | with_reducible apply queueToFabric_kept
    | split
    | simp (disch := rfl) only [Kept.set]

theorem evtQueueLoss_kept {s₀ : State} (n : Nat) (owner : Nat) (reason : Nat) (pc : Nat) (cells : Nat) (items : Nat) {s : State} (hK : Kept s₀ s) : Kept s₀ (evtQueueLoss n owner reason pc cells items s) := by
  unfold evtQueueLoss
  try dsimp only
  repeat' first
    | with_reducible assumption
    | with_reducible apply raise_kept

theorem takeFlush_kept {s₀ : State} (n : Nat) {s : State} (hK : Kept s₀ s) : Kept s₀ (takeFlush n s) := by
  unfold takeFlush
  try dsimp only
  repeat' first
    | with_reducible assumption
    | with_reducible exact Kept.refl _
    | intro _
    | dsimp only
    | with_reducible apply flushQ_kept
    | with_reducible apply evtQueueLoss_kept
    | split
    | simp (disch := rfl) only [Kept.set]

theorem flushPending_kept {s₀ : State} (n : Nat) {s : State} (hK : Kept s₀ s) : Kept s₀ (flushPending n s) := by
  unfold flushPending
  try dsimp only
  repeat' first
    | with_reducible assumption
    | with_reducible exact Kept.refl _
    | intro _
    | dsimp only
    | with_reducible apply takeFlush_kept
    | split
    | simp (disch := rfl) only [Kept.set]

theorem flushFor_kept {s₀ : State} (n : Nat) (why : Nat × Nat) {s : State} (hK : Kept s₀ s) : Kept s₀ (flushFor n why s) := by
  unfold flushFor
  try dsimp only
  repeat' first
    | with_reducible assumption
    | with_reducible exact Kept.refl _
    | intro _
    | dsimp only
    | with_reducible apply updQ_kept
    | with_reducible apply flushPending_kept
    | split
    | simp (disch := rfl) only [Kept.set]

theorem flushRetired_kept {s₀ : State} (n : Nat) (r : Retiring) {s : State} (hK : Kept s₀ s) : Kept s₀ (flushRetired n r s) := by
  unfold flushRetired
  try dsimp only
  repeat' first
    | with_reducible assumption
    | with_reducible exact Kept.refl _
    | intro _
    | dsimp only
    | with_reducible apply flushFor_kept
    | split

theorem flushDesc_kept {s₀ : State} (n : Nat) (c : Nat) {s : State} (hK : Kept s₀ s) : Kept s₀ (flushDesc n c s) := by
  unfold flushDesc
  try dsimp only
  repeat' first
    | with_reducible assumption
    | with_reducible exact Kept.refl _
    | intro _
    | dsimp only
    | with_reducible apply flushFor_kept
    | split
    | simp (disch := rfl) only [Kept.set]

theorem reclaimCell_kept {s₀ : State} (n : Nat) (q : Queue) {s : State} (hK : Kept s₀ s) : Kept s₀ (reclaimCell n q s).2 := by
  unfold reclaimCell
  try dsimp only
  repeat' first
    | with_reducible assumption
    | with_reducible exact Kept.refl _
    | intro _
    | dsimp only
    | with_reducible apply updQ_kept
    | with_reducible apply bumpQ_kept
    | with_reducible apply freeCells_kept
    | with_reducible apply flushRetired_kept
    | with_reducible apply flushDesc_kept
    | split
    | simp (disch := rfl) only [Kept.set]

theorem reclaimPacket_kept {s₀ : State} (n : Nat) (q : Queue) (k : List Nat × Option Nat) {s : State} (hK : Kept s₀ s) : Kept s₀ (reclaimPacket n q k s).2 := by
  unfold reclaimPacket
  try dsimp only
  repeat' first
    | with_reducible assumption
    | with_reducible exact Kept.refl _
    | intro _
    | dsimp only
    | with_reducible apply updQ_kept
    | with_reducible apply bumpQ_kept
    | with_reducible apply linkDesc_kept
    | with_reducible apply freeCells_kept
    | with_reducible apply flushRetired_kept
    | with_reducible apply flushDesc_kept
    | split
    | simp (disch := rfl) only [Kept.set]

theorem reclaimQ_kept {s₀ : State} (n : Nat) {s : State} (hK : Kept s₀ s) : Kept s₀ (reclaimQ n s).2 := by
  unfold reclaimQ
  try dsimp only
  repeat' first
    | with_reducible assumption
    | with_reducible exact Kept.refl _
    | intro _
    | dsimp only
    | with_reducible apply reclaimCell_kept
    | with_reducible apply reclaimPacket_kept
    | split
    | simp (disch := rfl) only [Kept.set]

theorem takeCell_kept {s₀ : State} {p c : Nat} {s t : State} (hK : Kept s₀ s) (e : takeCell p s = some (c, t)) : Kept s₀ t := by
  unfold takeCell at e
  split at e
  · injection e with e; injection e with _ e; subst e; simpa (disch := rfl) only [Kept.set] using hK
  · dsimp only at e
    split at e
    · injection e with e; injection e with _ e; subst e; simpa (disch := rfl) only [Kept.set] using hK
    · nomatch e

theorem allocQ_kept {s₀ : State} (fuel : Nat) (n : Nat) {s : State} (hK : Kept s₀ s) : Kept s₀ (allocQ fuel n s).2 := by
  induction fuel generalizing s with
  | zero => exact hK
  | succ f ih =>
    have h1 := reclaimQ_kept n hK
    have retry : ∀ {t : State} (b : Bool), Kept s₀ t → Kept s₀ (if b then (Alloc.flushed, t) else allocQ f n t).2 := by
      intro t b h
      cases b
      · exact ih h
      · exact h
    have again : ∀ a : Alloc, Kept s₀ (match reclaimQ n s with
        | (.freed, t) => allocQ f n t
        | (.flushed, t) => if qOpen ((queueAt s n).getD { kind := 0 }) then (Alloc.flushed, t) else allocQ f n t
        | (.nothing, t) => (a, t)).2 := by
      intro a
      split <;> rename_i e <;> rw [e] at h1
      · exact ih h1
      · exact retry _ h1
      · exact h1
    unfold allocQ
    split
    · exact hK
    · rename_i q hq
      rw [hq] at again
      dsimp only
      split
      · exact retry _ (flushRetired_kept _ _ hK)
      · split
        · exact again _
        · split
          · exact hK
          · split
            · exact retry _ (flushDesc_kept _ _ hK)
            · split
              · exact again _
              · rename_i e
                have h2 := takeCell_kept hK e
                refine updQ_kept _ _ ?_
                split
                · exact h2
                · exact linkDesc_kept _ _ h2

theorem writeCell_kept {s₀ : State} (q : Queue) (c : Nat) (bs : List Byte) (sop : Bool) (eop : Bool) {s : State} (hK : Kept s₀ s) :
    Kept s₀ (writeCell q c bs sop eop s) :=
  hK.hbm (fun w => memWrite_wf _ _ (memWrite_wf _ _ w))

theorem dropStream_kept {s₀ : State} (n : Nat) (k : Nat) {s : State} (hK : Kept s₀ s) : Kept s₀ (dropStream n k s) := by
  unfold dropStream
  try dsimp only
  repeat' first
    | with_reducible assumption
    | with_reducible apply updQ_kept
    | with_reducible apply bumpQ_kept
    | split

theorem touchTail_kept {s₀ : State} (n : Nat) {s : State} (hK : Kept s₀ s) : Kept s₀ (touchTail n s) := by
  unfold touchTail
  try dsimp only
  repeat' first
    | with_reducible assumption
    | with_reducible exact Kept.refl _
    | intro _
    | dsimp only
    | with_reducible apply flushRetired_kept
    | split
    | simp (disch := rfl) only [Kept.set]

theorem streamPut_kept {s₀ : State} (fuel : Nat) (n : Nat) (bs : List Byte) {s : State} (hK : Kept s₀ s) :
    Kept s₀ (streamPut fuel n bs s) := by
  induction fuel generalizing bs s with
  | zero => exact hK
  | succ f ih =>
    unfold streamPut
    split
    · exact hK
    · split
      · exact hK
      · rename_i q _
        have h1 := allocQ_kept (qCells q + 2) n hK
        dsimp only
        split
        · refine ih _ ?_
          repeat' first
            | with_reducible assumption
            | with_reducible apply updQ_kept
            | with_reducible apply writeCell_kept
            | with_reducible apply flushPending_kept
            | with_reducible apply touchTail_kept
            | split
        · split <;> rename_i e <;> rw [e] at h1
          · refine ih _ ?_
            repeat' first
              | with_reducible assumption
              | with_reducible apply updQ_kept
              | with_reducible apply writeCell_kept
              | with_reducible apply flushPending_kept
              | split
          · exact ih _ (dropStream_kept _ _ h1)

theorem rewindQ_kept {s₀ : State} (n : Nat) {s : State} (hK : Kept s₀ s) : Kept s₀ (rewindQ n s) := by
  unfold rewindQ
  try dsimp only
  repeat' first
    | with_reducible assumption
    | with_reducible exact Kept.refl _
    | intro _
    | dsimp only
    | with_reducible apply updQ_kept
    | with_reducible apply freeCells_kept
    | with_reducible apply flushRetired_kept
    | with_reducible apply flushDesc_kept
    | split
    | simp (disch := rfl) only [Kept.set]

theorem rewindCount_kept {s₀ : State} (n : Nat) (c : QCount) {s : State} (hK : Kept s₀ s) : Kept s₀ (rewindCount n c s) := by
  unfold rewindCount
  try dsimp only
  repeat' first
    | with_reducible assumption
    | with_reducible apply bumpQ_kept
    | with_reducible apply rewindQ_kept
    | split

theorem packetPut_kept {s₀ : State} (fuel : Nat) (n : Nat) (bs : List Byte) (last : Bool) {s : State} (hK : Kept s₀ s) :
    Kept s₀ (packetPut fuel n bs last s).2 := by
  induction fuel generalizing bs s with
  | zero => exact hK
  | succ f ih =>
    unfold packetPut
    split
    · exact hK
    · rename_i q _
      have h1 := allocQ_kept (qCells q + 2) n hK
      dsimp only
      split
      · repeat' first
          | with_reducible assumption
          | with_reducible apply updQ_kept
          | with_reducible apply writeCell_kept
          | with_reducible apply modDesc_kept
          | split
      · split
        · refine ih _ ?_
          repeat' first
            | with_reducible assumption
            | with_reducible apply updQ_kept
            | with_reducible apply writeCell_kept
            | with_reducible apply flushPending_kept
            | with_reducible apply touchTail_kept
            | split
        · split <;> rename_i e <;> rw [e] at h1
          · refine ih _ ?_
            repeat' first
              | with_reducible assumption
              | with_reducible apply updQ_kept
              | with_reducible apply writeCell_kept
              | with_reducible apply flushPending_kept
              | split
          · exact h1

theorem discardQ_kept {s₀ : State} (n : Nat) (last : Bool) {s : State} (hK : Kept s₀ s) : Kept s₀ (discardQ n last s) := by
  unfold discardQ
  try dsimp only
  repeat' first
    | with_reducible assumption
    | with_reducible apply updQ_kept

theorem commitQ_kept {s₀ : State} (n : Nat) {s : State} (hK : Kept s₀ s) : Kept s₀ (commitQ n s) := by
  unfold commitQ
  try dsimp only
  repeat' first
    | with_reducible assumption
    | with_reducible apply updQ_kept
    | split
    | simp (disch := rfl) only [Kept.set]

theorem fillMeter_kept {s₀ : State} (n : Nat) {s : State} (hK : Kept s₀ s) : Kept s₀ (fillMeter n s) := by
  unfold fillMeter
  try dsimp only
  repeat' first
    | with_reducible assumption
    | with_reducible exact Kept.refl _
    | intro _
    | dsimp only
    | with_reducible apply updQ_kept
    | split
    | simp (disch := rfl) only [Kept.set]

theorem meterSettle_kept {s₀ : State} {s : State} (hK : Kept s₀ s) : Kept s₀ (meterSettle s) := by
  unfold meterSettle
  try dsimp only
  repeat' first
    | with_reducible assumption
    | with_reducible exact Kept.refl _
    | intro _
    | dsimp only
    | with_reducible apply fillMeter_kept
    | with_reducible apply foldS_kept
    | split
    | simp (disch := rfl) only [Kept.set]

theorem packetWord_kept {s₀ : State} (n : Nat) (bs : List Byte) (last : Bool) (bad : Bool) {s : State} (hK : Kept s₀ s) :
    Kept s₀ (packetWord n bs last bad s) := by
  unfold packetWord
  split
  · exact hK
  · dsimp only
    have h1 := packetPut_kept (bs.length + 2) n bs last hK
    split
    · exact rewindCount_kept _ _ hK
    · split
      · exact discardQ_kept _ _ (rewindCount_kept _ _ hK)
      · split <;> rename_i e <;> rw [e] at h1
        · exact discardQ_kept _ _ h1
        · exact discardQ_kept _ _ (rewindCount_kept _ _ h1)
        · exact discardQ_kept _ _ (rewindCount_kept _ _ h1)
        · have h2 := updQ_kept n (fun q => { q with pktBytes := q.pktBytes + bs.length, meter := q.meter - (1000000 * bs.length : Nat) })
            (fillMeter_kept n h1)
          split
          · exact h2
          · split
            · exact rewindCount_kept _ _ h2
            · exact commitQ_kept _ h2

theorem firstWord_kept {s₀ : State} (n : Nat) (bs : List Byte) (last : Bool) (bad : Bool) {s : State} (hK : Kept s₀ s) : Kept s₀ (firstWord n bs last bad s) := by
  unfold firstWord
  try dsimp only
  repeat' first
    | with_reducible assumption
    | with_reducible apply updQ_kept
    | with_reducible apply bumpQ_kept
    | with_reducible apply discardQ_kept
    | with_reducible apply packetWord_kept
    | with_reducible apply fillMeter_kept
    | split

theorem writeWord_kept {s₀ : State} (n : Nat) (bs : List Byte) (first : Bool) (last : Bool) (bad : Bool) {s : State} (hK : Kept s₀ s) : Kept s₀ (writeWord n bs first last bad s) := by
  unfold writeWord
  try dsimp only
  repeat' first
    | with_reducible assumption
    | with_reducible apply updQ_kept
    | with_reducible apply dropStream_kept
    | with_reducible apply streamPut_kept
    | with_reducible apply rewindCount_kept
    | with_reducible apply packetWord_kept
    | with_reducible apply firstWord_kept
    | with_reducible apply flushPending_kept
    | split

theorem fabricWords_kept {s₀ : State} (fuel : Nat) (n : Nat) (bs : List Byte) (last bad : Bool) {s : State} (hK : Kept s₀ s) :
    Kept s₀ (fabricWords fuel n bs last bad s) := by
  induction fuel generalizing bs s with
  | zero => exact hK
  | succ f ih =>
    unfold fabricWords
    split
    · exact hK
    · split
      · exact ih _ (updQ_kept _ _ (writeWord_kept _ _ _ _ _ hK))
      · split
        · exact writeWord_kept _ _ _ _ _ (updQ_kept _ _ hK)
        · exact updQ_kept _ _ hK

theorem writerGone_kept {s₀ : State} (n : Nat) {s : State} (hK : Kept s₀ s) : Kept s₀ (writerGone n s) := by
  unfold writerGone
  try dsimp only
  repeat' first
    | with_reducible assumption
    | with_reducible exact Kept.refl _
    | intro _
    | dsimp only
    | with_reducible apply updQ_kept
    | with_reducible apply rewindCount_kept
    | split
    | simp (disch := rfl) only [Kept.set]

theorem drrPick_kept {s₀ : State} (fuel : Nat) (k : Nat) {s : State} (hK : Kept s₀ s) : Kept s₀ (drrPick fuel k s).2 := by
  induction fuel generalizing s with
  | zero => exact hK
  | succ f ih =>
    unfold drrPick
    split
    · exact hK
    · split
      · simpa (disch := rfl) only [Kept.set] using hK
      · split
        · exact hK
        · exact ih (updQ_kept _ _ (by simpa (disch := rfl) only [Kept.set] using hK))

theorem popCell_kept {s₀ : State} (n : Nat) {s : State} (hK : Kept s₀ s) : Kept s₀ (popCell n s) := by
  unfold popCell
  try dsimp only
  repeat' first
    | with_reducible assumption
    | with_reducible apply updQ_kept
    | with_reducible apply freeCells_kept
    | split

theorem ueSeen_kept {s₀ : State} (c : Nat) {s : State} (hK : Kept s₀ s) : Kept s₀ (ueSeen c s) := by
  unfold ueSeen
  try dsimp only
  repeat' first
    | with_reducible assumption
    | with_reducible exact Kept.refl _
    | intro _
    | dsimp only
    | split
    | simp (disch := rfl) only [Kept.set]

theorem readPacketCell_kept {s₀ : State} (n : Nat) (ue : Bool) {s : State} (hK : Kept s₀ s) : Kept s₀ (readPacketCell n ue s) := by
  unfold readPacketCell
  try dsimp only
  repeat' first
    | with_reducible assumption
    | with_reducible exact Kept.refl _
    | intro _
    | dsimp only
    | with_reducible apply updChan_kept
    | with_reducible apply updQ_kept
    | with_reducible apply bumpQ_kept
    | with_reducible apply queueToFabric_kept
    | with_reducible apply flushRetired_kept
    | with_reducible apply flushDesc_kept
    | with_reducible apply popCell_kept
    | with_reducible apply ueSeen_kept
    | split
    | simp (disch := rfl) only [Kept.set]

theorem leafTakes_kept {s₀ : State} (k : Nat) (bs : List Byte) {s : State} (hK : Kept s₀ s) : Kept s₀ (leafTakes k bs s) := by
  unfold leafTakes
  try dsimp only
  repeat' first
    | with_reducible assumption
    | with_reducible exact Kept.refl _
    | intro _
    | dsimp only
    | with_reducible apply updChan_kept
    | split
    | simp (disch := rfl) only [Kept.set]

theorem readStreamCell_kept {s₀ : State} (n : Nat) (ue : Bool) {s : State} (hK : Kept s₀ s) : Kept s₀ (readStreamCell n ue s) := by
  unfold readStreamCell
  try dsimp only
  repeat' first
    | with_reducible assumption
    | with_reducible exact Kept.refl _
    | intro _
    | dsimp only
    | with_reducible apply updChan_kept
    | with_reducible apply updQ_kept
    | with_reducible apply bumpQ_kept
    | with_reducible apply queueToFabric_kept
    | with_reducible apply flushRetired_kept
    | with_reducible apply flushDesc_kept
    | with_reducible apply popCell_kept
    | with_reducible apply ueSeen_kept
    | with_reducible apply leafTakes_kept
    | split
    | simp (disch := rfl) only [Kept.set]

theorem schedPick_kept {s₀ : State} (k : Nat) {s : State} (hK : Kept s₀ s) : Kept s₀ (schedPick k s).2 := by
  unfold schedPick
  try dsimp only
  repeat' first
    | with_reducible assumption
    | with_reducible apply drrPick_kept
    | split

theorem engineErrors_kept {s₀ : State} (cs : List Nat) (ue : List Nat) {s : State} (hK : Kept s₀ s) : Kept s₀ (engineErrors cs ue s) := by
  unfold engineErrors
  try dsimp only
  repeat' first
    | with_reducible assumption
    | with_reducible exact Kept.refl _
    | intro _
    | dsimp only
    | with_reducible apply modDesc_kept
    | with_reducible apply ueSeen_kept
    | with_reducible apply foldS_kept
    | split

theorem engineRead_kept {s₀ : State} (k : Nat) (n : Nat) (ue : List Nat) {s : State} (hK : Kept s₀ s) : Kept s₀ (engineRead k n ue s).2 := by
  unfold engineRead
  try dsimp only
  repeat' first
    | with_reducible assumption
    | with_reducible exact Kept.refl _
    | intro _
    | dsimp only
    | with_reducible apply updQ_kept
    | with_reducible apply bumpQ_kept
    | with_reducible apply freeCells_kept
    | with_reducible apply flushRetired_kept
    | with_reducible apply flushDesc_kept
    | with_reducible apply engineErrors_kept
    | with_reducible apply foldS_kept
    | split
    | simp (disch := rfl) only [Kept.set]

theorem dropQueue_kept {s₀ : State} (n : Nat) {s : State} (hK : Kept s₀ s) : Kept s₀ (dropQueue n s) := by
  unfold dropQueue
  try dsimp only
  repeat' first
    | with_reducible assumption
    | with_reducible apply freeCells_kept
    | split
    | simp (disch := rfl) only [Kept.set]

/-! ### Mapping -/

theorem leafFrames_kept {s₀ : State} (k : Nat) (typ : Byte) (fs : List (Byte × List Byte)) {s : State} (hK : Kept s₀ s) : Kept s₀ (leafFrames k typ fs s) := by
  unfold leafFrames
  try dsimp only
  repeat' first
    | with_reducible assumption
    | with_reducible exact Kept.refl _
    | intro _
    | with_reducible apply updChan_kept
    | with_reducible apply pushFrame_kept
    | with_reducible apply foldS_kept
    | split

theorem leafSend_kept {s₀ : State} (k : Nat) (bs : List Byte) (eop : Bool) (bad : Bool) {s : State} (hK : Kept s₀ s) : Kept s₀ (leafSend k bs eop bad s) := by
  unfold leafSend
  try dsimp only
  repeat' first
    | with_reducible assumption
    | with_reducible exact Kept.refl _
    | intro _
    | dsimp only
    | with_reducible apply sendXfeed_kept
    | with_reducible apply updChan_kept
    | with_reducible apply leafFrames_kept
    | with_reducible apply foldS_kept
    | split
    | simp (disch := rfl) only [Kept.set]

theorem chanToFabric_kept {s₀ : State} (k : Nat) (bs : List Byte) (eop : Bool) (bad : Bool) {s : State} (hK : Kept s₀ s) : Kept s₀ (chanToFabric k bs eop bad s) := by
  unfold chanToFabric
  try dsimp only
  repeat' first
    | with_reducible assumption
    | with_reducible exact Kept.refl _
    | intro _
    | dsimp only
    | with_reducible apply updChan_kept
    | with_reducible apply leafSend_kept
    | split
    | simp (disch := rfl) only [Kept.set]

theorem slotTx_kept {s₀ : State} (sl : Nat) {s : State} (hK : Kept s₀ s) : Kept s₀ (slotTx sl s) := by
  unfold slotTx
  try dsimp only
  repeat' first
    | with_reducible assumption
    | with_reducible exact Kept.refl _
    | intro _
    | dsimp only
    | with_reducible apply updChan_kept
    | split
    | simp (disch := rfl) only [Kept.set]

theorem queueItem_kept {s₀ : State} (n : Nat) (i : SeqItem) {s : State} (hK : Kept s₀ s) : Kept s₀ (queueItem n i s) := by
  unfold queueItem
  try dsimp only
  repeat' first
    | with_reducible assumption
    | with_reducible exact Kept.refl _
    | intro _
    | dsimp only
    | with_reducible apply updQ_kept
    | with_reducible apply fabricWords_kept
    | with_reducible apply writerGone_kept
    | split
    | simp (disch := rfl) only [Kept.set]

theorem leafRx_kept {s₀ : State} (k : Nat) (f : HagilFrame) {s : State} (hK : Kept s₀ s) : Kept s₀ (leafRx k f s) := by
  unfold leafRx
  try dsimp only
  repeat' first
    | with_reducible assumption
    | with_reducible apply updChan_kept
    | split

theorem queueRx_kept {s₀ : State} (n : Nat) (f : HagilFrame) {s : State} (hK : Kept s₀ s) : Kept s₀ (queueRx n f s) := by
  unfold queueRx
  try dsimp only
  repeat' first
    | with_reducible assumption
    | with_reducible exact Kept.refl _
    | intro _
    | with_reducible apply updQ_kept
    | with_reducible apply queueItem_kept
    | with_reducible apply foldS_kept
    | split

theorem hagilRx_kept {s₀ : State} (l : Nat) (f : HagilFrame) {s : State} (hK : Kept s₀ s) : Kept s₀ (hagilRx l f s) := by
  unfold hagilRx
  try dsimp only
  repeat' first
    | with_reducible assumption
    | with_reducible exact Kept.refl _
    | intro _
    | with_reducible apply modLane_kept
    | with_reducible apply leafRx_kept
    | with_reducible apply queueRx_kept
    | with_reducible apply foldS_kept
    | split

theorem leafSkip_kept {s₀ : State} (k : Nat) {s : State} (hK : Kept s₀ s) : Kept s₀ (leafSkip k s) := by
  unfold leafSkip
  try dsimp only
  repeat' first
    | with_reducible assumption
    | with_reducible apply updChan_kept
    | split

theorem queueSkip_kept {s₀ : State} (n : Nat) {s : State} (hK : Kept s₀ s) : Kept s₀ (queueSkip n s) := by
  unfold queueSkip
  try dsimp only
  repeat' first
    | with_reducible assumption
    | with_reducible exact Kept.refl _
    | intro _
    | with_reducible apply updQ_kept
    | with_reducible apply queueItem_kept
    | with_reducible apply foldS_kept
    | split

theorem leafNext_kept {s₀ : State} (k : Nat) (f : Pending → Pending) {s : State} (hK : Kept s₀ s) : Kept s₀ (leafNext k f s) := by
  unfold leafNext
  try dsimp only
  repeat' first
    | with_reducible assumption
    | with_reducible exact Kept.refl _
    | intro _
    | dsimp only
    | with_reducible apply updChan_kept
    | split
    | simp (disch := rfl) only [Kept.set]

theorem readSync_kept {s₀ : State} {s : State} (hK : Kept s₀ s) : Kept s₀ (readSync s) := by
  unfold readSync
  try dsimp only
  repeat' first
    | with_reducible assumption
    | with_reducible exact Kept.refl _
    | intro _
    | dsimp only
    | split
    | simp (disch := rfl) only [Kept.set]

theorem leafSettle_kept {s₀ : State} {s : State} (hK : Kept s₀ s) : Kept s₀ (leafSettle s) := by
  unfold leafSettle
  try dsimp only
  repeat' first
    | with_reducible assumption
    | with_reducible exact Kept.refl _
    | intro _
    | dsimp only
    | with_reducible apply readSync_kept
    | split
    | simp (disch := rfl) only [Kept.set]

theorem connectFabric_kept {s₀ : State} (k : Nat) (f : Nat) {s : State} (hK : Kept s₀ s) : Kept s₀ (connectFabric k f s) := by
  unfold connectFabric
  try dsimp only
  repeat' first
    | with_reducible assumption
    | with_reducible exact Kept.refl _
    | intro _
    | dsimp only
    | with_reducible apply leafNext_kept
    | split

theorem connectHairpin_kept {s₀ : State} (i : Nat) (e : Nat) {s : State} (hK : Kept s₀ s) : Kept s₀ (connectHairpin i e s) := by
  unfold connectHairpin
  try dsimp only
  repeat' first
    | with_reducible assumption
    | with_reducible exact Kept.refl _
    | intro _
    | dsimp only
    | with_reducible apply leafNext_kept
    | split

theorem connectQueue_kept {s₀ : State} (k : Nat) (n : Nat) {s : State} (hK : Kept s₀ s) : Kept s₀ (connectQueue k n s) := by
  unfold connectQueue
  try dsimp only
  repeat' first
    | with_reducible assumption
    | with_reducible exact Kept.refl _
    | intro _
    | dsimp only
    | with_reducible apply updQ_kept
    | with_reducible apply leafNext_kept
    | with_reducible apply readSync_kept
    | split
    | simp (disch := rfl) only [Kept.set]

theorem disconnect_kept {s₀ : State} (k : Nat) (kind : Nat) (target : Nat) {s : State} (hK : Kept s₀ s) : Kept s₀ (disconnect k kind target s) := by
  unfold disconnect
  try dsimp only
  repeat' first
    | with_reducible assumption
    | with_reducible exact Kept.refl _
    | intro _
    | dsimp only
    | with_reducible apply updQ_kept
    | with_reducible apply writerGone_kept
    | with_reducible apply leafNext_kept
    | with_reducible apply readSync_kept
    | split
    | simp (disch := rfl) only [Kept.set]

theorem gfpDeliver_kept {s₀ : State} (k : Nat) (pli : Nat) (f : GfpFrame) {s : State} (hK : Kept s₀ s) : Kept s₀ (gfpDeliver k pli f s) := by
  unfold gfpDeliver
  try dsimp only
  repeat' first
    | with_reducible assumption
    | with_reducible apply updChan_kept
    | with_reducible apply chanToFabric_kept
    | split

/-! ### Adapt -/

theorem rxJust_kept {s₀ : State} (k : Nat) (inst : Nat) (f : RxFrame) {s : State} (hK : Kept s₀ s) : Kept s₀ (rxJust k inst f s) := by
  unfold rxJust
  try dsimp only
  repeat' first
    | with_reducible assumption
    | with_reducible exact Kept.refl _
    | intro _
    | dsimp only
    | with_reducible apply updChan_kept
    | split
    | simp (disch := rfl) only [Kept.set]

theorem txJust_kept {s₀ : State} (k : Nat) (inst : Nat) (mfas : Nat) (omfi : Nat) {s : State} (hK : Kept s₀ s) : Kept s₀ (txJust k inst mfas omfi s).2 := by
  unfold txJust
  try dsimp only
  repeat' first
    | with_reducible assumption
    | with_reducible exact Kept.refl _
    | intro _
    | dsimp only
    | with_reducible apply updChan_kept
    | split
    | simp (disch := rfl) only [Kept.set]

theorem adaptClient_kept {s₀ : State} (k : Nat) {s : State} (hK : Kept s₀ s) : Kept s₀ (adaptClient k s) := by
  unfold adaptClient
  try dsimp only
  repeat' first
    | with_reducible assumption
    | with_reducible exact Kept.refl _
    | intro _
    | dsimp only
    | with_reducible apply updChan_kept
    | split

theorem txPointer_kept {s₀ : State} (k : Nat) {s : State} (hK : Kept s₀ s) : Kept s₀ (txPointer k s) := by
  unfold txPointer
  try dsimp only
  repeat' first
    | with_reducible assumption
    | with_reducible exact Kept.refl _
    | intro _
    | dsimp only
    | with_reducible apply updChan_kept
    | split
    | simp (disch := rfl) only [Kept.set]

theorem lcasRx_kept {s₀ : State} (k : Nat) (ctrl : Nat) (mst : Nat) (grp : Nat) (ack : Bool) {s : State} (hK : Kept s₀ s) : Kept s₀ (lcasRx k ctrl mst grp ack s) := by
  unfold lcasRx
  try dsimp only
  repeat' first
    | with_reducible assumption
    | with_reducible exact Kept.refl _
    | intro _
    | dsimp only
    | with_reducible apply updChan_kept
    | with_reducible apply foldS_kept
    | split
    | simp (disch := rfl) only [Kept.set]

theorem rxH4_kept {s₀ : State} (k : Nat) (b : Byte) {s : State} (hK : Kept s₀ s) : Kept s₀ (rxH4 k b s) := by
  unfold rxH4
  try dsimp only
  repeat' first
    | with_reducible assumption
    | with_reducible exact Kept.refl _
    | intro _
    | dsimp only
    | with_reducible apply updChan_kept
    | with_reducible apply lcasRx_kept
    | split
    | simp (disch := rfl) only [Kept.set]

theorem rxVcoh_kept {s₀ : State} (k : Nat) (f : RxFrame) {s : State} (hK : Kept s₀ s) : Kept s₀ (rxVcoh k f s) := by
  unfold rxVcoh
  try dsimp only
  repeat' first
    | with_reducible assumption
    | with_reducible exact Kept.refl _
    | intro _
    | dsimp only
    | with_reducible apply updChan_kept
    | with_reducible apply lcasRx_kept
    | split
    | simp (disch := rfl) only [Kept.set]

theorem rxVcat_kept {s₀ : State} (k : Nat) (f : RxFrame) {s : State} (hK : Kept s₀ s) : Kept s₀ (rxVcat k f s) := by
  unfold rxVcat
  try dsimp only
  repeat' first
    | with_reducible assumption
    | with_reducible exact Kept.refl _
    | intro _
    | dsimp only
    | with_reducible apply rxH4_kept
    | with_reducible apply rxVcoh_kept
    | split
    | simp (disch := rfl) only [Kept.set]

theorem txH4_kept {s₀ : State} (k : Nat) {s : State} (hK : Kept s₀ s) : Kept s₀ (txH4 k s).2 := by
  unfold txH4
  try dsimp only
  repeat' first
    | with_reducible assumption
    | with_reducible exact Kept.refl _
    | intro _
    | dsimp only
    | with_reducible apply updChan_kept
    | split
    | simp (disch := rfl) only [Kept.set]

theorem txVcoh_kept {s₀ : State} (k : Nat) (n : Nat) {s : State} (hK : Kept s₀ s) : Kept s₀ (txVcoh k n s).2 := by
  unfold txVcoh
  try dsimp only
  repeat' first
    | with_reducible assumption
    | with_reducible exact Kept.refl _
    | intro _
    | dsimp only
    | with_reducible apply updChan_kept
    | split
    | simp (disch := rfl) only [Kept.set]

theorem lcasMember_kept {s₀ : State} (g : Nat) (m : Nat) {s : State} (hK : Kept s₀ s) : Kept s₀ (lcasMember g m s) := by
  unfold lcasMember
  try dsimp only
  repeat' first
    | with_reducible assumption
    | with_reducible exact Kept.refl _
    | intro _
    | dsimp only
    | with_reducible apply updChan_kept
    | split
    | simp (disch := rfl) only [Kept.set]

theorem lcasGroup_kept {s₀ : State} (g : Nat) {s : State} (hK : Kept s₀ s) : Kept s₀ (lcasGroup g s) := by
  unfold lcasGroup
  try dsimp only
  repeat' first
    | with_reducible assumption
    | with_reducible exact Kept.refl _
    | intro _
    | dsimp only
    | with_reducible apply sendDecision_kept
    | with_reducible apply updChan_kept
    | with_reducible apply lcasMember_kept
    | with_reducible apply foldS_kept
    | split
    | simp (disch := rfl) only [Kept.set]

theorem lcasSettle_kept {s₀ : State} {s : State} (hK : Kept s₀ s) : Kept s₀ (lcasSettle s) := by
  unfold lcasSettle
  try dsimp only
  repeat' first
    | with_reducible assumption
    | with_reducible exact Kept.refl _
    | intro _
    | dsimp only
    | with_reducible apply lcasGroup_kept
    | with_reducible apply foldS_kept
    | split

/-! ### Lines -/

theorem lineSend_kept {s₀ : State} (p : Nat) (bytes : List Byte) {s : State} (hK : Kept s₀ s) : Kept s₀ (lineSend p bytes s) := by
  unfold lineSend
  try dsimp only
  repeat' first
    | with_reducible assumption
    | with_reducible exact Kept.refl _
    | intro _
    | dsimp only
    | with_reducible apply updPort_kept
    | with_reducible apply sendXfeed_kept
    | split
    | simp (disch := rfl) only [Kept.set]

/-! ### Braid -/

theorem updSide_kept {s₀ : State} (g : Nat) (tx : Bool) (f : Side → Side) {s : State} (hK : Kept s₀ s) : Kept s₀ (updSide g tx f s) := by
  unfold updSide
  try dsimp only
  repeat' first
    | with_reducible assumption
    | split
    | simp (disch := rfl) only [Kept.set]

theorem updMember_kept {s₀ : State} (g : Nat) (tx : Bool) (m : Nat) (f : Member → Member) {s : State} (hK : Kept s₀ s) : Kept s₀ (updMember g tx m f s) := by
  unfold updMember
  try dsimp only
  repeat' first
    | with_reducible assumption
    | with_reducible apply updSide_kept

theorem updClient_kept {s₀ : State} (g : Nat) (tx : Bool) (c : Nat) (f : Client → Client) {s : State} (hK : Kept s₀ s) : Kept s₀ (updClient g tx c f s) := by
  unfold updClient
  try dsimp only
  repeat' first
    | with_reducible assumption
    | with_reducible apply updSide_kept

theorem evtBraidMember_kept {s₀ : State} (g : Nat) (tx : Bool) (midx : Nat) (mstate : Nat) (fail : Bool) (status : Nat) (completes : Bool) {s : State} (hK : Kept s₀ s) : Kept s₀ (evtBraidMember g tx midx mstate fail status completes s) := by
  unfold evtBraidMember
  try dsimp only
  repeat' first
    | with_reducible assumption
    | with_reducible apply raise_kept

theorem evtMemberNow_kept {s₀ : State} (g : Nat) (tx : Bool) (midx : Nat) (status : Nat) (completes : Bool) {s : State} (hK : Kept s₀ s) : Kept s₀ (evtMemberNow g tx midx status completes s) := by
  unfold evtMemberNow
  try dsimp only
  repeat' first
    | with_reducible assumption
    | with_reducible apply evtBraidMember_kept
    | split

theorem evtMemberGone_kept {s₀ : State} (g : Nat) (tx : Bool) (m : Member) {s : State} (hK : Kept s₀ s) : Kept s₀ (evtMemberGone g tx m s) := by
  unfold evtMemberGone
  try dsimp only
  repeat' first
    | with_reducible assumption
    | with_reducible exact Kept.refl _
    | intro _
    | dsimp only
    | with_reducible apply evtBraidMember_kept
    | with_reducible apply foldS_kept
    | split

theorem evtBraidSched_kept {s₀ : State} (g : Nat) (tx : Bool) (n : Nat) {s : State} (hK : Kept s₀ s) : Kept s₀ (evtBraidSched g tx n s) := by
  unfold evtBraidSched
  try dsimp only
  repeat' first
    | with_reducible assumption
    | with_reducible exact Kept.refl _
    | intro _
    | dsimp only
    | with_reducible apply raise_kept
    | split
    | simp (disch := rfl) only [Kept.set]

theorem flushMember_kept {s₀ : State} (g : Nat) (m : Nat) {s : State} (hK : Kept s₀ s) : Kept s₀ (flushMember g m s) := by
  unfold flushMember
  try dsimp only
  repeat' first
    | with_reducible assumption
    | with_reducible apply flushQ_kept
    | with_reducible apply updMember_kept
    | split
    | simp (disch := rfl) only [Kept.set]

theorem flushMembers_kept {s₀ : State} (g : Nat) {s : State} (hK : Kept s₀ s) : Kept s₀ (flushMembers g s) := by
  unfold flushMembers
  try dsimp only
  repeat' first
    | with_reducible assumption
    | with_reducible exact Kept.refl _
    | intro _
    | with_reducible apply flushMember_kept
    | with_reducible apply foldS_kept
    | split

theorem toAcquire_kept {s₀ : State} (g : Nat) (count : Bool) {s : State} (hK : Kept s₀ s) : Kept s₀ (toAcquire g count s) := by
  unfold toAcquire
  try dsimp only
  repeat' first
    | with_reducible assumption
    | with_reducible exact Kept.refl _
    | intro _
    | dsimp only
    | with_reducible apply logAdd_kept
    | with_reducible apply updSide_kept
    | with_reducible apply flushMembers_kept
    | split
    | simp (disch := rfl) only [Kept.set]

theorem onMemberFail_kept {s₀ : State} (g : Nat) (m : Nat) {s : State} (hK : Kept s₀ s) : Kept s₀ (onMemberFail g m s) := by
  unfold onMemberFail
  try dsimp only
  repeat' first
    | with_reducible assumption
    | with_reducible apply updMember_kept
    | with_reducible apply evtMemberNow_kept
    | with_reducible apply flushMember_kept
    | with_reducible apply toAcquire_kept
    | split

theorem onMemberHealthy_kept {s₀ : State} (g : Nat) (m : Nat) {s : State} (hK : Kept s₀ s) : Kept s₀ (onMemberHealthy g m s) := by
  unfold onMemberHealthy
  try dsimp only
  repeat' first
    | with_reducible assumption
    | with_reducible apply updMember_kept
    | with_reducible apply evtMemberNow_kept
    | split

theorem trySetS_kept {s₀ : State} (g : Nat) {s : State} (hK : Kept s₀ s) : Kept s₀ (trySetS g s) := by
  unfold trySetS
  try dsimp only
  repeat' first
    | with_reducible assumption
    | with_reducible exact Kept.refl _
    | intro _
    | dsimp only
    | with_reducible apply engineRead_kept
    | with_reducible apply updSide_kept
    | with_reducible apply foldS_kept
    | with_reducible apply foldl_kept
    | split
    | simp (disch := rfl) only [Kept.set]

theorem braidRxSettle_kept {s₀ : State} (g : Nat) {s : State} (hK : Kept s₀ s) : Kept s₀ (braidRxSettle g s) := by
  unfold braidRxSettle
  try dsimp only
  repeat' first
    | with_reducible assumption
    | with_reducible exact Kept.refl _
    | intro _
    | dsimp only
    | with_reducible apply updSide_kept
    | with_reducible apply updMember_kept
    | with_reducible apply flushMembers_kept
    | with_reducible apply toAcquire_kept
    | with_reducible apply onMemberFail_kept
    | with_reducible apply onMemberHealthy_kept
    | with_reducible apply trySetS_kept
    | with_reducible apply foldS_kept
    | split
    | simp (disch := rfl) only [Kept.set]

theorem txRequest_kept {s₀ : State} (g : Nat) (m : Nat) (work : Bool) {s : State} (hK : Kept s₀ s) : Kept s₀ (txRequest g m work s) := by
  unfold txRequest
  try dsimp only
  repeat' first
    | with_reducible assumption
    | with_reducible apply updSide_kept

theorem beginChange_kept {s₀ : State} (g : Nat) (given : Option Nat) {s : State} (hK : Kept s₀ s) : Kept s₀ (beginChange g given s) := by
  unfold beginChange
  try dsimp only
  repeat' first
    | with_reducible assumption
    | with_reducible exact Kept.refl _
    | intro _
    | dsimp only
    | with_reducible apply updSide_kept
    | split
    | simp (disch := rfl) only [Kept.set]

theorem txChange_kept {s₀ : State} (g : Nat) {s : State} (hK : Kept s₀ s) : Kept s₀ (txChange g s) := by
  unfold txChange
  try dsimp only
  repeat' first
    | with_reducible assumption
    | with_reducible exact Kept.refl _
    | intro _
    | dsimp only
    | with_reducible apply sendDecision_kept
    | with_reducible apply beginChange_kept
    | split
    | simp (disch := rfl) only [Kept.set]

theorem suspendClients_kept {s₀ : State} (g : Nat) (given : Option Nat) {s : State} (hK : Kept s₀ s) : Kept s₀ (suspendClients g given s) := by
  unfold suspendClients
  try dsimp only
  repeat' first
    | with_reducible assumption
    | with_reducible exact Kept.refl _
    | intro _
    | with_reducible apply flushQ_kept
    | with_reducible apply updClient_kept
    | with_reducible apply foldS_kept
    | split
    | simp (disch := rfl) only [Kept.set]

theorem removesDone_kept {s₀ : State} (g : Nat) (m : Nat) {s : State} (hK : Kept s₀ s) : Kept s₀ (removesDone g m s) := by
  unfold removesDone
  try dsimp only
  repeat' first
    | with_reducible assumption
    | with_reducible exact Kept.refl _
    | intro _
    | dsimp only
    | with_reducible apply updMember_kept
    | with_reducible apply evtMemberNow_kept
    | with_reducible apply foldS_kept
    | split
    | simp (disch := rfl) only [Kept.set]

theorem txSwitch_kept {s₀ : State} (g : Nat) {s : State} (hK : Kept s₀ s) : Kept s₀ (txSwitch g s) := by
  unfold txSwitch
  try dsimp only
  repeat' first
    | with_reducible assumption
    | with_reducible exact Kept.refl _
    | intro _
    | dsimp only
    | with_reducible apply updSide_kept
    | with_reducible apply evtMemberNow_kept
    | with_reducible apply evtBraidSched_kept
    | with_reducible apply txChange_kept
    | with_reducible apply suspendClients_kept
    | with_reducible apply removesDone_kept
    | with_reducible apply foldS_kept
    | split
    | simp (disch := rfl) only [Kept.set]

theorem txLost_kept {s₀ : State} (g : Nat) (m : Nat) {s : State} (hK : Kept s₀ s) : Kept s₀ (txLost g m s) := by
  unfold txLost
  try dsimp only
  repeat' first
    | with_reducible assumption
    | with_reducible apply updMember_kept
    | with_reducible apply txRequest_kept
    | split

theorem farChange_kept {s₀ : State} (g : Nat) (m : Nat) (v : Bool) {s : State} (hK : Kept s₀ s) : Kept s₀ (farChange g m v s) := by
  unfold farChange
  try dsimp only
  repeat' first
    | with_reducible assumption
    | with_reducible exact Kept.refl _
    | intro _
    | dsimp only
    | with_reducible apply updMember_kept
    | with_reducible apply evtMemberNow_kept
    | with_reducible apply txRequest_kept
    | with_reducible apply txLost_kept
    | split
    | simp (disch := rfl) only [Kept.set]

theorem braidTxSettle_kept {s₀ : State} (g : Nat) {s : State} (hK : Kept s₀ s) : Kept s₀ (braidTxSettle g s) := by
  unfold braidTxSettle
  try dsimp only
  repeat' first
    | with_reducible assumption
    | with_reducible exact Kept.refl _
    | intro _
    | dsimp only
    | with_reducible apply txChange_kept
    | with_reducible apply txLost_kept
    | with_reducible apply farChange_kept
    | with_reducible apply foldS_kept
    | split
    | simp (disch := rfl) only [Kept.set]

theorem braidSettle_kept {s₀ : State} {s : State} (hK : Kept s₀ s) : Kept s₀ (braidSettle s) := by
  unfold braidSettle
  try dsimp only
  repeat' first
    | with_reducible assumption
    | with_reducible exact Kept.refl _
    | intro _
    | dsimp only
    | with_reducible apply updSide_kept
    | with_reducible apply braidRxSettle_kept
    | with_reducible apply braidTxSettle_kept
    | with_reducible apply foldS_kept
    | split
    | simp (disch := rfl) only [Kept.set]

theorem braidQueueLost_kept {s₀ : State} (g : Nat) (n : Nat) {s : State} (hK : Kept s₀ s) : Kept s₀ (braidQueueLost g n s) := by
  unfold braidQueueLost
  try dsimp only
  repeat' first
    | with_reducible assumption
    | with_reducible exact Kept.refl _
    | intro _
    | dsimp only
    | with_reducible apply updMember_kept
    | with_reducible apply toAcquire_kept
    | split
    | simp (disch := rfl) only [Kept.set]

theorem delays_kept {s₀ : State} {s : State} (d : Side) (hK : Kept s₀ s) : Kept s₀ (delays s d).2 := by
  unfold delays
  split
  · exact hK
  · refine foldPair_kept hK (fun b a => ?_)
    split
    · exact Kept.refl _
    · exact drawInt_kept (Kept.refl _)

theorem mstStep_kept {s₀ : State} (g : Nat) (i : Nat) (b : Byte) {s : State} (hK : Kept s₀ s) : Kept s₀ (mstStep g i b s) := by
  unfold mstStep
  try dsimp only
  repeat' first
    | with_reducible assumption
    | with_reducible exact Kept.refl _
    | intro _
    | with_reducible apply updMember_kept
    | with_reducible apply farChange_kept
    | with_reducible apply foldS_kept
    | split

theorem bgoAccept_kept {s₀ : State} (g : Nat) (midx : Nat) (b : List Byte) (ts : Nat) {s : State} (hK : Kept s₀ s) : Kept s₀ (bgoAccept g midx b ts s) := by
  unfold bgoAccept
  split
  · split
    · exact hK
    · split
      · exact updMember_kept _ _ _ _ (updSide_kept _ _ _ hK)
      · extract_lets fsn a tag tc ctrl work act nNew pend implied bad good first resync s1 s2 s3 s4 w s5 s6
        have h1 : Kept s₀ s1 := updMember_kept _ _ _ _ hK
        clear_value s1
        have h2 : Kept s₀ s2 := by
          dsimp only [s2]
          repeat' first
            | with_reducible assumption
            | with_reducible apply updSide_kept
            | split
        clear_value s2
        have h3 : Kept s₀ s3 := updSide_kept _ _ _ h2
        clear_value s3
        have h4 : Kept s₀ s4 := by
          dsimp only [s4]
          split
          · exact sendDecision_kept h3
          · exact h3
        clear_value s4
        have h5 : Kept s₀ s5 := updSide_kept _ _ _ h4
        clear_value s5
        refine mstStep_kept _ _ _ ?_
        dsimp only [s6]
        split
        · exact updSide_kept _ _ _ (delays_kept _ h5)
        · exact h5
  · exact hK

theorem braidFrameZero_kept {s₀ : State} (ch : Nat) {s : State} (hK : Kept s₀ s) : Kept s₀ (braidFrameZero ch s) := by
  unfold braidFrameZero
  try dsimp only
  repeat' first
    | with_reducible assumption
    | with_reducible exact Kept.refl _
    | intro _
    | dsimp only
    | split
    | simp (disch := rfl) only [Kept.set]

theorem queueStitch_kept {s₀ : State} (g : Nat) (midx : Nat) (p : SPos) (b : List Byte) {s : State} (hK : Kept s₀ s) : Kept s₀ (queueStitch g midx p b s) := by
  unfold queueStitch
  try dsimp only
  repeat' first
    | with_reducible assumption
    | with_reducible exact Kept.refl _
    | intro _
    | dsimp only
    | with_reducible apply dropStream_kept
    | with_reducible apply streamPut_kept
    | with_reducible apply updMember_kept
    | with_reducible apply toAcquire_kept
    | split
    | simp (disch := rfl) only [Kept.set]

theorem stitchRx_kept {s₀ : State} (g : Nat) (midx : Nat) (b : List Byte) {s : State} (hK : Kept s₀ s) : Kept s₀ (stitchRx g midx b s) := by
  unfold stitchRx
  try dsimp only
  repeat' first
    | with_reducible assumption
    | with_reducible exact Kept.refl _
    | intro _
    | dsimp only
    | with_reducible apply updSide_kept
    | with_reducible apply updMember_kept
    | with_reducible apply queueStitch_kept
    | split
    | simp (disch := rfl) only [Kept.set]

theorem clientToFabric_kept {s₀ : State} (g : Nat) (c : Nat) (bs : List Byte) {s : State} (hK : Kept s₀ s) : Kept s₀ (clientToFabric g c bs s) := by
  unfold clientToFabric
  try dsimp only
  repeat' first
    | with_reducible assumption
    | with_reducible apply pushFrame_kept
    | with_reducible apply updClient_kept
    | split

theorem readPosition_kept {s₀ : State} (g : Nat) (r : Nat) (ue : List Nat) (pos : Nat) (m : Nat) {s : State} (hK : Kept s₀ s) : Kept s₀ (readPosition g r ue pos m s) := by
  unfold readPosition
  try dsimp only
  repeat' first
    | with_reducible assumption
    | with_reducible exact Kept.refl _
    | intro _
    | dsimp only
    | with_reducible apply engineRead_kept
    | with_reducible apply updSide_kept
    | with_reducible apply updMember_kept
    | with_reducible apply clientToFabric_kept
    | split
    | simp (disch := rfl) only [Kept.set]

theorem roundRead_kept {s₀ : State} (g : Nat) (ue : List Nat) {s : State} (hK : Kept s₀ s) : Kept s₀ (roundRead g ue s) := by
  unfold roundRead
  try dsimp only
  repeat' first
    | with_reducible assumption
    | with_reducible exact Kept.refl _
    | intro _
    | dsimp only
    | with_reducible apply updSide_kept
    | with_reducible apply readPosition_kept
    | with_reducible apply foldS_kept
    | split
    | simp (disch := rfl) only [Kept.set]

theorem rxSwitch_kept {s₀ : State} (g : Nat) {s : State} (hK : Kept s₀ s) : Kept s₀ (rxSwitch g s) := by
  unfold rxSwitch
  try dsimp only
  repeat' first
    | with_reducible assumption
    | with_reducible exact Kept.refl _
    | intro _
    | dsimp only
    | with_reducible apply updSide_kept
    | with_reducible apply evtMemberNow_kept
    | with_reducible apply evtBraidSched_kept
    | with_reducible apply toAcquire_kept
    | with_reducible apply foldS_kept
    | split
    | simp (disch := rfl) only [Kept.set]

theorem formPosition_kept {s₀ : State} (g : Nat) (rmax : Nat) (W : Nat) (r : Nat) (ue : List Nat) (pos : Nat) (m : Nat) {s : State} (hK : Kept s₀ s) : Kept s₀ (formPosition g rmax W r ue pos m s) := by
  unfold formPosition
  try dsimp only
  repeat' first
    | with_reducible assumption
    | with_reducible exact Kept.refl _
    | intro _
    | dsimp only
    | with_reducible apply engineRead_kept
    | with_reducible apply updSide_kept
    | with_reducible apply updMember_kept
    | with_reducible apply updClient_kept
    | split
    | simp (disch := rfl) only [Kept.set]

theorem roundFormed_kept {s₀ : State} (g : Nat) (ue : List Nat) {s : State} (hK : Kept s₀ s) : Kept s₀ (roundFormed g ue s) := by
  unfold roundFormed
  try dsimp only
  repeat' first
    | with_reducible assumption
    | with_reducible exact Kept.refl _
    | intro _
    | dsimp only
    | with_reducible apply updSide_kept
    | with_reducible apply formPosition_kept
    | with_reducible apply foldS_kept
    | split
    | simp (disch := rfl) only [Kept.set]

theorem memberFrame_kept {s₀ : State} (ch : Nat) (n : Nat) {s : State} (hK : Kept s₀ s) : Kept s₀ (memberFrame ch n s).2 := by
  unfold memberFrame
  try dsimp only
  repeat' first
    | with_reducible assumption
    | with_reducible exact Kept.refl _
    | intro _
    | dsimp only
    | with_reducible apply updSide_kept
    | with_reducible apply updMember_kept
    | split
    | simp (disch := rfl) only [Kept.set]

theorem dropMember_kept {s₀ : State} (g : Nat) (tx : Bool) (m : Nat) {s : State} (hK : Kept s₀ s) : Kept s₀ (dropMember g tx m s) := by
  unfold dropMember
  try dsimp only
  repeat' first
    | with_reducible assumption
    | with_reducible apply dropQueue_kept
    | with_reducible apply updSide_kept
    | split

/-! ### Merge -/

theorem updWelt_kept {s₀ : State} (w : Nat) (f : Welt → Welt) {s : State} (hK : Kept s₀ s) : Kept s₀ (updWelt w f s) := by
  unfold updWelt
  try dsimp only
  repeat' first
    | with_reducible assumption
    | simp (disch := rfl) only [Kept.set]

theorem evtWelt_kept {s₀ : State} (w : Nat) (reason : Nat) {s : State} (hK : Kept s₀ s) : Kept s₀ (evtWelt w reason s) := by
  unfold evtWelt
  try dsimp only
  repeat' first
    | with_reducible assumption
    | with_reducible apply raise_kept
    | split

theorem setCopyState_kept {s₀ : State} (w : Nat) (c : Bool) (st : CopyState) {s : State} (hK : Kept s₀ s) : Kept s₀ (setCopyState w c st s) := by
  unfold setCopyState
  try dsimp only
  repeat' first
    | with_reducible assumption
    | with_reducible apply updWelt_kept
    | with_reducible apply evtWelt_kept
    | split

theorem moveReadout_kept {s₀ : State} (w : Nat) (src : Nat) (dst : Nat) {s : State} (hK : Kept s₀ s) : Kept s₀ (moveReadout w src dst s) := by
  unfold moveReadout
  try dsimp only
  repeat' first
    | with_reducible assumption
    | with_reducible exact Kept.refl _
    | intro _
    | dsimp only
    | split
    | simp (disch := rfl) only [Kept.set]

theorem weltSettle_kept {s₀ : State} {s : State} (hK : Kept s₀ s) : Kept s₀ (weltSettle s) := by
  unfold weltSettle
  try dsimp only
  repeat' first
    | with_reducible assumption
    | with_reducible exact Kept.refl _
    | intro _
    | dsimp only
    | with_reducible apply updWelt_kept
    | with_reducible apply evtWelt_kept
    | with_reducible apply moveReadout_kept
    | with_reducible apply foldS_kept
    | split
    | simp (disch := rfl) only [Kept.set]

theorem flushCopy_kept {s₀ : State} (q : Nat) {s : State} (hK : Kept s₀ s) : Kept s₀ (flushCopy q s) := by
  unfold flushCopy
  try dsimp only
  repeat' first
    | with_reducible assumption
    | with_reducible apply flushQ_kept
    | simp (disch := rfl) only [Kept.set]

theorem weltRealign_kept {s₀ : State} (w : Nat) {s : State} (hK : Kept s₀ s) : Kept s₀ (weltRealign w s) := by
  unfold weltRealign
  try dsimp only
  repeat' first
    | with_reducible assumption
    | with_reducible exact Kept.refl _
    | intro _
    | dsimp only
    | with_reducible apply updWelt_kept
    | with_reducible apply evtWelt_kept
    | with_reducible apply flushCopy_kept
    | split
    | simp (disch := rfl) only [Kept.set]

theorem weltAnchor_kept {s₀ : State} (w : Nat) {s : State} (hK : Kept s₀ s) : Kept s₀ (weltAnchor w s) := by
  unfold weltAnchor
  try dsimp only
  repeat' first
    | with_reducible assumption
    | with_reducible exact Kept.refl _
    | intro _
    | dsimp only
    | with_reducible apply updWelt_kept
    | with_reducible apply evtWelt_kept
    | with_reducible apply foldl_kept
    | split
    | simp (disch := rfl) only [Kept.set]

theorem wsoAccept_kept {s₀ : State} (w : Nat) (c : Bool) (reps : List (List Byte)) (start : Nat) (ended : Bool) {s : State} (hK : Kept s₀ s) : Kept s₀ (wsoAccept w c reps start ended s) := by
  unfold wsoAccept
  try dsimp only
  repeat' first
    | with_reducible assumption
    | with_reducible exact Kept.refl _
    | intro _
    | dsimp only
    | with_reducible apply updWelt_kept
    | with_reducible apply setCopyState_kept
    | with_reducible apply weltAnchor_kept
    | split
    | simp (disch := rfl) only [Kept.set]

theorem weltOut_kept {s₀ : State} (w : Nat) (bs : List Byte) {s : State} (hK : Kept s₀ s) : Kept s₀ (weltOut w bs s) := by
  unfold weltOut
  try dsimp only
  repeat' first
    | with_reducible assumption
    | with_reducible exact Kept.refl _
    | intro _
    | dsimp only
    | with_reducible apply pushFrame_kept
    | with_reducible apply updWelt_kept
    | with_reducible apply foldS_kept
    | split
    | simp (disch := rfl) only [Kept.set]

theorem weltPlayout_kept {s₀ : State} (w : Nat) (ue : List Nat) {s : State} (hK : Kept s₀ s) : Kept s₀ (weltPlayout w ue s) := by
  unfold weltPlayout
  try dsimp only
  repeat' first
    | with_reducible assumption
    | with_reducible exact Kept.refl _
    | intro _
    | dsimp only
    | with_reducible apply sendDecision_kept
    | with_reducible apply engineRead_kept
    | with_reducible apply updWelt_kept
    | with_reducible apply weltOut_kept
    | with_reducible apply decided_kept
    | split
    | simp (disch := rfl) only [Kept.set]

theorem evtWeltDisabled_kept {s₀ : State} (w : Nat) {s : State} (hK : Kept s₀ s) : Kept s₀ (evtWeltDisabled w s) := by
  unfold evtWeltDisabled
  try dsimp only
  repeat' first
    | with_reducible assumption
    | with_reducible apply raise_kept

theorem weltDisable_kept {s₀ : State} (w : Nat) {s : State} (hK : Kept s₀ s) : Kept s₀ (weltDisable w s) := by
  unfold weltDisable
  try dsimp only
  repeat' first
    | with_reducible assumption
    | with_reducible apply updChan_kept
    | with_reducible apply dropQueue_kept
    | with_reducible apply updWelt_kept
    | with_reducible apply evtWeltDisabled_kept
    | split

theorem weltQueue_kept {s₀ : State} (w : Nat) (limit : Nat) {s : State} (hK : Kept s₀ s) : Kept s₀ (weltQueue w limit s).2 := by
  unfold weltQueue
  try dsimp only
  repeat' first
    | with_reducible assumption
    | simp (disch := rfl) only [Kept.set]

theorem weltEnable_kept {s₀ : State} (w : Nat) {s : State} (hK : Kept s₀ s) : Kept s₀ (weltEnable w s) := by
  unfold weltEnable
  try dsimp only
  repeat' first
    | with_reducible assumption
    | with_reducible exact Kept.refl _
    | intro _
    | dsimp only
    | with_reducible apply updChan_kept
    | with_reducible apply updWelt_kept
    | with_reducible apply weltQueue_kept
    | split
    | simp (disch := rfl) only [Kept.set]

theorem weltQueueLost_kept {s₀ : State} (w : Nat) (n : Nat) {s : State} (hK : Kept s₀ s) : Kept s₀ (weltQueueLost w n s) := by
  unfold weltQueueLost
  try dsimp only
  repeat' first
    | with_reducible assumption
    | with_reducible apply updWelt_kept
    | with_reducible apply evtWelt_kept
    | split

theorem lostSettle_kept {s₀ : State} {s : State} (hK : Kept s₀ s) : Kept s₀ (lostSettle s) := by
  unfold lostSettle
  try dsimp only
  repeat' first
    | with_reducible assumption
    | with_reducible exact Kept.refl _
    | intro _
    | with_reducible apply braidQueueLost_kept
    | with_reducible apply weltQueueLost_kept
    | with_reducible apply foldS_kept
    | split
    | simp (disch := rfl) only [Kept.set]

theorem budgetSettle_kept {s₀ : State} {s : State} (hK : Kept s₀ s) : Kept s₀ (budgetSettle s) := by
  unfold budgetSettle
  try dsimp only
  repeat' first
    | with_reducible assumption
    | with_reducible exact Kept.refl _
    | intro _
    | dsimp only
    | with_reducible apply updQ_kept
    | with_reducible apply evtQueueLoss_kept
    | with_reducible apply updWelt_kept
    | with_reducible apply weltDisable_kept
    | with_reducible apply foldS_kept
    | split
    | simp (disch := rfl) only [Kept.set]

theorem budgetResume_kept {s₀ : State} {s : State} (hK : Kept s₀ s) : Kept s₀ (budgetResume s) := by
  unfold budgetResume
  try dsimp only
  repeat' first
    | with_reducible assumption
    | with_reducible exact Kept.refl _
    | intro _
    | with_reducible apply updQ_kept
    | with_reducible apply foldS_kept
    | split

theorem bridgeFrame_kept {s₀ : State} (ch : Nat) (n : Nat) {s : State} (hK : Kept s₀ s) : Kept s₀ (bridgeFrame ch n s).2 := by
  unfold bridgeFrame
  try dsimp only
  repeat' first
    | with_reducible assumption
    | with_reducible exact Kept.refl _
    | intro _
    | dsimp only
    | split
    | simp (disch := rfl) only [Kept.set]

/-! ### Perf -/

theorem monCreate_kept {s₀ : State} (addrs : List Nat) {s : State} (hK : Kept s₀ s) : Kept s₀ (monCreate addrs s) := by
  unfold monCreate
  try dsimp only
  repeat' first
    | with_reducible assumption
    | simp (disch := rfl) only [Kept.set]

theorem monDelete_kept {s₀ : State} (addrs : List Nat) {s : State} (hK : Kept s₀ s) : Kept s₀ (monDelete addrs s) := by
  unfold monDelete
  try dsimp only
  repeat' first
    | with_reducible assumption
    | simp (disch := rfl) only [Kept.set]

theorem secondsClose_kept {s₀ : State} {s : State} (hK : Kept s₀ s) : Kept s₀ (secondsClose s) := by
  unfold secondsClose
  try dsimp only
  repeat' first
    | with_reducible assumption
    | with_reducible refine Kept.upd ?_ (Nat.le_add_right _ _) rfl rfl rfl rfl rfl rfl

theorem binsAtSecond_kept {s₀ : State} {s : State} (hK : Kept s₀ s) : Kept s₀ (binsAtSecond s) := by
  unfold binsAtSecond
  try dsimp only
  repeat' first
    | with_reducible assumption
    | with_reducible exact Kept.refl _
    | intro _
    | dsimp only
    | split
    | simp (disch := rfl) only [Kept.set]

theorem binsAtStep_kept {s₀ : State} {s : State} (hK : Kept s₀ s) : Kept s₀ (binsAtStep s) := by
  unfold binsAtStep
  try dsimp only
  repeat' first
    | with_reducible assumption
    | simp (disch := rfl) only [Kept.set]

theorem evtTca_kept {s₀ : State} (addr : Nat) (b24 : Bool) (r : PmRec) (p : Nat) {s : State} (hK : Kept s₀ s) : Kept s₀ (evtTca addr b24 r p s) := by
  unfold evtTca
  try dsimp only
  repeat' first
    | with_reducible assumption
    | with_reducible apply raise_kept

theorem commitBins_kept {s₀ : State} (addr : Nat) (b24 : Bool) (n : Judge) (f : Judge) (m : Mon) (bins : List Bin) {s : State}
    (hK : Kept s₀ s) : Kept s₀ (commitBins addr b24 n f m bins s).2 := by
  unfold commitBins
  refine foldPair_kept hK (fun b a => ?_)
  dsimp only
  split
  · exact foldS_kept (Kept.refl _) (fun _ _ => evtTca_kept _ _ _ _ (Kept.refl _))
  · exact Kept.refl _

theorem judgePoint_kept {s₀ : State} (addr : Nat) (n : Judge) (f : Judge) {s : State} (hK : Kept s₀ s) : Kept s₀ (judgePoint addr n f s) := by
  unfold judgePoint
  try dsimp only
  repeat' first
    | with_reducible assumption
    | with_reducible exact Kept.refl _
    | intro _
    | dsimp only
    | with_reducible apply commitBins_kept
    | split
    | simp (disch := rfl) only [Kept.set]

theorem evalSecond_kept {s₀ : State} (addr : Nat) {s : State} (hK : Kept s₀ s) : Kept s₀ (evalSecond addr s) := by
  unfold evalSecond
  try dsimp only
  repeat' first
    | with_reducible assumption
    | with_reducible apply judgePoint_kept
    | split
    | simp (disch := rfl) only [Kept.set]

end Sys2Proof.Machine
end

