-- ==== Sys2Proof/Laws/Tables.lean ====
section
/-! SUPPORT. Sparse tables: reading after setting, deleting and changing an entry. -/

namespace Sys2Proof.Machine

variable {α : Type}

/-- The entry just set. -/
@[simp] theorem tget?_tset_self (t : Table α) (k : Nat) (v : α) : tget? (tset t k v) k = some v := by
  induction t with
  | nil => simp [tset, tget?]
  | cons e r ih =>
    simp only [tset]
    split
    · simp [tget?]
    · split
      · simp [tget?]
      · simp [tget?, *]

/-- An entry beside the one set. -/
theorem tget?_tset_ne (t : Table α) {j k : Nat} (v : α) (h : j ≠ k) : tget? (tset t k v) j = tget? t j := by
  induction t with
  | nil => simp [tset, tget?, Ne.symm h]
  | cons e r ih =>
    simp only [tset]
    split
    · next g => subst g; simp [tget?, Ne.symm h]
    · split
      · simp [tget?, Ne.symm h]
      · simp only [tget?]; rw [ih]

/-- The last value set counts. -/
@[simp] theorem tset_tset (t : Table α) (k : Nat) (v w : α) : tset (tset t k v) k w = tset t k w := by
  induction t with
  | nil => simp [tset]
  | cons e r ih =>
    obtain ⟨a, x⟩ := e
    simp only [tset]
    by_cases h1 : a = k
    · simp [h1, tset]
    · by_cases h2 : k < a
      · simp [h1, h2, tset]
      · simp [h1, h2, tset, ih]

/-- The entry at j after k is set. -/
theorem tget?_tset (t : Table α) (j k : Nat) (v : α) : tget? (tset t k v) j = if j = k then some v else tget? t j := by
  split
  · next h => subst h; exact tget?_tset_self t j v
  · next h => exact tget?_tset_ne t v h

@[simp] theorem tget_tset_self (t : Table α) (d : α) (k : Nat) (v : α) : tget (tset t k v) d k = v := by simp [tget]

theorem tget_tset_ne (t : Table α) (d : α) {j k : Nat} (v : α) (h : j ≠ k) : tget (tset t k v) d j = tget t d j := by
  simp [tget, tget?_tset_ne t v h]

@[simp] theorem tget_tmod_self (t : Table α) (d : α) (k : Nat) (f : α → α) : tget (tmod t d k f) d k = f (tget t d k) := by simp [tmod]

theorem tget_tmod_ne (t : Table α) (d : α) {j k : Nat} (f : α → α) (h : j ≠ k) : tget (tmod t d k f) d j = tget t d j := by
  simp [tmod, tget_tset_ne _ _ _ h]

theorem tget?_tmod_self (t : Table α) (d : α) (k : Nat) (f : α → α) : tget? (tmod t d k f) k = some (f (tget t d k)) := by simp [tmod]

theorem tget?_tmod_ne (t : Table α) (d : α) {j k : Nat} (f : α → α) (h : j ≠ k) : tget? (tmod t d k f) j = tget? t j := by
  simp [tmod, tget?_tset_ne _ _ h]

/-- An entry changed where it is present. -/
theorem tget?_tupd (t : Table α) (j k : Nat) (f : α → α) : tget? (tupd t k f) j = if j = k then (tget? t j).map f else tget? t j := by
  induction t with
  | nil => simp [tupd, tget?]
  | cons e r ih => unfold tupd at *; grind [tget?]

/-- No entry is left where one was deleted, and the others stand. -/
theorem tget?_tdel (t : Table α) (j k : Nat) : tget? (tdel t k) j = if j = k then none else tget? t j := by
  induction t with
  | nil => simp [tdel, tget?]
  | cons e r ih => unfold tdel at *; grind [tget?]

end Sys2Proof.Machine
end

