-- ==== Sys2Proof/Laws/State.lean ====
section
/-! SUPPORT. What each operation that changes one entry of the state leaves as it was, field by field, and what it makes of its entry. -/

namespace Sys2Proof.Machine

/-! modMbx changes host alone. -/

@[simp] theorem modMbx_pending (m : Nat) (f : Mailbox → Mailbox) (s : State) : (modMbx m f s).pending = s.pending := rfl
@[simp] theorem modMbx_now (m : Nat) (f : Mailbox → Mailbox) (s : State) : (modMbx m f s).now = s.now := rfl
@[simp] theorem modMbx_free (m : Nat) (f : Mailbox → Mailbox) (s : State) : (modMbx m f s).free = s.free := rfl
@[simp] theorem modMbx_pins (m : Nat) (f : Mailbox → Mailbox) (s : State) : (modMbx m f s).pins = s.pins := rfl
@[simp] theorem modMbx_boot (m : Nat) (f : Mailbox → Mailbox) (s : State) : (modMbx m f s).boot = s.boot := rfl
@[simp] theorem modMbx_power (m : Nat) (f : Mailbox → Mailbox) (s : State) : (modMbx m f s).power = s.power := rfl
@[simp] theorem modMbx_resets (m : Nat) (f : Mailbox → Mailbox) (s : State) : (modMbx m f s).resets = s.resets := rfl
@[simp] theorem modMbx_fw (m : Nat) (f : Mailbox → Mailbox) (s : State) : (modMbx m f s).fw = s.fw := rfl
@[simp] theorem modMbx_fault (m : Nat) (f : Mailbox → Mailbox) (s : State) : (modMbx m f s).fault = s.fault := rfl
@[simp] theorem modMbx_twin (m : Nat) (f : Mailbox → Mailbox) (s : State) : (modMbx m f s).twin = s.twin := rfl
@[simp] theorem modMbx_test (m : Nat) (f : Mailbox → Mailbox) (s : State) : (modMbx m f s).test = s.test := rfl
@[simp] theorem modMbx_lane (m : Nat) (f : Mailbox → Mailbox) (s : State) : (modMbx m f s).lane = s.lane := rfl
@[simp] theorem modMbx_port (m : Nat) (f : Mailbox → Mailbox) (s : State) : (modMbx m f s).port = s.port := rfl
@[simp] theorem modMbx_fabRx (m : Nat) (f : Mailbox → Mailbox) (s : State) : (modMbx m f s).fabRx = s.fabRx := rfl
@[simp] theorem modMbx_fabTx (m : Nat) (f : Mailbox → Mailbox) (s : State) : (modMbx m f s).fabTx = s.fabTx := rfl
@[simp] theorem modMbx_sliceTx (m : Nat) (f : Mailbox → Mailbox) (s : State) : (modMbx m f s).sliceTx = s.sliceTx := rfl
@[simp] theorem modMbx_oh (m : Nat) (f : Mailbox → Mailbox) (s : State) : (modMbx m f s).oh = s.oh := rfl
@[simp] theorem modMbx_mon (m : Nat) (f : Mailbox → Mailbox) (s : State) : (modMbx m f s).mon = s.mon := rfl
@[simp] theorem modMbx_pm (m : Nat) (f : Mailbox → Mailbox) (s : State) : (modMbx m f s).pm = s.pm := rfl
@[simp] theorem modMbx_chan (m : Nat) (f : Mailbox → Mailbox) (s : State) : (modMbx m f s).chan = s.chan := rfl
@[simp] theorem modMbx_flex (m : Nat) (f : Mailbox → Mailbox) (s : State) : (modMbx m f s).flex = s.flex := rfl
@[simp] theorem modMbx_braid (m : Nat) (f : Mailbox → Mailbox) (s : State) : (modMbx m f s).braid = s.braid := rfl
@[simp] theorem modMbx_pool (m : Nat) (f : Mailbox → Mailbox) (s : State) : (modMbx m f s).pool = s.pool := rfl
@[simp] theorem modMbx_prot (m : Nat) (f : Mailbox → Mailbox) (s : State) : (modMbx m f s).prot = s.prot := rfl
@[simp] theorem modMbx_bridge (m : Nat) (f : Mailbox → Mailbox) (s : State) : (modMbx m f s).bridge = s.bridge := rfl
@[simp] theorem modMbx_welt (m : Nat) (f : Mailbox → Mailbox) (s : State) : (modMbx m f s).welt = s.welt := rfl
@[simp] theorem modMbx_tmc (m : Nat) (f : Mailbox → Mailbox) (s : State) : (modMbx m f s).tmc = s.tmc := rfl
@[simp] theorem mbxOf_modMbx (m : Nat) (f : Mailbox → Mailbox) (s : State) : mbxOf (modMbx m f s) m = f (mbxOf s m) := by unfold mbxOf modMbx; simp
theorem mbxOf_modMbx_ne {j m : Nat} (f : Mailbox → Mailbox) (s : State) (h : j ≠ m) : mbxOf (modMbx m f s) j = mbxOf s j := by
  unfold mbxOf modMbx; exact tget_tmod_ne _ _ _ h

/-! setLane changes lane alone. -/

@[simp] theorem setLane_pending (k : Nat) (l : LaneRec) (s : State) : (setLane k l s).pending = s.pending := rfl
@[simp] theorem setLane_now (k : Nat) (l : LaneRec) (s : State) : (setLane k l s).now = s.now := rfl
@[simp] theorem setLane_free (k : Nat) (l : LaneRec) (s : State) : (setLane k l s).free = s.free := rfl
@[simp] theorem setLane_pins (k : Nat) (l : LaneRec) (s : State) : (setLane k l s).pins = s.pins := rfl
@[simp] theorem setLane_boot (k : Nat) (l : LaneRec) (s : State) : (setLane k l s).boot = s.boot := rfl
@[simp] theorem setLane_power (k : Nat) (l : LaneRec) (s : State) : (setLane k l s).power = s.power := rfl
@[simp] theorem setLane_resets (k : Nat) (l : LaneRec) (s : State) : (setLane k l s).resets = s.resets := rfl
@[simp] theorem setLane_host (k : Nat) (l : LaneRec) (s : State) : (setLane k l s).host = s.host := rfl
@[simp] theorem setLane_fw (k : Nat) (l : LaneRec) (s : State) : (setLane k l s).fw = s.fw := rfl
@[simp] theorem setLane_fault (k : Nat) (l : LaneRec) (s : State) : (setLane k l s).fault = s.fault := rfl
@[simp] theorem setLane_twin (k : Nat) (l : LaneRec) (s : State) : (setLane k l s).twin = s.twin := rfl
@[simp] theorem setLane_test (k : Nat) (l : LaneRec) (s : State) : (setLane k l s).test = s.test := rfl
@[simp] theorem setLane_port (k : Nat) (l : LaneRec) (s : State) : (setLane k l s).port = s.port := rfl
@[simp] theorem setLane_fabRx (k : Nat) (l : LaneRec) (s : State) : (setLane k l s).fabRx = s.fabRx := rfl
@[simp] theorem setLane_fabTx (k : Nat) (l : LaneRec) (s : State) : (setLane k l s).fabTx = s.fabTx := rfl
@[simp] theorem setLane_sliceTx (k : Nat) (l : LaneRec) (s : State) : (setLane k l s).sliceTx = s.sliceTx := rfl
@[simp] theorem setLane_oh (k : Nat) (l : LaneRec) (s : State) : (setLane k l s).oh = s.oh := rfl
@[simp] theorem setLane_mon (k : Nat) (l : LaneRec) (s : State) : (setLane k l s).mon = s.mon := rfl
@[simp] theorem setLane_pm (k : Nat) (l : LaneRec) (s : State) : (setLane k l s).pm = s.pm := rfl
@[simp] theorem setLane_chan (k : Nat) (l : LaneRec) (s : State) : (setLane k l s).chan = s.chan := rfl
@[simp] theorem setLane_flex (k : Nat) (l : LaneRec) (s : State) : (setLane k l s).flex = s.flex := rfl
@[simp] theorem setLane_braid (k : Nat) (l : LaneRec) (s : State) : (setLane k l s).braid = s.braid := rfl
@[simp] theorem setLane_pool (k : Nat) (l : LaneRec) (s : State) : (setLane k l s).pool = s.pool := rfl
@[simp] theorem setLane_prot (k : Nat) (l : LaneRec) (s : State) : (setLane k l s).prot = s.prot := rfl
@[simp] theorem setLane_bridge (k : Nat) (l : LaneRec) (s : State) : (setLane k l s).bridge = s.bridge := rfl
@[simp] theorem setLane_welt (k : Nat) (l : LaneRec) (s : State) : (setLane k l s).welt = s.welt := rfl
@[simp] theorem setLane_tmc (k : Nat) (l : LaneRec) (s : State) : (setLane k l s).tmc = s.tmc := rfl

/-! modLane changes lane alone. -/

@[simp] theorem modLane_pending (k : Nat) (f : LaneRec → LaneRec) (s : State) : (modLane k f s).pending = s.pending := rfl
@[simp] theorem modLane_now (k : Nat) (f : LaneRec → LaneRec) (s : State) : (modLane k f s).now = s.now := rfl
@[simp] theorem modLane_free (k : Nat) (f : LaneRec → LaneRec) (s : State) : (modLane k f s).free = s.free := rfl
@[simp] theorem modLane_pins (k : Nat) (f : LaneRec → LaneRec) (s : State) : (modLane k f s).pins = s.pins := rfl
@[simp] theorem modLane_boot (k : Nat) (f : LaneRec → LaneRec) (s : State) : (modLane k f s).boot = s.boot := rfl
@[simp] theorem modLane_power (k : Nat) (f : LaneRec → LaneRec) (s : State) : (modLane k f s).power = s.power := rfl
@[simp] theorem modLane_resets (k : Nat) (f : LaneRec → LaneRec) (s : State) : (modLane k f s).resets = s.resets := rfl
@[simp] theorem modLane_host (k : Nat) (f : LaneRec → LaneRec) (s : State) : (modLane k f s).host = s.host := rfl
@[simp] theorem modLane_fw (k : Nat) (f : LaneRec → LaneRec) (s : State) : (modLane k f s).fw = s.fw := rfl
@[simp] theorem modLane_fault (k : Nat) (f : LaneRec → LaneRec) (s : State) : (modLane k f s).fault = s.fault := rfl
@[simp] theorem modLane_twin (k : Nat) (f : LaneRec → LaneRec) (s : State) : (modLane k f s).twin = s.twin := rfl
@[simp] theorem modLane_test (k : Nat) (f : LaneRec → LaneRec) (s : State) : (modLane k f s).test = s.test := rfl
@[simp] theorem modLane_port (k : Nat) (f : LaneRec → LaneRec) (s : State) : (modLane k f s).port = s.port := rfl
@[simp] theorem modLane_fabRx (k : Nat) (f : LaneRec → LaneRec) (s : State) : (modLane k f s).fabRx = s.fabRx := rfl
@[simp] theorem modLane_fabTx (k : Nat) (f : LaneRec → LaneRec) (s : State) : (modLane k f s).fabTx = s.fabTx := rfl
@[simp] theorem modLane_sliceTx (k : Nat) (f : LaneRec → LaneRec) (s : State) : (modLane k f s).sliceTx = s.sliceTx := rfl
@[simp] theorem modLane_oh (k : Nat) (f : LaneRec → LaneRec) (s : State) : (modLane k f s).oh = s.oh := rfl
@[simp] theorem modLane_mon (k : Nat) (f : LaneRec → LaneRec) (s : State) : (modLane k f s).mon = s.mon := rfl
@[simp] theorem modLane_pm (k : Nat) (f : LaneRec → LaneRec) (s : State) : (modLane k f s).pm = s.pm := rfl
@[simp] theorem modLane_chan (k : Nat) (f : LaneRec → LaneRec) (s : State) : (modLane k f s).chan = s.chan := rfl
@[simp] theorem modLane_flex (k : Nat) (f : LaneRec → LaneRec) (s : State) : (modLane k f s).flex = s.flex := rfl
@[simp] theorem modLane_braid (k : Nat) (f : LaneRec → LaneRec) (s : State) : (modLane k f s).braid = s.braid := rfl
@[simp] theorem modLane_pool (k : Nat) (f : LaneRec → LaneRec) (s : State) : (modLane k f s).pool = s.pool := rfl
@[simp] theorem modLane_prot (k : Nat) (f : LaneRec → LaneRec) (s : State) : (modLane k f s).prot = s.prot := rfl
@[simp] theorem modLane_bridge (k : Nat) (f : LaneRec → LaneRec) (s : State) : (modLane k f s).bridge = s.bridge := rfl
@[simp] theorem modLane_welt (k : Nat) (f : LaneRec → LaneRec) (s : State) : (modLane k f s).welt = s.welt := rfl
@[simp] theorem modLane_tmc (k : Nat) (f : LaneRec → LaneRec) (s : State) : (modLane k f s).tmc = s.tmc := rfl
@[simp] theorem laneOf_setLane (k : Nat) (l : LaneRec) (s : State) : laneOf (setLane k l s) k = l := by unfold laneOf setLane; simp
@[simp] theorem laneOf_modLane (k : Nat) (f : LaneRec → LaneRec) (s : State) : laneOf (modLane k f s) k = f (laneOf s k) := by unfold modLane; simp

/-! modDom changes power alone. -/

@[simp] theorem modDom_pending (d : Nat) (f : Domain → Domain) (s : State) : (modDom d f s).pending = s.pending := rfl
@[simp] theorem modDom_now (d : Nat) (f : Domain → Domain) (s : State) : (modDom d f s).now = s.now := rfl
@[simp] theorem modDom_free (d : Nat) (f : Domain → Domain) (s : State) : (modDom d f s).free = s.free := rfl
@[simp] theorem modDom_pins (d : Nat) (f : Domain → Domain) (s : State) : (modDom d f s).pins = s.pins := rfl
@[simp] theorem modDom_boot (d : Nat) (f : Domain → Domain) (s : State) : (modDom d f s).boot = s.boot := rfl
@[simp] theorem modDom_resets (d : Nat) (f : Domain → Domain) (s : State) : (modDom d f s).resets = s.resets := rfl
@[simp] theorem modDom_host (d : Nat) (f : Domain → Domain) (s : State) : (modDom d f s).host = s.host := rfl
@[simp] theorem modDom_fw (d : Nat) (f : Domain → Domain) (s : State) : (modDom d f s).fw = s.fw := rfl
@[simp] theorem modDom_fault (d : Nat) (f : Domain → Domain) (s : State) : (modDom d f s).fault = s.fault := rfl
@[simp] theorem modDom_twin (d : Nat) (f : Domain → Domain) (s : State) : (modDom d f s).twin = s.twin := rfl
@[simp] theorem modDom_test (d : Nat) (f : Domain → Domain) (s : State) : (modDom d f s).test = s.test := rfl
@[simp] theorem modDom_lane (d : Nat) (f : Domain → Domain) (s : State) : (modDom d f s).lane = s.lane := rfl
@[simp] theorem modDom_port (d : Nat) (f : Domain → Domain) (s : State) : (modDom d f s).port = s.port := rfl
@[simp] theorem modDom_fabRx (d : Nat) (f : Domain → Domain) (s : State) : (modDom d f s).fabRx = s.fabRx := rfl
@[simp] theorem modDom_fabTx (d : Nat) (f : Domain → Domain) (s : State) : (modDom d f s).fabTx = s.fabTx := rfl
@[simp] theorem modDom_sliceTx (d : Nat) (f : Domain → Domain) (s : State) : (modDom d f s).sliceTx = s.sliceTx := rfl
@[simp] theorem modDom_oh (d : Nat) (f : Domain → Domain) (s : State) : (modDom d f s).oh = s.oh := rfl
@[simp] theorem modDom_mon (d : Nat) (f : Domain → Domain) (s : State) : (modDom d f s).mon = s.mon := rfl
@[simp] theorem modDom_pm (d : Nat) (f : Domain → Domain) (s : State) : (modDom d f s).pm = s.pm := rfl
@[simp] theorem modDom_chan (d : Nat) (f : Domain → Domain) (s : State) : (modDom d f s).chan = s.chan := rfl
@[simp] theorem modDom_flex (d : Nat) (f : Domain → Domain) (s : State) : (modDom d f s).flex = s.flex := rfl
@[simp] theorem modDom_braid (d : Nat) (f : Domain → Domain) (s : State) : (modDom d f s).braid = s.braid := rfl
@[simp] theorem modDom_pool (d : Nat) (f : Domain → Domain) (s : State) : (modDom d f s).pool = s.pool := rfl
@[simp] theorem modDom_prot (d : Nat) (f : Domain → Domain) (s : State) : (modDom d f s).prot = s.prot := rfl
@[simp] theorem modDom_bridge (d : Nat) (f : Domain → Domain) (s : State) : (modDom d f s).bridge = s.bridge := rfl
@[simp] theorem modDom_welt (d : Nat) (f : Domain → Domain) (s : State) : (modDom d f s).welt = s.welt := rfl
@[simp] theorem modDom_tmc (d : Nat) (f : Domain → Domain) (s : State) : (modDom d f s).tmc = s.tmc := rfl
@[simp] theorem domOf_modDom (d : Nat) (f : Domain → Domain) (s : State) : domOf (modDom d f s) d = f (domOf s d) := by unfold domOf modDom; simp
theorem domOf_modDom_ne {j d : Nat} (f : Domain → Domain) (s : State) (h : j ≠ d) : domOf (modDom d f s) j = domOf s j := by
  unfold domOf modDom; exact tget_tmod_ne _ _ _ h

/-! modSrc changes fault alone. -/

@[simp] theorem modSrc_pending (a : Nat) (f : Src → Src) (s : State) : (modSrc a f s).pending = s.pending := rfl
@[simp] theorem modSrc_now (a : Nat) (f : Src → Src) (s : State) : (modSrc a f s).now = s.now := rfl
@[simp] theorem modSrc_free (a : Nat) (f : Src → Src) (s : State) : (modSrc a f s).free = s.free := rfl
@[simp] theorem modSrc_pins (a : Nat) (f : Src → Src) (s : State) : (modSrc a f s).pins = s.pins := rfl
@[simp] theorem modSrc_boot (a : Nat) (f : Src → Src) (s : State) : (modSrc a f s).boot = s.boot := rfl
@[simp] theorem modSrc_power (a : Nat) (f : Src → Src) (s : State) : (modSrc a f s).power = s.power := rfl
@[simp] theorem modSrc_resets (a : Nat) (f : Src → Src) (s : State) : (modSrc a f s).resets = s.resets := rfl
@[simp] theorem modSrc_host (a : Nat) (f : Src → Src) (s : State) : (modSrc a f s).host = s.host := rfl
@[simp] theorem modSrc_fw (a : Nat) (f : Src → Src) (s : State) : (modSrc a f s).fw = s.fw := rfl
@[simp] theorem modSrc_twin (a : Nat) (f : Src → Src) (s : State) : (modSrc a f s).twin = s.twin := rfl
@[simp] theorem modSrc_test (a : Nat) (f : Src → Src) (s : State) : (modSrc a f s).test = s.test := rfl
@[simp] theorem modSrc_lane (a : Nat) (f : Src → Src) (s : State) : (modSrc a f s).lane = s.lane := rfl
@[simp] theorem modSrc_port (a : Nat) (f : Src → Src) (s : State) : (modSrc a f s).port = s.port := rfl
@[simp] theorem modSrc_fabRx (a : Nat) (f : Src → Src) (s : State) : (modSrc a f s).fabRx = s.fabRx := rfl
@[simp] theorem modSrc_fabTx (a : Nat) (f : Src → Src) (s : State) : (modSrc a f s).fabTx = s.fabTx := rfl
@[simp] theorem modSrc_sliceTx (a : Nat) (f : Src → Src) (s : State) : (modSrc a f s).sliceTx = s.sliceTx := rfl
@[simp] theorem modSrc_oh (a : Nat) (f : Src → Src) (s : State) : (modSrc a f s).oh = s.oh := rfl
@[simp] theorem modSrc_mon (a : Nat) (f : Src → Src) (s : State) : (modSrc a f s).mon = s.mon := rfl
@[simp] theorem modSrc_pm (a : Nat) (f : Src → Src) (s : State) : (modSrc a f s).pm = s.pm := rfl
@[simp] theorem modSrc_chan (a : Nat) (f : Src → Src) (s : State) : (modSrc a f s).chan = s.chan := rfl
@[simp] theorem modSrc_flex (a : Nat) (f : Src → Src) (s : State) : (modSrc a f s).flex = s.flex := rfl
@[simp] theorem modSrc_braid (a : Nat) (f : Src → Src) (s : State) : (modSrc a f s).braid = s.braid := rfl
@[simp] theorem modSrc_pool (a : Nat) (f : Src → Src) (s : State) : (modSrc a f s).pool = s.pool := rfl
@[simp] theorem modSrc_prot (a : Nat) (f : Src → Src) (s : State) : (modSrc a f s).prot = s.prot := rfl
@[simp] theorem modSrc_bridge (a : Nat) (f : Src → Src) (s : State) : (modSrc a f s).bridge = s.bridge := rfl
@[simp] theorem modSrc_welt (a : Nat) (f : Src → Src) (s : State) : (modSrc a f s).welt = s.welt := rfl
@[simp] theorem modSrc_tmc (a : Nat) (f : Src → Src) (s : State) : (modSrc a f s).tmc = s.tmc := rfl
@[simp] theorem srcOf_modSrc (a : Nat) (f : Src → Src) (s : State) : srcOf (modSrc a f s) a = f (srcOf s a) := by unfold srcOf modSrc; simp
theorem srcOf_modSrc_ne {j a : Nat} (f : Src → Src) (s : State) (h : j ≠ a) : srcOf (modSrc a f s) j = srcOf s j := by
  unfold srcOf modSrc; exact tget_tmod_ne _ _ _ h

/-! modCand changes tmc alone. -/

@[simp] theorem modCand_pending (c : Nat) (f : Candidate → Candidate) (s : State) : (modCand c f s).pending = s.pending := rfl
@[simp] theorem modCand_now (c : Nat) (f : Candidate → Candidate) (s : State) : (modCand c f s).now = s.now := rfl
@[simp] theorem modCand_free (c : Nat) (f : Candidate → Candidate) (s : State) : (modCand c f s).free = s.free := rfl
@[simp] theorem modCand_pins (c : Nat) (f : Candidate → Candidate) (s : State) : (modCand c f s).pins = s.pins := rfl
@[simp] theorem modCand_boot (c : Nat) (f : Candidate → Candidate) (s : State) : (modCand c f s).boot = s.boot := rfl
@[simp] theorem modCand_power (c : Nat) (f : Candidate → Candidate) (s : State) : (modCand c f s).power = s.power := rfl
@[simp] theorem modCand_resets (c : Nat) (f : Candidate → Candidate) (s : State) : (modCand c f s).resets = s.resets := rfl
@[simp] theorem modCand_host (c : Nat) (f : Candidate → Candidate) (s : State) : (modCand c f s).host = s.host := rfl
@[simp] theorem modCand_fw (c : Nat) (f : Candidate → Candidate) (s : State) : (modCand c f s).fw = s.fw := rfl
@[simp] theorem modCand_fault (c : Nat) (f : Candidate → Candidate) (s : State) : (modCand c f s).fault = s.fault := rfl
@[simp] theorem modCand_twin (c : Nat) (f : Candidate → Candidate) (s : State) : (modCand c f s).twin = s.twin := rfl
@[simp] theorem modCand_test (c : Nat) (f : Candidate → Candidate) (s : State) : (modCand c f s).test = s.test := rfl
@[simp] theorem modCand_lane (c : Nat) (f : Candidate → Candidate) (s : State) : (modCand c f s).lane = s.lane := rfl
@[simp] theorem modCand_port (c : Nat) (f : Candidate → Candidate) (s : State) : (modCand c f s).port = s.port := rfl
@[simp] theorem modCand_fabRx (c : Nat) (f : Candidate → Candidate) (s : State) : (modCand c f s).fabRx = s.fabRx := rfl
@[simp] theorem modCand_fabTx (c : Nat) (f : Candidate → Candidate) (s : State) : (modCand c f s).fabTx = s.fabTx := rfl
@[simp] theorem modCand_sliceTx (c : Nat) (f : Candidate → Candidate) (s : State) : (modCand c f s).sliceTx = s.sliceTx := rfl
@[simp] theorem modCand_oh (c : Nat) (f : Candidate → Candidate) (s : State) : (modCand c f s).oh = s.oh := rfl
@[simp] theorem modCand_mon (c : Nat) (f : Candidate → Candidate) (s : State) : (modCand c f s).mon = s.mon := rfl
@[simp] theorem modCand_pm (c : Nat) (f : Candidate → Candidate) (s : State) : (modCand c f s).pm = s.pm := rfl
@[simp] theorem modCand_chan (c : Nat) (f : Candidate → Candidate) (s : State) : (modCand c f s).chan = s.chan := rfl
@[simp] theorem modCand_flex (c : Nat) (f : Candidate → Candidate) (s : State) : (modCand c f s).flex = s.flex := rfl
@[simp] theorem modCand_braid (c : Nat) (f : Candidate → Candidate) (s : State) : (modCand c f s).braid = s.braid := rfl
@[simp] theorem modCand_pool (c : Nat) (f : Candidate → Candidate) (s : State) : (modCand c f s).pool = s.pool := rfl
@[simp] theorem modCand_prot (c : Nat) (f : Candidate → Candidate) (s : State) : (modCand c f s).prot = s.prot := rfl
@[simp] theorem modCand_bridge (c : Nat) (f : Candidate → Candidate) (s : State) : (modCand c f s).bridge = s.bridge := rfl
@[simp] theorem modCand_welt (c : Nat) (f : Candidate → Candidate) (s : State) : (modCand c f s).welt = s.welt := rfl
@[simp] theorem candOf_modCand (c : Nat) (f : Candidate → Candidate) (s : State) : candOf (modCand c f s) c = f (candOf s c) := by unfold candOf modCand; simp
theorem candOf_modCand_ne {j c : Nat} (f : Candidate → Candidate) (s : State) (h : j ≠ c) : candOf (modCand c f s) j = candOf s j := by
  unfold candOf modCand; exact tget_tmod_ne _ _ _ h

/-! modDpll changes tmc alone. -/

@[simp] theorem modDpll_pending (d : Nat) (f : Dpll → Dpll) (s : State) : (modDpll d f s).pending = s.pending := rfl
@[simp] theorem modDpll_now (d : Nat) (f : Dpll → Dpll) (s : State) : (modDpll d f s).now = s.now := rfl
@[simp] theorem modDpll_free (d : Nat) (f : Dpll → Dpll) (s : State) : (modDpll d f s).free = s.free := rfl
@[simp] theorem modDpll_pins (d : Nat) (f : Dpll → Dpll) (s : State) : (modDpll d f s).pins = s.pins := rfl
@[simp] theorem modDpll_boot (d : Nat) (f : Dpll → Dpll) (s : State) : (modDpll d f s).boot = s.boot := rfl
@[simp] theorem modDpll_power (d : Nat) (f : Dpll → Dpll) (s : State) : (modDpll d f s).power = s.power := rfl
@[simp] theorem modDpll_resets (d : Nat) (f : Dpll → Dpll) (s : State) : (modDpll d f s).resets = s.resets := rfl
@[simp] theorem modDpll_host (d : Nat) (f : Dpll → Dpll) (s : State) : (modDpll d f s).host = s.host := rfl
@[simp] theorem modDpll_fw (d : Nat) (f : Dpll → Dpll) (s : State) : (modDpll d f s).fw = s.fw := rfl
@[simp] theorem modDpll_fault (d : Nat) (f : Dpll → Dpll) (s : State) : (modDpll d f s).fault = s.fault := rfl
@[simp] theorem modDpll_twin (d : Nat) (f : Dpll → Dpll) (s : State) : (modDpll d f s).twin = s.twin := rfl
@[simp] theorem modDpll_test (d : Nat) (f : Dpll → Dpll) (s : State) : (modDpll d f s).test = s.test := rfl
@[simp] theorem modDpll_lane (d : Nat) (f : Dpll → Dpll) (s : State) : (modDpll d f s).lane = s.lane := rfl
@[simp] theorem modDpll_port (d : Nat) (f : Dpll → Dpll) (s : State) : (modDpll d f s).port = s.port := rfl
@[simp] theorem modDpll_fabRx (d : Nat) (f : Dpll → Dpll) (s : State) : (modDpll d f s).fabRx = s.fabRx := rfl
@[simp] theorem modDpll_fabTx (d : Nat) (f : Dpll → Dpll) (s : State) : (modDpll d f s).fabTx = s.fabTx := rfl
@[simp] theorem modDpll_sliceTx (d : Nat) (f : Dpll → Dpll) (s : State) : (modDpll d f s).sliceTx = s.sliceTx := rfl
@[simp] theorem modDpll_oh (d : Nat) (f : Dpll → Dpll) (s : State) : (modDpll d f s).oh = s.oh := rfl
@[simp] theorem modDpll_mon (d : Nat) (f : Dpll → Dpll) (s : State) : (modDpll d f s).mon = s.mon := rfl
@[simp] theorem modDpll_pm (d : Nat) (f : Dpll → Dpll) (s : State) : (modDpll d f s).pm = s.pm := rfl
@[simp] theorem modDpll_chan (d : Nat) (f : Dpll → Dpll) (s : State) : (modDpll d f s).chan = s.chan := rfl
@[simp] theorem modDpll_flex (d : Nat) (f : Dpll → Dpll) (s : State) : (modDpll d f s).flex = s.flex := rfl
@[simp] theorem modDpll_braid (d : Nat) (f : Dpll → Dpll) (s : State) : (modDpll d f s).braid = s.braid := rfl
@[simp] theorem modDpll_pool (d : Nat) (f : Dpll → Dpll) (s : State) : (modDpll d f s).pool = s.pool := rfl
@[simp] theorem modDpll_prot (d : Nat) (f : Dpll → Dpll) (s : State) : (modDpll d f s).prot = s.prot := rfl
@[simp] theorem modDpll_bridge (d : Nat) (f : Dpll → Dpll) (s : State) : (modDpll d f s).bridge = s.bridge := rfl
@[simp] theorem modDpll_welt (d : Nat) (f : Dpll → Dpll) (s : State) : (modDpll d f s).welt = s.welt := rfl
@[simp] theorem dpllOf_modDpll (d : Nat) (f : Dpll → Dpll) (s : State) : dpllOf (modDpll d f s) d = f (dpllOf s d) := by unfold dpllOf modDpll; simp
theorem dpllOf_modDpll_ne {j d : Nat} (f : Dpll → Dpll) (s : State) (h : j ≠ d) : dpllOf (modDpll d f s) j = dpllOf s j := by
  unfold dpllOf modDpll; exact tget_tmod_ne _ _ _ h

/-! modOut changes tmc alone. -/

@[simp] theorem modOut_pending (n : Nat) (f : Output → Output) (s : State) : (modOut n f s).pending = s.pending := rfl
@[simp] theorem modOut_now (n : Nat) (f : Output → Output) (s : State) : (modOut n f s).now = s.now := rfl
@[simp] theorem modOut_free (n : Nat) (f : Output → Output) (s : State) : (modOut n f s).free = s.free := rfl
@[simp] theorem modOut_pins (n : Nat) (f : Output → Output) (s : State) : (modOut n f s).pins = s.pins := rfl
@[simp] theorem modOut_boot (n : Nat) (f : Output → Output) (s : State) : (modOut n f s).boot = s.boot := rfl
@[simp] theorem modOut_power (n : Nat) (f : Output → Output) (s : State) : (modOut n f s).power = s.power := rfl
@[simp] theorem modOut_resets (n : Nat) (f : Output → Output) (s : State) : (modOut n f s).resets = s.resets := rfl
@[simp] theorem modOut_host (n : Nat) (f : Output → Output) (s : State) : (modOut n f s).host = s.host := rfl
@[simp] theorem modOut_fw (n : Nat) (f : Output → Output) (s : State) : (modOut n f s).fw = s.fw := rfl
@[simp] theorem modOut_fault (n : Nat) (f : Output → Output) (s : State) : (modOut n f s).fault = s.fault := rfl
@[simp] theorem modOut_twin (n : Nat) (f : Output → Output) (s : State) : (modOut n f s).twin = s.twin := rfl
@[simp] theorem modOut_test (n : Nat) (f : Output → Output) (s : State) : (modOut n f s).test = s.test := rfl
@[simp] theorem modOut_lane (n : Nat) (f : Output → Output) (s : State) : (modOut n f s).lane = s.lane := rfl
@[simp] theorem modOut_port (n : Nat) (f : Output → Output) (s : State) : (modOut n f s).port = s.port := rfl
@[simp] theorem modOut_fabRx (n : Nat) (f : Output → Output) (s : State) : (modOut n f s).fabRx = s.fabRx := rfl
@[simp] theorem modOut_fabTx (n : Nat) (f : Output → Output) (s : State) : (modOut n f s).fabTx = s.fabTx := rfl
@[simp] theorem modOut_sliceTx (n : Nat) (f : Output → Output) (s : State) : (modOut n f s).sliceTx = s.sliceTx := rfl
@[simp] theorem modOut_oh (n : Nat) (f : Output → Output) (s : State) : (modOut n f s).oh = s.oh := rfl
@[simp] theorem modOut_mon (n : Nat) (f : Output → Output) (s : State) : (modOut n f s).mon = s.mon := rfl
@[simp] theorem modOut_pm (n : Nat) (f : Output → Output) (s : State) : (modOut n f s).pm = s.pm := rfl
@[simp] theorem modOut_chan (n : Nat) (f : Output → Output) (s : State) : (modOut n f s).chan = s.chan := rfl
@[simp] theorem modOut_flex (n : Nat) (f : Output → Output) (s : State) : (modOut n f s).flex = s.flex := rfl
@[simp] theorem modOut_braid (n : Nat) (f : Output → Output) (s : State) : (modOut n f s).braid = s.braid := rfl
@[simp] theorem modOut_pool (n : Nat) (f : Output → Output) (s : State) : (modOut n f s).pool = s.pool := rfl
@[simp] theorem modOut_prot (n : Nat) (f : Output → Output) (s : State) : (modOut n f s).prot = s.prot := rfl
@[simp] theorem modOut_bridge (n : Nat) (f : Output → Output) (s : State) : (modOut n f s).bridge = s.bridge := rfl
@[simp] theorem modOut_welt (n : Nat) (f : Output → Output) (s : State) : (modOut n f s).welt = s.welt := rfl
@[simp] theorem outOf_modOut (n : Nat) (f : Output → Output) (s : State) : outOf (modOut n f s) n = f (outOf s n) := by unfold outOf modOut; simp
theorem outOf_modOut_ne {j n : Nat} (f : Output → Output) (s : State) (h : j ≠ n) : outOf (modOut n f s) j = outOf s j := by
  unfold outOf modOut; exact tget_tmod_ne _ _ _ h

/-! updPort changes port alone. -/

@[simp] theorem updPort_pending (p : Nat) (f : Port → Port) (s : State) : (updPort p f s).pending = s.pending := rfl
@[simp] theorem updPort_now (p : Nat) (f : Port → Port) (s : State) : (updPort p f s).now = s.now := rfl
@[simp] theorem updPort_free (p : Nat) (f : Port → Port) (s : State) : (updPort p f s).free = s.free := rfl
@[simp] theorem updPort_pins (p : Nat) (f : Port → Port) (s : State) : (updPort p f s).pins = s.pins := rfl
@[simp] theorem updPort_boot (p : Nat) (f : Port → Port) (s : State) : (updPort p f s).boot = s.boot := rfl
@[simp] theorem updPort_power (p : Nat) (f : Port → Port) (s : State) : (updPort p f s).power = s.power := rfl
@[simp] theorem updPort_resets (p : Nat) (f : Port → Port) (s : State) : (updPort p f s).resets = s.resets := rfl
@[simp] theorem updPort_host (p : Nat) (f : Port → Port) (s : State) : (updPort p f s).host = s.host := rfl
@[simp] theorem updPort_fw (p : Nat) (f : Port → Port) (s : State) : (updPort p f s).fw = s.fw := rfl
@[simp] theorem updPort_fault (p : Nat) (f : Port → Port) (s : State) : (updPort p f s).fault = s.fault := rfl
@[simp] theorem updPort_twin (p : Nat) (f : Port → Port) (s : State) : (updPort p f s).twin = s.twin := rfl
@[simp] theorem updPort_test (p : Nat) (f : Port → Port) (s : State) : (updPort p f s).test = s.test := rfl
@[simp] theorem updPort_lane (p : Nat) (f : Port → Port) (s : State) : (updPort p f s).lane = s.lane := rfl
@[simp] theorem updPort_fabRx (p : Nat) (f : Port → Port) (s : State) : (updPort p f s).fabRx = s.fabRx := rfl
@[simp] theorem updPort_fabTx (p : Nat) (f : Port → Port) (s : State) : (updPort p f s).fabTx = s.fabTx := rfl
@[simp] theorem updPort_sliceTx (p : Nat) (f : Port → Port) (s : State) : (updPort p f s).sliceTx = s.sliceTx := rfl
@[simp] theorem updPort_oh (p : Nat) (f : Port → Port) (s : State) : (updPort p f s).oh = s.oh := rfl
@[simp] theorem updPort_mon (p : Nat) (f : Port → Port) (s : State) : (updPort p f s).mon = s.mon := rfl
@[simp] theorem updPort_pm (p : Nat) (f : Port → Port) (s : State) : (updPort p f s).pm = s.pm := rfl
@[simp] theorem updPort_chan (p : Nat) (f : Port → Port) (s : State) : (updPort p f s).chan = s.chan := rfl
@[simp] theorem updPort_flex (p : Nat) (f : Port → Port) (s : State) : (updPort p f s).flex = s.flex := rfl
@[simp] theorem updPort_braid (p : Nat) (f : Port → Port) (s : State) : (updPort p f s).braid = s.braid := rfl
@[simp] theorem updPort_pool (p : Nat) (f : Port → Port) (s : State) : (updPort p f s).pool = s.pool := rfl
@[simp] theorem updPort_prot (p : Nat) (f : Port → Port) (s : State) : (updPort p f s).prot = s.prot := rfl
@[simp] theorem updPort_bridge (p : Nat) (f : Port → Port) (s : State) : (updPort p f s).bridge = s.bridge := rfl
@[simp] theorem updPort_welt (p : Nat) (f : Port → Port) (s : State) : (updPort p f s).welt = s.welt := rfl
@[simp] theorem updPort_tmc (p : Nat) (f : Port → Port) (s : State) : (updPort p f s).tmc = s.tmc := rfl

/-! updChan changes chan alone. -/

@[simp] theorem updChan_pending (k : Nat) (f : Chan → Chan) (s : State) : (updChan k f s).pending = s.pending := rfl
@[simp] theorem updChan_now (k : Nat) (f : Chan → Chan) (s : State) : (updChan k f s).now = s.now := rfl
@[simp] theorem updChan_free (k : Nat) (f : Chan → Chan) (s : State) : (updChan k f s).free = s.free := rfl
@[simp] theorem updChan_pins (k : Nat) (f : Chan → Chan) (s : State) : (updChan k f s).pins = s.pins := rfl
@[simp] theorem updChan_boot (k : Nat) (f : Chan → Chan) (s : State) : (updChan k f s).boot = s.boot := rfl
@[simp] theorem updChan_power (k : Nat) (f : Chan → Chan) (s : State) : (updChan k f s).power = s.power := rfl
@[simp] theorem updChan_resets (k : Nat) (f : Chan → Chan) (s : State) : (updChan k f s).resets = s.resets := rfl
@[simp] theorem updChan_host (k : Nat) (f : Chan → Chan) (s : State) : (updChan k f s).host = s.host := rfl
@[simp] theorem updChan_fw (k : Nat) (f : Chan → Chan) (s : State) : (updChan k f s).fw = s.fw := rfl
@[simp] theorem updChan_fault (k : Nat) (f : Chan → Chan) (s : State) : (updChan k f s).fault = s.fault := rfl
@[simp] theorem updChan_twin (k : Nat) (f : Chan → Chan) (s : State) : (updChan k f s).twin = s.twin := rfl
@[simp] theorem updChan_test (k : Nat) (f : Chan → Chan) (s : State) : (updChan k f s).test = s.test := rfl
@[simp] theorem updChan_lane (k : Nat) (f : Chan → Chan) (s : State) : (updChan k f s).lane = s.lane := rfl
@[simp] theorem updChan_port (k : Nat) (f : Chan → Chan) (s : State) : (updChan k f s).port = s.port := rfl
@[simp] theorem updChan_fabRx (k : Nat) (f : Chan → Chan) (s : State) : (updChan k f s).fabRx = s.fabRx := rfl
@[simp] theorem updChan_fabTx (k : Nat) (f : Chan → Chan) (s : State) : (updChan k f s).fabTx = s.fabTx := rfl
@[simp] theorem updChan_sliceTx (k : Nat) (f : Chan → Chan) (s : State) : (updChan k f s).sliceTx = s.sliceTx := rfl
@[simp] theorem updChan_oh (k : Nat) (f : Chan → Chan) (s : State) : (updChan k f s).oh = s.oh := rfl
@[simp] theorem updChan_mon (k : Nat) (f : Chan → Chan) (s : State) : (updChan k f s).mon = s.mon := rfl
@[simp] theorem updChan_pm (k : Nat) (f : Chan → Chan) (s : State) : (updChan k f s).pm = s.pm := rfl
@[simp] theorem updChan_flex (k : Nat) (f : Chan → Chan) (s : State) : (updChan k f s).flex = s.flex := rfl
@[simp] theorem updChan_braid (k : Nat) (f : Chan → Chan) (s : State) : (updChan k f s).braid = s.braid := rfl
@[simp] theorem updChan_pool (k : Nat) (f : Chan → Chan) (s : State) : (updChan k f s).pool = s.pool := rfl
@[simp] theorem updChan_prot (k : Nat) (f : Chan → Chan) (s : State) : (updChan k f s).prot = s.prot := rfl
@[simp] theorem updChan_bridge (k : Nat) (f : Chan → Chan) (s : State) : (updChan k f s).bridge = s.bridge := rfl
@[simp] theorem updChan_welt (k : Nat) (f : Chan → Chan) (s : State) : (updChan k f s).welt = s.welt := rfl
@[simp] theorem updChan_tmc (k : Nat) (f : Chan → Chan) (s : State) : (updChan k f s).tmc = s.tmc := rfl

/-! updMon changes mon alone. -/

@[simp] theorem updMon_pending (a : Nat) (f : Mon → Mon) (s : State) : (updMon a f s).pending = s.pending := rfl
@[simp] theorem updMon_now (a : Nat) (f : Mon → Mon) (s : State) : (updMon a f s).now = s.now := rfl
@[simp] theorem updMon_free (a : Nat) (f : Mon → Mon) (s : State) : (updMon a f s).free = s.free := rfl
@[simp] theorem updMon_pins (a : Nat) (f : Mon → Mon) (s : State) : (updMon a f s).pins = s.pins := rfl
@[simp] theorem updMon_boot (a : Nat) (f : Mon → Mon) (s : State) : (updMon a f s).boot = s.boot := rfl
@[simp] theorem updMon_power (a : Nat) (f : Mon → Mon) (s : State) : (updMon a f s).power = s.power := rfl
@[simp] theorem updMon_resets (a : Nat) (f : Mon → Mon) (s : State) : (updMon a f s).resets = s.resets := rfl
@[simp] theorem updMon_host (a : Nat) (f : Mon → Mon) (s : State) : (updMon a f s).host = s.host := rfl
@[simp] theorem updMon_fw (a : Nat) (f : Mon → Mon) (s : State) : (updMon a f s).fw = s.fw := rfl
@[simp] theorem updMon_fault (a : Nat) (f : Mon → Mon) (s : State) : (updMon a f s).fault = s.fault := rfl
@[simp] theorem updMon_twin (a : Nat) (f : Mon → Mon) (s : State) : (updMon a f s).twin = s.twin := rfl
@[simp] theorem updMon_test (a : Nat) (f : Mon → Mon) (s : State) : (updMon a f s).test = s.test := rfl
@[simp] theorem updMon_lane (a : Nat) (f : Mon → Mon) (s : State) : (updMon a f s).lane = s.lane := rfl
@[simp] theorem updMon_port (a : Nat) (f : Mon → Mon) (s : State) : (updMon a f s).port = s.port := rfl
@[simp] theorem updMon_fabRx (a : Nat) (f : Mon → Mon) (s : State) : (updMon a f s).fabRx = s.fabRx := rfl
@[simp] theorem updMon_fabTx (a : Nat) (f : Mon → Mon) (s : State) : (updMon a f s).fabTx = s.fabTx := rfl
@[simp] theorem updMon_sliceTx (a : Nat) (f : Mon → Mon) (s : State) : (updMon a f s).sliceTx = s.sliceTx := rfl
@[simp] theorem updMon_oh (a : Nat) (f : Mon → Mon) (s : State) : (updMon a f s).oh = s.oh := rfl
@[simp] theorem updMon_pm (a : Nat) (f : Mon → Mon) (s : State) : (updMon a f s).pm = s.pm := rfl
@[simp] theorem updMon_chan (a : Nat) (f : Mon → Mon) (s : State) : (updMon a f s).chan = s.chan := rfl
@[simp] theorem updMon_flex (a : Nat) (f : Mon → Mon) (s : State) : (updMon a f s).flex = s.flex := rfl
@[simp] theorem updMon_braid (a : Nat) (f : Mon → Mon) (s : State) : (updMon a f s).braid = s.braid := rfl
@[simp] theorem updMon_pool (a : Nat) (f : Mon → Mon) (s : State) : (updMon a f s).pool = s.pool := rfl
@[simp] theorem updMon_prot (a : Nat) (f : Mon → Mon) (s : State) : (updMon a f s).prot = s.prot := rfl
@[simp] theorem updMon_bridge (a : Nat) (f : Mon → Mon) (s : State) : (updMon a f s).bridge = s.bridge := rfl
@[simp] theorem updMon_welt (a : Nat) (f : Mon → Mon) (s : State) : (updMon a f s).welt = s.welt := rfl
@[simp] theorem updMon_tmc (a : Nat) (f : Mon → Mon) (s : State) : (updMon a f s).tmc = s.tmc := rfl

/-! updOh changes oh alone. -/

@[simp] theorem updOh_pending (k : Nat) (f : Oh → Oh) (s : State) : (updOh k f s).pending = s.pending := rfl
@[simp] theorem updOh_now (k : Nat) (f : Oh → Oh) (s : State) : (updOh k f s).now = s.now := rfl
@[simp] theorem updOh_free (k : Nat) (f : Oh → Oh) (s : State) : (updOh k f s).free = s.free := rfl
@[simp] theorem updOh_pins (k : Nat) (f : Oh → Oh) (s : State) : (updOh k f s).pins = s.pins := rfl
@[simp] theorem updOh_boot (k : Nat) (f : Oh → Oh) (s : State) : (updOh k f s).boot = s.boot := rfl
@[simp] theorem updOh_power (k : Nat) (f : Oh → Oh) (s : State) : (updOh k f s).power = s.power := rfl
@[simp] theorem updOh_resets (k : Nat) (f : Oh → Oh) (s : State) : (updOh k f s).resets = s.resets := rfl
@[simp] theorem updOh_host (k : Nat) (f : Oh → Oh) (s : State) : (updOh k f s).host = s.host := rfl
@[simp] theorem updOh_fw (k : Nat) (f : Oh → Oh) (s : State) : (updOh k f s).fw = s.fw := rfl
@[simp] theorem updOh_fault (k : Nat) (f : Oh → Oh) (s : State) : (updOh k f s).fault = s.fault := rfl
@[simp] theorem updOh_twin (k : Nat) (f : Oh → Oh) (s : State) : (updOh k f s).twin = s.twin := rfl
@[simp] theorem updOh_test (k : Nat) (f : Oh → Oh) (s : State) : (updOh k f s).test = s.test := rfl
@[simp] theorem updOh_lane (k : Nat) (f : Oh → Oh) (s : State) : (updOh k f s).lane = s.lane := rfl
@[simp] theorem updOh_port (k : Nat) (f : Oh → Oh) (s : State) : (updOh k f s).port = s.port := rfl
@[simp] theorem updOh_fabRx (k : Nat) (f : Oh → Oh) (s : State) : (updOh k f s).fabRx = s.fabRx := rfl
@[simp] theorem updOh_fabTx (k : Nat) (f : Oh → Oh) (s : State) : (updOh k f s).fabTx = s.fabTx := rfl
@[simp] theorem updOh_sliceTx (k : Nat) (f : Oh → Oh) (s : State) : (updOh k f s).sliceTx = s.sliceTx := rfl
@[simp] theorem updOh_mon (k : Nat) (f : Oh → Oh) (s : State) : (updOh k f s).mon = s.mon := rfl
@[simp] theorem updOh_pm (k : Nat) (f : Oh → Oh) (s : State) : (updOh k f s).pm = s.pm := rfl
@[simp] theorem updOh_chan (k : Nat) (f : Oh → Oh) (s : State) : (updOh k f s).chan = s.chan := rfl
@[simp] theorem updOh_flex (k : Nat) (f : Oh → Oh) (s : State) : (updOh k f s).flex = s.flex := rfl
@[simp] theorem updOh_braid (k : Nat) (f : Oh → Oh) (s : State) : (updOh k f s).braid = s.braid := rfl
@[simp] theorem updOh_pool (k : Nat) (f : Oh → Oh) (s : State) : (updOh k f s).pool = s.pool := rfl
@[simp] theorem updOh_prot (k : Nat) (f : Oh → Oh) (s : State) : (updOh k f s).prot = s.prot := rfl
@[simp] theorem updOh_bridge (k : Nat) (f : Oh → Oh) (s : State) : (updOh k f s).bridge = s.bridge := rfl
@[simp] theorem updOh_welt (k : Nat) (f : Oh → Oh) (s : State) : (updOh k f s).welt = s.welt := rfl
@[simp] theorem updOh_tmc (k : Nat) (f : Oh → Oh) (s : State) : (updOh k f s).tmc = s.tmc := rfl

/-! updQ changes pool alone. -/

@[simp] theorem updQ_pending (n : Nat) (f : Queue → Queue) (s : State) : (updQ n f s).pending = s.pending := rfl
@[simp] theorem updQ_now (n : Nat) (f : Queue → Queue) (s : State) : (updQ n f s).now = s.now := rfl
@[simp] theorem updQ_free (n : Nat) (f : Queue → Queue) (s : State) : (updQ n f s).free = s.free := rfl
@[simp] theorem updQ_pins (n : Nat) (f : Queue → Queue) (s : State) : (updQ n f s).pins = s.pins := rfl
@[simp] theorem updQ_boot (n : Nat) (f : Queue → Queue) (s : State) : (updQ n f s).boot = s.boot := rfl
@[simp] theorem updQ_power (n : Nat) (f : Queue → Queue) (s : State) : (updQ n f s).power = s.power := rfl
@[simp] theorem updQ_resets (n : Nat) (f : Queue → Queue) (s : State) : (updQ n f s).resets = s.resets := rfl
@[simp] theorem updQ_host (n : Nat) (f : Queue → Queue) (s : State) : (updQ n f s).host = s.host := rfl
@[simp] theorem updQ_fw (n : Nat) (f : Queue → Queue) (s : State) : (updQ n f s).fw = s.fw := rfl
@[simp] theorem updQ_fault (n : Nat) (f : Queue → Queue) (s : State) : (updQ n f s).fault = s.fault := rfl
@[simp] theorem updQ_twin (n : Nat) (f : Queue → Queue) (s : State) : (updQ n f s).twin = s.twin := rfl
@[simp] theorem updQ_test (n : Nat) (f : Queue → Queue) (s : State) : (updQ n f s).test = s.test := rfl
@[simp] theorem updQ_lane (n : Nat) (f : Queue → Queue) (s : State) : (updQ n f s).lane = s.lane := rfl
@[simp] theorem updQ_port (n : Nat) (f : Queue → Queue) (s : State) : (updQ n f s).port = s.port := rfl
@[simp] theorem updQ_fabRx (n : Nat) (f : Queue → Queue) (s : State) : (updQ n f s).fabRx = s.fabRx := rfl
@[simp] theorem updQ_fabTx (n : Nat) (f : Queue → Queue) (s : State) : (updQ n f s).fabTx = s.fabTx := rfl
@[simp] theorem updQ_sliceTx (n : Nat) (f : Queue → Queue) (s : State) : (updQ n f s).sliceTx = s.sliceTx := rfl
@[simp] theorem updQ_oh (n : Nat) (f : Queue → Queue) (s : State) : (updQ n f s).oh = s.oh := rfl
@[simp] theorem updQ_mon (n : Nat) (f : Queue → Queue) (s : State) : (updQ n f s).mon = s.mon := rfl
@[simp] theorem updQ_pm (n : Nat) (f : Queue → Queue) (s : State) : (updQ n f s).pm = s.pm := rfl
@[simp] theorem updQ_chan (n : Nat) (f : Queue → Queue) (s : State) : (updQ n f s).chan = s.chan := rfl
@[simp] theorem updQ_flex (n : Nat) (f : Queue → Queue) (s : State) : (updQ n f s).flex = s.flex := rfl
@[simp] theorem updQ_braid (n : Nat) (f : Queue → Queue) (s : State) : (updQ n f s).braid = s.braid := rfl
@[simp] theorem updQ_prot (n : Nat) (f : Queue → Queue) (s : State) : (updQ n f s).prot = s.prot := rfl
@[simp] theorem updQ_bridge (n : Nat) (f : Queue → Queue) (s : State) : (updQ n f s).bridge = s.bridge := rfl
@[simp] theorem updQ_welt (n : Nat) (f : Queue → Queue) (s : State) : (updQ n f s).welt = s.welt := rfl
@[simp] theorem updQ_tmc (n : Nat) (f : Queue → Queue) (s : State) : (updQ n f s).tmc = s.tmc := rfl

/-! updWelt changes welt alone. -/

@[simp] theorem updWelt_pending (w : Nat) (f : Welt → Welt) (s : State) : (updWelt w f s).pending = s.pending := rfl
@[simp] theorem updWelt_now (w : Nat) (f : Welt → Welt) (s : State) : (updWelt w f s).now = s.now := rfl
@[simp] theorem updWelt_free (w : Nat) (f : Welt → Welt) (s : State) : (updWelt w f s).free = s.free := rfl
@[simp] theorem updWelt_pins (w : Nat) (f : Welt → Welt) (s : State) : (updWelt w f s).pins = s.pins := rfl
@[simp] theorem updWelt_boot (w : Nat) (f : Welt → Welt) (s : State) : (updWelt w f s).boot = s.boot := rfl
@[simp] theorem updWelt_power (w : Nat) (f : Welt → Welt) (s : State) : (updWelt w f s).power = s.power := rfl
@[simp] theorem updWelt_resets (w : Nat) (f : Welt → Welt) (s : State) : (updWelt w f s).resets = s.resets := rfl
@[simp] theorem updWelt_host (w : Nat) (f : Welt → Welt) (s : State) : (updWelt w f s).host = s.host := rfl
@[simp] theorem updWelt_fw (w : Nat) (f : Welt → Welt) (s : State) : (updWelt w f s).fw = s.fw := rfl
@[simp] theorem updWelt_fault (w : Nat) (f : Welt → Welt) (s : State) : (updWelt w f s).fault = s.fault := rfl
@[simp] theorem updWelt_twin (w : Nat) (f : Welt → Welt) (s : State) : (updWelt w f s).twin = s.twin := rfl
@[simp] theorem updWelt_test (w : Nat) (f : Welt → Welt) (s : State) : (updWelt w f s).test = s.test := rfl
@[simp] theorem updWelt_lane (w : Nat) (f : Welt → Welt) (s : State) : (updWelt w f s).lane = s.lane := rfl
@[simp] theorem updWelt_port (w : Nat) (f : Welt → Welt) (s : State) : (updWelt w f s).port = s.port := rfl
@[simp] theorem updWelt_fabRx (w : Nat) (f : Welt → Welt) (s : State) : (updWelt w f s).fabRx = s.fabRx := rfl
@[simp] theorem updWelt_fabTx (w : Nat) (f : Welt → Welt) (s : State) : (updWelt w f s).fabTx = s.fabTx := rfl
@[simp] theorem updWelt_sliceTx (w : Nat) (f : Welt → Welt) (s : State) : (updWelt w f s).sliceTx = s.sliceTx := rfl
@[simp] theorem updWelt_oh (w : Nat) (f : Welt → Welt) (s : State) : (updWelt w f s).oh = s.oh := rfl
@[simp] theorem updWelt_mon (w : Nat) (f : Welt → Welt) (s : State) : (updWelt w f s).mon = s.mon := rfl
@[simp] theorem updWelt_pm (w : Nat) (f : Welt → Welt) (s : State) : (updWelt w f s).pm = s.pm := rfl
@[simp] theorem updWelt_chan (w : Nat) (f : Welt → Welt) (s : State) : (updWelt w f s).chan = s.chan := rfl
@[simp] theorem updWelt_flex (w : Nat) (f : Welt → Welt) (s : State) : (updWelt w f s).flex = s.flex := rfl
@[simp] theorem updWelt_braid (w : Nat) (f : Welt → Welt) (s : State) : (updWelt w f s).braid = s.braid := rfl
@[simp] theorem updWelt_pool (w : Nat) (f : Welt → Welt) (s : State) : (updWelt w f s).pool = s.pool := rfl
@[simp] theorem updWelt_prot (w : Nat) (f : Welt → Welt) (s : State) : (updWelt w f s).prot = s.prot := rfl
@[simp] theorem updWelt_bridge (w : Nat) (f : Welt → Welt) (s : State) : (updWelt w f s).bridge = s.bridge := rfl
@[simp] theorem updWelt_tmc (w : Nat) (f : Welt → Welt) (s : State) : (updWelt w f s).tmc = s.tmc := rfl

/-! modDesc changes pool alone. -/

@[simp] theorem modDesc_pending (c : Nat) (f : Nat → Nat) (s : State) : (modDesc c f s).pending = s.pending := rfl
@[simp] theorem modDesc_now (c : Nat) (f : Nat → Nat) (s : State) : (modDesc c f s).now = s.now := rfl
@[simp] theorem modDesc_free (c : Nat) (f : Nat → Nat) (s : State) : (modDesc c f s).free = s.free := rfl
@[simp] theorem modDesc_pins (c : Nat) (f : Nat → Nat) (s : State) : (modDesc c f s).pins = s.pins := rfl
@[simp] theorem modDesc_boot (c : Nat) (f : Nat → Nat) (s : State) : (modDesc c f s).boot = s.boot := rfl
@[simp] theorem modDesc_power (c : Nat) (f : Nat → Nat) (s : State) : (modDesc c f s).power = s.power := rfl
@[simp] theorem modDesc_resets (c : Nat) (f : Nat → Nat) (s : State) : (modDesc c f s).resets = s.resets := rfl
@[simp] theorem modDesc_host (c : Nat) (f : Nat → Nat) (s : State) : (modDesc c f s).host = s.host := rfl
@[simp] theorem modDesc_fw (c : Nat) (f : Nat → Nat) (s : State) : (modDesc c f s).fw = s.fw := rfl
@[simp] theorem modDesc_fault (c : Nat) (f : Nat → Nat) (s : State) : (modDesc c f s).fault = s.fault := rfl
@[simp] theorem modDesc_twin (c : Nat) (f : Nat → Nat) (s : State) : (modDesc c f s).twin = s.twin := rfl
@[simp] theorem modDesc_test (c : Nat) (f : Nat → Nat) (s : State) : (modDesc c f s).test = s.test := rfl
@[simp] theorem modDesc_lane (c : Nat) (f : Nat → Nat) (s : State) : (modDesc c f s).lane = s.lane := rfl
@[simp] theorem modDesc_port (c : Nat) (f : Nat → Nat) (s : State) : (modDesc c f s).port = s.port := rfl
@[simp] theorem modDesc_fabRx (c : Nat) (f : Nat → Nat) (s : State) : (modDesc c f s).fabRx = s.fabRx := rfl
@[simp] theorem modDesc_fabTx (c : Nat) (f : Nat → Nat) (s : State) : (modDesc c f s).fabTx = s.fabTx := rfl
@[simp] theorem modDesc_sliceTx (c : Nat) (f : Nat → Nat) (s : State) : (modDesc c f s).sliceTx = s.sliceTx := rfl
@[simp] theorem modDesc_oh (c : Nat) (f : Nat → Nat) (s : State) : (modDesc c f s).oh = s.oh := rfl
@[simp] theorem modDesc_mon (c : Nat) (f : Nat → Nat) (s : State) : (modDesc c f s).mon = s.mon := rfl
@[simp] theorem modDesc_pm (c : Nat) (f : Nat → Nat) (s : State) : (modDesc c f s).pm = s.pm := rfl
@[simp] theorem modDesc_chan (c : Nat) (f : Nat → Nat) (s : State) : (modDesc c f s).chan = s.chan := rfl
@[simp] theorem modDesc_flex (c : Nat) (f : Nat → Nat) (s : State) : (modDesc c f s).flex = s.flex := rfl
@[simp] theorem modDesc_braid (c : Nat) (f : Nat → Nat) (s : State) : (modDesc c f s).braid = s.braid := rfl
@[simp] theorem modDesc_prot (c : Nat) (f : Nat → Nat) (s : State) : (modDesc c f s).prot = s.prot := rfl
@[simp] theorem modDesc_bridge (c : Nat) (f : Nat → Nat) (s : State) : (modDesc c f s).bridge = s.bridge := rfl
@[simp] theorem modDesc_welt (c : Nat) (f : Nat → Nat) (s : State) : (modDesc c f s).welt = s.welt := rfl
@[simp] theorem modDesc_tmc (c : Nat) (f : Nat → Nat) (s : State) : (modDesc c f s).tmc = s.tmc := rfl

/-! updSide changes braid alone. -/

@[simp] theorem updSide_pending (g : Nat) (tx : Bool) (f : Side → Side) (s : State) : (updSide g tx f s).pending = s.pending := rfl
@[simp] theorem updSide_now (g : Nat) (tx : Bool) (f : Side → Side) (s : State) : (updSide g tx f s).now = s.now := rfl
@[simp] theorem updSide_free (g : Nat) (tx : Bool) (f : Side → Side) (s : State) : (updSide g tx f s).free = s.free := rfl
@[simp] theorem updSide_pins (g : Nat) (tx : Bool) (f : Side → Side) (s : State) : (updSide g tx f s).pins = s.pins := rfl
@[simp] theorem updSide_boot (g : Nat) (tx : Bool) (f : Side → Side) (s : State) : (updSide g tx f s).boot = s.boot := rfl
@[simp] theorem updSide_power (g : Nat) (tx : Bool) (f : Side → Side) (s : State) : (updSide g tx f s).power = s.power := rfl
@[simp] theorem updSide_resets (g : Nat) (tx : Bool) (f : Side → Side) (s : State) : (updSide g tx f s).resets = s.resets := rfl
@[simp] theorem updSide_host (g : Nat) (tx : Bool) (f : Side → Side) (s : State) : (updSide g tx f s).host = s.host := rfl
@[simp] theorem updSide_fw (g : Nat) (tx : Bool) (f : Side → Side) (s : State) : (updSide g tx f s).fw = s.fw := rfl
@[simp] theorem updSide_fault (g : Nat) (tx : Bool) (f : Side → Side) (s : State) : (updSide g tx f s).fault = s.fault := rfl
@[simp] theorem updSide_twin (g : Nat) (tx : Bool) (f : Side → Side) (s : State) : (updSide g tx f s).twin = s.twin := rfl
@[simp] theorem updSide_test (g : Nat) (tx : Bool) (f : Side → Side) (s : State) : (updSide g tx f s).test = s.test := rfl
@[simp] theorem updSide_lane (g : Nat) (tx : Bool) (f : Side → Side) (s : State) : (updSide g tx f s).lane = s.lane := rfl
@[simp] theorem updSide_port (g : Nat) (tx : Bool) (f : Side → Side) (s : State) : (updSide g tx f s).port = s.port := rfl
@[simp] theorem updSide_fabRx (g : Nat) (tx : Bool) (f : Side → Side) (s : State) : (updSide g tx f s).fabRx = s.fabRx := rfl
@[simp] theorem updSide_fabTx (g : Nat) (tx : Bool) (f : Side → Side) (s : State) : (updSide g tx f s).fabTx = s.fabTx := rfl
@[simp] theorem updSide_sliceTx (g : Nat) (tx : Bool) (f : Side → Side) (s : State) : (updSide g tx f s).sliceTx = s.sliceTx := rfl
@[simp] theorem updSide_oh (g : Nat) (tx : Bool) (f : Side → Side) (s : State) : (updSide g tx f s).oh = s.oh := rfl
@[simp] theorem updSide_mon (g : Nat) (tx : Bool) (f : Side → Side) (s : State) : (updSide g tx f s).mon = s.mon := rfl
@[simp] theorem updSide_pm (g : Nat) (tx : Bool) (f : Side → Side) (s : State) : (updSide g tx f s).pm = s.pm := rfl
@[simp] theorem updSide_chan (g : Nat) (tx : Bool) (f : Side → Side) (s : State) : (updSide g tx f s).chan = s.chan := rfl
@[simp] theorem updSide_flex (g : Nat) (tx : Bool) (f : Side → Side) (s : State) : (updSide g tx f s).flex = s.flex := rfl
@[simp] theorem updSide_pool (g : Nat) (tx : Bool) (f : Side → Side) (s : State) : (updSide g tx f s).pool = s.pool := rfl
@[simp] theorem updSide_prot (g : Nat) (tx : Bool) (f : Side → Side) (s : State) : (updSide g tx f s).prot = s.prot := rfl
@[simp] theorem updSide_bridge (g : Nat) (tx : Bool) (f : Side → Side) (s : State) : (updSide g tx f s).bridge = s.bridge := rfl
@[simp] theorem updSide_welt (g : Nat) (tx : Bool) (f : Side → Side) (s : State) : (updSide g tx f s).welt = s.welt := rfl
@[simp] theorem updSide_tmc (g : Nat) (tx : Bool) (f : Side → Side) (s : State) : (updSide g tx f s).tmc = s.tmc := rfl

/-! updMember changes braid alone. -/

@[simp] theorem updMember_pending (g : Nat) (tx : Bool) (m : Nat) (f : Member → Member) (s : State) : (updMember g tx m f s).pending = s.pending := rfl
@[simp] theorem updMember_now (g : Nat) (tx : Bool) (m : Nat) (f : Member → Member) (s : State) : (updMember g tx m f s).now = s.now := rfl
@[simp] theorem updMember_free (g : Nat) (tx : Bool) (m : Nat) (f : Member → Member) (s : State) : (updMember g tx m f s).free = s.free := rfl
@[simp] theorem updMember_pins (g : Nat) (tx : Bool) (m : Nat) (f : Member → Member) (s : State) : (updMember g tx m f s).pins = s.pins := rfl
@[simp] theorem updMember_boot (g : Nat) (tx : Bool) (m : Nat) (f : Member → Member) (s : State) : (updMember g tx m f s).boot = s.boot := rfl
@[simp] theorem updMember_power (g : Nat) (tx : Bool) (m : Nat) (f : Member → Member) (s : State) : (updMember g tx m f s).power = s.power := rfl
@[simp] theorem updMember_resets (g : Nat) (tx : Bool) (m : Nat) (f : Member → Member) (s : State) : (updMember g tx m f s).resets = s.resets := rfl
@[simp] theorem updMember_host (g : Nat) (tx : Bool) (m : Nat) (f : Member → Member) (s : State) : (updMember g tx m f s).host = s.host := rfl
@[simp] theorem updMember_fw (g : Nat) (tx : Bool) (m : Nat) (f : Member → Member) (s : State) : (updMember g tx m f s).fw = s.fw := rfl
@[simp] theorem updMember_fault (g : Nat) (tx : Bool) (m : Nat) (f : Member → Member) (s : State) : (updMember g tx m f s).fault = s.fault := rfl
@[simp] theorem updMember_twin (g : Nat) (tx : Bool) (m : Nat) (f : Member → Member) (s : State) : (updMember g tx m f s).twin = s.twin := rfl
@[simp] theorem updMember_test (g : Nat) (tx : Bool) (m : Nat) (f : Member → Member) (s : State) : (updMember g tx m f s).test = s.test := rfl
@[simp] theorem updMember_lane (g : Nat) (tx : Bool) (m : Nat) (f : Member → Member) (s : State) : (updMember g tx m f s).lane = s.lane := rfl
@[simp] theorem updMember_port (g : Nat) (tx : Bool) (m : Nat) (f : Member → Member) (s : State) : (updMember g tx m f s).port = s.port := rfl
@[simp] theorem updMember_fabRx (g : Nat) (tx : Bool) (m : Nat) (f : Member → Member) (s : State) : (updMember g tx m f s).fabRx = s.fabRx := rfl
@[simp] theorem updMember_fabTx (g : Nat) (tx : Bool) (m : Nat) (f : Member → Member) (s : State) : (updMember g tx m f s).fabTx = s.fabTx := rfl
@[simp] theorem updMember_sliceTx (g : Nat) (tx : Bool) (m : Nat) (f : Member → Member) (s : State) : (updMember g tx m f s).sliceTx = s.sliceTx := rfl
@[simp] theorem updMember_oh (g : Nat) (tx : Bool) (m : Nat) (f : Member → Member) (s : State) : (updMember g tx m f s).oh = s.oh := rfl
@[simp] theorem updMember_mon (g : Nat) (tx : Bool) (m : Nat) (f : Member → Member) (s : State) : (updMember g tx m f s).mon = s.mon := rfl
@[simp] theorem updMember_pm (g : Nat) (tx : Bool) (m : Nat) (f : Member → Member) (s : State) : (updMember g tx m f s).pm = s.pm := rfl
@[simp] theorem updMember_chan (g : Nat) (tx : Bool) (m : Nat) (f : Member → Member) (s : State) : (updMember g tx m f s).chan = s.chan := rfl
@[simp] theorem updMember_flex (g : Nat) (tx : Bool) (m : Nat) (f : Member → Member) (s : State) : (updMember g tx m f s).flex = s.flex := rfl
@[simp] theorem updMember_pool (g : Nat) (tx : Bool) (m : Nat) (f : Member → Member) (s : State) : (updMember g tx m f s).pool = s.pool := rfl
@[simp] theorem updMember_prot (g : Nat) (tx : Bool) (m : Nat) (f : Member → Member) (s : State) : (updMember g tx m f s).prot = s.prot := rfl
@[simp] theorem updMember_bridge (g : Nat) (tx : Bool) (m : Nat) (f : Member → Member) (s : State) : (updMember g tx m f s).bridge = s.bridge := rfl
@[simp] theorem updMember_welt (g : Nat) (tx : Bool) (m : Nat) (f : Member → Member) (s : State) : (updMember g tx m f s).welt = s.welt := rfl
@[simp] theorem updMember_tmc (g : Nat) (tx : Bool) (m : Nat) (f : Member → Member) (s : State) : (updMember g tx m f s).tmc = s.tmc := rfl

/-! updClient changes braid alone. -/

@[simp] theorem updClient_pending (g : Nat) (tx : Bool) (c : Nat) (f : Client → Client) (s : State) : (updClient g tx c f s).pending = s.pending := rfl
@[simp] theorem updClient_now (g : Nat) (tx : Bool) (c : Nat) (f : Client → Client) (s : State) : (updClient g tx c f s).now = s.now := rfl
@[simp] theorem updClient_free (g : Nat) (tx : Bool) (c : Nat) (f : Client → Client) (s : State) : (updClient g tx c f s).free = s.free := rfl
@[simp] theorem updClient_pins (g : Nat) (tx : Bool) (c : Nat) (f : Client → Client) (s : State) : (updClient g tx c f s).pins = s.pins := rfl
@[simp] theorem updClient_boot (g : Nat) (tx : Bool) (c : Nat) (f : Client → Client) (s : State) : (updClient g tx c f s).boot = s.boot := rfl
@[simp] theorem updClient_power (g : Nat) (tx : Bool) (c : Nat) (f : Client → Client) (s : State) : (updClient g tx c f s).power = s.power := rfl
@[simp] theorem updClient_resets (g : Nat) (tx : Bool) (c : Nat) (f : Client → Client) (s : State) : (updClient g tx c f s).resets = s.resets := rfl
@[simp] theorem updClient_host (g : Nat) (tx : Bool) (c : Nat) (f : Client → Client) (s : State) : (updClient g tx c f s).host = s.host := rfl
@[simp] theorem updClient_fw (g : Nat) (tx : Bool) (c : Nat) (f : Client → Client) (s : State) : (updClient g tx c f s).fw = s.fw := rfl
@[simp] theorem updClient_fault (g : Nat) (tx : Bool) (c : Nat) (f : Client → Client) (s : State) : (updClient g tx c f s).fault = s.fault := rfl
@[simp] theorem updClient_twin (g : Nat) (tx : Bool) (c : Nat) (f : Client → Client) (s : State) : (updClient g tx c f s).twin = s.twin := rfl
@[simp] theorem updClient_test (g : Nat) (tx : Bool) (c : Nat) (f : Client → Client) (s : State) : (updClient g tx c f s).test = s.test := rfl
@[simp] theorem updClient_lane (g : Nat) (tx : Bool) (c : Nat) (f : Client → Client) (s : State) : (updClient g tx c f s).lane = s.lane := rfl
@[simp] theorem updClient_port (g : Nat) (tx : Bool) (c : Nat) (f : Client → Client) (s : State) : (updClient g tx c f s).port = s.port := rfl
@[simp] theorem updClient_fabRx (g : Nat) (tx : Bool) (c : Nat) (f : Client → Client) (s : State) : (updClient g tx c f s).fabRx = s.fabRx := rfl
@[simp] theorem updClient_fabTx (g : Nat) (tx : Bool) (c : Nat) (f : Client → Client) (s : State) : (updClient g tx c f s).fabTx = s.fabTx := rfl
@[simp] theorem updClient_sliceTx (g : Nat) (tx : Bool) (c : Nat) (f : Client → Client) (s : State) : (updClient g tx c f s).sliceTx = s.sliceTx := rfl
@[simp] theorem updClient_oh (g : Nat) (tx : Bool) (c : Nat) (f : Client → Client) (s : State) : (updClient g tx c f s).oh = s.oh := rfl
@[simp] theorem updClient_mon (g : Nat) (tx : Bool) (c : Nat) (f : Client → Client) (s : State) : (updClient g tx c f s).mon = s.mon := rfl
@[simp] theorem updClient_pm (g : Nat) (tx : Bool) (c : Nat) (f : Client → Client) (s : State) : (updClient g tx c f s).pm = s.pm := rfl
@[simp] theorem updClient_chan (g : Nat) (tx : Bool) (c : Nat) (f : Client → Client) (s : State) : (updClient g tx c f s).chan = s.chan := rfl
@[simp] theorem updClient_flex (g : Nat) (tx : Bool) (c : Nat) (f : Client → Client) (s : State) : (updClient g tx c f s).flex = s.flex := rfl
@[simp] theorem updClient_pool (g : Nat) (tx : Bool) (c : Nat) (f : Client → Client) (s : State) : (updClient g tx c f s).pool = s.pool := rfl
@[simp] theorem updClient_prot (g : Nat) (tx : Bool) (c : Nat) (f : Client → Client) (s : State) : (updClient g tx c f s).prot = s.prot := rfl
@[simp] theorem updClient_bridge (g : Nat) (tx : Bool) (c : Nat) (f : Client → Client) (s : State) : (updClient g tx c f s).bridge = s.bridge := rfl
@[simp] theorem updClient_welt (g : Nat) (tx : Bool) (c : Nat) (f : Client → Client) (s : State) : (updClient g tx c f s).welt = s.welt := rfl
@[simp] theorem updClient_tmc (g : Nat) (tx : Bool) (c : Nat) (f : Client → Client) (s : State) : (updClient g tx c f s).tmc = s.tmc := rfl

/-! modSlot changes fw alone. -/

@[simp] theorem modSlot_pending (i : Nat) (g : Slot → Slot) (s : State) : (modSlot i g s).pending = s.pending := by unfold modSlot; split <;> rfl
@[simp] theorem modSlot_now (i : Nat) (g : Slot → Slot) (s : State) : (modSlot i g s).now = s.now := by unfold modSlot; split <;> rfl
@[simp] theorem modSlot_free (i : Nat) (g : Slot → Slot) (s : State) : (modSlot i g s).free = s.free := by unfold modSlot; split <;> rfl
@[simp] theorem modSlot_pins (i : Nat) (g : Slot → Slot) (s : State) : (modSlot i g s).pins = s.pins := by unfold modSlot; split <;> rfl
@[simp] theorem modSlot_boot (i : Nat) (g : Slot → Slot) (s : State) : (modSlot i g s).boot = s.boot := by unfold modSlot; split <;> rfl
@[simp] theorem modSlot_power (i : Nat) (g : Slot → Slot) (s : State) : (modSlot i g s).power = s.power := by unfold modSlot; split <;> rfl
@[simp] theorem modSlot_resets (i : Nat) (g : Slot → Slot) (s : State) : (modSlot i g s).resets = s.resets := by unfold modSlot; split <;> rfl
@[simp] theorem modSlot_host (i : Nat) (g : Slot → Slot) (s : State) : (modSlot i g s).host = s.host := by unfold modSlot; split <;> rfl
@[simp] theorem modSlot_fault (i : Nat) (g : Slot → Slot) (s : State) : (modSlot i g s).fault = s.fault := by unfold modSlot; split <;> rfl
@[simp] theorem modSlot_twin (i : Nat) (g : Slot → Slot) (s : State) : (modSlot i g s).twin = s.twin := by unfold modSlot; split <;> rfl
@[simp] theorem modSlot_test (i : Nat) (g : Slot → Slot) (s : State) : (modSlot i g s).test = s.test := by unfold modSlot; split <;> rfl
@[simp] theorem modSlot_lane (i : Nat) (g : Slot → Slot) (s : State) : (modSlot i g s).lane = s.lane := by unfold modSlot; split <;> rfl
@[simp] theorem modSlot_port (i : Nat) (g : Slot → Slot) (s : State) : (modSlot i g s).port = s.port := by unfold modSlot; split <;> rfl
@[simp] theorem modSlot_fabRx (i : Nat) (g : Slot → Slot) (s : State) : (modSlot i g s).fabRx = s.fabRx := by unfold modSlot; split <;> rfl
@[simp] theorem modSlot_fabTx (i : Nat) (g : Slot → Slot) (s : State) : (modSlot i g s).fabTx = s.fabTx := by unfold modSlot; split <;> rfl
@[simp] theorem modSlot_sliceTx (i : Nat) (g : Slot → Slot) (s : State) : (modSlot i g s).sliceTx = s.sliceTx := by unfold modSlot; split <;> rfl
@[simp] theorem modSlot_oh (i : Nat) (g : Slot → Slot) (s : State) : (modSlot i g s).oh = s.oh := by unfold modSlot; split <;> rfl
@[simp] theorem modSlot_mon (i : Nat) (g : Slot → Slot) (s : State) : (modSlot i g s).mon = s.mon := by unfold modSlot; split <;> rfl
@[simp] theorem modSlot_pm (i : Nat) (g : Slot → Slot) (s : State) : (modSlot i g s).pm = s.pm := by unfold modSlot; split <;> rfl
@[simp] theorem modSlot_chan (i : Nat) (g : Slot → Slot) (s : State) : (modSlot i g s).chan = s.chan := by unfold modSlot; split <;> rfl
@[simp] theorem modSlot_flex (i : Nat) (g : Slot → Slot) (s : State) : (modSlot i g s).flex = s.flex := by unfold modSlot; split <;> rfl
@[simp] theorem modSlot_braid (i : Nat) (g : Slot → Slot) (s : State) : (modSlot i g s).braid = s.braid := by unfold modSlot; split <;> rfl
@[simp] theorem modSlot_pool (i : Nat) (g : Slot → Slot) (s : State) : (modSlot i g s).pool = s.pool := by unfold modSlot; split <;> rfl
@[simp] theorem modSlot_prot (i : Nat) (g : Slot → Slot) (s : State) : (modSlot i g s).prot = s.prot := by unfold modSlot; split <;> rfl
@[simp] theorem modSlot_bridge (i : Nat) (g : Slot → Slot) (s : State) : (modSlot i g s).bridge = s.bridge := by unfold modSlot; split <;> rfl
@[simp] theorem modSlot_welt (i : Nat) (g : Slot → Slot) (s : State) : (modSlot i g s).welt = s.welt := by unfold modSlot; split <;> rfl
@[simp] theorem modSlot_tmc (i : Nat) (g : Slot → Slot) (s : State) : (modSlot i g s).tmc = s.tmc := by unfold modSlot; split <;> rfl

/-! ueSeen changes pool alone. -/

@[simp] theorem ueSeen_pending (c : Nat) (s : State) : (ueSeen c s).pending = s.pending := rfl
@[simp] theorem ueSeen_now (c : Nat) (s : State) : (ueSeen c s).now = s.now := rfl
@[simp] theorem ueSeen_free (c : Nat) (s : State) : (ueSeen c s).free = s.free := rfl
@[simp] theorem ueSeen_pins (c : Nat) (s : State) : (ueSeen c s).pins = s.pins := rfl
@[simp] theorem ueSeen_boot (c : Nat) (s : State) : (ueSeen c s).boot = s.boot := rfl
@[simp] theorem ueSeen_power (c : Nat) (s : State) : (ueSeen c s).power = s.power := rfl
@[simp] theorem ueSeen_resets (c : Nat) (s : State) : (ueSeen c s).resets = s.resets := rfl
@[simp] theorem ueSeen_host (c : Nat) (s : State) : (ueSeen c s).host = s.host := rfl
@[simp] theorem ueSeen_fw (c : Nat) (s : State) : (ueSeen c s).fw = s.fw := rfl
@[simp] theorem ueSeen_fault (c : Nat) (s : State) : (ueSeen c s).fault = s.fault := rfl
@[simp] theorem ueSeen_twin (c : Nat) (s : State) : (ueSeen c s).twin = s.twin := rfl
@[simp] theorem ueSeen_test (c : Nat) (s : State) : (ueSeen c s).test = s.test := rfl
@[simp] theorem ueSeen_lane (c : Nat) (s : State) : (ueSeen c s).lane = s.lane := rfl
@[simp] theorem ueSeen_port (c : Nat) (s : State) : (ueSeen c s).port = s.port := rfl
@[simp] theorem ueSeen_fabRx (c : Nat) (s : State) : (ueSeen c s).fabRx = s.fabRx := rfl
@[simp] theorem ueSeen_fabTx (c : Nat) (s : State) : (ueSeen c s).fabTx = s.fabTx := rfl
@[simp] theorem ueSeen_sliceTx (c : Nat) (s : State) : (ueSeen c s).sliceTx = s.sliceTx := rfl
@[simp] theorem ueSeen_oh (c : Nat) (s : State) : (ueSeen c s).oh = s.oh := rfl
@[simp] theorem ueSeen_mon (c : Nat) (s : State) : (ueSeen c s).mon = s.mon := rfl
@[simp] theorem ueSeen_pm (c : Nat) (s : State) : (ueSeen c s).pm = s.pm := rfl
@[simp] theorem ueSeen_chan (c : Nat) (s : State) : (ueSeen c s).chan = s.chan := rfl
@[simp] theorem ueSeen_flex (c : Nat) (s : State) : (ueSeen c s).flex = s.flex := rfl
@[simp] theorem ueSeen_braid (c : Nat) (s : State) : (ueSeen c s).braid = s.braid := rfl
@[simp] theorem ueSeen_prot (c : Nat) (s : State) : (ueSeen c s).prot = s.prot := rfl
@[simp] theorem ueSeen_bridge (c : Nat) (s : State) : (ueSeen c s).bridge = s.bridge := rfl
@[simp] theorem ueSeen_welt (c : Nat) (s : State) : (ueSeen c s).welt = s.welt := rfl
@[simp] theorem ueSeen_tmc (c : Nat) (s : State) : (ueSeen c s).tmc = s.tmc := rfl

/-! bootWrite leaves the security counter and the revoked keys. -/

theorem bootWrite_counter (a : Nat) (c : Bool) (f : Firmware) : (bootWrite a c f).counter = f.counter := by
  unfold bootWrite; dsimp only; (repeat' split) <;> rfl

theorem bootWrite_revoked (a : Nat) (c : Bool) (f : Firmware) : (bootWrite a c f).revoked = f.revoked := by
  unfold bootWrite; dsimp only; (repeat' split) <;> rfl

end Sys2Proof.Machine
end

