-- ==== Sys2Proof/Laws/KeptCore.lean ====
section
/-! SUPPORT. Kept, for the operations of timing, the host interface, the twin logic, faults and power domains. -/

namespace Sys2Proof.Machine

/-! ### Temper -/

theorem modCand_kept {s₀ : State} (c : Nat) (f : Candidate → Candidate) {s : State} (hK : Kept s₀ s) : Kept s₀ (modCand c f s) := by
  unfold modCand
  try dsimp only
  repeat' first
    | with_reducible assumption
    | simp (disch := rfl) only [Kept.set]

theorem modDpll_kept {s₀ : State} (d : Nat) (f : Dpll → Dpll) {s : State} (hK : Kept s₀ s) : Kept s₀ (modDpll d f s) := by
  unfold modDpll
  try dsimp only
  repeat' first
    | with_reducible assumption
    | simp (disch := rfl) only [Kept.set]

theorem temperReset_kept {s₀ : State} {s : State} (hK : Kept s₀ s) : Kept s₀ (temperReset s) := by
  unfold temperReset
  try dsimp only
  repeat' first
    | with_reducible assumption
    | with_reducible exact Kept.refl _
    | intro _
    | dsimp only
    | with_reducible apply modDpll_kept
    | with_reducible apply foldS_kept
    | split
    | simp (disch := rfl) only [Kept.set]

theorem frontTake_kept {s₀ : State} (n : Nat) (xs : List (Nat × List Int)) (c : Nat) {s : State} (hK : Kept s₀ s) : Kept s₀ (frontTake n xs c s) := by
  unfold frontTake
  try dsimp only
  repeat' first
    | with_reducible assumption
    | with_reducible exact Kept.refl _
    | intro _
    | dsimp only
    | with_reducible apply modCand_kept
    | split
    | simp (disch := rfl) only [Kept.set]
    | with_reducible refine Kept.upd ?_ (Nat.le_add_right _ _) rfl rfl rfl rfl rfl rfl

theorem frontResets_kept {s₀ : State} {s : State} (hK : Kept s₀ s) : Kept s₀ (frontResets s) := by
  unfold frontResets
  try dsimp only
  repeat' first
    | with_reducible assumption
    | with_reducible exact Kept.refl _
    | intro _
    | dsimp only
    | with_reducible apply modCand_kept
    | with_reducible apply temperReset_kept
    | with_reducible apply foldS_kept
    | split
    | simp (disch := rfl) only [Kept.set]

theorem frontSample_kept {s₀ : State} (xs : List (Nat × List Int)) {s : State} (hK : Kept s₀ s) : Kept s₀ (frontSample xs s) := by
  unfold frontSample
  try dsimp only
  repeat' first
    | with_reducible assumption
    | with_reducible exact Kept.refl _
    | intro _
    | dsimp only
    | with_reducible apply modCand_kept
    | with_reducible apply frontTake_kept
    | with_reducible apply frontResets_kept
    | with_reducible apply foldS_kept
    | split
    | simp (disch := rfl) only [Kept.set]

theorem evtSwap_kept {s₀ : State} (c : Nat) (bank : Bool) (pend : Bool) {s : State} (hK : Kept s₀ s) : Kept s₀ (evtSwap c bank pend s) := by
  unfold evtSwap
  try dsimp only
  repeat' first
    | with_reducible assumption
    | with_reducible apply raise_kept

theorem journalActive_kept {s₀ : State} (c : Nat) {s : State} (hK : Kept s₀ s) : Kept s₀ (journalActive c s) := by
  unfold journalActive
  try dsimp only
  repeat' first
    | with_reducible assumption
    | simp (disch := rfl) only [Kept.set]

theorem fadeComplete_kept {s₀ : State} (c : Nat) {s : State} (hK : Kept s₀ s) : Kept s₀ (fadeComplete c s) := by
  unfold fadeComplete
  try dsimp only
  repeat' first
    | with_reducible assumption
    | with_reducible apply modCand_kept
    | with_reducible apply evtSwap_kept
    | with_reducible apply journalActive_kept
    | split

/-! ### Timing -/

theorem modOut_kept {s₀ : State} (n : Nat) (f : Output → Output) {s : State} (hK : Kept s₀ s) : Kept s₀ (modOut n f s) := by
  unfold modOut
  try dsimp only
  repeat' first
    | with_reducible assumption
    | simp (disch := rfl) only [Kept.set]

theorem evtOutput_kept {s₀ : State} (n : Nat) (aligned : Bool) {s : State} (hK : Kept s₀ s) : Kept s₀ (evtOutput n aligned s) := by
  unfold evtOutput
  try dsimp only
  repeat' first
    | with_reducible assumption
    | with_reducible apply raise_kept

theorem dcoSettle_kept {s₀ : State} {s : State} (hK : Kept s₀ s) : Kept s₀ (dcoSettle s) := by
  unfold dcoSettle
  try dsimp only
  repeat' first
    | with_reducible assumption
    | with_reducible exact Kept.refl _
    | intro _
    | dsimp only
    | with_reducible apply modDpll_kept
    | with_reducible apply foldS_kept
    | split

theorem braidStep_kept {s₀ : State} (x : Int) {s : State} (hK : Kept s₀ s) : Kept s₀ (braidStep x s) := by
  unfold braidStep
  try dsimp only
  repeat' first
    | with_reducible assumption
    | with_reducible exact Kept.refl _
    | intro _
    | dsimp only
    | with_reducible apply foldl_kept
    | split
    | simp (disch := rfl) only [Kept.set]

theorem stepTime_kept {s₀ : State} (dt : Nat) {s : State} (hK : Kept s₀ s) : Kept s₀ (stepTime dt s) := by
  unfold stepTime
  try dsimp only
  repeat' first
    | with_reducible assumption
    | with_reducible exact Kept.refl _
    | intro _
    | dsimp only
    | with_reducible apply binsAtStep_kept
    | with_reducible apply evtOutput_kept
    | with_reducible apply braidStep_kept
    | with_reducible apply foldS_kept
    | split
    | simp (disch := rfl) only [Kept.set]

theorem stepTimeBy_kept {s₀ : State} (x : Int) {s : State} (hK : Kept s₀ s) : Kept s₀ (stepTimeBy x s) := by
  unfold stepTimeBy
  try dsimp only
  repeat' first
    | with_reducible assumption
    | with_reducible exact Kept.refl _
    | intro _
    | dsimp only
    | with_reducible apply secondsClose_kept
    | with_reducible apply stepTime_kept
    | split
    | simp (disch := rfl) only [Kept.set]

theorem evtRef_kept {s₀ : State} (c : Nat) (cause : Nat) {s : State} (hK : Kept s₀ s) : Kept s₀ (evtRef c cause s) := by
  unfold evtRef
  try dsimp only
  repeat' first
    | with_reducible assumption
    | with_reducible apply raise_kept

theorem stick_kept {s₀ : State} (d : Nat) (b : Nat) {s : State} (hK : Kept s₀ s) : Kept s₀ (stick d b s) := by
  unfold stick
  try dsimp only
  repeat' first
    | with_reducible assumption
    | with_reducible apply modDpll_kept

theorem evtTmcState_kept {s₀ : State} (d : Nat) (old : DState) (reason : Nat) {s : State} (hK : Kept s₀ s) : Kept s₀ (evtTmcState d old reason s) := by
  unfold evtTmcState
  try dsimp only
  repeat' first
    | with_reducible assumption
    | with_reducible apply raise_kept

theorem enterState_kept {s₀ : State} (d : Nat) (t : DState) {s : State} (hK : Kept s₀ s) : Kept s₀ (enterState d t s) := by
  unfold enterState
  try dsimp only
  repeat' first
    | with_reducible assumption
    | with_reducible exact Kept.refl _
    | intro _
    | dsimp only
    | with_reducible apply modDpll_kept
    | with_reducible apply stick_kept
    | with_reducible apply evtTmcState_kept
    | split
    | simp (disch := rfl) only [Kept.set]

theorem toNone_kept {s₀ : State} (d : Nat) {s : State} (hK : Kept s₀ s) : Kept s₀ (toNone d s) := by
  unfold toNone
  try dsimp only
  repeat' first
    | with_reducible assumption
    | with_reducible apply modDpll_kept
    | with_reducible apply enterState_kept

theorem startLoop_kept {s₀ : State} (d : Nat) (c : Nat) (build : Bool) {s : State} (hK : Kept s₀ s) : Kept s₀ (startLoop d c build s) := by
  unfold startLoop
  try dsimp only
  repeat' first
    | with_reducible assumption
    | with_reducible exact Kept.refl _
    | intro _
    | dsimp only
    | with_reducible apply modDpll_kept
    | with_reducible apply enterState_kept
    | split
    | simp (disch := rfl) only [Kept.set]

theorem toBridge_kept {s₀ : State} (d : Nat) (c : Nat) (cause : Nat) {s : State} (hK : Kept s₀ s) : Kept s₀ (toBridge d c cause s) := by
  unfold toBridge
  try dsimp only
  repeat' first
    | with_reducible assumption
    | with_reducible exact Kept.refl _
    | intro _
    | dsimp only
    | with_reducible apply modDpll_kept
    | with_reducible apply stick_kept
    | with_reducible apply enterState_kept
    | split
    | simp (disch := rfl) only [Kept.set]

theorem applySelect_kept {s₀ : State} (d : Nat) (op : Nat) (c : Nat) {s : State} (hK : Kept s₀ s) : Kept s₀ (applySelect d op c s) := by
  unfold applySelect
  try dsimp only
  repeat' first
    | with_reducible assumption
    | with_reducible apply modDpll_kept

theorem selectOnce_kept {s₀ : State} (d : Nat) (why : Nat) {s : State} (hK : Kept s₀ s) : Kept s₀ (selectOnce d why s) := by
  unfold selectOnce
  try dsimp only
  repeat' first
    | with_reducible assumption
    | with_reducible apply modDpll_kept
    | with_reducible apply toNone_kept
    | with_reducible apply startLoop_kept
    | with_reducible apply toBridge_kept
    | split

theorem takePending_kept {s₀ : State} (d : Nat) {s : State} (hK : Kept s₀ s) : Kept s₀ (takePending d s) := by
  unfold takePending
  try dsimp only
  repeat' first
    | with_reducible assumption
    | with_reducible apply modDpll_kept
    | with_reducible apply applySelect_kept
    | with_reducible apply selectOnce_kept
    | split

theorem selectForce_kept {s₀ : State} (d : Nat) (why : Nat) {s : State} (hK : Kept s₀ s) : Kept s₀ (selectForce d why s) := by
  unfold selectForce
  try dsimp only
  repeat' first
    | with_reducible assumption
    | with_reducible apply selectOnce_kept
    | with_reducible apply takePending_kept

theorem runSelect_kept {s₀ : State} (d : Nat) (why : Nat) {s : State} (hK : Kept s₀ s) : Kept s₀ (runSelect d why s) := by
  unfold runSelect
  try dsimp only
  repeat' first
    | with_reducible assumption
    | with_reducible apply selectForce_kept
    | split

theorem switchDone_kept {s₀ : State} (d : Nat) (phi : Int) {s : State} (hK : Kept s₀ s) : Kept s₀ (switchDone d phi s) := by
  unfold switchDone
  try dsimp only
  repeat' first
    | with_reducible assumption
    | with_reducible exact Kept.refl _
    | intro _
    | dsimp only
    | with_reducible apply raise_kept
    | with_reducible apply modDpll_kept
    | with_reducible apply enterState_kept
    | with_reducible apply takePending_kept
    | with_reducible apply runSelect_kept
    | split
    | simp (disch := rfl) only [Kept.set]

theorem candFaultState_kept {s₀ : State} (c : Nat) (cause : Nat) {s : State} (hK : Kept s₀ s) : Kept s₀ (candFaultState c cause s) := by
  unfold candFaultState
  try dsimp only
  repeat' first
    | with_reducible assumption
    | with_reducible exact Kept.refl _
    | intro _
    | with_reducible apply modCand_kept
    | with_reducible apply evtRef_kept
    | with_reducible apply stick_kept
    | with_reducible apply foldS_kept
    | split

theorem candReselect_kept {s₀ : State} (c : Nat) (abandon : Bool) {s : State} (hK : Kept s₀ s) : Kept s₀ (candReselect c abandon s) := by
  unfold candReselect
  try dsimp only
  repeat' first
    | with_reducible assumption
    | with_reducible exact Kept.refl _
    | intro _
    | with_reducible apply selectForce_kept
    | with_reducible apply runSelect_kept
    | with_reducible apply foldS_kept
    | split

theorem candFault_kept {s₀ : State} (c : Nat) (cause : Nat) {s : State} (hK : Kept s₀ s) : Kept s₀ (candFault c cause s) := by
  unfold candFault
  try dsimp only
  repeat' first
    | with_reducible assumption
    | with_reducible apply candFaultState_kept
    | with_reducible apply candReselect_kept

theorem activityLost_kept {s₀ : State} (c : Nat) {s : State} (hK : Kept s₀ s) : Kept s₀ (activityLost c s) := by
  unfold activityLost
  try dsimp only
  repeat' first
    | with_reducible assumption
    | with_reducible apply modCand_kept
    | with_reducible apply candFault_kept
    | split

theorem selectSettle_kept {s₀ : State} (d : Nat) {s : State} (hK : Kept s₀ s) : Kept s₀ (selectSettle d s) := by
  unfold selectSettle
  try dsimp only
  repeat' first
    | with_reducible assumption
    | with_reducible exact Kept.refl _
    | intro _
    | dsimp only
    | with_reducible apply runSelect_kept
    | split
    | simp (disch := rfl) only [Kept.set]

theorem candSettle_kept {s₀ : State} {s : State} (hK : Kept s₀ s) : Kept s₀ (candSettle s) := by
  unfold candSettle
  try dsimp only
  repeat' first
    | with_reducible assumption
    | with_reducible exact Kept.refl _
    | intro _
    | dsimp only
    | with_reducible apply runSelect_kept
    | with_reducible apply activityLost_kept
    | with_reducible apply selectSettle_kept
    | with_reducible apply foldS_kept
    | split

theorem corrStep_kept {s₀ : State} (m : Int) {s : State} (hK : Kept s₀ s) : Kept s₀ (corrStep m s) := by
  unfold corrStep
  try dsimp only
  repeat' first
    | with_reducible assumption
    | with_reducible exact Kept.refl _
    | intro _
    | dsimp only
    | split
    | simp (disch := rfl) only [Kept.set]

theorem measTake_kept {s₀ : State} (m : OffsetMeas) {s : State} (hK : Kept s₀ s) : Kept s₀ (measTake m s) := by
  unfold measTake
  try dsimp only
  repeat' first
    | with_reducible assumption
    | with_reducible exact Kept.refl _
    | intro _
    | dsimp only
    | with_reducible apply modCand_kept
    | split
    | simp (disch := rfl) only [Kept.set]

theorem candEval_kept {s₀ : State} (c : Nat) {s : State} (hK : Kept s₀ s) : Kept s₀ (candEval c s) := by
  unfold candEval
  try dsimp only
  repeat' first
    | with_reducible assumption
    | with_reducible apply modCand_kept
    | with_reducible apply candFaultState_kept
    | split

theorem consensusTake_kept {s₀ : State} (d : Nat) {s : State} (hK : Kept s₀ s) : Kept s₀ (consensusTake d s) := by
  unfold consensusTake
  try dsimp only
  repeat' first
    | with_reducible assumption
    | with_reducible exact Kept.refl _
    | intro _
    | dsimp only
    | with_reducible apply modCand_kept
    | with_reducible apply modDpll_kept
    | with_reducible apply evtRef_kept
    | with_reducible apply stick_kept
    | with_reducible apply evtTmcState_kept
    | with_reducible apply foldS_kept
    | split
    | simp (disch := rfl) only [Kept.set]

theorem boundarySelect_kept {s₀ : State} (d : Nat) {s : State} (hK : Kept s₀ s) : Kept s₀ (boundarySelect d s) := by
  unfold boundarySelect
  try dsimp only
  repeat' first
    | with_reducible assumption
    | with_reducible apply selectForce_kept
    | with_reducible apply runSelect_kept
    | split

theorem histStep_kept {s₀ : State} {s : State} (hK : Kept s₀ s) : Kept s₀ (histStep s) := by
  unfold histStep
  try dsimp only
  repeat' first
    | with_reducible assumption
    | with_reducible exact Kept.refl _
    | intro _
    | dsimp only
    | with_reducible apply modCand_kept
    | with_reducible apply modDpll_kept
    | with_reducible apply foldS_kept
    | split
    | simp (disch := rfl) only [Kept.set]

theorem secondBoundary_kept {s₀ : State} (meas : SecondMeas) {s : State} (hK : Kept s₀ s) : Kept s₀ (secondBoundary meas s) := by
  unfold secondBoundary
  try dsimp only
  repeat' first
    | with_reducible assumption
    | with_reducible exact Kept.refl _
    | intro _
    | dsimp only
    | with_reducible apply dcoSettle_kept
    | with_reducible apply corrStep_kept
    | with_reducible apply measTake_kept
    | with_reducible apply candEval_kept
    | with_reducible apply consensusTake_kept
    | with_reducible apply boundarySelect_kept
    | with_reducible apply histStep_kept
    | with_reducible apply foldS_kept
    | split

theorem loopUpdate_kept {s₀ : State} (d : Nat) (sub : Nat) {s : State} (hK : Kept s₀ s) : Kept s₀ (loopUpdate d sub s) := by
  unfold loopUpdate
  try dsimp only
  repeat' first
    | with_reducible assumption
    | with_reducible exact Kept.refl _
    | intro _
    | dsimp only
    | with_reducible apply modDpll_kept
    | split
    | simp (disch := rfl) only [Kept.set]
    | with_reducible refine Kept.upd ?_ (Nat.le_add_right _ _) rfl rfl rfl rfl rfl rfl

theorem phaseAdj_kept {s₀ : State} (d : Nat) (v : Int) {s : State} (hK : Kept s₀ s) : Kept s₀ (phaseAdj d v s) := by
  unfold phaseAdj
  try dsimp only
  repeat' first
    | with_reducible assumption
    | with_reducible apply modDpll_kept
    | split

theorem pulseIn_kept {s₀ : State} (c : Nat) (sub : Nat) {s : State} (hK : Kept s₀ s) : Kept s₀ (pulseIn c sub s) := by
  unfold pulseIn
  try dsimp only
  repeat' first
    | with_reducible assumption
    | with_reducible exact Kept.refl _
    | intro _
    | dsimp only
    | with_reducible apply modCand_kept
    | with_reducible apply modDpll_kept
    | with_reducible apply stepTimeBy_kept
    | split
    | simp (disch := rfl) only [Kept.set]

theorem pulseEdge_kept {s₀ : State} (n : Nat) {s : State} (hK : Kept s₀ s) : Kept s₀ (pulseEdge n s) := by
  unfold pulseEdge
  try dsimp only
  repeat' first
    | with_reducible assumption
    | with_reducible exact Kept.refl _
    | intro _
    | dsimp only
    | with_reducible apply modOut_kept
    | with_reducible apply evtOutput_kept
    | split
    | simp (disch := rfl) only [Kept.set]

theorem gateSettle_kept {s₀ : State} {s : State} (hK : Kept s₀ s) : Kept s₀ (gateSettle s) := by
  unfold gateSettle
  try dsimp only
  repeat' first
    | with_reducible assumption
    | with_reducible exact Kept.refl _
    | intro _
    | dsimp only
    | split
    | simp (disch := rfl) only [Kept.set]

theorem tmcSettle_kept {s₀ : State} {s : State} (hK : Kept s₀ s) : Kept s₀ (tmcSettle s) := by
  unfold tmcSettle
  try dsimp only
  repeat' first
    | with_reducible assumption
    | with_reducible exact Kept.refl _
    | intro _
    | dsimp only
    | with_reducible apply dcoSettle_kept
    | with_reducible apply gateSettle_kept
    | split

/-! ### Host -/

theorem modMbx_kept {s₀ : State} (m : Nat) (f : Mailbox → Mailbox) {s : State} (hK : Kept s₀ s) : Kept s₀ (modMbx m f s) := by
  unfold modMbx
  try dsimp only
  repeat' first
    | with_reducible assumption
    | simp (disch := rfl) only [Kept.set]

theorem msixSend_kept {s₀ : State} (v : Nat) {s : State} (hK : Kept s₀ s) : Kept s₀ (msixSend v s) := by
  unfold msixSend
  try dsimp only
  repeat' first
    | with_reducible assumption
    | with_reducible exact Kept.refl _
    | intro _
    | dsimp only
    | split
    | simp (disch := rfl) only [Kept.set]

theorem msixFlush_kept {s₀ : State} {s : State} (hK : Kept s₀ s) : Kept s₀ (msixFlush s) := by
  unfold msixFlush
  try dsimp only
  repeat' first
    | with_reducible assumption
    | with_reducible exact Kept.refl _
    | intro _
    | with_reducible apply msixSend_kept
    | with_reducible apply foldS_kept
    | simp (disch := rfl) only [Kept.set]

theorem respond_kept {s₀ : State} (m : Nat) (st : Status) (ws : List Word) {s : State} (hK : Kept s₀ s) : Kept s₀ (respond m st ws s) := by
  unfold respond
  try dsimp only
  repeat' first
    | with_reducible assumption
    | with_reducible apply modMbx_kept
    | with_reducible apply msixSend_kept
    | split

theorem finishWaiting_kept {s₀ : State} (p : WaitKind → Bool) (st : Status) (ws : List Word) {s : State} (hK : Kept s₀ s) : Kept s₀ (finishWaiting p st ws s) := by
  unfold finishWaiting
  try dsimp only
  repeat' first
    | with_reducible assumption
    | with_reducible exact Kept.refl _
    | intro _
    | with_reducible apply respond_kept
    | with_reducible apply foldS_kept
    | split
    | simp (disch := rfl) only [Kept.set]

theorem restartSettle_kept {s₀ : State} {s : State} (hK : Kept s₀ s) : Kept s₀ (restartSettle s) := by
  unfold restartSettle
  split
  · dsimp only
    split
    · exact { pending := hK.pending, now := hK.now, free := hK.free, mem := hK.mem, latch := hK.latch, ticks := hK.ticks, retired := hK.retired
              counter := Nat.le_trans hK.counter (Nat.le_of_eq (bootWrite_counter _ _ { s.fw with state := 2 }).symm)
              revoked := (bootWrite_revoked _ _ { s.fw with state := 2 }).trans hK.revoked }
    · simpa (disch := rfl) only [Kept.set] using hK
  · exact hK

theorem violation_kept {s₀ : State} (off : Nat) (typ : Nat) (mbx : Nat) (be : Nat) {s : State} (hK : Kept s₀ s) : Kept s₀ (violation off typ mbx be s) := by
  unfold violation
  try dsimp only
  repeat' first
    | with_reducible assumption
    | split
    | simp (disch := rfl) only [Kept.set]

theorem readRefused_kept {s₀ : State} (off : Nat) (bes : List Nat) {s : State} (hK : Kept s₀ s) : Kept s₀ (readRefused off bes s) := by
  unfold readRefused
  try dsimp only
  repeat' first
    | with_reducible assumption
    | with_reducible exact Kept.refl _
    | intro _
    | dsimp only
    | with_reducible apply violation_kept
    | with_reducible apply foldS_kept
    | split
    | simp (disch := rfl) only [Kept.set]

theorem busRead_kept {s₀ : State} (off : Nat) (be : Nat) {s : State} (hK : Kept s₀ s) : Kept s₀ (busRead off be s) := by
  unfold busRead
  try dsimp only
  repeat' first
    | with_reducible assumption
    | with_reducible exact Kept.refl _
    | intro _
    | dsimp only
    | with_reducible apply readRefused_kept
    | split
    | simp (disch := rfl) only [Kept.set]
    | with_reducible refine Kept.upd ?_ (Nat.le_add_right _ _) rfl rfl rfl rfl rfl rfl

theorem busReads_kept {s₀ : State} (off : Nat) (bes : List Nat) {s : State} (hK : Kept s₀ s) : Kept s₀ (busReads off bes s) := by
  unfold busReads
  try dsimp only
  repeat' first
    | with_reducible assumption
    | with_reducible exact Kept.refl _
    | intro _
    | dsimp only
    | with_reducible apply readRefused_kept
    | with_reducible apply busRead_kept
    | with_reducible apply foldS_kept
    | split

theorem ringBell_kept {s₀ : State} (m : Nat) {s : State} (hK : Kept s₀ s) : Kept s₀ (ringBell m s) := by
  unfold ringBell
  try dsimp only
  repeat' first
    | with_reducible assumption
    | with_reducible apply drawBit_kept
    | with_reducible apply modMbx_kept
    | split
    | simp (disch := rfl) only [Kept.set]

theorem ringBells_kept {s₀ : State} (v : Word) {s : State} (hK : Kept s₀ s) : Kept s₀ (ringBells v s) := by
  unfold ringBells
  try dsimp only
  repeat' first
    | with_reducible assumption
    | with_reducible exact Kept.refl _
    | intro _
    | with_reducible apply ringBell_kept
    | with_reducible apply foldS_kept

theorem ringBase_kept {s₀ : State} (lo : Word) (hi : Word) {s : State} (hK : Kept s₀ s) : Kept s₀ (ringBase lo hi s) := by
  unfold ringBase
  try dsimp only
  repeat' first
    | with_reducible assumption
    | with_reducible exact Kept.refl _
    | intro _
    | dsimp only
    | with_reducible apply ringHead_kept
    | split
    | simp (disch := rfl) only [Kept.set]
    | with_reducible refine Kept.upd ?_ (Nat.le_add_right _ _) rfl rfl rfl rfl rfl rfl

theorem ringHead_kept {s₀ : State} (h : BitVec 12) {s : State} (hK : Kept s₀ s) : Kept s₀ (ringHead h s) := by
  unfold ringHead
  try dsimp only
  repeat' first
    | with_reducible assumption
    | with_reducible exact Kept.refl _
    | intro _
    | dsimp only
    | split
    | simp (disch := rfl) only [Kept.set]

theorem busWrite_kept {s₀ : State} (off : Nat) (v : Word) (be : Nat) {s : State} (hK : Kept s₀ s) : Kept s₀ (busWrite off v be s) := by
  unfold busWrite
  try dsimp only
  repeat' first
    | with_reducible assumption
    | with_reducible exact Kept.refl _
    | intro _
    | dsimp only
    | with_reducible apply modMbx_kept
    | with_reducible apply msixFlush_kept
    | with_reducible apply violation_kept
    | with_reducible apply ringBells_kept
    | with_reducible apply ringBase_kept
    | with_reducible apply ringHead_kept
    | split
    | simp (disch := rfl) only [Kept.set]

theorem hostWrite_kept {s₀ : State} (a : Nat) (ws : List Word) {s : State} (hK : Kept s₀ s) : Kept s₀ (hostWrite a ws s) := by
  unfold hostWrite
  try dsimp only
  repeat' first
    | with_reducible assumption
    | with_reducible exact Kept.refl _
    | intro _
    | dsimp only
    | with_reducible apply foldl_kept
    | split
    | simp (disch := rfl) only [Kept.set]

theorem ringTarget_kept {s₀ : State} {s : State} (hK : Kept s₀ s) : Kept s₀ (ringTarget s).2 := by
  unfold ringTarget
  try dsimp only
  repeat' first
    | with_reducible assumption
    | with_reducible exact Kept.refl _
    | intro _
    | dsimp only
    | split
    | simp (disch := rfl) only [Kept.set]
    | with_reducible refine Kept.upd ?_ (Nat.le_add_right _ _) rfl rfl rfl rfl rfl rfl

theorem ringWords_kept {s₀ : State} (r : EvRec) {s : State} (hK : Kept s₀ s) : Kept s₀ (ringWords r s).2 := by
  unfold ringWords
  try dsimp only
  repeat' first
    | with_reducible assumption
    | with_reducible exact Kept.refl _
    | intro _
    | dsimp only
    | split
    | simp (disch := rfl) only [Kept.set]
    | with_reducible refine Kept.upd ?_ (Nat.le_add_right _ _) rfl rfl rfl rfl rfl rfl

theorem ringPut_kept {s₀ : State} (r : EvRec) {s : State} (hK : Kept s₀ s) : Kept s₀ (ringPut r s) := by
  unfold ringPut
  try dsimp only
  repeat' first
    | with_reducible assumption
    | with_reducible exact Kept.refl _
    | intro _
    | dsimp only
    | with_reducible apply msixSend_kept
    | with_reducible apply hostWrite_kept
    | with_reducible apply ringTarget_kept
    | with_reducible apply ringWords_kept
    | split
    | simp (disch := rfl) only [Kept.set]

theorem deliver_kept {s₀ : State} {s : State} (hK : Kept s₀ s) : Kept s₀ (deliver s) := by
  unfold deliver
  try dsimp only
  repeat' first
    | with_reducible assumption
    | with_reducible apply ringPut_kept
    | split
    | simp (disch := rfl) only [Kept.set]

/-! ### Twin -/

theorem evtPartner_kept {s₀ : State} (cause : Nat) {s : State} (hK : Kept s₀ s) : Kept s₀ (evtPartner cause s) := by
  unfold evtPartner
  try dsimp only
  repeat' first
    | with_reducible assumption
    | with_reducible apply raise_kept

theorem dropStaging_kept {s₀ : State} {s : State} (hK : Kept s₀ s) : Kept s₀ (dropStaging s) := by
  unfold dropStaging
  try dsimp only
  repeat' first
    | with_reducible assumption
    | with_reducible apply finishWaiting_kept
    | simp (disch := rfl) only [Kept.set]

theorem setRole_kept {s₀ : State} (r : Role) (cause : Nat) {s : State} (hK : Kept s₀ s) : Kept s₀ (setRole r cause s) := by
  unfold setRole
  try dsimp only
  repeat' first
    | with_reducible assumption
    | with_reducible exact Kept.refl _
    | intro _
    | dsimp only
    | with_reducible apply raise_kept
    | with_reducible apply dropStaging_kept
    | split
    | simp (disch := rfl) only [Kept.set]

theorem claimCheck_kept {s₀ : State} {s : State} (hK : Kept s₀ s) : Kept s₀ (claimCheck s) := by
  unfold claimCheck
  try dsimp only
  repeat' first
    | with_reducible assumption
    | with_reducible apply setRole_kept
    | split
    | simp (disch := rfl) only [Kept.set]

theorem lostTimer_kept {s₀ : State} {s : State} (hK : Kept s₀ s) : Kept s₀ (lostTimer s) := by
  unfold lostTimer
  try dsimp only
  repeat' first
    | with_reducible assumption
    | with_reducible exact Kept.refl _
    | intro _
    | dsimp only
    | split
    | simp (disch := rfl) only [Kept.set]

theorem arbFaultStep_kept {s₀ : State} (v : Bool) {s : State} (hK : Kept s₀ s) : Kept s₀ (arbFaultStep v s) := by
  unfold arbFaultStep
  try dsimp only
  repeat' first
    | with_reducible assumption
    | with_reducible apply evtPartner_kept
    | split
    | simp (disch := rfl) only [Kept.set]

theorem twinOut_kept {s₀ : State} (cause : Nat) {s : State} (hK : Kept s₀ s) : Kept s₀ (twinOut cause s) := by
  unfold twinOut
  try dsimp only
  repeat' first
    | with_reducible assumption
    | with_reducible apply finishWaiting_kept
    | with_reducible apply setRole_kept
    | split

theorem fedLanes_kept {s₀ : State} (los : Bool) {s : State} (hK : Kept s₀ s) : Kept s₀ (fedLanes los s) := by
  unfold fedLanes
  try dsimp only
  repeat' first
    | with_reducible assumption
    | with_reducible exact Kept.refl _
    | intro _
    | dsimp only
    | with_reducible apply modLane_kept
    | with_reducible apply huntLane_kept
    | with_reducible apply foldS_kept
    | split
    | simp (disch := rfl) only [Kept.set]

theorem linkDown_kept {s₀ : State} {s : State} (hK : Kept s₀ s) : Kept s₀ (linkDown s) := by
  unfold linkDown
  try dsimp only
  repeat' first
    | with_reducible assumption
    | with_reducible exact Kept.refl _
    | intro _
    | dsimp only
    | with_reducible apply evtPartner_kept
    | with_reducible apply fedLanes_kept
    | split
    | simp (disch := rfl) only [Kept.set]

theorem linkSettle_kept {s₀ : State} {s : State} (hK : Kept s₀ s) : Kept s₀ (linkSettle s) := by
  unfold linkSettle
  try dsimp only
  repeat' first
    | with_reducible assumption
    | with_reducible exact Kept.refl _
    | intro _
    | dsimp only
    | with_reducible apply linkDown_kept
    | split

theorem twinSettle_kept {s₀ : State} {s : State} (hK : Kept s₀ s) : Kept s₀ (twinSettle s) := by
  unfold twinSettle
  try dsimp only
  repeat' first
    | with_reducible assumption
    | with_reducible exact Kept.refl _
    | intro _
    | dsimp only
    | with_reducible apply evtPartner_kept
    | split
    | simp (disch := rfl) only [Kept.set]

theorem twinStart_kept {s₀ : State} {s : State} (hK : Kept s₀ s) : Kept s₀ (twinStart s) := by
  unfold twinStart
  try dsimp only
  repeat' first
    | with_reducible assumption
    | with_reducible apply raise_kept
    | with_reducible apply claimCheck_kept
    | simp (disch := rfl) only [Kept.set]

theorem sendHeartbeat_kept {s₀ : State} {s : State} (hK : Kept s₀ s) : Kept s₀ (sendHeartbeat s) := by
  unfold sendHeartbeat
  try dsimp only
  repeat' first
    | with_reducible assumption
    | with_reducible exact Kept.refl _
    | intro _
    | dsimp only
    | with_reducible apply sendVarric_kept
    | split
    | simp (disch := rfl) only [Kept.set]

theorem heartbeatSeen_kept {s₀ : State} {s : State} (hK : Kept s₀ s) : Kept s₀ (heartbeatSeen s) := by
  unfold heartbeatSeen
  try dsimp only
  repeat' first
    | with_reducible assumption
    | with_reducible apply setRole_kept
    | with_reducible apply lostTimer_kept
    | with_reducible apply arbFaultStep_kept
    | split
    | simp (disch := rfl) only [Kept.set]

theorem dualActive_kept {s₀ : State} (h : Heartbeat) {s : State} (hK : Kept s₀ s) : Kept s₀ (dualActive h s) := by
  unfold dualActive
  try dsimp only
  repeat' first
    | with_reducible assumption
    | with_reducible apply finishWaiting_kept
    | with_reducible apply setRole_kept
    | split

theorem followTime_kept {s₀ : State} (h : Heartbeat) {s : State} (hK : Kept s₀ s) : Kept s₀ (followTime h s) := by
  unfold followTime
  try dsimp only
  repeat' first
    | with_reducible assumption
    | with_reducible exact Kept.refl _
    | intro _
    | dsimp only
    | with_reducible apply stepTimeBy_kept
    | split
    | simp (disch := rfl) only [Kept.set]

/-- A change of the twin logic alone. -/
theorem Kept.twinSet {s t : State} {w : Twin} (h : Kept s t) : Kept s { t with twin := w } :=
  ⟨h.pending, h.now, h.free, h.mem, h.latch, h.ticks, h.retired, h.counter, h.revoked⟩

theorem Kept.step {s x y : State} {c : Prop} [Decidable c] (h : Kept s x) (k : Kept s x → Kept s y) : Kept s (if c then y else x) := by
  split
  · exact k h
  · exact h

theorem heartbeatRx_kept {s₀ : State} (h : Heartbeat) {s : State} (hK : Kept s₀ s) : Kept s₀ (heartbeatRx h s) := by
  unfold heartbeatRx
  split
  · exact hK
  · extract_lets rx delay was badVer verNew conflict conflictNew tw s1 s2
    have h2 : Kept s₀ s2 := heartbeatSeen_kept (Kept.twinSet hK)
    clear_value s2
    exact followTime_kept _ (Kept.step (dualActive_kept _ (Kept.step (Kept.step (Kept.step (Kept.step h2 Kept.twinSet)
      (evtPartner_kept _)) (evtPartner_kept _)) (arbFaultStep_kept _))) Kept.twinSet)

theorem heartbeatLost_kept {s₀ : State} {s : State} (hK : Kept s₀ s) : Kept s₀ (heartbeatLost s) := by
  unfold heartbeatLost
  try dsimp only
  repeat' first
    | with_reducible assumption
    | with_reducible apply evtPartner_kept
    | with_reducible apply claimCheck_kept
    | with_reducible apply lostTimer_kept
    | simp (disch := rfl) only [Kept.set]

/-! ### Sources -/

theorem modSrc_kept {s₀ : State} (a : Nat) (f : Src → Src) {s : State} (hK : Kept s₀ s) : Kept s₀ (modSrc a f s) := by
  unfold modSrc
  try dsimp only
  repeat' first
    | with_reducible assumption
    | simp (disch := rfl) only [Kept.set]

theorem maskSrc_kept {s₀ : State} (until_ : Nat) (a : Nat) {s : State} (hK : Kept s₀ s) : Kept s₀ (maskSrc until_ a s) := by
  unfold maskSrc
  try dsimp only
  repeat' first
    | with_reducible assumption
    | with_reducible apply modSrc_kept

theorem evtReplace_kept {s₀ : State} (r : Nat) (obj : Nat) (set : Bool) {s : State} (hK : Kept s₀ s) : Kept s₀ (evtReplace r obj set s) := by
  unfold evtReplace
  try dsimp only
  repeat' first
    | with_reducible assumption
    | with_reducible apply raiseAt_kept

theorem setReason_kept {s₀ : State} (r : Nat) (obj : Nat) {s : State} (hK : Kept s₀ s) : Kept s₀ (setReason r obj s) := by
  unfold setReason
  try dsimp only
  repeat' first
    | with_reducible assumption
    | with_reducible apply evtReplace_kept
    | split
    | simp (disch := rfl) only [Kept.set]

theorem clearReason_kept {s₀ : State} (r : Nat) (obj : Nat) {s : State} (hK : Kept s₀ s) : Kept s₀ (clearReason r obj s) := by
  unfold clearReason
  try dsimp only
  repeat' first
    | with_reducible assumption
    | with_reducible apply evtReplace_kept
    | split
    | simp (disch := rfl) only [Kept.set]

theorem faultPulse_kept {s₀ : State} {s : State} (hK : Kept s₀ s) : Kept s₀ (faultPulse s) := by
  unfold faultPulse
  try dsimp only
  repeat' first
    | with_reducible assumption
    | simp (disch := rfl) only [Kept.set]

theorem evtFault_kept {s₀ : State} (a : Nat) (kind : Nat) (action : Nat) (more : List (Nat × Nat)) {s : State} (hK : Kept s₀ s) : Kept s₀ (evtFault a kind action more s) := by
  unfold evtFault
  try dsimp only
  repeat' first
    | with_reducible assumption
    | with_reducible apply raiseAt_kept

theorem evtSlice_kept {s₀ : State} (k : Nat) (cause : Nat) {s : State} (hK : Kept s₀ s) : Kept s₀ (evtSlice k cause s) := by
  unfold evtSlice
  try dsimp only
  repeat' first
    | with_reducible assumption
    | with_reducible apply raiseAt_kept

theorem srcsIsolate_kept {s₀ : State} (d : Nat) {s : State} (hK : Kept s₀ s) : Kept s₀ (srcsIsolate d s) := by
  unfold srcsIsolate
  try dsimp only
  repeat' first
    | with_reducible assumption
    | with_reducible exact Kept.refl _
    | intro _
    | dsimp only
    | split
    | simp (disch := rfl) only [Kept.set]

theorem srcsReturn_kept {s₀ : State} (d : Nat) {s : State} (hK : Kept s₀ s) : Kept s₀ (srcsReturn d s) := by
  unfold srcsReturn
  try dsimp only
  repeat' first
    | with_reducible assumption
    | with_reducible exact Kept.refl _
    | intro _
    | dsimp only
    | split
    | simp (disch := rfl) only [Kept.set]

theorem raiseSrc_kept {s₀ : State} (a : Nat) (promoted : Bool) {s : State} (hK : Kept s₀ s) : Kept s₀ (raiseSrc a promoted s) := by
  unfold raiseSrc
  try dsimp only
  repeat' first
    | with_reducible assumption
    | with_reducible apply modSrc_kept
    | with_reducible apply faultPulse_kept
    | with_reducible apply evtFault_kept

theorem raisePath_kept {s₀ : State} (a : Nat) {s : State} (hK : Kept s₀ s) : Kept s₀ (raisePath a s) := by
  unfold raisePath
  try dsimp only
  repeat' first
    | with_reducible assumption
    | with_reducible apply modSrc_kept
    | with_reducible apply faultPulse_kept
    | with_reducible apply evtFault_kept
    | split

theorem raiseSilent_kept {s₀ : State} (a : Nat) {s : State} (hK : Kept s₀ s) : Kept s₀ (raiseSilent a s) := by
  unfold raiseSilent
  try dsimp only
  repeat' first
    | with_reducible assumption
    | with_reducible apply modSrc_kept
    | with_reducible apply faultPulse_kept
    | with_reducible apply evtFault_kept
    | split

theorem classifyGroup_kept {s₀ : State} (a : Nat) {s : State} (hK : Kept s₀ s) : Kept s₀ (classifyGroup a s) := by
  unfold classifyGroup
  try dsimp only
  repeat' first
    | with_reducible assumption
    | with_reducible exact Kept.refl _
    | intro _
    | dsimp only
    | with_reducible apply modSrc_kept
    | with_reducible apply raiseSrc_kept
    | split
    | simp (disch := rfl) only [Kept.set]

theorem injectDone_kept {s₀ : State} {s : State} (hK : Kept s₀ s) : Kept s₀ (injectDone s) := by
  unfold injectDone
  try dsimp only
  repeat' first
    | with_reducible assumption
    | with_reducible exact Kept.refl _
    | intro _
    | with_reducible apply finishWaiting_kept
    | with_reducible apply foldS_kept
    | simp (disch := rfl) only [Kept.set]

theorem injectCount_kept {s₀ : State} (i : Inject) (inj : Nat) (real : Nat) (missed : Nat) {s : State} (hK : Kept s₀ s) : Kept s₀ (injectCount i inj real missed s) := by
  unfold injectCount
  try dsimp only
  repeat' first
    | with_reducible assumption
    | with_reducible apply modSrc_kept
    | simp (disch := rfl) only [Kept.set]

theorem realSeen_kept {s₀ : State} (a : Nat) {s : State} (hK : Kept s₀ s) : Kept s₀ (realSeen a s) := by
  unfold realSeen
  try dsimp only
  repeat' first
    | with_reducible assumption
    | with_reducible exact Kept.refl _
    | intro _
    | dsimp only
    | with_reducible apply classifyGroup_kept
    | with_reducible apply injectDone_kept
    | with_reducible apply injectCount_kept
    | split
    | simp (disch := rfl) only [Kept.set]

theorem seenSettle_kept {s₀ : State} {s : State} (hK : Kept s₀ s) : Kept s₀ (seenSettle s) := by
  unfold seenSettle
  try dsimp only
  repeat' first
    | with_reducible assumption
    | with_reducible exact Kept.refl _
    | intro _
    | dsimp only
    | with_reducible apply realSeen_kept
    | with_reducible apply foldS_kept
    | split
    | simp (disch := rfl) only [Kept.set]

/-! ### Settle -/

theorem signalSettle_kept {s₀ : State} {s : State} (hK : Kept s₀ s) : Kept s₀ (signalSettle s) := by
  unfold signalSettle
  try dsimp only
  repeat' first
    | with_reducible assumption
    | with_reducible apply alignSettle_kept
    | with_reducible apply defectSettle_kept
    | with_reducible apply ssfSettle_kept
    | with_reducible apply ohSettle_kept
    | with_reducible apply replSettle_kept

theorem flushSettle_kept {s₀ : State} {s : State} (hK : Kept s₀ s) : Kept s₀ (flushSettle s) := by
  unfold flushSettle
  try dsimp only
  repeat' first
    | with_reducible assumption
    | with_reducible apply finishWaiting_kept
    | split

theorem settle_kept {s₀ : State} {s : State} (hK : Kept s₀ s) : Kept s₀ (settle s) := by
  unfold settle
  try dsimp only
  repeat' first
    | with_reducible assumption
    | with_reducible exact Kept.refl _
    | intro _
    | dsimp only
    | with_reducible apply defectSettle_kept
    | with_reducible apply protSettle_kept
    | with_reducible apply meterSettle_kept
    | with_reducible apply leafSettle_kept
    | with_reducible apply lcasSettle_kept
    | with_reducible apply braidSettle_kept
    | with_reducible apply weltSettle_kept
    | with_reducible apply lostSettle_kept
    | with_reducible apply candSettle_kept
    | with_reducible apply tmcSettle_kept
    | with_reducible apply restartSettle_kept
    | with_reducible apply linkSettle_kept
    | with_reducible apply twinSettle_kept
    | with_reducible apply seenSettle_kept
    | with_reducible apply signalSettle_kept
    | with_reducible apply flushSettle_kept
    | split

/-! ### Domains -/

theorem modDom_kept {s₀ : State} (d : Nat) (f : Domain → Domain) {s : State} (hK : Kept s₀ s) : Kept s₀ (modDom d f s) := by
  unfold modDom
  try dsimp only
  repeat' first
    | with_reducible assumption
    | simp (disch := rfl) only [Kept.set]

theorem dropContent_kept {s₀ : State} (p : Nat → Bool) {s : State} (hK : Kept s₀ s) : Kept s₀ (dropContent p s) :=
  hK.hbm (memDrop_wf _)

theorem renewCopies_kept {s₀ : State} {s : State} (hK : Kept s₀ s) : Kept s₀ (renewCopies s) := by
  unfold renewCopies
  try dsimp only
  repeat' first
    | with_reducible assumption
    | with_reducible exact Kept.refl _
    | intro _
    | dsimp only
    | split
    | simp (disch := rfl) only [Kept.set]

theorem historyDrop_kept {s₀ : State} (ps : List Nat) {s : State} (hK : Kept s₀ s) : Kept s₀ (historyDrop ps s) := by
  unfold historyDrop
  try dsimp only
  repeat' first
    | with_reducible assumption
    | with_reducible exact Kept.refl _
    | intro _
    | dsimp only
    | split
    | simp (disch := rfl) only [Kept.set]

theorem leaveS_kept {s₀ : State} (pcs : List Nat) (permanent : Bool) {s : State} {f : State → State} (hK : Kept s₀ (f s)) :
    Kept s₀ (leaveS pcs permanent s f) := by
  unfold leaveS
  simpa (disch := rfl) only [Kept.set] using historyDrop_kept _ hK

theorem retirePcs_kept {s₀ : State} (pcs : List Nat) {s : State} (hK : Kept s₀ s) : Kept s₀ (retirePcs pcs s) :=
  foldS_kept (leaveS_kept _ _ (hK.retire (fun p r => retired_kept _ pcs p r))) (fun _ _ => setReason_kept _ _ (Kept.refl _))

theorem evtBist_kept {s₀ : State} (b : Bist) (result : Nat) (fails : Nat) (first : Nat) {s : State} (hK : Kept s₀ s) : Kept s₀ (evtBist b result fails first s) := by
  unfold evtBist
  try dsimp only
  repeat' first
    | with_reducible assumption
    | with_reducible apply raise_kept

theorem bistAbort_kept {s₀ : State} (p : Bist → Bool) {s : State} (hK : Kept s₀ s) : Kept s₀ (bistAbort p s) := by
  unfold bistAbort
  try dsimp only
  repeat' first
    | with_reducible assumption
    | with_reducible apply evtBist_kept
    | split
    | simp (disch := rfl) only [Kept.set]

theorem sliceTestsClear_kept {s₀ : State} (k : Nat) {s : State} (hK : Kept s₀ s) : Kept s₀ (sliceTestsClear k s) := by
  unfold sliceTestsClear
  try dsimp only
  repeat' first
    | with_reducible assumption
    | simp (disch := rfl) only [Kept.set]

theorem sliceWritersGone_kept {s₀ : State} (k : Nat) {s : State} (hK : Kept s₀ s) : Kept s₀ (sliceWritersGone k s) := by
  unfold sliceWritersGone
  try dsimp only
  repeat' first
    | with_reducible assumption
    | with_reducible exact Kept.refl _
    | intro _
    | with_reducible apply writerGone_kept
    | with_reducible apply foldS_kept

theorem sliceClamp_kept {s₀ : State} (k : Nat) {s : State} (hK : Kept s₀ s) : Kept s₀ (sliceClamp k s) := by
  unfold sliceClamp
  try dsimp only
  repeat' first
    | with_reducible assumption
    | with_reducible exact Kept.refl _
    | intro _
    | dsimp only
    | with_reducible apply modLane_kept
    | with_reducible apply laneOff_kept
    | with_reducible apply huntLane_kept
    | with_reducible apply bistAbort_kept
    | with_reducible apply sliceTestsClear_kept
    | with_reducible apply sliceWritersGone_kept
    | with_reducible apply foldS_kept
    | split
    | simp (disch := rfl) only [Kept.set]

theorem twinClamp_kept {s₀ : State} {s : State} (hK : Kept s₀ s) : Kept s₀ (twinClamp s) := by
  unfold twinClamp
  try dsimp only
  repeat' first
    | with_reducible assumption
    | with_reducible exact Kept.refl _
    | intro _
    | with_reducible apply laneOff_kept
    | with_reducible apply finishWaiting_kept
    | with_reducible apply dropStaging_kept
    | with_reducible apply linkDown_kept
    | with_reducible apply foldS_kept
    | simp (disch := rfl) only [Kept.set]

theorem timersMove_kept {s₀ : State} (k : Nat) (was : State) {s : State} (hK : Kept s₀ s) : Kept s₀ (timersMove k was s) := by
  unfold timersMove
  simpa (disch := rfl) only [Kept.set] using hK

theorem domClamp_kept {s₀ : State} (d : Nat) {s : State} (hK : Kept s₀ s) : Kept s₀ (domClamp d s) := by
  unfold domClamp
  try dsimp only
  repeat' first
    | with_reducible assumption
    | with_reducible exact Kept.refl _
    | intro _
    | with_reducible apply weltDisable_kept
    | with_reducible apply bistAbort_kept
    | with_reducible apply sliceClamp_kept
    | with_reducible apply twinClamp_kept
    | with_reducible apply foldS_kept
    | split

theorem domainOut_kept {s₀ : State} (d : Nat) (dest : DomState) {s : State} (hK : Kept s₀ s) : Kept s₀ (domainOut d dest s) := by
  unfold domainOut
  try dsimp only
  repeat' first
    | with_reducible assumption
    | with_reducible exact Kept.refl _
    | intro _
    | dsimp only
    | with_reducible apply timersMove_kept
    | with_reducible apply finishWaiting_kept
    | with_reducible apply srcsIsolate_kept
    | with_reducible apply modDom_kept
    | with_reducible apply timersMove_kept
    | with_reducible apply domClamp_kept
    | split
    | simp (disch := rfl) only [Kept.set]

theorem finishDomain_kept {s₀ : State} (d : Nat) {s : State} (hK : Kept s₀ s) : Kept s₀ (finishDomain d s) := by
  unfold finishDomain
  try dsimp only
  repeat' first
    | with_reducible assumption
    | with_reducible apply finishWaiting_kept

theorem startSwitch_kept {s₀ : State} (d : Nat) (on : Bool) {s : State} (hK : Kept s₀ s) : Kept s₀ (startSwitch d on s) := by
  unfold startSwitch
  try dsimp only
  repeat' first
    | with_reducible assumption
    | with_reducible apply evtSlice_kept
    | with_reducible apply modDom_kept
    | with_reducible apply domainOut_kept
    | with_reducible apply finishDomain_kept
    | split

theorem nextSwitch_kept {s₀ : State} (fuel : Nat) {s : State} (hK : Kept s₀ s) : Kept s₀ (nextSwitch fuel s) := by
  induction fuel generalizing s with
  | zero => exact hK
  | succ f ih =>
    unfold nextSwitch
    split
    · exact hK
    · split
      · exact ih (startSwitch_kept _ _ (by simpa (disch := rfl) only [Kept.set] using hK))
      · exact hK

theorem switchesOpen_kept {s₀ : State} (d : Nat) {s : State} (hK : Kept s₀ s) : Kept s₀ (switchesOpen d s) := by
  unfold switchesOpen
  try dsimp only
  repeat' first
    | with_reducible assumption
    | with_reducible exact Kept.refl _
    | intro _
    | dsimp only
    | with_reducible apply modDom_kept
    | with_reducible apply dropContent_kept
    | with_reducible apply renewCopies_kept
    | with_reducible apply leaveS_kept
    | with_reducible apply finishDomain_kept
    | with_reducible apply nextSwitch_kept
    | split
    | simp (disch := rfl) only [Kept.set]

theorem sliceQueues_kept {s₀ : State} (k : Nat) {s : State} (hK : Kept s₀ s) : Kept s₀ (sliceQueues k s) := by
  unfold sliceQueues
  try dsimp only
  repeat' first
    | with_reducible assumption
    | simp (disch := rfl) only [Kept.set]

theorem sliceObjects_kept {s₀ : State} (k : Nat) (f : Port → Port) (g : Oh → Oh) {s : State} (hK : Kept s₀ s) : Kept s₀ (sliceObjects k f g s) := by
  unfold sliceObjects
  try dsimp only
  repeat' first
    | with_reducible assumption
    | with_reducible exact Kept.refl _
    | intro _
    | dsimp only
    | with_reducible apply sliceQueues_kept
    | split
    | simp (disch := rfl) only [Kept.set]

theorem sliceRecreate_kept {s₀ : State} (k : Nat) {s : State} (hK : Kept s₀ s) : Kept s₀ (sliceRecreate k s) := by
  unfold sliceRecreate
  try dsimp only
  repeat' first
    | with_reducible assumption
    | with_reducible exact Kept.refl _
    | intro _
    | with_reducible apply laneOn_kept
    | with_reducible apply laneStart_kept
    | with_reducible apply monCreate_kept
    | with_reducible apply sliceObjects_kept
    | with_reducible apply foldS_kept
    | split
    | simp (disch := rfl) only [Kept.set]

theorem halfReturn_kept {s₀ : State} (h : Nat) {s : State} (hK : Kept s₀ s) : Kept s₀ (halfReturn h s) := by
  unfold halfReturn
  try dsimp only
  repeat' first
    | with_reducible assumption
    | simp (disch := rfl) only [Kept.set]

theorem weltReturn_kept {s₀ : State} {s : State} (hK : Kept s₀ s) : Kept s₀ (weltReturn s) := by
  unfold weltReturn
  try dsimp only
  repeat' first
    | with_reducible assumption
    | with_reducible exact Kept.refl _
    | intro _
    | dsimp only
    | with_reducible apply weltEnable_kept
    | with_reducible apply foldS_kept
    | split
    | simp (disch := rfl) only [Kept.set]

theorem holdsEnd_kept {s₀ : State} (d : Nat) {s : State} (hK : Kept s₀ s) : Kept s₀ (holdsEnd d s) := by
  unfold holdsEnd
  try dsimp only
  repeat' first
    | with_reducible assumption
    | with_reducible exact Kept.refl _
    | intro _
    | dsimp only
    | split
    | simp (disch := rfl) only [Kept.set]

theorem reportOn_kept {s₀ : State} (d : Nat) {s : State} (hK : Kept s₀ s) : Kept s₀ (reportOn d s) := by
  unfold reportOn
  try dsimp only
  repeat' first
    | with_reducible assumption
    | with_reducible exact Kept.refl _
    | intro _
    | dsimp only
    | with_reducible apply laneOn_kept
    | with_reducible apply twinStart_kept
    | with_reducible apply srcsReturn_kept
    | with_reducible apply modDom_kept
    | with_reducible apply timersMove_kept
    | with_reducible apply sliceRecreate_kept
    | with_reducible apply weltReturn_kept
    | with_reducible apply holdsEnd_kept
    | with_reducible apply foldS_kept
    | split

theorem bringUp_kept {s₀ : State} (d : Nat) {s : State} (hK : Kept s₀ s) : Kept s₀ (bringUp d s) := by
  unfold bringUp
  try dsimp only
  repeat' first
    | with_reducible assumption
    | with_reducible apply budgetResume_kept
    | with_reducible apply finishDomain_kept
    | with_reducible apply nextSwitch_kept
    | with_reducible apply halfReturn_kept
    | with_reducible apply reportOn_kept
    | split

theorem fcIsolate_kept {s₀ : State} (d : Nat) (cause : Nat) {s : State} (hK : Kept s₀ s) : Kept s₀ (fcIsolate d cause s) := by
  unfold fcIsolate
  try dsimp only
  repeat' first
    | with_reducible assumption
    | with_reducible apply setReason_kept
    | with_reducible apply evtSlice_kept
    | with_reducible apply domainOut_kept
    | split

theorem retireNow_kept {s₀ : State} (t : Nat) {s : State} (hK : Kept s₀ s) : Kept s₀ (retireNow t s) := by
  unfold retireNow
  try dsimp only
  repeat' first
    | with_reducible assumption
    | with_reducible apply retirePcs_kept
    | with_reducible apply bistAbort_kept
    | with_reducible apply fcIsolate_kept
    | split

theorem retireDue_kept {s₀ : State} (t : Nat) {s : State} (hK : Kept s₀ s) : Kept s₀ (retireDue t s) := by
  unfold retireDue
  try dsimp only
  repeat' first
    | with_reducible assumption
    | with_reducible apply retireNow_kept
    | split
    | simp (disch := rfl) only [Kept.set]

theorem takeDeferred_kept {s₀ : State} (fuel : Nat) {s : State} (hK : Kept s₀ s) : Kept s₀ (takeDeferred fuel s) := by
  induction fuel generalizing s with
  | zero => exact hK
  | succ f ih =>
    unfold takeDeferred
    split
    · exact hK
    · split
      · exact ih (retireNow_kept _ (by simpa (disch := rfl) only [Kept.set] using hK))
      · exact hK

theorem retireEvaluate_kept {s₀ : State} {s : State} (hK : Kept s₀ s) : Kept s₀ (retireEvaluate s) := by
  unfold retireEvaluate
  try dsimp only
  repeat' first
    | with_reducible assumption
    | with_reducible exact Kept.refl _
    | intro _
    | dsimp only
    | with_reducible apply flushRetired_kept
    | with_reducible apply budgetSettle_kept
    | with_reducible apply dropContent_kept
    | with_reducible apply renewCopies_kept
    | with_reducible apply takeDeferred_kept
    | with_reducible apply foldS_kept
    | split
    | simp (disch := rfl) only [Kept.set]

theorem candFrontReset_kept {s₀ : State} (c : Nat) {s : State} (hK : Kept s₀ s) : Kept s₀ (candFrontReset c s) := by
  unfold candFrontReset
  try dsimp only
  repeat' first
    | with_reducible assumption
    | with_reducible apply modCand_kept

theorem sliceReset_kept {s₀ : State} (k : Nat) {s : State} (hK : Kept s₀ s) : Kept s₀ (sliceReset k s) := by
  unfold sliceReset
  try dsimp only
  repeat' first
    | with_reducible assumption
    | with_reducible apply sliceWritersGone_kept
    | with_reducible apply sliceObjects_kept
    | simp (disch := rfl) only [Kept.set]

theorem resetEffect_kept {s₀ : State} (blk : Nat) (idx : Nat) {s : State} (hK : Kept s₀ s) : Kept s₀ (resetEffect blk idx s) := by
  unfold resetEffect
  try dsimp only
  repeat' first
    | with_reducible assumption
    | with_reducible apply laneReset_kept
    | with_reducible apply huntLane_kept
    | with_reducible apply candFrontReset_kept
    | with_reducible apply sliceReset_kept
    | split
    | simp (disch := rfl) only [Kept.set]

theorem resetAfter_kept {s₀ : State} (blk : Nat) (idx : Nat) {s : State} (hK : Kept s₀ s) : Kept s₀ (resetAfter blk idx s) := by
  unfold resetAfter
  try dsimp only
  repeat' first
    | with_reducible assumption
    | with_reducible exact Kept.refl _
    | intro _
    | with_reducible apply toAcquire_kept
    | with_reducible apply weltRealign_kept
    | with_reducible apply candFrontReset_kept
    | with_reducible apply foldS_kept
    | split

theorem blockReset_kept {s₀ : State} (blk : Nat) (idx : Nat) {s : State} (hK : Kept s₀ s) : Kept s₀ (blockReset blk idx s) := by
  unfold blockReset
  try dsimp only
  repeat' first
    | with_reducible assumption
    | with_reducible exact Kept.refl _
    | intro _
    | with_reducible apply maskSrc_kept
    | with_reducible apply resetEffect_kept
    | with_reducible apply foldS_kept
    | split
    | simp (disch := rfl) only [Kept.set]

theorem blockResetEnd_kept {s₀ : State} (blk : Nat) (idx : Nat) {s : State} (hK : Kept s₀ s) : Kept s₀ (blockResetEnd blk idx s) := by
  unfold blockResetEnd
  try dsimp only
  repeat' first
    | with_reducible assumption
    | with_reducible apply finishWaiting_kept
    | with_reducible apply resetAfter_kept
    | split
    | simp (disch := rfl) only [Kept.set]

theorem mpBack_kept {s₀ : State} {s : State} (hK : Kept s₀ s) : Kept s₀ (mpBack s) := by
  unfold mpBack
  try dsimp only
  repeat' first
    | with_reducible assumption
    | with_reducible exact Kept.refl _
    | intro _
    | with_reducible apply modSrc_kept
    | with_reducible apply foldS_kept
    | split
    | simp (disch := rfl) only [Kept.set]

/-! ### Faults -/

theorem fatalState_kept {s₀ : State} {s : State} (hK : Kept s₀ s) : Kept s₀ (fatalState s) := by
  unfold fatalState
  try dsimp only
  repeat' first
    | with_reducible assumption
    | split
    | simp (disch := rfl) only [Kept.set]

theorem fatalLatch_kept {s₀ : State} (a : Nat) {s : State} (hK : Kept s₀ s) : Kept s₀ (fatalLatch a s) := by
  unfold fatalLatch
  extract_lets s1
  have h1 : Kept s₀ s1 := modSrc_kept _ _ hK
  clear_value s1
  split
  · exact h1
  · rename_i e
    exact fatalState_kept (foldS_kept (foldS_kept ((Kept.set rfl rfl rfl rfl rfl rfl).2 (twinOut_kept _ (setReason_kept _ _
      (faultPulse_kept (h1.latchSet (by simpa [fatalSet] using e) rfl))))) (fun _ _ => domainOut_kept _ _ (Kept.refl _)))
      (fun _ _ => finishDomain_kept _ (Kept.refl _)))

theorem fatalCold_kept {s₀ : State} (a : Nat) {s : State} (hK : Kept s₀ s) : Kept s₀ (fatalCold a s) := by
  unfold fatalCold
  extract_lets s1
  have h1 : Kept s₀ s1 := modSrc_kept _ _ hK
  clear_value s1
  split
  · exact h1
  · rename_i e
    exact faultPulse_kept (h1.latchSet (by simpa [fatalSet] using e) rfl)

theorem classify_kept {s₀ : State} (a : Nat) {s : State} (hK : Kept s₀ s) : Kept s₀ (classify a s) := by
  unfold classify
  try dsimp only
  repeat' first
    | with_reducible assumption
    | with_reducible exact Kept.refl _
    | intro _
    | dsimp only
    | with_reducible apply classifyGroup_kept
    | with_reducible apply fatalLatch_kept
    | split

theorem sourceEvent_kept {s₀ : State} (a : Nat) (obs : CheckObs) {s : State} (hK : Kept s₀ s) : Kept s₀ (sourceEvent a obs s) := by
  unfold sourceEvent
  try dsimp only
  repeat' first
    | with_reducible assumption
    | with_reducible exact Kept.refl _
    | intro _
    | dsimp only
    | with_reducible apply injectDone_kept
    | with_reducible apply injectCount_kept
    | with_reducible apply fatalCold_kept
    | with_reducible apply classify_kept
    | split
    | simp (disch := rfl) only [Kept.set]

theorem pathFault_kept {s₀ : State} (a : Nat) {s : State} (hK : Kept s₀ s) : Kept s₀ (pathFault a s) := by
  unfold pathFault
  try dsimp only
  repeat' first
    | with_reducible assumption
    | with_reducible apply modSrc_kept
    | with_reducible apply raisePath_kept
    | with_reducible apply injectDone_kept
    | with_reducible apply injectCount_kept
    | split

theorem isolate_kept {s₀ : State} (t : IsoTarget) (a : Nat) {s : State} (hK : Kept s₀ s) : Kept s₀ (isolate t a s) := by
  unfold isolate
  try dsimp only
  repeat' first
    | with_reducible assumption
    | with_reducible apply fcIsolate_kept
    | with_reducible apply retireDue_kept
    | split

theorem acted_kept {s₀ : State} (a : Nat) (code : Nat) (more : List (Nat × Nat)) {s : State} (hK : Kept s₀ s) : Kept s₀ (acted a code more s) := by
  unfold acted
  try dsimp only
  repeat' first
    | with_reducible assumption
    | with_reducible apply modSrc_kept
    | with_reducible apply evtFault_kept

theorem groupAction_kept {s₀ : State} (a : Nat) {s : State} (hK : Kept s₀ s) : Kept s₀ (groupAction a s) := by
  unfold groupAction
  try dsimp only
  repeat' first
    | with_reducible assumption
    | with_reducible apply laneHold_kept
    | with_reducible apply modSrc_kept
    | with_reducible apply setReason_kept
    | with_reducible apply blockReset_kept
    | with_reducible apply isolate_kept
    | with_reducible apply acted_kept
    | split

theorem ownExpiry_kept {s₀ : State} (a : Nat) {s : State} (hK : Kept s₀ s) : Kept s₀ (ownExpiry a s) := by
  unfold ownExpiry
  try dsimp only
  repeat' first
    | with_reducible assumption
    | with_reducible apply twinOut_kept
    | with_reducible apply modSrc_kept
    | with_reducible apply setReason_kept
    | with_reducible apply acted_kept
    | with_reducible apply groupAction_kept
    | split

theorem replaceExpiry_kept {s₀ : State} (a : Nat) (r : Nat) {s : State} (hK : Kept s₀ s) : Kept s₀ (replaceExpiry a r s) := by
  unfold replaceExpiry
  try dsimp only
  repeat' first
    | with_reducible assumption
    | with_reducible apply modSrc_kept
    | with_reducible apply setReason_kept
    | with_reducible apply acted_kept

theorem timerExpiry_kept {s₀ : State} (a : Nat) (k : Nat) {s : State} (hK : Kept s₀ s) : Kept s₀ (timerExpiry a k s) := by
  unfold timerExpiry
  try dsimp only
  repeat' first
    | with_reducible assumption
    | with_reducible exact Kept.refl _
    | intro _
    | dsimp only
    | with_reducible apply modSrc_kept
    | with_reducible apply groupAction_kept
    | with_reducible apply ownExpiry_kept
    | with_reducible apply replaceExpiry_kept
    | split
    | simp (disch := rfl) only [Kept.set]

theorem runDue_kept {s₀ : State} (fuel : Nat) {s : State} (hK : Kept s₀ s) : Kept s₀ (runDue fuel s) := by
  induction fuel generalizing s with
  | zero => unfold runDue; exact hK
  | succ n ih =>
    cases e : nextDue s with
    | none => unfold runDue; rw [e]; exact hK
    | some x => unfold runDue; rw [e]; exact ih (timerExpiry_kept _ _ hK)

theorem allDue_kept {s₀ : State} {s : State} (hK : Kept s₀ s) : Kept s₀ (allDue s) := by
  unfold allDue
  try dsimp only
  repeat' first
    | with_reducible assumption
    | with_reducible exact Kept.refl _
    | intro _
    | dsimp only
    | with_reducible apply runDue_kept
    | split

theorem graceExpiry_kept {s₀ : State} (a : Nat) {s : State} (hK : Kept s₀ s) : Kept s₀ (graceExpiry a s) := by
  unfold graceExpiry
  try dsimp only
  repeat' first
    | with_reducible assumption
    | with_reducible exact Kept.refl _
    | intro _
    | dsimp only
    | with_reducible apply allDue_kept
    | split

theorem holdEnd_kept {s₀ : State} (a : Nat) {s : State} (hK : Kept s₀ s) : Kept s₀ (holdEnd a s) := by
  unfold holdEnd
  try dsimp only
  repeat' first
    | with_reducible assumption
    | with_reducible apply laneRelease_kept
    | with_reducible apply modSrc_kept
    | with_reducible apply candFrontReset_kept
    | split

theorem clearSrc_kept {s₀ : State} (a : Nat) {s : State} (hK : Kept s₀ s) : Kept s₀ (clearSrc a s) := by
  unfold clearSrc
  try dsimp only
  repeat' first
    | with_reducible assumption
    | with_reducible exact Kept.refl _
    | intro _
    | dsimp only
    | with_reducible apply modSrc_kept
    | with_reducible apply evtFault_kept
    | with_reducible apply acted_kept
    | with_reducible apply holdEnd_kept
    | split
    | simp (disch := rfl) only [Kept.set]

theorem exerciseCheck_kept {s₀ : State} (a : Nat) (seen : Option CheckObs) {s : State} (hK : Kept s₀ s) : Kept s₀ (exerciseCheck a seen s).2 := by
  unfold exerciseCheck
  try dsimp only
  repeat' first
    | with_reducible assumption
    | with_reducible exact Kept.refl _
    | intro _
    | dsimp only
    | with_reducible apply modSrc_kept
    | with_reducible apply classify_kept
    | split
    | simp (disch := rfl) only [Kept.set]

theorem exercise_kept {s₀ : State} (a : Nat) (seen : Option CheckObs) {s : State} (hK : Kept s₀ s) : Kept s₀ (exercise a seen s) := by
  unfold exercise
  try dsimp only
  repeat' first
    | with_reducible assumption
    | with_reducible exact Kept.refl _
    | intro _
    | dsimp only
    | with_reducible apply modSrc_kept
    | with_reducible apply exerciseCheck_kept
    | split
    | simp (disch := rfl) only [Kept.set]

theorem exerciseAgain_kept {s₀ : State} (a : Nat) (seen : Option CheckObs) {s : State} (hK : Kept s₀ s) : Kept s₀ (exerciseAgain a seen s) := by
  unfold exerciseAgain
  try dsimp only
  repeat' first
    | with_reducible assumption
    | with_reducible exact Kept.refl _
    | intro _
    | dsimp only
    | with_reducible apply modSrc_kept
    | with_reducible apply raiseSilent_kept
    | with_reducible apply exerciseCheck_kept
    | split
    | simp (disch := rfl) only [Kept.set]

theorem cmdFaultRead_kept {s₀ : State} (c : Ctx) (req : List Word) {s : State} (hK : Kept s₀ s) : Kept s₀ (cmdFaultRead c req s).2 := by
  unfold cmdFaultRead
  try dsimp only
  repeat' first
    | with_reducible assumption
    | with_reducible apply okWith_kept
    | with_reducible apply ladder_kept
    | split

theorem cmdFaultClear_kept {s₀ : State} (c : Ctx) (req : List Word) {s : State} (hK : Kept s₀ s) : Kept s₀ (cmdFaultClear c req s).2 := by
  unfold cmdFaultClear
  try dsimp only
  repeat' first
    | with_reducible assumption
    | with_reducible exact Kept.refl _
    | intro _
    | dsimp only
    | with_reducible apply okWith_kept
    | with_reducible apply acted_kept
    | with_reducible apply allDue_kept
    | with_reducible apply clearSrc_kept
    | with_reducible apply foldS_kept
    | with_reducible apply ladder_kept
    | split

theorem cmdFaultPolicy_kept {s₀ : State} (c : Ctx) (req : List Word) {s : State} (hK : Kept s₀ s) : Kept s₀ (cmdFaultPolicy c req s).2 := by
  unfold cmdFaultPolicy
  try dsimp only
  repeat' first
    | with_reducible assumption
    | with_reducible apply okWith_kept
    | with_reducible apply okNone_kept
    | with_reducible apply ladder_kept
    | split
    | simp (disch := rfl) only [Kept.set]

theorem cmdFaultInject_kept {s₀ : State} (c : Ctx) (req : List Word) {s : State} (hK : Kept s₀ s) : Kept s₀ (cmdFaultInject c req s).2 := by
  unfold cmdFaultInject
  try dsimp only
  repeat' first
    | with_reducible assumption
    | dsimp only
    | with_reducible apply ladder_kept
    | simp (disch := rfl) only [Kept.set]

theorem cmdFaultPin_kept {s₀ : State} (c : Ctx) (req : List Word) {s : State} (hK : Kept s₀ s) : Kept s₀ (cmdFaultPin c req s).2 := by
  unfold cmdFaultPin
  try dsimp only
  repeat' first
    | with_reducible assumption
    | with_reducible exact Kept.refl _
    | intro _
    | with_reducible apply okWith_kept
    | with_reducible apply setReason_kept
    | with_reducible apply clearReason_kept
    | with_reducible apply foldS_kept
    | with_reducible apply ladder_kept
    | split
    | simp (disch := rfl) only [Kept.set]

end Sys2Proof.Machine
end

