-- ==== Sys2Proof/Laws/KeptCommands.lean ====
section
/-! SUPPORT. Kept, for the operations of the mailbox commands and the journal. -/

namespace Sys2Proof.Machine

/-! ### System -/

theorem cmdSysInfo_kept {s₀ : State} (x0 : Ctx) (x1 : List Word) {s : State} (hK : Kept s₀ s) : Kept s₀ (cmdSysInfo x0 x1 s).2 := by
  unfold cmdSysInfo
  try dsimp only
  repeat' first
    | with_reducible assumption
    | with_reducible apply okWith_kept

theorem cmdSysResetBlock_kept {s₀ : State} (c : Ctx) (req : List Word) {s : State} (hK : Kept s₀ s) : Kept s₀ (cmdSysResetBlock c req s).2 := by
  unfold cmdSysResetBlock
  try dsimp only
  repeat' first
    | with_reducible assumption
    | dsimp only
    | with_reducible apply okNone_kept
    | with_reducible apply blockReset_kept
    | with_reducible apply ladder_kept
    | split

theorem cmdSysPowerDomain_kept {s₀ : State} (c : Ctx) (req : List Word) {s : State} (hK : Kept s₀ s) : Kept s₀ (cmdSysPowerDomain c req s).2 := by
  unfold cmdSysPowerDomain
  try dsimp only
  repeat' first
    | with_reducible assumption
    | dsimp only
    | with_reducible apply okWith_kept
    | with_reducible apply startSwitch_kept
    | with_reducible apply ladder_kept
    | split
    | simp (disch := rfl) only [Kept.set]

theorem cmdSysEventMask_kept {s₀ : State} (c : Ctx) (req : List Word) {s : State} (hK : Kept s₀ s) : Kept s₀ (cmdSysEventMask c req s).2 := by
  unfold cmdSysEventMask
  try dsimp only
  repeat' first
    | with_reducible assumption
    | with_reducible apply okWith_kept
    | with_reducible apply ladder_kept
    | split
    | simp (disch := rfl) only [Kept.set]

theorem cmdSysViolationRead_kept {s₀ : State} (c : Ctx) (x1 : List Word) {s : State} (hK : Kept s₀ s) : Kept s₀ (cmdSysViolationRead c x1 s).2 := by
  unfold cmdSysViolationRead
  try dsimp only
  repeat' first
    | with_reducible assumption
    | with_reducible apply okWith_kept
    | with_reducible apply ladder_kept
    | simp (disch := rfl) only [Kept.set]

theorem partAsked_kept {s₀ : State} (m : Nat) (part : Nat) {s : State} (hK : Kept s₀ s) : Kept s₀ (partAsked m part s) := by
  unfold partAsked
  try dsimp only
  repeat' first
    | with_reducible assumption
    | with_reducible exact Kept.refl _
    | intro _
    | dsimp only
    | with_reducible apply modMbx_kept
    | split
    | simp (disch := rfl) only [Kept.set]

theorem cmdSysContinue_kept {s₀ : State} (c : Ctx) (req : List Word) {s : State} (hK : Kept s₀ s) : Kept s₀ (cmdSysContinue c req s).2 := by
  unfold cmdSysContinue
  try dsimp only
  repeat' first
    | with_reducible assumption
    | with_reducible exact Kept.refl _
    | intro _
    | dsimp only
    | with_reducible apply okWith_kept
    | with_reducible apply partAsked_kept
    | with_reducible apply ladder_kept
    | split
    | simp (disch := rfl) only [Kept.set]
    | with_reducible refine Kept.upd ?_ (Nat.le_add_right _ _) rfl rfl rfl rfl rfl rfl

/-! ### Diag -/

theorem cmdPrbsConfig_kept {s₀ : State} (c : Ctx) (req : List Word) {s : State} (hK : Kept s₀ s) : Kept s₀ (cmdPrbsConfig c req s).2 := by
  unfold cmdPrbsConfig
  try dsimp only
  repeat' first
    | with_reducible assumption
    | with_reducible apply okNone_kept
    | with_reducible apply ladder_kept
    | split
    | simp (disch := rfl) only [Kept.set]

theorem cmdPrbsRead_kept {s₀ : State} (c : Ctx) (req : List Word) {s : State} (hK : Kept s₀ s) : Kept s₀ (cmdPrbsRead c req s).2 := by
  unfold cmdPrbsRead
  try dsimp only
  repeat' first
    | with_reducible assumption
    | with_reducible apply okWith_kept
    | with_reducible apply ladder_kept
    | split
    | simp (disch := rfl) only [Kept.set]

theorem cmdLoopbackSet_kept {s₀ : State} (c : Ctx) (req : List Word) {s : State} (hK : Kept s₀ s) : Kept s₀ (cmdLoopbackSet c req s).2 := by
  unfold cmdLoopbackSet
  try dsimp only
  repeat' first
    | with_reducible assumption
    | with_reducible apply okNone_kept
    | with_reducible apply laneAcquire_kept
    | with_reducible apply huntLane_kept
    | with_reducible apply ladder_kept
    | split
    | simp (disch := rfl) only [Kept.set]

theorem cmdEyeScan_kept {s₀ : State} (c : Ctx) (req : List Word) {s : State} (hK : Kept s₀ s) : Kept s₀ (cmdEyeScan c req s).2 := by
  unfold cmdEyeScan
  try dsimp only
  repeat' first
    | with_reducible assumption
    | dsimp only
    | with_reducible apply okWith_kept
    | with_reducible apply okNone_kept
    | with_reducible apply ladder_kept
    | split
    | simp (disch := rfl) only [Kept.set]

theorem cmdBistRun_kept {s₀ : State} (c : Ctx) (req : List Word) {s : State} (hK : Kept s₀ s) : Kept s₀ (cmdBistRun c req s).2 := by
  unfold cmdBistRun
  try dsimp only
  repeat' first
    | with_reducible assumption
    | dsimp only
    | with_reducible apply ladder_kept
    | simp (disch := rfl) only [Kept.set]

theorem bistDone_kept {s₀ : State} (fails : Nat) (multi : Bool) (first : Nat) {s : State} (hK : Kept s₀ s) : Kept s₀ (bistDone fails multi first s) := by
  unfold bistDone
  try dsimp only
  repeat' first
    | with_reducible assumption
    | with_reducible apply setReason_kept
    | with_reducible apply dropContent_kept
    | with_reducible apply retirePcs_kept
    | with_reducible apply evtBist_kept
    | with_reducible apply domainOut_kept
    | split
    | simp (disch := rfl) only [Kept.set]

theorem tckRise_kept {s₀ : State} (tms : Bool) (tdi : Bool) {s : State} (hK : Kept s₀ s) : Kept s₀ (tckRise tms tdi s) := by
  unfold tckRise
  try dsimp only
  repeat' first
    | with_reducible assumption
    | dsimp only
    | split
    | simp (disch := rfl) only [Kept.set]
    | with_reducible refine Kept.upd ?_ (Nat.le_add_right _ _) rfl rfl rfl rfl rfl rfl

theorem tckFall_kept {s₀ : State} {s : State} (hK : Kept s₀ s) : Kept s₀ (tckFall s) := by
  unfold tckFall
  try dsimp only
  repeat' first
    | with_reducible assumption
    | split
    | simp (disch := rfl) only [Kept.set]

/-! ### Ports -/

theorem laneReadapt_kept {s₀ : State} (k : Nat) {s : State} (hK : Kept s₀ s) : Kept s₀ (laneReadapt k s) := by
  unfold laneReadapt
  try dsimp only
  repeat' first
    | with_reducible assumption
    | with_reducible apply laneAcquire_kept
    | with_reducible apply huntLane_kept
    | split

theorem perhaps_kept {s₀ : State} {f : State → State} {s : State} (hK : Kept s₀ s) (k : ∀ t, Kept t (f t)) : Kept s₀ (perhaps f s) := by
  unfold perhaps
  have h := drawBit_kept hK
  dsimp only
  split
  · exact h.trans (k _)
  · exact h

theorem openPoint_kept {s₀ : State} (a : Nat) {s : State} (hK : Kept s₀ s) : Kept s₀ (openPoint a s) := by
  unfold openPoint
  try dsimp only
  repeat' first
    | with_reducible assumption
    | with_reducible exact Kept.refl _
    | intro _
    | dsimp only
    | split
    | simp (disch := rfl) only [Kept.set]
    | with_reducible refine Kept.upd ?_ (Nat.le_add_right _ _) rfl rfl rfl rfl rfl rfl

theorem openTraffic_kept {s₀ : State} (k : Nat) {s : State} (hK : Kept s₀ s) : Kept s₀ (openTraffic k s) := by
  unfold openTraffic
  try dsimp only
  repeat' first
    | with_reducible assumption
    | with_reducible exact Kept.refl _
    | intro _
    | dsimp only
    | with_reducible apply updChan_kept
    | with_reducible apply perhaps_kept
    | split
    | simp (disch := rfl) only [Kept.set]

theorem openChan_kept {s₀ : State} (fuel : Nat) (k : Nat) {s : State} (hK : Kept s₀ s) : Kept s₀ (openChan fuel k s) := by
  induction fuel generalizing s₀ k s with
  | zero => exact hK
  | succ f ih =>
    exact foldS_kept (foldS_kept (openTraffic_kept k hK) (fun a t => openPoint_kept a (Kept.refl t))) (fun a t => ih a (Kept.refl t))

theorem openPort_kept {s₀ : State} (p : Nat) {s : State} (hK : Kept s₀ s) : Kept s₀ (openPort p s) := by
  unfold openPort
  try dsimp only
  repeat' first
    | with_reducible assumption
    | with_reducible exact Kept.refl _
    | intro _
    | dsimp only
    | with_reducible apply updPort_kept
    | with_reducible apply perhaps_kept
    | with_reducible apply openPoint_kept
    | with_reducible apply openChan_kept
    | with_reducible apply foldS_kept
    | split
    | simp (disch := rfl) only [Kept.set]

theorem inversionMisuse_kept {s₀ : State} (k : Nat) (v1 : Word) {s : State} (hK : Kept s₀ s) : Kept s₀ (inversionMisuse k v1 s) := by
  unfold inversionMisuse
  try dsimp only
  repeat' first
    | with_reducible assumption
    | with_reducible exact Kept.refl _
    | intro _
    | dsimp only
    | with_reducible apply openPort_kept
    | split
    | simp (disch := rfl) only [Kept.set]

theorem cmdLaneConfig_kept {s₀ : State} (c : Ctx) (req : List Word) {s : State} (hK : Kept s₀ s) : Kept s₀ (cmdLaneConfig c req s).2 := by
  unfold cmdLaneConfig
  try dsimp only
  repeat' first
    | with_reducible assumption
    | with_reducible exact Kept.refl _
    | intro _
    | dsimp only
    | with_reducible apply okWith_kept
    | with_reducible apply okNone_kept
    | with_reducible apply modLane_kept
    | with_reducible apply laneReadapt_kept
    | with_reducible apply inversionMisuse_kept
    | with_reducible apply ladder_kept
    | split

theorem cmdLaneStatus_kept {s₀ : State} (c : Ctx) (req : List Word) {s : State} (hK : Kept s₀ s) : Kept s₀ (cmdLaneStatus c req s).2 := by
  unfold cmdLaneStatus
  try dsimp only
  repeat' first
    | with_reducible assumption
    | with_reducible apply okWith_kept
    | with_reducible apply ladder_kept
    | split
    | with_reducible refine Kept.upd ?_ (Nat.le_add_right _ _) rfl rfl rfl rfl rfl rfl

theorem cmdPortCreate_kept {s₀ : State} (c : Ctx) (req : List Word) {s : State} (hK : Kept s₀ s) : Kept s₀ (cmdPortCreate c req s).2 := by
  unfold cmdPortCreate
  try dsimp only
  repeat' first
    | with_reducible assumption
    | with_reducible exact Kept.refl _
    | intro _
    | with_reducible apply okNone_kept
    | with_reducible apply laneStart_kept
    | with_reducible apply monCreate_kept
    | with_reducible apply foldS_kept
    | with_reducible apply ladder_kept
    | simp (disch := rfl) only [Kept.set]

theorem portRemove_kept {s₀ : State} (p : Nat) (q : Port) {s : State} (hK : Kept s₀ s) : Kept s₀ (portRemove p q s) := by
  unfold portRemove
  try dsimp only
  repeat' first
    | with_reducible assumption
    | with_reducible exact Kept.refl _
    | intro _
    | with_reducible apply laneOff_kept
    | with_reducible apply monDelete_kept
    | with_reducible apply foldS_kept
    | simp (disch := rfl) only [Kept.set]

theorem cmdPortDelete_kept {s₀ : State} (c : Ctx) (req : List Word) {s : State} (hK : Kept s₀ s) : Kept s₀ (cmdPortDelete c req s).2 := by
  unfold cmdPortDelete
  try dsimp only
  repeat' first
    | with_reducible assumption
    | with_reducible apply okNone_kept
    | with_reducible apply portRemove_kept
    | with_reducible apply ladder_kept
    | split

theorem cmdPortStatus_kept {s₀ : State} (c : Ctx) (req : List Word) {s : State} (hK : Kept s₀ s) : Kept s₀ (cmdPortStatus c req s).2 := by
  unfold cmdPortStatus
  try dsimp only
  repeat' first
    | with_reducible assumption
    | with_reducible apply okWith_kept
    | with_reducible apply okNone_kept
    | with_reducible apply ladder_kept
    | split

theorem cmdAlignConfig_kept {s₀ : State} (c : Ctx) (req : List Word) {s : State} (hK : Kept s₀ s) : Kept s₀ (cmdAlignConfig c req s).2 := by
  unfold cmdAlignConfig
  try dsimp only
  repeat' first
    | with_reducible assumption
    | with_reducible apply okNone_kept
    | with_reducible apply updPort_kept
    | with_reducible apply updChan_kept
    | with_reducible apply ladder_kept
    | split

theorem marginStep_kept {s₀ : State} (k : Nat) (snr : Nat) {s : State} (hK : Kept s₀ s) : Kept s₀ (marginStep k snr s) := by
  unfold marginStep
  try dsimp only
  repeat' first
    | with_reducible assumption
    | with_reducible apply raise_kept
    | with_reducible apply modLane_kept
    | split

theorem lofStep_kept {s₀ : State} (p : Nat) (i : Nat) (v : Bool) {s : State} (hK : Kept s₀ s) : Kept s₀ (lofStep p i v s) := by
  unfold lofStep
  try dsimp only
  repeat' first
    | with_reducible assumption
    | with_reducible apply updPort_kept

theorem lofLaneStep_kept {s₀ : State} (p : Nat) (i : Nat) (v : Bool) {s : State} (hK : Kept s₀ s) : Kept s₀ (lofLaneStep p i v s) := by
  unfold lofLaneStep
  try dsimp only
  repeat' first
    | with_reducible assumption
    | with_reducible apply updPort_kept

theorem lomStep_kept {s₀ : State} (p : Nat) (i : Nat) (v : Bool) {s : State} (hK : Kept s₀ s) : Kept s₀ (lomStep p i v s) := by
  unfold lomStep
  try dsimp only
  repeat' first
    | with_reducible assumption
    | with_reducible apply updPort_kept

theorem flexTell_kept {s₀ : State} (p : Nat) (inst : Nat) (f : FlexOh) {s : State} (hK : Kept s₀ s) : Kept s₀ (flexTell p inst f s) := by
  unfold flexTell
  try dsimp only
  repeat' first
    | with_reducible assumption
    | with_reducible exact Kept.refl _
    | intro _
    | dsimp only
    | split
    | simp (disch := rfl) only [Kept.set]

/-! ### Bytes -/

theorem cmdOhRead_kept {s₀ : State} (c : Ctx) (req : List Word) {s : State} (hK : Kept s₀ s) : Kept s₀ (cmdOhRead c req s).2 := by
  unfold cmdOhRead
  try dsimp only
  repeat' first
    | with_reducible assumption
    | with_reducible apply okWith_kept
    | with_reducible apply ladder_kept
    | with_reducible refine Kept.upd ?_ (Nat.le_add_right _ _) rfl rfl rfl rfl rfl rfl

theorem cmdOhWrite_kept {s₀ : State} (c : Ctx) (req : List Word) {s : State} (hK : Kept s₀ s) : Kept s₀ (cmdOhWrite c req s).2 := by
  unfold cmdOhWrite
  try dsimp only
  repeat' first
    | with_reducible assumption
    | with_reducible exact Kept.refl _
    | intro _
    | dsimp only
    | with_reducible apply okNone_kept
    | with_reducible apply updOh_kept
    | with_reducible apply foldS_kept
    | with_reducible apply ladder_kept
    | split
    | simp (disch := rfl) only [Kept.set]

theorem cmdTtiSet_kept {s₀ : State} (c : Ctx) (req : List Word) {s : State} (hK : Kept s₀ s) : Kept s₀ (cmdTtiSet c req s).2 := by
  unfold cmdTtiSet
  try dsimp only
  repeat' first
    | with_reducible assumption
    | with_reducible exact Kept.refl _
    | intro _
    | dsimp only
    | with_reducible apply okNone_kept
    | with_reducible apply setRaw_kept
    | with_reducible apply updOh_kept
    | with_reducible apply foldS_kept
    | with_reducible apply ladder_kept
    | split
    | simp (disch := rfl) only [Kept.set]

theorem cmdTtiRead_kept {s₀ : State} (c : Ctx) (req : List Word) {s : State} (hK : Kept s₀ s) : Kept s₀ (cmdTtiRead c req s).2 := by
  unfold cmdTtiRead
  try dsimp only
  repeat' first
    | with_reducible assumption
    | with_reducible apply okWith_kept
    | with_reducible apply ladder_kept

theorem rxComm_kept {s₀ : State} (srv : Server) (f : RxFrame) {s : State} (hK : Kept s₀ s) : Kept s₀ (rxComm srv f s) := by
  unfold rxComm
  try dsimp only
  repeat' first
    | with_reducible assumption
    | with_reducible exact Kept.refl _
    | intro _
    | with_reducible apply chanToFabric_kept
    | with_reducible apply foldS_kept
    | split

theorem rxAps_kept {s₀ : State} (msp : Bool) (key : Nat) (obj : Nat) (lvl : Nat) {s : State} (hK : Kept s₀ s) : Kept s₀ (rxAps msp key obj lvl s) := by
  unfold rxAps
  try dsimp only
  repeat' first
    | with_reducible assumption
    | with_reducible exact Kept.refl _
    | intro _
    | with_reducible apply apsAccept_kept
    | with_reducible apply foldS_kept
    | split

theorem rxProc_kept {s₀ : State} (p : Nat) (i : Nat) (f : RxFrame) {s : State} (hK : Kept s₀ s) : Kept s₀ (rxProc p i f s) := by
  unfold rxProc
  try dsimp only
  repeat' first
    | with_reducible assumption
    | with_reducible apply updPort_kept
    | with_reducible apply rxOtu_kept
    | with_reducible apply rxStm_kept
    | with_reducible apply rxComm_kept
    | with_reducible apply rxAps_kept
    | split

theorem rxOduFrame_kept {s₀ : State} (k : Nat) (inst : Nat) (f : RxFrame) {s : State} (hK : Kept s₀ s) : Kept s₀ (rxOduFrame k inst f s) := by
  unfold rxOduFrame
  try dsimp only
  repeat' first
    | with_reducible assumption
    | with_reducible exact Kept.refl _
    | intro _
    | dsimp only
    | with_reducible apply accField_kept
    | with_reducible apply rxOdu_kept
    | with_reducible apply rxJust_kept
    | with_reducible apply rxVcat_kept
    | with_reducible apply braidFrameZero_kept
    | with_reducible apply rxComm_kept
    | with_reducible apply rxAps_kept
    | split
    | simp (disch := rfl) only [Kept.set]

theorem commTake_kept {s₀ : State} (k : Nat) (n : Nat) {s : State} (hK : Kept s₀ s) : Kept s₀ (commTake k n s).2 := by
  unfold commTake
  try dsimp only
  repeat' first
    | with_reducible assumption
    | with_reducible exact Kept.refl _
    | intro _
    | dsimp only
    | with_reducible apply updChan_kept
    | split
    | simp (disch := rfl) only [Kept.set]

theorem commBytes_kept {s₀ : State} (srv : Server) {s : State} (hK : Kept s₀ s) : Kept s₀ (commBytes srv s).2 :=
  foldPair_kept hK (fun b a => by
    dsimp only
    split
    · exact commTake_kept _ _ (Kept.refl _)
    · exact Kept.refl _)

theorem txDraw_kept {s₀ : State} (self : List Nat) (srv : Server) (f : TxFrame) {s : State} (hK : Kept s₀ s) : Kept s₀ (txDraw self srv f s) := by
  unfold txDraw
  try dsimp only
  repeat' first
    | with_reducible assumption
    | with_reducible exact Kept.refl _
    | intro _
    | dsimp only
    | with_reducible apply updChan_kept
    | with_reducible apply adaptClient_kept
    | with_reducible apply foldS_kept
    | split
    | simp (disch := rfl) only [Kept.set]

theorem txOduFrame_kept {s₀ : State} (k : Nat) (inst : Nat) (f : TxFrame) {s : State} (hK : Kept s₀ s) : Kept s₀ (txOduFrame k inst f s) := by
  unfold txOduFrame
  try dsimp only
  repeat' first
    | with_reducible assumption
    | with_reducible exact Kept.refl _
    | intro _
    | dsimp only
    | with_reducible apply updOh_kept
    | with_reducible apply txOdu_kept
    | with_reducible apply txJust_kept
    | with_reducible apply txVcoh_kept
    | with_reducible apply memberFrame_kept
    | with_reducible apply bridgeFrame_kept
    | with_reducible apply commBytes_kept
    | with_reducible apply txDraw_kept
    | with_reducible apply foldl_kept
    | split
    | simp (disch := rfl) only [Kept.set]

theorem txVcFrame_kept {s₀ : State} (k : Nat) (f : TxFrame) {s : State} (hK : Kept s₀ s) : Kept s₀ (txVcFrame k f s) := by
  unfold txVcFrame
  try dsimp only
  repeat' first
    | with_reducible assumption
    | with_reducible exact Kept.refl _
    | intro _
    | dsimp only
    | with_reducible apply updOh_kept
    | with_reducible apply txVc_kept
    | with_reducible apply txPointer_kept
    | with_reducible apply txH4_kept
    | with_reducible apply txDraw_kept
    | split
    | simp (disch := rfl) only [Kept.set]

theorem oduReady_kept {s₀ : State} (p : Nat) (inst : Nat) (f : TxFrame) {s : State} (hK : Kept s₀ s) : Kept s₀ (oduReady p inst f s) := by
  unfold oduReady
  try dsimp only
  repeat' first
    | with_reducible assumption
    | with_reducible exact Kept.refl _
    | intro _
    | dsimp only
    | with_reducible apply updOh_kept
    | with_reducible apply txOduFrame_kept
    | split
    | simp (disch := rfl) only [Kept.set]

theorem txPort_kept {s₀ : State} (p : Nat) (i : Nat) (f : TxFrame) {s : State} (hK : Kept s₀ s) : Kept s₀ (txPort p i f s) := by
  unfold txPort
  try dsimp only
  repeat' first
    | with_reducible assumption
    | with_reducible exact Kept.refl _
    | intro _
    | dsimp only
    | with_reducible apply txOtu_kept
    | with_reducible apply txStm_kept
    | with_reducible apply lineSend_kept
    | with_reducible apply commBytes_kept
    | with_reducible apply txDraw_kept
    | with_reducible apply oduReady_kept
    | split
    | simp (disch := rfl) only [Kept.set]

/-! ### Channels -/

theorem dropWritten_kept {s₀ : State} (key : Nat) (idx : List Nat) {s : State} (hK : Kept s₀ s) : Kept s₀ (dropWritten key idx s) := by
  unfold dropWritten
  try dsimp only
  repeat' first
    | with_reducible assumption
    | with_reducible apply updOh_kept

theorem iaeStart_kept {s₀ : State} (k : Nat) (w : List Word) {s : State} (hK : Kept s₀ s) : Kept s₀ (iaeStart k w s) := by
  unfold iaeStart
  try dsimp only
  repeat' first
    | with_reducible assumption
    | with_reducible exact Kept.refl _
    | intro _
    | dsimp only
    | with_reducible apply updOh_kept
    | with_reducible apply foldS_kept
    | split
    | simp (disch := rfl) only [Kept.set]

theorem chanAdd_kept {s₀ : State} (k : Nat) (w : List Word) (en : Bool) {s : State} (hK : Kept s₀ s) : Kept s₀ (chanAdd k w en s) := by
  unfold chanAdd
  try dsimp only
  repeat' first
    | with_reducible assumption
    | with_reducible exact Kept.refl _
    | intro _
    | dsimp only
    | with_reducible apply updMon_kept
    | with_reducible apply monCreate_kept
    | with_reducible apply dropWritten_kept
    | with_reducible apply iaeStart_kept
    | with_reducible apply foldl_kept
    | split
    | simp (disch := rfl) only [Kept.set]

theorem cmdChanCreate_kept {s₀ : State} (c : Ctx) (req : List Word) {s : State} (hK : Kept s₀ s) : Kept s₀ (cmdChanCreate c req s).2 := by
  unfold cmdChanCreate
  try dsimp only
  repeat' first
    | with_reducible assumption
    | with_reducible apply okNone_kept
    | with_reducible apply connectFabric_kept
    | with_reducible apply chanAdd_kept
    | with_reducible apply ladder_kept
    | split

theorem chanRemove_kept {s₀ : State} (k : Nat) {s : State} (hK : Kept s₀ s) : Kept s₀ (chanRemove k s) := by
  unfold chanRemove
  try dsimp only
  repeat' first
    | with_reducible assumption
    | with_reducible exact Kept.refl _
    | intro _
    | with_reducible apply updOh_kept
    | with_reducible apply monDelete_kept
    | with_reducible apply foldS_kept
    | split
    | simp (disch := rfl) only [Kept.set]

theorem cmdChanDelete_kept {s₀ : State} (c : Ctx) (req : List Word) {s : State} (hK : Kept s₀ s) : Kept s₀ (cmdChanDelete c req s).2 := by
  unfold cmdChanDelete
  try dsimp only
  repeat' first
    | with_reducible assumption
    | with_reducible exact Kept.refl _
    | intro _
    | dsimp only
    | with_reducible apply okNone_kept
    | with_reducible apply chanRemove_kept
    | with_reducible apply ladder_kept
    | split
    | simp (disch := rfl) only [Kept.set]

theorem modeChange_kept {s₀ : State} (k : Nat) (w : List Word) (w' : List Word) (lvl : Nat) {s : State} (hK : Kept s₀ s) : Kept s₀ (modeChange k w w' lvl s) := by
  unfold modeChange
  try dsimp only
  repeat' first
    | with_reducible assumption
    | with_reducible exact Kept.refl _
    | intro _
    | dsimp only
    | with_reducible apply updMon_kept
    | with_reducible apply updOh_kept
    | with_reducible apply foldS_kept
    | split
    | simp (disch := rfl) only [Kept.set]

theorem chanModify_kept {s₀ : State} (k : Nat) (w' : List Word) {s : State} (hK : Kept s₀ s) : Kept s₀ (chanModify k w' s) := by
  unfold chanModify
  try dsimp only
  repeat' first
    | with_reducible assumption
    | with_reducible exact Kept.refl _
    | intro _
    | dsimp only
    | with_reducible apply updChan_kept
    | with_reducible apply msiSettle_kept
    | with_reducible apply monCreate_kept
    | with_reducible apply monDelete_kept
    | with_reducible apply iaeStart_kept
    | with_reducible apply modeChange_kept
    | with_reducible apply foldS_kept
    | split
    | simp (disch := rfl) only [Kept.set]

theorem writersStop_kept {s₀ : State} (k : Nat) {s : State} (hK : Kept s₀ s) : Kept s₀ (writersStop k s) := by
  unfold writersStop
  try dsimp only
  repeat' first
    | with_reducible assumption
    | with_reducible exact Kept.refl _
    | intro _
    | dsimp only
    | with_reducible apply writerGone_kept
    | with_reducible apply foldS_kept
    | split

theorem chanEnable_kept {s₀ : State} (k : Nat) (en : Bool) {s : State} (hK : Kept s₀ s) : Kept s₀ (chanEnable k en s) := by
  unfold chanEnable
  try dsimp only
  repeat' first
    | with_reducible assumption
    | with_reducible exact Kept.refl _
    | intro _
    | dsimp only
    | with_reducible apply leafNext_kept
    | with_reducible apply iaeStart_kept
    | with_reducible apply writersStop_kept
    | split
    | simp (disch := rfl) only [Kept.set]

theorem openMerged_kept {s₀ : State} (k : Nat) {s : State} (hK : Kept s₀ s) : Kept s₀ (openMerged k s) := by
  unfold openMerged
  try dsimp only
  repeat' first
    | with_reducible assumption
    | with_reducible exact Kept.refl _
    | intro _
    | dsimp only
    | split
    | simp (disch := rfl) only [Kept.set]
    | with_reducible refine Kept.upd ?_ (Nat.le_add_right _ _) rfl rfl rfl rfl rfl rfl

theorem modifyMisuse_kept {s₀ : State} (k : Nat) {s : State} (hK : Kept s₀ s) : Kept s₀ (modifyMisuse k s) := by
  unfold modifyMisuse
  try dsimp only
  repeat' first
    | with_reducible assumption
    | with_reducible exact Kept.refl _
    | intro _
    | dsimp only
    | with_reducible apply openPoint_kept
    | with_reducible apply openChan_kept
    | with_reducible apply openMerged_kept
    | with_reducible apply foldS_kept
    | split
    | simp (disch := rfl) only [Kept.set]

theorem cmdChanModify_kept {s₀ : State} (c : Ctx) (req : List Word) {s : State} (hK : Kept s₀ s) : Kept s₀ (cmdChanModify c req s).2 := by
  unfold cmdChanModify
  try dsimp only
  repeat' first
    | with_reducible assumption
    | with_reducible exact Kept.refl _
    | intro _
    | dsimp only
    | with_reducible apply okWith_kept
    | with_reducible apply okNone_kept
    | with_reducible apply chanModify_kept
    | with_reducible apply chanEnable_kept
    | with_reducible apply modifyMisuse_kept
    | with_reducible apply ladder_kept
    | split
    | simp (disch := rfl) only [Kept.set]

theorem connMade_kept {s₀ : State} (kind k t : Nat) {s : State} (hK : Kept s₀ s) : Kept s₀ (connMade kind k t s) := by
  unfold connMade
  repeat' first
    | with_reducible assumption
    | with_reducible apply connectFabric_kept
    | with_reducible apply connectHairpin_kept
    | with_reducible apply connectQueue_kept
    | split

theorem cmdXcConnect_kept {s₀ : State} (c : Ctx) (req : List Word) {s : State} (hK : Kept s₀ s) : Kept s₀ (cmdXcConnect c req s).2 := by
  unfold cmdXcConnect
  try dsimp only
  repeat' first
    | with_reducible assumption
    | with_reducible apply okNone_kept
    | with_reducible apply connMade_kept
    | with_reducible apply ladder_kept
    | split

theorem cmdXcDisconnect_kept {s₀ : State} (c : Ctx) (req : List Word) {s : State} (hK : Kept s₀ s) : Kept s₀ (cmdXcDisconnect c req s).2 := by
  unfold cmdXcDisconnect
  try dsimp only
  repeat' first
    | with_reducible assumption
    | with_reducible exact Kept.refl _
    | intro _
    | dsimp only
    | with_reducible apply okNone_kept
    | with_reducible apply disconnect_kept
    | with_reducible apply ladder_kept
    | split
    | simp (disch := rfl) only [Kept.set]

theorem flexBoth_kept {s₀ : State} (key : Nat) (cal : Nat) {s : State} (hK : Kept s₀ s) : Kept s₀ (flexBoth key cal s) := by
  unfold flexBoth
  try dsimp only
  repeat' first
    | with_reducible assumption
    | with_reducible exact Kept.refl _
    | intro _
    | dsimp only
    | split
    | simp (disch := rfl) only [Kept.set]

theorem flexSwitched_kept {s₀ : State} (key : Nat) (cal : Nat) {s : State} (hK : Kept s₀ s) : Kept s₀ (flexSwitched key cal s) := by
  unfold flexSwitched
  try dsimp only
  repeat' first
    | with_reducible assumption
    | simp (disch := rfl) only [Kept.set]

theorem evtFlexe_kept {s₀ : State} (key : Nat) (status : Nat) {s : State} (hK : Kept s₀ s) : Kept s₀ (evtFlexe key status s) := by
  unfold evtFlexe
  try dsimp only
  repeat' first
    | with_reducible assumption
    | with_reducible apply raise_kept
    | split

theorem cmdFlexeCalendar_kept {s₀ : State} (c : Ctx) (req : List Word) {s : State} (hK : Kept s₀ s) : Kept s₀ (cmdFlexeCalendar c req s).2 := by
  unfold cmdFlexeCalendar
  try dsimp only
  repeat' first
    | with_reducible assumption
    | with_reducible exact Kept.refl _
    | intro _
    | dsimp only
    | with_reducible apply okWith_kept
    | with_reducible apply okNone_kept
    | with_reducible apply flexBoth_kept
    | with_reducible apply ladder_kept
    | split
    | simp (disch := rfl) only [Kept.set]

theorem slotTurn_kept {s₀ : State} (sl : Nat) {s : State} (hK : Kept s₀ s) : Kept s₀ (slotTurn sl s) := by
  unfold slotTurn
  try dsimp only
  repeat' first
    | with_reducible assumption
    | with_reducible exact Kept.refl _
    | intro _
    | dsimp only
    | with_reducible apply slotTx_kept
    | with_reducible apply hagilRx_kept
    | with_reducible apply settle_kept
    | split
    | simp (disch := rfl) only [Kept.set]

/-! ### Monitors -/

theorem cmdDefectRead_kept {s₀ : State} (c : Ctx) (req : List Word) {s : State} (hK : Kept s₀ s) : Kept s₀ (cmdDefectRead c req s).2 := by
  unfold cmdDefectRead
  try dsimp only
  repeat' first
    | with_reducible assumption
    | with_reducible exact Kept.refl _
    | intro _
    | dsimp only
    | with_reducible apply okWith_kept
    | with_reducible apply updMon_kept
    | with_reducible apply ladder_kept
    | split
    | simp (disch := rfl) only [Kept.set]

theorem cmdDefectConfig_kept {s₀ : State} (c : Ctx) (req : List Word) {s : State} (hK : Kept s₀ s) : Kept s₀ (cmdDefectConfig c req s).2 := by
  unfold cmdDefectConfig
  try dsimp only
  repeat' first
    | with_reducible assumption
    | with_reducible exact Kept.refl _
    | intro _
    | dsimp only
    | with_reducible apply okNone_kept
    | with_reducible apply updMon_kept
    | with_reducible apply ladder_kept
    | split

theorem cmdPmRead_kept {s₀ : State} (c : Ctx) (req : List Word) {s : State} (hK : Kept s₀ s) : Kept s₀ (cmdPmRead c req s).2 := by
  unfold cmdPmRead
  try dsimp only
  repeat' first
    | with_reducible assumption
    | with_reducible exact Kept.refl _
    | intro _
    | dsimp only
    | with_reducible apply okWith_kept
    | with_reducible apply ladder_kept
    | split

theorem cmdPmHistory_kept {s₀ : State} (c : Ctx) (req : List Word) {s : State} (hK : Kept s₀ s) : Kept s₀ (cmdPmHistory c req s).2 := by
  unfold cmdPmHistory
  try dsimp only
  repeat' first
    | with_reducible assumption
    | with_reducible exact Kept.refl _
    | intro _
    | dsimp only
    | with_reducible apply okWith_kept
    | with_reducible apply ladder_kept
    | split

theorem cmdPmConfig_kept {s₀ : State} (c : Ctx) (req : List Word) {s : State} (hK : Kept s₀ s) : Kept s₀ (cmdPmConfig c req s).2 := by
  unfold cmdPmConfig
  try dsimp only
  repeat' first
    | with_reducible assumption
    | with_reducible exact Kept.refl _
    | intro _
    | dsimp only
    | with_reducible apply okNone_kept
    | with_reducible apply updMon_kept
    | with_reducible apply ladder_kept
    | split
    | simp (disch := rfl) only [Kept.set]

theorem failureAt_kept {s₀ : State} (a : Nat) (b : Nat) (v : Bool) (t : Nat) {s : State} (hK : Kept s₀ s) : Kept s₀ (failureAt a b v t s) := by
  unfold failureAt
  try dsimp only
  repeat' first
    | with_reducible assumption
    | with_reducible exact Kept.refl _
    | intro _
    | dsimp only
    | with_reducible apply raiseAt_kept
    | with_reducible apply updMon_kept
    | split
    | simp (disch := rfl) only [Kept.set]

theorem lanesSecond_kept {s₀ : State} {s : State} (hK : Kept s₀ s) : Kept s₀ (lanesSecond s) := by
  unfold lanesSecond
  try dsimp only
  repeat' first
    | with_reducible assumption
    | with_reducible refine Kept.upd ?_ (Nat.le_add_right _ _) rfl rfl rfl rfl rfl rfl

theorem secondPulse_kept {s₀ : State} {s : State} (hK : Kept s₀ s) : Kept s₀ (secondPulse s) := by
  unfold secondPulse
  try dsimp only
  repeat' first
    | with_reducible assumption
    | with_reducible apply secondsClose_kept
    | with_reducible apply binsAtSecond_kept
    | with_reducible apply lanesSecond_kept
    | simp (disch := rfl) only [Kept.set]

/-! ### Groups -/

theorem braidQueue_kept {s₀ : State} (g : Nat) (limit : Nat) {s : State} (hK : Kept s₀ s) : Kept s₀ (braidQueue g limit s).2 := by
  unfold braidQueue
  try dsimp only
  repeat' first
    | with_reducible assumption
    | simp (disch := rfl) only [Kept.set]

theorem addClient_kept {s₀ : State} (g : Nat) (e : ClientEntry) {s : State} (hK : Kept s₀ s) : Kept s₀ (addClient g e s) := by
  unfold addClient
  try dsimp only
  repeat' first
    | with_reducible assumption
    | with_reducible apply updSide_kept
    | with_reducible apply braidQueue_kept
    | split

theorem addClients_kept {s₀ : State} (g : Nat) (es : List ClientEntry) {s : State} (hK : Kept s₀ s) : Kept s₀ (addClients g es s).2 :=
  foldPair_kept hK (fun b e => addClient_kept g e (Kept.refl b.2))

theorem dropClient_kept {s₀ : State} (g : Nat) (tx : Bool) (c : Nat) {s : State} (hK : Kept s₀ s) : Kept s₀ (dropClient g tx c s) := by
  unfold dropClient
  try dsimp only
  repeat' first
    | with_reducible assumption
    | with_reducible apply dropQueue_kept
    | with_reducible apply updSide_kept
    | split

theorem braidDelete_kept {s₀ : State} (g : Nat) {s : State} (hK : Kept s₀ s) : Kept s₀ (braidDelete g s) := by
  unfold braidDelete
  try dsimp only
  repeat' first
    | with_reducible assumption
    | with_reducible exact Kept.refl _
    | intro _
    | with_reducible apply monDelete_kept
    | with_reducible apply dropClient_kept
    | with_reducible apply foldS_kept
    | simp (disch := rfl) only [Kept.set]

theorem cmdBraidCreate_kept {s₀ : State} (c : Ctx) (req : List Word) {s : State} (hK : Kept s₀ s) : Kept s₀ (cmdBraidCreate c req s).2 := by
  unfold cmdBraidCreate
  try dsimp only
  repeat' first
    | with_reducible assumption
    | with_reducible exact Kept.refl _
    | intro _
    | with_reducible apply okNone_kept
    | with_reducible apply monCreate_kept
    | with_reducible apply addClients_kept
    | with_reducible apply dropClient_kept
    | with_reducible apply braidDelete_kept
    | with_reducible apply foldS_kept
    | with_reducible apply ladder_kept
    | split
    | simp (disch := rfl) only [Kept.set]

theorem addMember_kept {s₀ : State} (g : Nat) (tx : Bool) (spare : Bool) (midx : Nat) (ch : Nat) {s : State} (hK : Kept s₀ s) : Kept s₀ (addMember g tx spare midx ch s) := by
  unfold addMember
  try dsimp only
  repeat' first
    | with_reducible assumption
    | with_reducible exact Kept.refl _
    | intro _
    | dsimp only
    | with_reducible apply updSide_kept
    | with_reducible apply dropWritten_kept
    | with_reducible apply braidQueue_kept
    | split
    | simp (disch := rfl) only [Kept.set]

theorem cmdBraidMemberAdd_kept {s₀ : State} (c : Ctx) (req : List Word) {s : State} (hK : Kept s₀ s) : Kept s₀ (cmdBraidMemberAdd c req s).2 := by
  unfold cmdBraidMemberAdd
  try dsimp only
  repeat' first
    | with_reducible assumption
    | dsimp only
    | with_reducible apply addMember_kept
    | with_reducible apply ladder_kept

theorem forceRemove_kept {s₀ : State} (g : Nat) (tx : Bool) (midx : Nat) {s : State} (hK : Kept s₀ s) : Kept s₀ (forceRemove g tx midx s) := by
  unfold forceRemove
  try dsimp only
  repeat' first
    | with_reducible assumption
    | with_reducible exact Kept.refl _
    | intro _
    | dsimp only
    | with_reducible apply dropQueue_kept
    | with_reducible apply updSide_kept
    | with_reducible apply updMember_kept
    | with_reducible apply evtMemberGone_kept
    | with_reducible apply toAcquire_kept
    | with_reducible apply dropMember_kept
    | split
    | simp (disch := rfl) only [Kept.set]

theorem txRemove_kept {s₀ : State} (g : Nat) (midx : Nat) {s : State} (hK : Kept s₀ s) : Kept s₀ (txRemove g midx s) := by
  unfold txRemove
  try dsimp only
  repeat' first
    | with_reducible assumption
    | with_reducible exact Kept.refl _
    | intro _
    | dsimp only
    | with_reducible apply updSide_kept
    | with_reducible apply updMember_kept
    | with_reducible apply evtMemberNow_kept
    | with_reducible apply txRequest_kept
    | with_reducible apply removesDone_kept
    | split
    | simp (disch := rfl) only [Kept.set]

theorem cmdBraidMemberRemove_kept {s₀ : State} (c : Ctx) (req : List Word) {s : State} (hK : Kept s₀ s) : Kept s₀ (cmdBraidMemberRemove c req s).2 := by
  unfold cmdBraidMemberRemove
  try dsimp only
  repeat' first
    | with_reducible assumption
    | with_reducible exact Kept.refl _
    | intro _
    | dsimp only
    | with_reducible apply okNone_kept
    | with_reducible apply updMember_kept
    | with_reducible apply forceRemove_kept
    | with_reducible apply txRemove_kept
    | with_reducible apply ladder_kept
    | split
    | simp (disch := rfl) only [Kept.set]

theorem cmdBraidStatus_kept {s₀ : State} (c : Ctx) (req : List Word) {s : State} (hK : Kept s₀ s) : Kept s₀ (cmdBraidStatus c req s).2 := by
  unfold cmdBraidStatus
  try dsimp only
  repeat' first
    | with_reducible assumption
    | with_reducible apply okWith_kept
    | with_reducible apply okNone_kept
    | with_reducible apply updSide_kept
    | with_reducible apply ladder_kept
    | split

/-! ### Queues -/

theorem queueSet_kept {s₀ : State} (x op : Nat) (n : Queue) {s : State} (hK : Kept s₀ s) : Kept s₀ (queueSet x op n s) := by
  unfold queueSet
  try dsimp only
  repeat' first
    | with_reducible assumption
    | with_reducible apply updQ_kept
    | with_reducible apply fillMeter_kept
    | split
    | simp (disch := rfl) only [Kept.set]

theorem cmdQueueConfig_kept {s₀ : State} (c : Ctx) (req : List Word) {s : State} (hK : Kept s₀ s) : Kept s₀ (cmdQueueConfig c req s).2 := by
  unfold cmdQueueConfig
  try dsimp only
  repeat' first
    | with_reducible assumption
    | with_reducible apply okWith_kept
    | with_reducible apply okNone_kept
    | with_reducible apply queueSet_kept
    | with_reducible apply flushQ_kept
    | with_reducible apply dropQueue_kept
    | with_reducible apply ladder_kept
    | split

theorem cmdQueueCount_kept {s₀ : State} (c : Ctx) (req : List Word) {s : State} (hK : Kept s₀ s) : Kept s₀ (cmdQueueCount c req s).2 := by
  unfold cmdQueueCount
  try dsimp only
  repeat' first
    | with_reducible assumption
    | with_reducible apply okWith_kept
    | with_reducible apply okNone_kept
    | with_reducible apply ladder_kept
    | split

theorem cmdQueueFlush_kept {s₀ : State} (c : Ctx) (req : List Word) {s : State} (hK : Kept s₀ s) : Kept s₀ (cmdQueueFlush c req s).2 := by
  unfold cmdQueueFlush
  try dsimp only
  repeat' first
    | with_reducible assumption
    | with_reducible exact Kept.refl _
    | intro _
    | dsimp only
    | with_reducible apply okNone_kept
    | with_reducible apply updQ_kept
    | with_reducible apply takeFlush_kept
    | with_reducible apply ladder_kept
    | split
    | simp (disch := rfl) only [Kept.set]

theorem cmdQueueScan_kept {s₀ : State} (c : Ctx) (req : List Word) {s : State} (hK : Kept s₀ s) : Kept s₀ (cmdQueueScan c req s).2 := by
  unfold cmdQueueScan
  try dsimp only
  repeat' first
    | with_reducible assumption
    | with_reducible apply okWith_kept
    | with_reducible apply ladder_kept
    | split
    | simp (disch := rfl) only [Kept.set]

theorem cmdPoolStatus_kept {s₀ : State} (c : Ctx) (x1 : List Word) {s : State} (hK : Kept s₀ s) : Kept s₀ (cmdPoolStatus c x1 s).2 := by
  unfold cmdPoolStatus
  try dsimp only
  repeat' first
    | with_reducible assumption
    | with_reducible apply okWith_kept
    | with_reducible apply ladder_kept

theorem scrubCell_kept {s₀ : State} (c : Nat) {s : State} (hK : Kept s₀ s) : Kept s₀ (scrubCell c s) := by
  unfold scrubCell
  try dsimp only
  repeat' first
    | with_reducible assumption
    | with_reducible exact Kept.refl _
    | intro _
    | dsimp only
    | with_reducible apply modDesc_kept
    | with_reducible apply flushDesc_kept
    | with_reducible apply ueSeen_kept
    | split
    | simp (disch := rfl) only [Kept.set]

/-! ### Legs -/

theorem protAdd_kept {s₀ : State} (n : Nat) (w : List Word) {s : State} (hK : Kept s₀ s) : Kept s₀ (protAdd n w s) := by
  unfold protAdd
  try dsimp only
  repeat' first
    | with_reducible assumption
    | with_reducible exact Kept.refl _
    | intro _
    | dsimp only
    | with_reducible apply connectFabric_kept
    | with_reducible apply dropWritten_kept
    | with_reducible apply foldS_kept
    | split
    | simp (disch := rfl) only [Kept.set]

theorem protDrop_kept {s₀ : State} (n : Nat) {s : State} (hK : Kept s₀ s) : Kept s₀ (protDrop n s) := by
  unfold protDrop
  try dsimp only
  repeat' first
    | with_reducible assumption
    | with_reducible exact Kept.refl _
    | intro _
    | with_reducible apply updChan_kept
    | with_reducible apply foldS_kept
    | split
    | simp (disch := rfl) only [Kept.set]

theorem cmdProtGroupCreate_kept {s₀ : State} (c : Ctx) (req : List Word) {s : State} (hK : Kept s₀ s) : Kept s₀ (cmdProtGroupCreate c req s).2 := by
  unfold cmdProtGroupCreate
  try dsimp only
  repeat' first
    | with_reducible assumption
    | with_reducible apply okWith_kept
    | with_reducible apply okNone_kept
    | with_reducible apply protAdd_kept
    | with_reducible apply protDrop_kept
    | with_reducible apply ladder_kept
    | split
    | simp (disch := rfl) only [Kept.set]

theorem cmdProtCommand_kept {s₀ : State} (c : Ctx) (req : List Word) {s : State} (hK : Kept s₀ s) : Kept s₀ (cmdProtCommand c req s).2 := by
  unfold cmdProtCommand
  try dsimp only
  repeat' first
    | with_reducible assumption
    | with_reducible exact Kept.refl _
    | intro _
    | dsimp only
    | with_reducible apply okNone_kept
    | with_reducible apply sendDecision_kept
    | with_reducible apply ladder_kept
    | split
    | simp (disch := rfl) only [Kept.set]

theorem cmdProtStatus_kept {s₀ : State} (c : Ctx) (req : List Word) {s : State} (hK : Kept s₀ s) : Kept s₀ (cmdProtStatus c req s).2 := by
  unfold cmdProtStatus
  try dsimp only
  repeat' first
    | with_reducible assumption
    | with_reducible exact Kept.refl _
    | intro _
    | dsimp only
    | with_reducible apply okWith_kept
    | with_reducible apply okNone_kept
    | with_reducible apply ladder_kept
    | split
    | simp (disch := rfl) only [Kept.set]
    | with_reducible refine Kept.upd ?_ (Nat.le_add_right _ _) rfl rfl rfl rfl rfl rfl

theorem weltAdd_kept {s₀ : State} (n : Nat) (req : List Word) {s : State} (hK : Kept s₀ s) : Kept s₀ (weltAdd n req s) := by
  unfold weltAdd
  try dsimp only
  repeat' first
    | with_reducible assumption
    | with_reducible exact Kept.refl _
    | intro _
    | dsimp only
    | with_reducible apply weltDisable_kept
    | with_reducible apply weltEnable_kept
    | with_reducible apply monCreate_kept
    | with_reducible apply dropWritten_kept
    | with_reducible apply foldS_kept
    | split
    | simp (disch := rfl) only [Kept.set]

theorem weltDrop_kept {s₀ : State} (n : Nat) {s : State} (hK : Kept s₀ s) : Kept s₀ (weltDrop n s) := by
  unfold weltDrop
  try dsimp only
  repeat' first
    | with_reducible assumption
    | with_reducible apply updChan_kept
    | with_reducible apply dropQueue_kept
    | with_reducible apply monDelete_kept
    | split
    | simp (disch := rfl) only [Kept.set]

theorem bridgeAdd_kept {s₀ : State} (req : List Word) {s : State} (hK : Kept s₀ s) : Kept s₀ (bridgeAdd req s) := by
  unfold bridgeAdd
  try dsimp only
  repeat' first
    | with_reducible assumption
    | with_reducible exact Kept.refl _
    | intro _
    | dsimp only
    | with_reducible apply updOh_kept
    | with_reducible apply connectFabric_kept
    | with_reducible apply dropWritten_kept
    | with_reducible apply foldS_kept
    | split
    | simp (disch := rfl) only [Kept.set]

theorem bridgeDrop_kept {s₀ : State} (a : Nat) {s : State} (hK : Kept s₀ s) : Kept s₀ (bridgeDrop a s) := by
  unfold bridgeDrop
  try dsimp only
  repeat' first
    | with_reducible assumption
    | with_reducible exact Kept.refl _
    | intro _
    | with_reducible apply updChan_kept
    | with_reducible apply foldS_kept
    | split
    | simp (disch := rfl) only [Kept.set]

theorem weltSet_kept {s₀ : State} (op n : Nat) (req : List Word) {s : State} (hK : Kept s₀ s) : Kept s₀ (weltSet op n req s) := by
  unfold weltSet
  try dsimp only
  repeat' first
    | with_reducible assumption
    | with_reducible apply updWelt_kept
    | with_reducible apply weltEnable_kept
    | with_reducible apply weltAdd_kept
    | with_reducible apply bridgeAdd_kept
    | split

theorem cmdWeltCreate_kept {s₀ : State} (c : Ctx) (req : List Word) {s : State} (hK : Kept s₀ s) : Kept s₀ (cmdWeltCreate c req s).2 := by
  unfold cmdWeltCreate
  try dsimp only
  repeat' first
    | with_reducible assumption
    | with_reducible apply okNone_kept
    | with_reducible apply weltSet_kept
    | with_reducible apply weltRealign_kept
    | with_reducible apply weltDrop_kept
    | with_reducible apply bridgeDrop_kept
    | with_reducible apply ladder_kept
    | split

theorem cmdWeltStatus_kept {s₀ : State} (c : Ctx) (req : List Word) {s : State} (hK : Kept s₀ s) : Kept s₀ (cmdWeltStatus c req s).2 := by
  unfold cmdWeltStatus
  try dsimp only
  repeat' first
    | with_reducible assumption
    | with_reducible apply okWith_kept
    | with_reducible apply okNone_kept
    | with_reducible apply updWelt_kept
    | with_reducible apply ladder_kept
    | split

/-! ### Clocks -/

theorem cmdSysTimeSet_kept {s₀ : State} (c : Ctx) (req : List Word) {s : State} (hK : Kept s₀ s) : Kept s₀ (cmdSysTimeSet c req s).2 := by
  unfold cmdSysTimeSet
  try dsimp only
  repeat' first
    | with_reducible assumption
    | dsimp only
    | with_reducible apply okNone_kept
    | with_reducible apply stepTimeBy_kept
    | with_reducible apply ladder_kept
    | split
    | simp (disch := rfl) only [Kept.set]

theorem candBegin_kept {s₀ : State} (c : Nat) {s : State} (hK : Kept s₀ s) : Kept s₀ (candBegin c s) := by
  unfold candBegin
  try dsimp only
  repeat' first
    | with_reducible assumption
    | with_reducible exact Kept.refl _
    | intro _
    | dsimp only
    | with_reducible apply modCand_kept
    | split
    | simp (disch := rfl) only [Kept.set]
    | with_reducible refine Kept.upd ?_ (Nat.le_add_right _ _) rfl rfl rfl rfl rfl rfl

theorem rankReselect_kept {s₀ : State} (c : Nat) (old : Candidate) {s : State} (hK : Kept s₀ s) : Kept s₀ (rankReselect c old s) := by
  unfold rankReselect
  try dsimp only
  repeat' first
    | with_reducible assumption
    | with_reducible exact Kept.refl _
    | intro _
    | with_reducible apply runSelect_kept
    | with_reducible apply foldS_kept

theorem refApply_kept {s₀ : State} (c : Nat) (en : Bool) (pulse : Bool) (req : List Word) {s : State} (hK : Kept s₀ s) : Kept s₀ (refApply c en pulse req s) := by
  unfold refApply
  try dsimp only
  repeat' first
    | with_reducible assumption
    | with_reducible exact Kept.refl _
    | intro _
    | dsimp only
    | with_reducible apply modCand_kept
    | with_reducible apply evtRef_kept
    | with_reducible apply candReselect_kept
    | with_reducible apply candBegin_kept
    | with_reducible apply rankReselect_kept
    | split
    | simp (disch := rfl) only [Kept.set]

theorem cmdTmcRefConfig_kept {s₀ : State} (c : Ctx) (req : List Word) {s : State} (hK : Kept s₀ s) : Kept s₀ (cmdTmcRefConfig c req s).2 := by
  unfold cmdTmcRefConfig
  try dsimp only
  repeat' first
    | with_reducible assumption
    | with_reducible apply okWith_kept
    | with_reducible apply okNone_kept
    | with_reducible apply refApply_kept
    | with_reducible apply ladder_kept
    | split

theorem ocxoLost_kept {s₀ : State} {s : State} (hK : Kept s₀ s) : Kept s₀ (ocxoLost s) := by
  unfold ocxoLost
  try dsimp only
  repeat' first
    | with_reducible assumption
    | with_reducible exact Kept.refl _
    | intro _
    | with_reducible apply raise_kept
    | with_reducible apply stick_kept
    | with_reducible apply foldS_kept
    | split
    | simp (disch := rfl) only [Kept.set]

theorem toDco_kept {s₀ : State} (d : Nat) {s : State} (hK : Kept s₀ s) : Kept s₀ (toDco d s) := by
  unfold toDco
  try dsimp only
  repeat' first
    | with_reducible assumption
    | with_reducible apply modDpll_kept
    | with_reducible apply enterState_kept
    | with_reducible apply applySelect_kept
    | split

theorem fromDco_kept {s₀ : State} (d : Nat) {s : State} (hK : Kept s₀ s) : Kept s₀ (fromDco d s) := by
  unfold fromDco
  try dsimp only
  repeat' first
    | with_reducible assumption
    | with_reducible apply modDpll_kept
    | with_reducible apply enterState_kept
    | with_reducible apply startLoop_kept
    | split

theorem dpllConfig_kept {s₀ : State} (d : Nat) (ws : List Word) {s : State} (hK : Kept s₀ s) : Kept s₀ (dpllConfig d ws s) := by
  unfold dpllConfig
  try dsimp only
  repeat' first
    | with_reducible assumption
    | with_reducible apply modDpll_kept
    | with_reducible apply runSelect_kept
    | with_reducible apply toDco_kept
    | with_reducible apply fromDco_kept
    | split

theorem dpllForce_kept {s₀ : State} (d : Nat) (op : Nat) (c : Nat) {s : State} (hK : Kept s₀ s) : Kept s₀ (dpllForce d op c s) := by
  unfold dpllForce
  try dsimp only
  repeat' first
    | with_reducible assumption
    | with_reducible apply modDpll_kept
    | with_reducible apply applySelect_kept
    | with_reducible apply runSelect_kept
    | split

theorem cmdTmcSelect_kept {s₀ : State} (c : Ctx) (req : List Word) {s : State} (hK : Kept s₀ s) : Kept s₀ (cmdTmcSelect c req s).2 := by
  unfold cmdTmcSelect
  try dsimp only
  repeat' first
    | with_reducible assumption
    | with_reducible apply okWith_kept
    | with_reducible apply okNone_kept
    | with_reducible apply ocxoLost_kept
    | with_reducible apply dpllConfig_kept
    | with_reducible apply dpllForce_kept
    | with_reducible apply ladder_kept
    | split
    | simp (disch := rfl) only [Kept.set]

theorem cmdTmcDcoSteer_kept {s₀ : State} (c : Ctx) (req : List Word) {s : State} (hK : Kept s₀ s) : Kept s₀ (cmdTmcDcoSteer c req s).2 := by
  unfold cmdTmcDcoSteer
  try dsimp only
  repeat' first
    | with_reducible assumption
    | with_reducible apply okNone_kept
    | with_reducible apply modDpll_kept
    | with_reducible apply phaseAdj_kept
    | with_reducible apply ladder_kept
    | split

theorem outApply_kept {s₀ : State} (n : Nat) (ws : List Word) {s : State} (hK : Kept s₀ s) : Kept s₀ (outApply n ws s) := by
  unfold outApply
  try dsimp only
  repeat' first
    | with_reducible assumption
    | with_reducible exact Kept.refl _
    | intro _
    | dsimp only
    | with_reducible apply modOut_kept
    | with_reducible apply evtOutput_kept
    | split
    | simp (disch := rfl) only [Kept.set]

theorem cmdTmcOutputConfig_kept {s₀ : State} (c : Ctx) (req : List Word) {s : State} (hK : Kept s₀ s) : Kept s₀ (cmdTmcOutputConfig c req s).2 := by
  unfold cmdTmcOutputConfig
  try dsimp only
  repeat' first
    | with_reducible assumption
    | with_reducible apply okWith_kept
    | with_reducible apply okNone_kept
    | with_reducible apply outApply_kept
    | with_reducible apply ladder_kept
    | split

theorem cmdTmcStatus_kept {s₀ : State} (c : Ctx) (req : List Word) {s : State} (hK : Kept s₀ s) : Kept s₀ (cmdTmcStatus c req s).2 := by
  unfold cmdTmcStatus
  try dsimp only
  repeat' first
    | with_reducible assumption
    | with_reducible apply okWith_kept
    | with_reducible apply modDpll_kept
    | with_reducible apply ladder_kept
    | split

theorem histReply_kept {s₀ : State} (l : List (Nat × List Word)) {s : State} (hK : Kept s₀ s) : Kept s₀ (histReply l s).2 := by
  unfold histReply
  try dsimp only
  repeat' first
    | with_reducible assumption
    | with_reducible apply okWith_kept
    | split
    | with_reducible refine Kept.upd ?_ (Nat.le_add_right _ _) rfl rfl rfl rfl rfl rfl

theorem cmdTmcHistory_kept {s₀ : State} (c : Ctx) (req : List Word) {s : State} (hK : Kept s₀ s) : Kept s₀ (cmdTmcHistory c req s).2 := by
  unfold cmdTmcHistory
  try dsimp only
  repeat' first
    | with_reducible assumption
    | with_reducible exact Kept.refl _
    | intro _
    | dsimp only
    | with_reducible apply histReply_kept
    | with_reducible apply ladder_kept
    | split

theorem candTimers_kept {s₀ : State} {s : State} (hK : Kept s₀ s) : Kept s₀ (candTimers s) := by
  unfold candTimers
  try dsimp only
  repeat' first
    | with_reducible assumption
    | with_reducible exact Kept.refl _
    | intro _
    | with_reducible apply modCand_kept
    | with_reducible apply foldS_kept
    | split

theorem cmdTemperConfig_kept {s₀ : State} (c : Ctx) (req : List Word) {s : State} (hK : Kept s₀ s) : Kept s₀ (cmdTemperConfig c req s).2 := by
  unfold cmdTemperConfig
  try dsimp only
  repeat' first
    | with_reducible assumption
    | with_reducible exact Kept.refl _
    | intro _
    | dsimp only
    | with_reducible apply okWith_kept
    | with_reducible apply okNone_kept
    | with_reducible apply modCand_kept
    | with_reducible apply modDpll_kept
    | with_reducible apply ladder_kept
    | split
    | simp (disch := rfl) only [Kept.set]

theorem cmdTemperBankLoad_kept {s₀ : State} (c : Ctx) (req : List Word) {s : State} (hK : Kept s₀ s) : Kept s₀ (cmdTemperBankLoad c req s).2 := by
  unfold cmdTemperBankLoad
  try dsimp only
  repeat' first
    | with_reducible assumption
    | with_reducible apply okNone_kept
    | with_reducible apply modCand_kept
    | with_reducible apply ladder_kept
    | split

theorem cmdTemperBankSwap_kept {s₀ : State} (c : Ctx) (req : List Word) {s : State} (hK : Kept s₀ s) : Kept s₀ (cmdTemperBankSwap c req s).2 := by
  unfold cmdTemperBankSwap
  try dsimp only
  repeat' first
    | with_reducible assumption
    | with_reducible apply okNone_kept
    | with_reducible apply modCand_kept
    | with_reducible apply ladder_kept

theorem cmdTemperStatus_kept {s₀ : State} (c : Ctx) (req : List Word) {s : State} (hK : Kept s₀ s) : Kept s₀ (cmdTemperStatus c req s).2 := by
  unfold cmdTemperStatus
  try dsimp only
  repeat' first
    | with_reducible assumption
    | with_reducible apply okWith_kept
    | with_reducible apply ladder_kept
    | split

/-! ### Pairs -/

theorem cmdTwinConfig_kept {s₀ : State} (c : Ctx) (req : List Word) {s : State} (hK : Kept s₀ s) : Kept s₀ (cmdTwinConfig c req s).2 := by
  unfold cmdTwinConfig
  try dsimp only
  repeat' first
    | with_reducible assumption
    | with_reducible exact Kept.refl _
    | intro _
    | dsimp only
    | with_reducible apply okWith_kept
    | with_reducible apply okNone_kept
    | with_reducible apply claimCheck_kept
    | with_reducible apply ladder_kept
    | split
    | simp (disch := rfl) only [Kept.set]

theorem cmdTwinStatus_kept {s₀ : State} (c : Ctx) (x1 : List Word) {s : State} (hK : Kept s₀ s) : Kept s₀ (cmdTwinStatus c x1 s).2 := by
  unfold cmdTwinStatus
  try dsimp only
  repeat' first
    | with_reducible assumption
    | with_reducible apply okWith_kept
    | with_reducible apply ladder_kept

theorem cmdTwinSwitch_kept {s₀ : State} (c : Ctx) (req : List Word) {s : State} (hK : Kept s₀ s) : Kept s₀ (cmdTwinSwitch c req s).2 := by
  unfold cmdTwinSwitch
  try dsimp only
  repeat' first
    | with_reducible assumption
    | with_reducible exact Kept.refl _
    | intro _
    | dsimp only
    | with_reducible apply okNone_kept
    | with_reducible apply setRole_kept
    | with_reducible apply claimCheck_kept
    | with_reducible apply ladder_kept
    | split
    | simp (disch := rfl) only [Kept.set]

theorem cmdTwinCommit_kept {s₀ : State} (c : Ctx) (req : List Word) {s : State} (hK : Kept s₀ s) : Kept s₀ (cmdTwinCommit c req s).2 := by
  unfold cmdTwinCommit
  try dsimp only
  repeat' first
    | with_reducible assumption
    | dsimp only
    | with_reducible apply okWith_kept
    | with_reducible apply sendFrames_kept
    | with_reducible apply ladder_kept
    | split
    | simp (disch := rfl) only [Kept.set]

theorem preparedRx_kept {s₀ : State} (ok : Bool) {s : State} (hK : Kept s₀ s) : Kept s₀ (preparedRx ok s) := by
  unfold preparedRx
  try dsimp only
  repeat' first
    | with_reducible assumption
    | with_reducible exact Kept.refl _
    | intro _
    | dsimp only
    | with_reducible apply finishWaiting_kept
    | with_reducible apply evtPartner_kept
    | with_reducible apply sendFrames_kept
    | split
    | simp (disch := rfl) only [Kept.set]

theorem commitAckRx_kept {s₀ : State} {s : State} (hK : Kept s₀ s) : Kept s₀ (commitAckRx s) := by
  unfold commitAckRx
  try dsimp only
  repeat' first
    | with_reducible assumption
    | with_reducible exact Kept.refl _
    | intro _
    | dsimp only
    | split
    | simp (disch := rfl) only [Kept.set]

theorem commitRx_kept {s₀ : State} (tApply : Nat) {s : State} (hK : Kept s₀ s) : Kept s₀ (commitRx tApply s) := by
  unfold commitRx
  try dsimp only
  repeat' first
    | with_reducible assumption
    | with_reducible exact Kept.refl _
    | intro _
    | dsimp only
    | with_reducible apply sendFrames_kept
    | split
    | simp (disch := rfl) only [Kept.set]

theorem protDecided_kept {s₀ : State} (n : Nat) (sel : Bool) (bridge : Bool) (top : Nat) (remote : Bool) (aps : Word) (wtrLeft : Nat) (ext : Nat) {s : State} (hK : Kept s₀ s) : Kept s₀ (protDecided n sel bridge top remote aps wtrLeft ext s) := by
  unfold protDecided
  try dsimp only
  repeat' first
    | with_reducible assumption
    | with_reducible apply evtProtSwitch_kept
    | with_reducible apply protConns_kept
    | split
    | simp (disch := rfl) only [Kept.set]

theorem decided_kept {s₀ : State} (d : Decision) {s : State} (hK : Kept s₀ s) : Kept s₀ (decided d s) := by
  unfold decided
  try dsimp only
  repeat' first
    | with_reducible assumption
    | with_reducible apply updChan_kept
    | with_reducible apply updSide_kept
    | with_reducible apply beginChange_kept
    | with_reducible apply updWelt_kept
    | with_reducible apply flexSwitched_kept
    | with_reducible apply evtFlexe_kept
    | with_reducible apply protDecided_kept
    | split

theorem snapshotRx_kept {s₀ : State} (a : Nat) (j : Snapshot) {s : State} (hK : Kept s₀ s) : Kept s₀ (snapshotRx a j s) := by
  unfold snapshotRx
  try dsimp only
  repeat' first
    | with_reducible assumption
    | with_reducible apply judgePoint_kept
    | split
    | simp (disch := rfl) only [Kept.set]

theorem pmCopy_kept {s₀ : State} {s : State} (e : PmCopy) (hK : Kept s₀ s) : Kept s₀ (pmCopy s e) := by
  unfold pmCopy
  try dsimp only
  repeat' first
    | with_reducible assumption
    | simp (disch := rfl) only [Kept.set]

theorem pmHistCopy_kept {s₀ : State} {s : State} (e : PmHistCopy) (hK : Kept s₀ s) : Kept s₀ (pmHistCopy s e) := by
  unfold pmHistCopy
  try dsimp only
  repeat' first
    | with_reducible assumption
    | simp (disch := rfl) only [Kept.set]

theorem timingCopy_kept {s₀ : State} {s : State} (e : TimingCopy) (hK : Kept s₀ s) : Kept s₀ (timingCopy s e) := by
  unfold timingCopy
  try dsimp only
  repeat' first
    | with_reducible assumption
    | with_reducible exact Kept.refl _
    | intro _
    | dsimp only
    | with_reducible apply modDpll_kept
    | split
    | simp (disch := rfl) only [Kept.set]

theorem resyncReady_kept {s₀ : State} (bins : List PmCopy) {s : State} (hK : Kept s₀ s) : Kept s₀ (resyncReady bins s) := by
  unfold resyncReady
  try dsimp only
  repeat' first
    | with_reducible assumption
    | with_reducible exact Kept.refl _
    | intro _
    | dsimp only
    | with_reducible apply evtPartner_kept
    | with_reducible apply pmCopy_kept
    | with_reducible apply foldl_kept
    | split
    | simp (disch := rfl) only [Kept.set]

theorem histSynced_kept {s₀ : State} (pm : List PmHistCopy) (tim : List TimingCopy) {s : State} (hK : Kept s₀ s) : Kept s₀ (histSynced pm tim s) := by
  unfold histSynced
  try dsimp only
  repeat' first
    | with_reducible assumption
    | with_reducible exact Kept.refl _
    | intro _
    | dsimp only
    | with_reducible apply evtPartner_kept
    | with_reducible apply pmHistCopy_kept
    | with_reducible apply timingCopy_kept
    | with_reducible apply foldl_kept
    | split
    | simp (disch := rfl) only [Kept.set]

/-! ### Firmware -/

theorem modSlot_kept {s₀ : State} (i : Nat) (g : Slot → Slot) {s : State} (hK : Kept s₀ s) : Kept s₀ (modSlot i g s) := by
  unfold modSlot
  try dsimp only
  repeat' first
    | with_reducible assumption
    | split
    | simp (disch := rfl) only [Kept.set]

theorem evtFw_kept {s₀ : State} (cmd : Nat) {s : State} (hK : Kept s₀ s) : Kept s₀ (evtFw cmd s) := by
  unfold evtFw
  try dsimp only
  repeat' first
    | with_reducible assumption
    | with_reducible apply raise_kept

theorem cmdFwStage_kept {s₀ : State} (c : Ctx) (req : List Word) {s : State} (hK : Kept s₀ s) : Kept s₀ (cmdFwStage c req s).2 := by
  unfold cmdFwStage
  try dsimp only
  repeat' first
    | with_reducible assumption
    | dsimp only
    | with_reducible apply okNone_kept
    | with_reducible apply modSlot_kept
    | with_reducible apply ladder_kept
    | split
    | simp (disch := rfl) only [Kept.set]

theorem cmdFwActivate_kept {s₀ : State} (c : Ctx) (req : List Word) {s : State} (hK : Kept s₀ s) : Kept s₀ (cmdFwActivate c req s).2 := by
  unfold cmdFwActivate
  refine ladder_kept hK ?_
  split
  · exact hK.firm (Nat.le_of_eq (bootWrite_counter _ _ _).symm) (bootWrite_revoked _ _ _)
  · exact hK.firm (Nat.le_max_left _ _) (bootWrite_revoked _ _ _)
  · simpa (disch := rfl) only [Kept.set] using hK

theorem activationReady_kept {s₀ : State} {s : State} (hK : Kept s₀ s) : Kept s₀ (activationReady s) := by
  unfold activationReady
  try dsimp only
  repeat' first
    | with_reducible assumption
    | with_reducible exact Kept.refl _
    | intro _
    | dsimp only
    | with_reducible apply mpBack_kept
    | with_reducible apply modSlot_kept
    | with_reducible apply evtFw_kept
    | split
    | simp (disch := rfl) only [Kept.set]

theorem cmdFwStatus_kept {s₀ : State} (c : Ctx) (x1 : List Word) {s : State} (hK : Kept s₀ s) : Kept s₀ (cmdFwStatus c x1 s).2 := by
  unfold cmdFwStatus
  try dsimp only
  repeat' first
    | with_reducible assumption
    | with_reducible apply okWith_kept
    | with_reducible apply ladder_kept

theorem cmdLogRead_kept {s₀ : State} (c : Ctx) (req : List Word) {s : State} (hK : Kept s₀ s) : Kept s₀ (cmdLogRead c req s).2 := by
  unfold cmdLogRead
  try dsimp only
  repeat' first
    | with_reducible assumption
    | with_reducible apply okWith_kept
    | with_reducible apply ladder_kept

/-! ### Boot -/

/-- The device in reset, or an image that starts over: what flash, fuses and the fatal latch hold is kept, and the HBM is lost. -/
theorem coldState_kept {s₀ : State} {s : State} (hK : Kept s₀ s) : Kept s₀ (coldState s) where
  pending := hK.pending
  now := hK.now
  free := hK.free
  mem := fun _ => rfl
  latch := hK.latch
  ticks := hK.ticks
  retired := hK.retired
  counter := hK.counter
  revoked := hK.revoked

theorem runImage_kept {s₀ : State} (k : Nat) (confirmed : Bool) {s : State} (hK : Kept s₀ s) : Kept s₀ (runImage k confirmed s) := by
  unfold runImage
  try dsimp only
  repeat' first
    | with_reducible assumption
    | simp (disch := rfl) only [Kept.set]

theorem fallBack_kept {s₀ : State} (k : Nat) {s : State} (hK : Kept s₀ s) : Kept s₀ (fallBack k s) :=
  runImage_kept _ _
    { pending := hK.pending, now := hK.now, free := hK.free, mem := hK.mem, latch := hK.latch, ticks := hK.ticks, retired := hK.retired
      counter := Nat.le_trans hK.counter (Nat.le_of_eq (bootWrite_counter k true s.fw).symm)
      revoked := (bootWrite_revoked k true s.fw).trans hK.revoked }

theorem phase5Next_kept {s₀ : State} {s : State} (hK : Kept s₀ s) : Kept s₀ (phase5Next s) := by
  unfold phase5Next
  try dsimp only
  repeat' first
    | with_reducible assumption
    | split
    | simp (disch := rfl) only [Kept.set]

theorem phase5a_kept {s₀ : State} (pcs : BitVec 64) (stackBits : BitVec 2) {s : State} (hK : Kept s₀ s) : Kept s₀ (phase5a pcs stackBits s) := by
  unfold phase5a
  extract_lets bad fails gone bt s1 s2 s3 s4 s5 s6
  have h1 : Kept s₀ s1 :=
    { pending := hK.pending, now := hK.now, free := hK.free, mem := fun _ => rfl, latch := hK.latch, ticks := hK.ticks
      retired := fun p r => retired_kept _ gone p (hK.retired p r), counter := hK.counter, revoked := hK.revoked }
  clear_value s1
  have h2 : Kept s₀ s2 := foldS_kept h1 (fun _ _ => srcsIsolate_kept _ (modDom_kept _ _ (Kept.refl _)))
  clear_value s2
  exact phase5Next_kept (foldS_kept (foldS_kept (foldS_kept (foldS_kept (renewCopies_kept h2)
    (fun _ _ => setReason_kept _ _ (Kept.refl _))) (fun _ _ => setReason_kept _ _ (Kept.refl _)))
    (fun _ _ => logAdd_kept _ _ (Kept.refl _))) (fun _ _ => logAdd_kept _ _ (Kept.refl _)))

theorem calibrationFail_kept {s₀ : State} (k : Nat) {s : State} (hK : Kept s₀ s) : Kept s₀ (calibrationFail k s) := by
  unfold calibrationFail
  try dsimp only
  repeat' first
    | with_reducible assumption
    | with_reducible exact Kept.refl _
    | intro _
    | dsimp only
    | with_reducible apply logAdd_kept
    | with_reducible apply laneHold_kept
    | with_reducible apply modSrc_kept
    | with_reducible apply setReason_kept
    | split
    | simp (disch := rfl) only [Kept.set]

theorem phase5b_kept {s₀ : State} (failed : List Nat) {s : State} (hK : Kept s₀ s) : Kept s₀ (phase5b failed s) := by
  unfold phase5b
  try dsimp only
  repeat' first
    | with_reducible assumption
    | with_reducible exact Kept.refl _
    | intro _
    | with_reducible apply modLane_kept
    | with_reducible apply laneOn_kept
    | with_reducible apply monCreate_kept
    | with_reducible apply phase5Next_kept
    | with_reducible apply calibrationFail_kept
    | with_reducible apply foldS_kept
    | split
    | simp (disch := rfl) only [Kept.set]

theorem startOver_kept {s₀ : State} {s : State} (hK : Kept s₀ s) : Kept s₀ (startOver s) where
  pending := hK.pending
  now := hK.now
  free := hK.free
  mem := fun _ => rfl
  latch := hK.latch
  ticks := hK.ticks
  retired := hK.retired
  counter := hK.counter
  revoked := hK.revoked

/-! ### Prihegen -/

theorem bankJournal_kept {s₀ : State} (c : Nat) {s : State} (hK : Kept s₀ s) : Kept s₀ (bankJournal c s) := by
  unfold bankJournal
  try dsimp only
  repeat' first
    | with_reducible assumption
    | with_reducible exact Kept.refl _
    | intro _
    | dsimp only
    | split
    | simp (disch := rfl) only [Kept.set]

theorem journalAdd_kept {s₀ : State} (code : Nat) (req : List Word) {s : State} (hK : Kept s₀ s) : Kept s₀ (journalAdd code req s) := by
  unfold journalAdd
  try dsimp only
  repeat' first
    | with_reducible assumption
    | with_reducible exact Kept.refl _
    | intro _
    | dsimp only
    | with_reducible apply bankJournal_kept
    | split
    | simp (disch := rfl) only [Kept.set]

theorem bodyOf_kept {code : Nat} {f : Body} (e : bodyOf code = some f) {s₀ : State} (c : Ctx) (req : List Word) {s : State}
    (hK : Kept s₀ s) : Kept s₀ (f c req s).2 := by
  unfold bodyOf bodyLow bodyMid bodyHigh at e
  repeat' split at e
  all_goals cases e
  · exact cmdSysInfo_kept c req hK
  · exact cmdSysResetBlock_kept c req hK
  · exact cmdSysPowerDomain_kept c req hK
  · exact cmdSysTimeSet_kept c req hK
  · exact cmdSysEventMask_kept c req hK
  · exact cmdSysViolationRead_kept c req hK
  · exact cmdSysContinue_kept c req hK
  · exact cmdLaneConfig_kept c req hK
  · exact cmdLaneStatus_kept c req hK
  · exact cmdPortCreate_kept c req hK
  · exact cmdPortDelete_kept c req hK
  · exact cmdPortStatus_kept c req hK
  · exact cmdAlignConfig_kept c req hK
  · exact cmdOhRead_kept c req hK
  · exact cmdOhWrite_kept c req hK
  · exact cmdTtiSet_kept c req hK
  · exact cmdTtiRead_kept c req hK
  · exact cmdDefectRead_kept c req hK
  · exact cmdDefectConfig_kept c req hK
  · exact cmdPmRead_kept c req hK
  · exact cmdPmConfig_kept c req hK
  · exact cmdPmHistory_kept c req hK
  · exact cmdChanCreate_kept c req hK
  · exact cmdChanDelete_kept c req hK
  · exact cmdChanModify_kept c req hK
  · exact cmdXcConnect_kept c req hK
  · exact cmdXcDisconnect_kept c req hK
  · exact cmdFlexeCalendar_kept c req hK
  · exact cmdBraidCreate_kept c req hK
  · exact cmdBraidMemberAdd_kept c req hK
  · exact cmdBraidMemberRemove_kept c req hK
  · exact cmdBraidStatus_kept c req hK
  · exact cmdQueueConfig_kept c req hK
  · exact cmdQueueCount_kept c req hK
  · exact cmdQueueFlush_kept c req hK
  · exact cmdQueueScan_kept c req hK
  · exact cmdPoolStatus_kept c req hK
  · exact cmdProtGroupCreate_kept c req hK
  · exact cmdProtCommand_kept c req hK
  · exact cmdProtStatus_kept c req hK
  · exact cmdWeltCreate_kept c req hK
  · exact cmdWeltStatus_kept c req hK
  · exact cmdTmcRefConfig_kept c req hK
  · exact cmdTmcSelect_kept c req hK
  · exact cmdTmcStatus_kept c req hK
  · exact cmdTmcDcoSteer_kept c req hK
  · exact cmdTmcOutputConfig_kept c req hK
  · exact cmdTmcHistory_kept c req hK
  · exact cmdTemperConfig_kept c req hK
  · exact cmdTemperBankLoad_kept c req hK
  · exact cmdTemperBankSwap_kept c req hK
  · exact cmdTemperStatus_kept c req hK
  · exact cmdTwinConfig_kept c req hK
  · exact cmdTwinStatus_kept c req hK
  · exact cmdTwinSwitch_kept c req hK
  · exact cmdTwinCommit_kept c req hK
  · exact cmdFaultRead_kept c req hK
  · exact cmdFaultClear_kept c req hK
  · exact cmdFaultPolicy_kept c req hK
  · exact cmdFaultInject_kept c req hK
  · exact cmdFaultPin_kept c req hK
  · exact cmdPrbsConfig_kept c req hK
  · exact cmdPrbsRead_kept c req hK
  · exact cmdLoopbackSet_kept c req hK
  · exact cmdBistRun_kept c req hK
  · exact cmdEyeScan_kept c req hK
  · exact cmdFwStage_kept c req hK
  · exact cmdFwActivate_kept c req hK
  · exact cmdFwStatus_kept c req hK
  · exact cmdLogRead_kept c req hK

theorem runBody_kept {s₀ : State} (code : Nat) (req : List Word) {s : State} (hK : Kept s₀ s) : Kept s₀ (runBody code req s).2 := by
  unfold runBody
  split
  · exact hK
  · rename_i f e
    have h1 := bodyOf_kept e {} req hK
    dsimp only
    split
    · simpa (disch := rfl) only [Kept.set] using h1
    · exact h1

theorem shadowOf_kept {s₀ : State} (l : List Staged) {s : State} (hK : Kept s₀ s) : Kept s₀ (shadowOf l s) := by
  unfold shadowOf
  try dsimp only
  repeat' first
    | with_reducible assumption
    | with_reducible exact Kept.refl _
    | intro _
    | with_reducible apply runBody_kept
    | with_reducible apply foldS_kept

theorem applyTxn_kept {s₀ : State} (l : List Staged) {s : State} (hK : Kept s₀ s) : Kept s₀ (applyTxn l s) := by
  unfold applyTxn
  try dsimp only
  repeat' first
    | with_reducible assumption
    | with_reducible exact Kept.refl _
    | intro _
    | with_reducible apply journalAdd_kept
    | with_reducible apply runBody_kept
    | with_reducible apply foldS_kept
    | split

theorem serve_kept {s₀ : State} (m : Nat) {s : State} (hK : Kept s₀ s) : Kept s₀ (serve m s) := by
  unfold serve
  extract_lets hdr code req wide ctx stages
  clear_value ctx stages req wide
  split
  · exact respond_kept _ _ _ hK
  · rename_i f e
    split
    · exact respond_kept _ _ _ hK
    · split
      · exact respond_kept _ _ _ hK
      · split
        · dsimp only
          refine respond_kept _ _ _ ?_
          split
          · simpa (disch := rfl) only [Kept.set] using hK
          · exact hK
        · have h1 := bodyOf_kept e ctx req hK
          generalize f ctx req s = r at h1
          have h2 : Kept s₀ (if r.1.accepted = true then journalAdd code req r.2 else r.2) := by
            split
            · exact journalAdd_kept _ _ h1
            · exact h1
          dsimp only
          generalize (if r.1.accepted = true then journalAdd code req r.2 else r.2) = t at h2
          split
          · exact respond_kept _ _ _ h2
          · simpa (disch := rfl) only [Kept.set] using h2

theorem takeOne_kept {s₀ : State} {s : State} (hK : Kept s₀ s) : Kept s₀ (takeOne s) := by
  unfold takeOne
  try dsimp only
  repeat' first
    | with_reducible assumption
    | with_reducible apply settle_kept
    | with_reducible apply serve_kept
    | split
    | simp (disch := rfl) only [Kept.set]

theorem takeUntil_kept {s₀ : State} (m : Nat) (fuel : Nat) {s : State} (hK : Kept s₀ s) : Kept s₀ (takeUntil m fuel s) := by
  induction fuel generalizing s with
  | zero => exact hK
  | succ f ih =>
    unfold takeUntil
    split
    · exact ih (takeOne_kept hK)
    · exact hK

theorem replayEntry_kept {s₀ : State} (e : JEntry) {s : State} (hK : Kept s₀ s) : Kept s₀ (replayEntry e s).2 := by
  unfold replayEntry
  try dsimp only
  repeat' first
    | with_reducible assumption
    | with_reducible exact Kept.refl _
    | intro _
    | dsimp only
    | with_reducible apply modCand_kept
    | with_reducible apply flexSwitched_kept
    | with_reducible apply runBody_kept
    | split
    | simp (disch := rfl) only [Kept.set]

theorem replayJournal_kept {s₀ : State} (l : List JEntry) {s : State} (hK : Kept s₀ s) : Kept s₀ (replayJournal l s) := by
  unfold replayJournal
  try dsimp only
  repeat' first
    | with_reducible assumption
    | with_reducible exact Kept.refl _
    | intro _
    | with_reducible apply logAdd_kept
    | with_reducible apply replayEntry_kept
    | with_reducible apply foldS_kept
    | split
    | simp (disch := rfl) only [Kept.set]

theorem reasonsAgain_kept {s₀ : State} {s : State} (hK : Kept s₀ s) : Kept s₀ (reasonsAgain s) := by
  unfold reasonsAgain
  try dsimp only
  repeat' first
    | with_reducible assumption
    | with_reducible exact Kept.refl _
    | intro _
    | with_reducible apply setReason_kept
    | with_reducible apply foldS_kept
    | split

theorem txnBody_kept {s₀ : State} (e : Staged) {s : State} (hK : Kept s₀ s) : Kept s₀ (txnBody e s).2 := by
  unfold txnBody
  try dsimp only
  repeat' first
    | with_reducible assumption
    | with_reducible exact Kept.refl _
    | intro _
    | dsimp only
    | with_reducible apply runBody_kept
    | with_reducible apply replayEntry_kept
    | split

theorem transactionRx_kept {s₀ : State} (num : Word) (cmds : List TxnCmd) {s : State} (hK : Kept s₀ s) : Kept s₀ (transactionRx num cmds s) := by
  unfold transactionRx
  try dsimp only
  repeat' first
    | with_reducible assumption
    | with_reducible exact Kept.refl _
    | intro _
    | dsimp only
    | with_reducible apply sendFrames_kept
    | with_reducible apply evtPartner_kept
    | with_reducible apply txnBody_kept
    | with_reducible apply foldl_kept
    | split
    | simp (disch := rfl) only [Kept.set]

theorem applyActive_kept {s₀ : State} (t : Nat) {s : State} (hK : Kept s₀ s) : Kept s₀ (applyActive t s) := by
  unfold applyActive
  try dsimp only
  repeat' first
    | with_reducible assumption
    | with_reducible apply finishWaiting_kept
    | with_reducible apply applyTxn_kept
    | simp (disch := rfl) only [Kept.set]

theorem applyStandby_kept {s₀ : State} (t : Nat) {s : State} (hK : Kept s₀ s) : Kept s₀ (applyStandby t s) := by
  unfold applyStandby
  try dsimp only
  repeat' first
    | with_reducible assumption
    | with_reducible exact Kept.refl _
    | intro _
    | dsimp only
    | with_reducible apply bankJournal_kept
    | with_reducible apply journalAdd_kept
    | with_reducible apply txnBody_kept
    | with_reducible apply foldS_kept
    | split
    | simp (disch := rfl) only [Kept.set]

theorem blankObjects_kept {s₀ : State} {s : State} (hK : Kept s₀ s) : Kept s₀ (blankObjects s) := by
  unfold blankObjects
  try dsimp only
  repeat' first
    | with_reducible assumption
    | with_reducible exact Kept.refl _
    | intro _
    | with_reducible apply flushQ_kept
    | with_reducible apply dropQueue_kept
    | with_reducible apply portRemove_kept
    | with_reducible apply chanRemove_kept
    | with_reducible apply braidDelete_kept
    | with_reducible apply protDrop_kept
    | with_reducible apply weltDrop_kept
    | with_reducible apply bridgeDrop_kept
    | with_reducible apply foldS_kept
    | simp (disch := rfl) only [Kept.set]

theorem blankSettings_kept {s₀ : State} (l : List JEntry) {s : State} (hK : Kept s₀ s) : Kept s₀ (blankSettings l s) := by
  unfold blankSettings
  try dsimp only
  repeat' first
    | with_reducible assumption
    | with_reducible exact Kept.refl _
    | intro _
    | with_reducible apply modCand_kept
    | with_reducible apply refApply_kept
    | with_reducible apply ocxoLost_kept
    | with_reducible apply dpllConfig_kept
    | with_reducible apply dpllForce_kept
    | with_reducible apply outApply_kept
    | with_reducible apply foldS_kept
    | split
    | simp (disch := rfl) only [Kept.set]

theorem resyncApply_kept {s₀ : State} (l : List JEntry) {s : State} (hK : Kept s₀ s) : Kept s₀ (resyncApply l s) := by
  unfold resyncApply
  try dsimp only
  repeat' first
    | with_reducible assumption
    | with_reducible exact Kept.refl _
    | intro _
    | with_reducible apply replayEntry_kept
    | with_reducible apply blankObjects_kept
    | with_reducible apply blankSettings_kept
    | with_reducible apply foldS_kept
    | split
    | simp (disch := rfl) only [Kept.set]

theorem resyncStart_kept {s₀ : State} (cfg : List TxnCmd) {s : State} (hK : Kept s₀ s) : Kept s₀ (resyncStart cfg s) := by
  unfold resyncStart
  try dsimp only
  repeat' first
    | with_reducible assumption
    | with_reducible exact Kept.refl _
    | intro _
    | dsimp only
    | with_reducible apply sendFrames_kept
    | with_reducible apply resyncApply_kept
    | split
    | simp (disch := rfl) only [Kept.set]

theorem mirrorStep_kept {s₀ : State} (m : MirrorFrame) {s : State} (hK : Kept s₀ s) : Kept s₀ (mirrorStep m s) := by
  unfold mirrorStep
  try dsimp only
  repeat' first
    | with_reducible assumption
    | with_reducible exact Kept.refl _
    | intro _
    | dsimp only
    | with_reducible apply preparedRx_kept
    | with_reducible apply commitAckRx_kept
    | with_reducible apply commitRx_kept
    | with_reducible apply decided_kept
    | with_reducible apply snapshotRx_kept
    | with_reducible apply resyncReady_kept
    | with_reducible apply histSynced_kept
    | with_reducible apply transactionRx_kept
    | with_reducible apply resyncStart_kept
    | split
    | simp (disch := rfl) only [Kept.set]

theorem mirrorIn_kept {s₀ : State} (m : MirrorFrame) {s : State} (hK : Kept s₀ s) : Kept s₀ (mirrorIn m s) := by
  unfold mirrorIn
  try dsimp only
  repeat' first
    | with_reducible assumption
    | with_reducible exact Kept.refl _
    | intro _
    | dsimp only
    | with_reducible apply mirrorStep_kept
    | split
    | simp (disch := rfl) only [Kept.set]

theorem mirrorResume_kept {s₀ : State} {s : State} (hK : Kept s₀ s) : Kept s₀ (mirrorResume s) := by
  unfold mirrorResume
  try dsimp only
  repeat' first
    | with_reducible assumption
    | with_reducible exact Kept.refl _
    | intro _
    | dsimp only
    | with_reducible apply mirrorStep_kept
    | with_reducible apply foldS_kept
    | split
    | simp (disch := rfl) only [Kept.set]

end Sys2Proof.Machine
end

