-- ==== Sys2Proof/Laws/Exec.lean ====
section
/-! SUPPORT. What every command keeps, said once for exec and once for step: the queue and the time, the fatal latch, the anti-rollback
counter, revoked keys and retired pseudo-channels, and the canonical form of the HBM. -/

namespace Sys2Proof.Machine

set_option linter.unusedVariables false
set_option linter.unusedSimpArgs false
set_option linter.unusedTactic false
set_option linter.unreachableTactic false

/-- The same next state. -/
theorem kept_next {a t s : State} (h : (Host.Outcome.next a : Host.Outcome State Fault Refusal) = .next t) (k : Kept s a) : Kept s t := by
  injection h with h; exact h ▸ k

/-- A settled next state. -/
theorem kept_settled {a t s : State} (h : nextSettled a = .next t) (k : Kept s a) : Kept s t :=
  kept_next h (settle_kept k)

/-- Every mailbox command. -/
theorem viaMailbox_kept {code : Nat} {m : Mbx} {tag : Byte} {req : List Word} {s t : State} (h : viaMailbox code m tag req s = .next t) : Kept s t := by
  unfold viaMailbox at h
  dsimp only at h
  refine kept_next h (takeUntil_kept _ _ (busWrite_kept _ _ _ (busWrite_kept _ _ _ (foldS_kept (Kept.refl s) (fun e u => busWrite_kept _ _ _ (Kept.refl u))))))

theorem execMbxDoorbellRing_kept {x0 s t} (h : execMbxDoorbellRing x0 s = .next t) : Kept s t :=
  kept_next h (busWrite_kept _ _ _ (Kept.refl s))

theorem execEvtRingEnable_kept {x0 s t} (h : execEvtRingEnable x0 s = .next t) : Kept s t :=
  kept_next h (busWrite_kept _ _ _ (Kept.refl s))

theorem execEvtRingDisable_kept {x0 s t} (h : execEvtRingDisable x0 s = .next t) : Kept s t :=
  kept_next h (busWrite_kept _ _ _ (Kept.refl s))

theorem execEvtRingHeadWrite_kept {x0 x1 s t} (h : execEvtRingHeadWrite x0 x1 s = .next t) : Kept s t :=
  kept_next h (busWrite_kept _ _ _ (Kept.refl s))

theorem execViolInfoRead_kept {s t} (h : execViolInfoRead s = .next t) : Kept s t :=
  kept_next h (busRead_kept _ _ (Kept.refl s))

theorem execUnimplementedRead_kept {x0 x1 s t} (h : execUnimplementedRead x0 x1 s = .next t) : Kept s t :=
  kept_next h (busReads_kept _ _ (Kept.refl s))

theorem execUnimplementedWrite_kept {x0 x1 x2 s t} (h : execUnimplementedWrite x0 x1 x2 s = .next t) : Kept s t :=
  kept_next h (busWrite_kept _ _ _ (Kept.refl s))

theorem execBusyMailboxWrite_kept {x0 x1 x2 s t} (h : execBusyMailboxWrite x0 x1 x2 s = .next t) : Kept s t :=
  kept_next h (busWrite_kept _ _ _ (Kept.refl s))

theorem execRegisterWrite_kept {x0 x1 x2 s t} (h : execRegisterWrite x0 x1 x2 s = .next t) : Kept s t :=
  kept_next h (busWrite_kept _ _ _ (Kept.refl s))

theorem execCommandTake_kept {s t} (h : execCommandTake s = .next t) : Kept s t :=
  kept_next h (takeOne_kept (Kept.refl s))

theorem execEventDelivery_kept {s t} (h : execEventDelivery s = .next t) : Kept s t :=
  kept_next h (deliver_kept (Kept.refl s))

theorem execMsixVector0HoldoffEnd_kept {s t} (h : execMsixVector0HoldoffEnd s = .next t) : Kept s t := by
  unfold execMsixVector0HoldoffEnd at h
  have hK := Kept.refl s
  try dsimp only at h
  repeat' first
    | (with_reducible refine kept_next h ?_; clear h)
    | with_reducible assumption
    | with_reducible apply msixSend_kept
    | split
    | simp (disch := rfl) only [Kept.set]

theorem execBusViolationEventTimer_kept {s t} (h : execBusViolationEventTimer s = .next t) : Kept s t := by
  unfold execBusViolationEventTimer at h
  have hK := Kept.refl s
  try dsimp only at h
  repeat' first
    | (with_reducible refine kept_next h ?_; clear h)
    | with_reducible assumption
    | with_reducible apply raise_kept
    | split
    | simp (disch := rfl) only [Kept.set]

theorem execPorstNAssert_kept {s t} (h : execPorstNAssert s = .next t) : Kept s t :=
  kept_next h (coldState_kept (Kept.refl s))

theorem execPorstNRelease_kept {x0 s t} (h : execPorstNRelease x0 s = .next t) : Kept s t := by
  unfold execPorstNRelease at h
  have hK := Kept.refl s
  try dsimp only at h
  repeat' first
    | (with_reducible refine kept_next h ?_; clear h)
    | with_reducible assumption
    | split
    | simp (disch := rfl) only [Kept.set]

theorem execPerstNAssert_kept {s t} (h : execPerstNAssert s = .next t) : Kept s t := by
  unfold execPerstNAssert at h
  have hK := Kept.refl s
  try dsimp only at h
  repeat' first
    | (with_reducible refine kept_next h ?_; clear h)
    | with_reducible assumption
    | simp (disch := rfl) only [Kept.set]

theorem execPerstNRelease_kept {s t} (h : execPerstNRelease s = .next t) : Kept s t := by
  unfold execPerstNRelease at h
  have hK := Kept.refl s
  try dsimp only at h
  repeat' first
    | (with_reducible refine kept_next h ?_; clear h)
    | with_reducible assumption
    | simp (disch := rfl) only [Kept.set]

theorem execStartupPhase1End_kept {s t} (h : execStartupPhase1End s = .next t) : Kept s t := by
  unfold execStartupPhase1End at h
  have hK := Kept.refl s
  try dsimp only at h
  repeat' first
    | (with_reducible refine kept_next h ?_; clear h)
    | with_reducible assumption
    | with_reducible apply temperReset_kept
    | split
    | simp (disch := rfl) only [Kept.set]

theorem execStartupPhase2End_kept {s t} (h : execStartupPhase2End s = .next t) : Kept s t := by
  unfold execStartupPhase2End at h
  have hK := Kept.refl s
  try dsimp only at h
  repeat' first
    | (with_reducible refine kept_next h ?_; clear h)
    | with_reducible assumption
    | with_reducible apply logAdd_kept
    | with_reducible apply runImage_kept
    | with_reducible apply fallBack_kept
    | split
    | simp (disch := rfl) only [Kept.set]

theorem execStartupPhase3End_kept {s t} (h : execStartupPhase3End s = .next t) : Kept s t := by
  unfold execStartupPhase3End at h
  have hK := Kept.refl s
  try dsimp only at h
  repeat' first
    | (with_reducible refine kept_next h ?_; clear h)
    | with_reducible assumption
    | with_reducible exact Kept.refl _
    | intro _
    | with_reducible apply modSrc_kept
    | with_reducible apply srcsIsolate_kept
    | with_reducible apply modDom_kept
    | with_reducible apply foldS_kept
    | split
    | simp (disch := rfl) only [Kept.set]

theorem execStartupPhase4End_kept {s t} (h : execStartupPhase4End s = .next t) : Kept s t := by
  unfold execStartupPhase4End at h
  have hK := Kept.refl s
  try dsimp only at h
  repeat' first
    | (with_reducible refine kept_next h ?_; clear h)
    | with_reducible assumption
    | with_reducible exact Kept.refl _
    | intro _
    | with_reducible apply modDom_kept
    | with_reducible apply foldS_kept
    | split
    | simp (disch := rfl) only [Kept.set]

theorem execStartupPhase5aEnd_kept {x0 x1 s t} (h : execStartupPhase5aEnd x0 x1 s = .next t) : Kept s t := by
  unfold execStartupPhase5aEnd at h
  have hK := Kept.refl s
  try dsimp only at h
  repeat' first
    | (with_reducible refine kept_next h ?_; clear h)
    | with_reducible assumption
    | with_reducible apply phase5a_kept
    | split

theorem execStartupPhase5bEnd_kept {x0 s t} (h : execStartupPhase5bEnd x0 s = .next t) : Kept s t := by
  unfold execStartupPhase5bEnd at h
  have hK := Kept.refl s
  try dsimp only at h
  repeat' first
    | (with_reducible refine kept_next h ?_; clear h)
    | with_reducible assumption
    | with_reducible apply phase5b_kept
    | split

theorem execStartupPhase6End_kept {s t} (h : execStartupPhase6End s = .next t) : Kept s t := by
  unfold execStartupPhase6End at h
  have hK := Kept.refl s
  try dsimp only at h
  repeat' first
    | (with_reducible refine kept_settled h ?_; clear h)
    | with_reducible assumption
    | with_reducible apply budgetSettle_kept
    | with_reducible apply replayJournal_kept
    | with_reducible apply reasonsAgain_kept
    | split
    | simp (disch := rfl) only [Kept.set]

theorem execStartupPhase7End_kept {s t} (h : execStartupPhase7End s = .next t) : Kept s t := by
  unfold execStartupPhase7End at h
  have hK := Kept.refl s
  try dsimp only at h
  repeat' first
    | (with_reducible refine kept_settled h ?_; clear h)
    | with_reducible assumption
    | with_reducible apply twinStart_kept
    | split
    | simp (disch := rfl) only [Kept.set]

theorem execBootReadyTimeout_kept {s t} (h : execBootReadyTimeout s = .next t) : Kept s t := by
  unfold execBootReadyTimeout at h
  have hK := Kept.refl s
  try dsimp only at h
  repeat' first
    | (with_reducible refine kept_next h ?_; clear h)
    | with_reducible assumption
    | with_reducible apply logAdd_kept
    | with_reducible apply fallBack_kept
    | with_reducible apply startOver_kept
    | split
    | simp (disch := rfl) only [Kept.set]

theorem execDomainSwitchesOpen_kept {x0 s t} (h : execDomainSwitchesOpen x0 s = .next t) : Kept s t :=
  kept_settled h (switchesOpen_kept _ (Kept.refl s))

theorem execDomainBringUpComplete_kept {x0 s t} (h : execDomainBringUpComplete x0 s = .next t) : Kept s t :=
  kept_settled h (bringUp_kept _ (Kept.refl s))

theorem execBlockResetEnd_kept {x0 x1 s t} (h : execBlockResetEnd x0 x1 s = .next t) : Kept s t :=
  kept_settled h (blockResetEnd_kept _ _ (Kept.refl s))

theorem execMpRestartComplete_kept {s t} (h : execMpRestartComplete s = .next t) : Kept s t := by
  unfold execMpRestartComplete at h
  have hK := Kept.refl s
  try dsimp only at h
  repeat' first
    | (with_reducible refine kept_settled h ?_; clear h)
    | with_reducible assumption
    | with_reducible apply mpBack_kept
    | with_reducible apply mirrorResume_kept
    | split

theorem execSignalDetectPresent_kept {x0 s t} (h : execSignalDetectPresent x0 s = .next t) : Kept s t := by
  unfold execSignalDetectPresent at h
  have hK := Kept.refl s
  try dsimp only at h
  repeat' first
    | (with_reducible refine kept_settled h ?_; clear h)
    | with_reducible assumption
    | with_reducible apply modLane_kept
    | with_reducible apply laneAcquire_kept
    | split

theorem execSignalDetectAbsent_kept {x0 s t} (h : execSignalDetectAbsent x0 s = .next t) : Kept s t := by
  unfold execSignalDetectAbsent at h
  have hK := Kept.refl s
  try dsimp only at h
  repeat' first
    | (with_reducible refine kept_settled h ?_; clear h)
    | with_reducible assumption
    | with_reducible apply modLane_kept
    | with_reducible apply laneIdle_kept
    | with_reducible apply huntLane_kept
    | split

theorem execCdrLockAcquired_kept {x0 s t} (h : execCdrLockAcquired x0 s = .next t) : Kept s t := by
  unfold execCdrLockAcquired at h
  have hK := Kept.refl s
  try dsimp only at h
  repeat' first
    | (with_reducible refine kept_settled h ?_; clear h)
    | with_reducible assumption
    | with_reducible apply modLane_kept
    | with_reducible apply updPort_kept
    | split

theorem execAcquisitionLimitExpiry_kept {x0 s t} (h : execAcquisitionLimitExpiry x0 s = .next t) : Kept s t := by
  unfold execAcquisitionLimitExpiry at h
  have hK := Kept.refl s
  try dsimp only at h
  repeat' first
    | (with_reducible refine kept_settled h ?_; clear h)
    | with_reducible assumption
    | with_reducible apply modLane_kept
    | with_reducible apply laneIdle_kept
    | split

theorem execCdrLockLost_kept {x0 s t} (h : execCdrLockLost x0 s = .next t) : Kept s t := by
  unfold execCdrLockLost at h
  have hK := Kept.refl s
  try dsimp only at h
  repeat' first
    | (with_reducible refine kept_settled h ?_; clear h)
    | with_reducible assumption
    | with_reducible apply laneReadapt_kept
    | split

theorem execLaneBufferSlip_kept {x0 s t} (h : execLaneBufferSlip x0 s = .next t) : Kept s t := by
  unfold execLaneBufferSlip at h
  have hK := Kept.refl s
  try dsimp only at h
  repeat' first
    | (with_reducible refine kept_settled h ?_; clear h)
    | with_reducible assumption
    | with_reducible apply modLane_kept
    | with_reducible apply huntLane_kept
    | split

theorem execSlipDlolExpiry_kept {x0 s t} (h : execSlipDlolExpiry x0 s = .next t) : Kept s t := by
  unfold execSlipDlolExpiry at h
  have hK := Kept.refl s
  try dsimp only at h
  repeat' first
    | (with_reducible refine kept_settled h ?_; clear h)
    | with_reducible assumption
    | with_reducible apply modLane_kept
    | split

theorem execContinuousAdaptationVisit_kept {x0 x1 x2 x3 s t} (h : execContinuousAdaptationVisit x0 x1 x2 x3 s = .next t) : Kept s t := by
  unfold execContinuousAdaptationVisit at h
  have hK := Kept.refl s
  try dsimp only at h
  repeat' first
    | (with_reducible refine kept_next h ?_; clear h)
    | with_reducible assumption
    | with_reducible apply modLane_kept
    | with_reducible apply marginStep_kept
    | split

theorem execFasPatternMatch_kept {x0 x1 x2 x3 x4 s t} (h : execFasPatternMatch x0 x1 x2 x3 x4 s = .next t) : Kept s t := by
  unfold execFasPatternMatch at h
  have hK := Kept.refl s
  try dsimp only at h
  repeat' first
    | (with_reducible refine kept_settled h ?_; clear h)
    | with_reducible assumption
    | with_reducible apply updPort_kept
    | split

theorem execFasCandidateCheck_kept {x0 x1 x2 x3 x4 s t} (h : execFasCandidateCheck x0 x1 x2 x3 x4 s = .next t) : Kept s t := by
  unfold execFasCandidateCheck at h
  have hK := Kept.refl s
  try dsimp only at h
  repeat' first
    | (with_reducible refine kept_settled h ?_; clear h)
    | with_reducible assumption
    | with_reducible apply updPort_kept
    | split

theorem execRxFrame_kept {x0 x1 s t} (h : execRxFrame x0 x1 s = .next t) : Kept s t := by
  unfold execRxFrame at h
  have hK := Kept.refl s
  try dsimp only at h
  repeat' first
    | (with_reducible refine kept_settled h ?_; clear h)
    | with_reducible assumption
    | with_reducible apply rxVc_kept
    | with_reducible apply rxVcat_kept
    | with_reducible apply rxProc_kept
    | with_reducible apply rxOduFrame_kept
    | split

theorem execDlofDeclare_kept {x0 x1 s t} (h : execDlofDeclare x0 x1 s = .next t) : Kept s t :=
  kept_settled h (lofStep_kept _ _ _ (Kept.refl s))

theorem execDlofClear_kept {x0 x1 s t} (h : execDlofClear x0 x1 s = .next t) : Kept s t :=
  kept_settled h (lofStep_kept _ _ _ (Kept.refl s))

theorem execDloflaneDeclare_kept {x0 x1 s t} (h : execDloflaneDeclare x0 x1 s = .next t) : Kept s t :=
  kept_settled h (lofLaneStep_kept _ _ _ (Kept.refl s))

theorem execDloflaneClear_kept {x0 x1 s t} (h : execDloflaneClear x0 x1 s = .next t) : Kept s t :=
  kept_settled h (lofLaneStep_kept _ _ _ (Kept.refl s))

theorem execDlomDeclare_kept {x0 x1 s t} (h : execDlomDeclare x0 x1 s = .next t) : Kept s t :=
  kept_settled h (lomStep_kept _ _ _ (Kept.refl s))

theorem execDlomClear_kept {x0 x1 s t} (h : execDlomClear x0 x1 s = .next t) : Kept s t :=
  kept_settled h (lomStep_kept _ _ _ (Kept.refl s))

theorem execFlexoFrame_kept {x0 x1 x2 x3 x4 x5 s t} (h : execFlexoFrame x0 x1 x2 x3 x4 x5 s = .next t) : Kept s t := by
  unfold execFlexoFrame at h
  have hK := Kept.refl s
  try dsimp only at h
  repeat' first
    | (with_reducible refine kept_settled h ?_; clear h)
    | with_reducible assumption
    | with_reducible apply updPort_kept
    | split

theorem execPcsAlignmentMarker_kept {x0 x1 x2 x3 x4 x5 s t} (h : execPcsAlignmentMarker x0 x1 x2 x3 x4 x5 s = .next t) : Kept s t := by
  unfold execPcsAlignmentMarker at h
  have hK := Kept.refl s
  try dsimp only at h
  repeat' first
    | (with_reducible refine kept_settled h ?_; clear h)
    | with_reducible assumption
    | with_reducible apply updPort_kept
    | split

theorem execFlexeOverheadFrame_kept {x0 x1 x2 s t} (h : execFlexeOverheadFrame x0 x1 x2 s = .next t) : Kept s t := by
  unfold execFlexeOverheadFrame at h
  have hK := Kept.refl s
  try dsimp only at h
  repeat' first
    | (with_reducible refine kept_settled h ?_; clear h)
    | with_reducible assumption
    | with_reducible apply updPort_kept
    | with_reducible apply flexTell_kept
    | split

theorem execGfpCoreHeader_kept {x0 x1 x2 s t} (h : execGfpCoreHeader x0 x1 x2 s = .next t) : Kept s t := by
  unfold execGfpCoreHeader at h
  have hK := Kept.refl s
  try dsimp only at h
  repeat' first
    | (with_reducible refine kept_settled h ?_; clear h)
    | with_reducible assumption
    | dsimp only
    | with_reducible apply updChan_kept
    | with_reducible apply gfpDeliver_kept
    | split

theorem execHagilHeader_kept {x0 x1 s t} (h : execHagilHeader x0 x1 s = .next t) : Kept s t := by
  unfold execHagilHeader at h
  have hK := Kept.refl s
  try dsimp only at h
  repeat' first
    | (with_reducible refine kept_settled h ?_; clear h)
    | with_reducible assumption
    | split
    | simp (disch := rfl) only [Kept.set]

theorem execFabricCodeword_kept {x0 x1 s t} (h : execFabricCodeword x0 x1 s = .next t) : Kept s t := by
  unfold execFabricCodeword at h
  have hK := Kept.refl s
  try dsimp only at h
  repeat' first
    | (with_reducible refine kept_settled h ?_; clear h)
    | with_reducible assumption
    | split
    | simp (disch := rfl) only [Kept.set]

theorem execTxFrame_kept {x0 x1 s t} (h : execTxFrame x0 x1 s = .next t) : Kept s t := by
  unfold execTxFrame at h
  have hK := Kept.refl s
  try dsimp only at h
  repeat' first
    | (with_reducible refine kept_settled h ?_; clear h)
    | with_reducible assumption
    | with_reducible apply txOduFrame_kept
    | with_reducible apply txVcFrame_kept
    | with_reducible apply txPort_kept
    | split

theorem execGfpCmfTimer_kept {x0 x1 s t} (h : execGfpCmfTimer x0 x1 s = .next t) : Kept s t := by
  unfold execGfpCmfTimer at h
  have hK := Kept.refl s
  try dsimp only at h
  repeat' first
    | (with_reducible refine kept_next h ?_; clear h)
    | with_reducible assumption
    | with_reducible apply updOh_kept
    | split

theorem execFailureDeclareExpiry_kept {x0 x1 s t} (h : execFailureDeclareExpiry x0 x1 s = .next t) : Kept s t := by
  unfold execFailureDeclareExpiry at h
  have hK := Kept.refl s
  try dsimp only at h
  repeat' first
    | (with_reducible refine kept_next h ?_; clear h)
    | with_reducible assumption
    | with_reducible apply failureAt_kept
    | split

theorem execFailureClearExpiry_kept {x0 x1 s t} (h : execFailureClearExpiry x0 x1 s = .next t) : Kept s t := by
  unfold execFailureClearExpiry at h
  have hK := Kept.refl s
  try dsimp only at h
  repeat' first
    | (with_reducible refine kept_next h ?_; clear h)
    | with_reducible assumption
    | with_reducible apply failureAt_kept
    | split

theorem execOneSecondPulse_kept {s t} (h : execOneSecondPulse s = .next t) : Kept s t := by
  unfold execOneSecondPulse at h
  have hK := Kept.refl s
  try dsimp only at h
  repeat' first
    | (with_reducible refine kept_settled h ?_; clear h)
    | with_reducible assumption
    | with_reducible apply secondPulse_kept
    | split

theorem execPmSecondEvaluation_kept {x0 s t} (h : execPmSecondEvaluation x0 s = .next t) : Kept s t := by
  unfold execPmSecondEvaluation at h
  have hK := Kept.refl s
  try dsimp only at h
  repeat' first
    | (with_reducible refine kept_next h ?_; clear h)
    | with_reducible assumption
    | with_reducible apply sendFrames_kept
    | with_reducible apply evalSecond_kept
    | split

theorem execHagilSlotTx_kept {x0 x1 s t} (h : execHagilSlotTx x0 x1 s = .next t) : Kept s t := by
  unfold execHagilSlotTx at h
  have hK := Kept.refl s
  try dsimp only at h
  repeat' first
    | (with_reducible refine kept_next h ?_; clear h)
    | with_reducible assumption
    | with_reducible exact Kept.refl _
    | intro _
    | with_reducible apply chanToFabric_kept
    | with_reducible apply slotTurn_kept
    | with_reducible apply foldS_kept
    | split

theorem execHagilFrameRx_kept {x0 x1 s t} (h : execHagilFrameRx x0 x1 s = .next t) : Kept s t := by
  unfold execHagilFrameRx at h
  have hK := Kept.refl s
  try dsimp only at h
  repeat' first
    | (with_reducible refine kept_settled h ?_; clear h)
    | with_reducible assumption
    | with_reducible apply hagilRx_kept
    | split
    | simp (disch := rfl) only [Kept.set]

theorem execSeqSkipTimeout_kept {x0 s t} (h : execSeqSkipTimeout x0 s = .next t) : Kept s t := by
  unfold execSeqSkipTimeout at h
  have hK := Kept.refl s
  try dsimp only at h
  repeat' first
    | (with_reducible refine kept_settled h ?_; clear h)
    | with_reducible assumption
    | with_reducible apply leafSkip_kept
    | with_reducible apply queueSkip_kept
    | split

theorem execLcasWtrExpiry_kept {x0 x1 s t} (h : execLcasWtrExpiry x0 x1 s = .next t) : Kept s t := by
  unfold execLcasWtrExpiry at h
  have hK := Kept.refl s
  try dsimp only at h
  repeat' first
    | (with_reducible refine kept_settled h ?_; clear h)
    | with_reducible assumption
    | with_reducible apply sendDecision_kept
    | with_reducible apply updChan_kept
    | split

theorem execFlexeCrAck_kept {x0 x1 s t} (h : execFlexeCrAck x0 x1 s = .next t) : Kept s t := by
  unfold execFlexeCrAck at h
  have hK := Kept.refl s
  try dsimp only at h
  repeat' first
    | (with_reducible refine kept_next h ?_; clear h)
    | with_reducible assumption
    | simp (disch := rfl) only [Kept.set]

theorem execFlexeCalendarSwitch_kept {x0 x1 s t} (h : execFlexeCalendarSwitch x0 x1 s = .next t) : Kept s t := by
  unfold execFlexeCalendarSwitch at h
  have hK := Kept.refl s
  try dsimp only at h
  repeat' first
    | (with_reducible refine kept_settled h ?_; clear h)
    | with_reducible assumption
    | with_reducible apply sendDecision_kept
    | with_reducible apply flexSwitched_kept
    | with_reducible apply evtFlexe_kept
    | split

theorem execFlexeAckTimeout_kept {x0 x1 s t} (h : execFlexeAckTimeout x0 x1 s = .next t) : Kept s t := by
  unfold execFlexeAckTimeout at h
  have hK := Kept.refl s
  try dsimp only at h
  repeat' first
    | (with_reducible refine kept_next h ?_; clear h)
    | with_reducible assumption
    | with_reducible apply evtFlexe_kept
    | split
    | simp (disch := rfl) only [Kept.set]

theorem execBgoAccept_kept {x0 x1 x2 x3 s t} (h : execBgoAccept x0 x1 x2 x3 s = .next t) : Kept s t := by
  unfold execBgoAccept at h
  have hK := Kept.refl s
  try dsimp only at h
  repeat' first
    | (with_reducible refine kept_settled h ?_; clear h)
    | with_reducible assumption
    | with_reducible apply bgoAccept_kept
    | split

theorem execStitchSlotRx_kept {x0 x1 x2 s t} (h : execStitchSlotRx x0 x1 x2 s = .next t) : Kept s t := by
  unfold execStitchSlotRx at h
  have hK := Kept.refl s
  try dsimp only at h
  repeat' first
    | (with_reducible refine kept_settled h ?_; clear h)
    | with_reducible assumption
    | with_reducible apply stitchRx_kept
    | split

theorem execBraidRoundRead_kept {x0 s t} (h : execBraidRoundRead x0 s = .next t) : Kept s t :=
  kept_settled h (roundRead_kept _ _ (Kept.refl s))

theorem execBraidRoundFormed_kept {x0 s t} (h : execBraidRoundFormed x0 s = .next t) : Kept s t :=
  kept_settled h (roundFormed_kept _ _ (Kept.refl s))

theorem execBraidSwitchRound_kept {x0 x1 s t} (h : execBraidSwitchRound x0 x1 s = .next t) : Kept s t := by
  unfold execBraidSwitchRound at h
  have hK := Kept.refl s
  try dsimp only at h
  repeat' first
    | (with_reducible refine kept_settled h ?_; clear h)
    | with_reducible assumption
    | with_reducible apply txSwitch_kept
    | with_reducible apply rxSwitch_kept
    | split

theorem execBraidAddTimeout_kept {x0 x1 x2 s t} (h : execBraidAddTimeout x0 x1 x2 s = .next t) : Kept s t := by
  unfold execBraidAddTimeout at h
  have hK := Kept.refl s
  try dsimp only at h
  repeat' first
    | (with_reducible refine kept_settled h ?_; clear h)
    | with_reducible assumption
    | with_reducible apply evtMemberGone_kept
    | with_reducible apply dropMember_kept
    | split

theorem execBraidMemberWtrExpiry_kept {x0 x1 s t} (h : execBraidMemberWtrExpiry x0 x1 s = .next t) : Kept s t := by
  unfold execBraidMemberWtrExpiry at h
  have hK := Kept.refl s
  try dsimp only at h
  repeat' first
    | (with_reducible refine kept_settled h ?_; clear h)
    | with_reducible assumption
    | with_reducible apply updMember_kept
    | with_reducible apply evtMemberNow_kept
    | with_reducible apply txRequest_kept
    | split

theorem execBraidSoloSideDelay_kept {x0 x1 x2 s t} (h : execBraidSoloSideDelay x0 x1 x2 s = .next t) : Kept s t := by
  unfold execBraidSoloSideDelay at h
  have hK := Kept.refl s
  try dsimp only at h
  repeat' first
    | (with_reducible refine kept_settled h ?_; clear h)
    | with_reducible assumption
    | with_reducible apply updMember_kept
    | with_reducible apply farChange_kept
    | with_reducible apply txRemove_kept
    | split

theorem execBraidMemberWithdrawn_kept {x0 x1 s t} (h : execBraidMemberWithdrawn x0 x1 s = .next t) : Kept s t := by
  unfold execBraidMemberWithdrawn at h
  have hK := Kept.refl s
  try dsimp only at h
  repeat' first
    | (with_reducible refine kept_settled h ?_; clear h)
    | with_reducible assumption
    | with_reducible apply dropMember_kept
    | split

theorem execBraidClientDataTimeout_kept {x0 x1 s t} (h : execBraidClientDataTimeout x0 x1 s = .next t) : Kept s t := by
  unfold execBraidClientDataTimeout at h
  have hK := Kept.refl s
  try dsimp only at h
  repeat' first
    | (with_reducible refine kept_settled h ?_; clear h)
    | with_reducible assumption
    | with_reducible apply updClient_kept
    | split

theorem execBgoAbsence_kept {x0 x1 s t} (h : execBgoAbsence x0 x1 s = .next t) : Kept s t := by
  unfold execBgoAbsence at h
  have hK := Kept.refl s
  try dsimp only at h
  repeat' first
    | (with_reducible refine kept_settled h ?_; clear h)
    | with_reducible assumption
    | with_reducible apply updMember_kept
    | split

theorem execWriterWord_kept {x0 x1 x2 x3 x4 s t} (h : execWriterWord x0 x1 x2 x3 x4 s = .next t) : Kept s t := by
  unfold execWriterWord at h
  have hK := Kept.refl s
  try dsimp only at h
  repeat' first
    | (with_reducible refine kept_settled h ?_; clear h)
    | with_reducible assumption
    | with_reducible apply flushPending_kept
    | with_reducible apply streamPut_kept
    | with_reducible apply writeWord_kept
    | split

theorem execFlushTakesEffect_kept {x0 s t} (h : execFlushTakesEffect x0 s = .next t) : Kept s t := by
  unfold execFlushTakesEffect at h
  have hK := Kept.refl s
  try dsimp only at h
  repeat' first
    | (with_reducible refine kept_settled h ?_; clear h)
    | with_reducible assumption
    | with_reducible apply takeFlush_kept
    | split

theorem execQueueRead_kept {x0 x1 s t} (h : execQueueRead x0 x1 s = .next t) : Kept s t := by
  unfold execQueueRead at h
  have hK := Kept.refl s
  try dsimp only at h
  repeat' first
    | (with_reducible refine kept_settled h ?_; clear h)
    | with_reducible assumption
    | with_reducible apply readPacketCell_kept
    | with_reducible apply readStreamCell_kept
    | with_reducible apply schedPick_kept
    | split

theorem execPatrolScrub_kept {x0 x1 s t} (h : execPatrolScrub x0 x1 s = .next t) : Kept s t := by
  unfold execPatrolScrub at h
  have hK := Kept.refl s
  try dsimp only at h
  repeat' first
    | (with_reducible refine kept_settled h ?_; clear h)
    | with_reducible assumption
    | with_reducible apply scrubCell_kept
    | split
    | simp (disch := rfl) only [Kept.set]

theorem execRetirementEvaluation_kept {s t} (h : execRetirementEvaluation s = .next t) : Kept s t :=
  kept_settled h (retireEvaluate_kept (Kept.refl s))

theorem execWsoAccept_kept {x0 x1 x2 x3 x4 x5 s t} (h : execWsoAccept x0 x1 x2 x3 x4 x5 s = .next t) : Kept s t := by
  unfold execWsoAccept at h
  have hK := Kept.refl s
  try dsimp only at h
  repeat' first
    | (with_reducible refine kept_settled h ?_; clear h)
    | with_reducible assumption
    | with_reducible apply wsoAccept_kept
    | split

theorem execWeltPlayout_kept {x0 s t} (h : execWeltPlayout x0 s = .next t) : Kept s t := by
  unfold execWeltPlayout at h
  have hK := Kept.refl s
  try dsimp only at h
  repeat' first
    | (with_reducible refine kept_settled h ?_; clear h)
    | with_reducible assumption
    | with_reducible apply weltOut_kept
    | with_reducible apply weltPlayout_kept
    | split

theorem execWeltAbsentTimer_kept {x0 x1 s t} (h : execWeltAbsentTimer x0 x1 s = .next t) : Kept s t := by
  unfold execWeltAbsentTimer at h
  have hK := Kept.refl s
  try dsimp only at h
  repeat' first
    | (with_reducible refine kept_settled h ?_; clear h)
    | with_reducible assumption
    | with_reducible apply updWelt_kept
    | with_reducible apply setCopyState_kept
    | split

theorem execWeltAcquireTimer_kept {x0 s t} (h : execWeltAcquireTimer x0 s = .next t) : Kept s t := by
  unfold execWeltAcquireTimer at h
  have hK := Kept.refl s
  try dsimp only at h
  repeat' first
    | (with_reducible refine kept_settled h ?_; clear h)
    | with_reducible assumption
    | with_reducible apply weltAnchor_kept
    | split

theorem execWeltNoCopyIn_kept {x0 s t} (h : execWeltNoCopyIn x0 s = .next t) : Kept s t := by
  unfold execWeltNoCopyIn at h
  have hK := Kept.refl s
  try dsimp only at h
  repeat' first
    | (with_reducible refine kept_settled h ?_; clear h)
    | with_reducible assumption
    | with_reducible apply weltRealign_kept
    | split

theorem execWeltRealignAuto_kept {x0 s t} (h : execWeltRealignAuto x0 s = .next t) : Kept s t := by
  unfold execWeltRealignAuto at h
  have hK := Kept.refl s
  try dsimp only at h
  repeat' first
    | (with_reducible refine kept_settled h ?_; clear h)
    | with_reducible assumption
    | with_reducible apply weltRealign_kept
    | split

theorem execHoldOffExpiry_kept {x0 x1 s t} (h : execHoldOffExpiry x0 x1 s = .next t) : Kept s t := by
  unfold execHoldOffExpiry at h
  have hK := Kept.refl s
  try dsimp only at h
  repeat' first
    | (with_reducible refine kept_settled h ?_; clear h)
    | with_reducible assumption
    | split
    | simp (disch := rfl) only [Kept.set]

theorem execProtWtrExpiry_kept {x0 s t} (h : execProtWtrExpiry x0 s = .next t) : Kept s t := by
  unfold execProtWtrExpiry at h
  have hK := Kept.refl s
  try dsimp only at h
  repeat' first
    | (with_reducible refine kept_settled h ?_; clear h)
    | with_reducible assumption
    | split
    | simp (disch := rfl) only [Kept.set]

theorem execFopNrTimer_kept {x0 s t} (h : execFopNrTimer x0 s = .next t) : Kept s t := by
  unfold execFopNrTimer at h
  have hK := Kept.refl s
  try dsimp only at h
  repeat' first
    | (with_reducible refine kept_settled h ?_; clear h)
    | with_reducible assumption
    | with_reducible apply evtProtFop_kept
    | split
    | simp (disch := rfl) only [Kept.set]

theorem execTmcSecondBoundary_kept {x0 s t} (h : execTmcSecondBoundary x0 s = .next t) : Kept s t :=
  kept_settled h (secondBoundary_kept _ (Kept.refl s))

theorem execCandidateActivityLoss_kept {x0 s t} (h : execCandidateActivityLoss x0 s = .next t) : Kept s t :=
  kept_settled h (activityLost_kept _ (Kept.refl s))

theorem execCandidatePhaseJump_kept {x0 x1 s t} (h : execCandidatePhaseJump x0 x1 s = .next t) : Kept s t := by
  unfold execCandidatePhaseJump at h
  have hK := Kept.refl s
  try dsimp only at h
  repeat' first
    | (with_reducible refine kept_settled h ?_; clear h)
    | with_reducible assumption
    | with_reducible apply candFault_kept
    | split

theorem execCandidateWaitExpiry_kept {x0 s t} (h : execCandidateWaitExpiry x0 s = .next t) : Kept s t := by
  unfold execCandidateWaitExpiry at h
  have hK := Kept.refl s
  try dsimp only at h
  repeat' first
    | (with_reducible refine kept_settled h ?_; clear h)
    | with_reducible assumption
    | with_reducible apply modCand_kept
    | with_reducible apply evtRef_kept
    | split

theorem execDpllLockDetect_kept {x0 s t} (h : execDpllLockDetect x0 s = .next t) : Kept s t := by
  unfold execDpllLockDetect at h
  have hK := Kept.refl s
  try dsimp only at h
  repeat' first
    | (with_reducible refine kept_settled h ?_; clear h)
    | with_reducible assumption
    | with_reducible apply enterState_kept
    | split

theorem execDpllLockLoss_kept {x0 s t} (h : execDpllLockLoss x0 s = .next t) : Kept s t := by
  unfold execDpllLockLoss at h
  have hK := Kept.refl s
  try dsimp only at h
  repeat' first
    | (with_reducible refine kept_settled h ?_; clear h)
    | with_reducible assumption
    | with_reducible apply enterState_kept
    | split

theorem execSwitchCompletion_kept {x0 x1 s t} (h : execSwitchCompletion x0 x1 s = .next t) : Kept s t :=
  kept_settled h (switchDone_kept _ _ (Kept.refl s))

theorem execOcxoQualify_kept {s t} (h : execOcxoQualify s = .next t) : Kept s t := by
  unfold execOcxoQualify at h
  have hK := Kept.refl s
  try dsimp only at h
  repeat' first
    | (with_reducible refine kept_next h ?_; clear h)
    | with_reducible assumption
    | with_reducible apply raise_kept
    | split
    | simp (disch := rfl) only [Kept.set]

theorem execOcxoDisqualify_kept {s t} (h : execOcxoDisqualify s = .next t) : Kept s t := by
  unfold execOcxoDisqualify at h
  have hK := Kept.refl s
  try dsimp only at h
  repeat' first
    | (with_reducible refine kept_next h ?_; clear h)
    | with_reducible assumption
    | with_reducible apply ocxoLost_kept
    | split
    | simp (disch := rfl) only [Kept.set]

theorem execLoopUpdate_kept {x0 x1 s t} (h : execLoopUpdate x0 x1 s = .next t) : Kept s t :=
  kept_next h (loopUpdate_kept _ _ (Kept.refl s))

theorem execFrontSample_kept {x0 s t} (h : execFrontSample x0 s = .next t) : Kept s t := by
  unfold execFrontSample at h
  have hK := Kept.refl s
  try dsimp only at h
  repeat' first
    | (with_reducible refine kept_next h ?_; clear h)
    | with_reducible assumption
    | with_reducible apply frontSample_kept
    | with_reducible apply candTimers_kept

theorem execFadeComplete_kept {x0 s t} (h : execFadeComplete x0 s = .next t) : Kept s t :=
  kept_next h (fadeComplete_kept _ (Kept.refl s))

theorem execPhaseAdjSpreadEnd_kept {x0 s t} (h : execPhaseAdjSpreadEnd x0 s = .next t) : Kept s t := by
  unfold execPhaseAdjSpreadEnd at h
  have hK := Kept.refl s
  try dsimp only at h
  repeat' first
    | (with_reducible refine kept_next h ?_; clear h)
    | with_reducible assumption
    | with_reducible apply modDpll_kept
    | with_reducible apply dcoSettle_kept
    | split

theorem execPulseEdge_kept {x0 s t} (h : execPulseEdge x0 s = .next t) : Kept s t :=
  kept_next h (pulseEdge_kept _ (Kept.refl s))

theorem execClkoutRestart_kept {x0 s t} (h : execClkoutRestart x0 s = .next t) : Kept s t := by
  unfold execClkoutRestart at h
  have hK := Kept.refl s
  try dsimp only at h
  repeat' first
    | (with_reducible refine kept_next h ?_; clear h)
    | with_reducible assumption
    | with_reducible apply modOut_kept
    | with_reducible apply gateSettle_kept
    | split

theorem execWholeSecondCrossing_kept {s t} (h : execWholeSecondCrossing s = .next t) : Kept s t := by
  unfold execWholeSecondCrossing at h
  have hK := Kept.refl s
  try dsimp only at h
  repeat' first
    | (with_reducible refine kept_next h ?_; clear h)
    | (with_reducible refine kept_settled h ?_; clear h)
    | with_reducible assumption
    | with_reducible apply stepTime_kept
    | with_reducible apply finishWaiting_kept
    | with_reducible apply secondPulse_kept
    | split
    | simp (disch := rfl) only [Kept.set]
    | split at h

theorem execPulseReferenceEdge_kept {x0 x1 s t} (h : execPulseReferenceEdge x0 x1 s = .next t) : Kept s t :=
  kept_settled h (pulseIn_kept _ _ (Kept.refl s))

theorem execHeartbeatTimer_kept {s t} (h : execHeartbeatTimer s = .next t) : Kept s t := by
  unfold execHeartbeatTimer at h
  have hK := Kept.refl s
  try dsimp only at h
  repeat' first
    | (with_reducible refine kept_next h ?_; clear h)
    | with_reducible assumption
    | with_reducible apply sendHeartbeat_kept
    | split

theorem execHeartbeatRx_kept {x0 s t} (h : execHeartbeatRx x0 s = .next t) : Kept s t :=
  kept_settled h (heartbeatRx_kept _ (Kept.refl s))

theorem execHbxEdge_kept {s t} (h : execHbxEdge s = .next t) : Kept s t := by
  unfold execHbxEdge at h
  have hK := Kept.refl s
  try dsimp only at h
  repeat' first
    | (with_reducible refine kept_settled h ?_; clear h)
    | with_reducible assumption
    | with_reducible apply evtPartner_kept
    | with_reducible apply heartbeatSeen_kept
    | split
    | simp (disch := rfl) only [Kept.set]

theorem execVarricHeartbeatLoss_kept {s t} (h : execVarricHeartbeatLoss s = .next t) : Kept s t := by
  unfold execVarricHeartbeatLoss at h
  have hK := Kept.refl s
  try dsimp only at h
  repeat' first
    | (with_reducible refine kept_settled h ?_; clear h)
    | with_reducible assumption
    | with_reducible apply heartbeatLost_kept
    | split
    | simp (disch := rfl) only [Kept.set]

theorem execHbxHeartbeatLoss_kept {s t} (h : execHbxHeartbeatLoss s = .next t) : Kept s t := by
  unfold execHbxHeartbeatLoss at h
  have hK := Kept.refl s
  try dsimp only at h
  repeat' first
    | (with_reducible refine kept_settled h ?_; clear h)
    | with_reducible assumption
    | with_reducible apply heartbeatLost_kept
    | split
    | simp (disch := rfl) only [Kept.set]

theorem execArbClaimReleased_kept {s t} (h : execArbClaimReleased s = .next t) : Kept s t := by
  unfold execArbClaimReleased at h
  have hK := Kept.refl s
  try dsimp only at h
  repeat' first
    | (with_reducible refine kept_settled h ?_; clear h)
    | with_reducible assumption
    | with_reducible apply claimCheck_kept
    | with_reducible apply lostTimer_kept
    | with_reducible apply arbFaultStep_kept
    | split
    | simp (disch := rfl) only [Kept.set]

theorem execArbClaimAsserted_kept {s t} (h : execArbClaimAsserted s = .next t) : Kept s t := by
  unfold execArbClaimAsserted at h
  have hK := Kept.refl s
  try dsimp only at h
  repeat' first
    | (with_reducible refine kept_settled h ?_; clear h)
    | with_reducible assumption
    | with_reducible apply finishWaiting_kept
    | with_reducible apply setRole_kept
    | with_reducible apply lostTimer_kept
    | with_reducible apply arbFaultStep_kept
    | split
    | simp (disch := rfl) only [Kept.set]

theorem execClaimDelayExpiry_kept {s t} (h : execClaimDelayExpiry s = .next t) : Kept s t := by
  unfold execClaimDelayExpiry at h
  have hK := Kept.refl s
  try dsimp only at h
  repeat' first
    | (with_reducible refine kept_settled h ?_; clear h)
    | with_reducible assumption
    | with_reducible apply setRole_kept
    | split

theorem execHandoverAtReached_kept {s t} (h : execHandoverAtReached s = .next t) : Kept s t := by
  unfold execHandoverAtReached at h
  have hK := Kept.refl s
  try dsimp only at h
  repeat' first
    | (with_reducible refine kept_settled h ?_; clear h)
    | with_reducible assumption
    | with_reducible apply setRole_kept
    | with_reducible apply sendHeartbeat_kept
    | split
    | simp (disch := rfl) only [Kept.set]

theorem execHandoverRelease_kept {s t} (h : execHandoverRelease s = .next t) : Kept s t := by
  unfold execHandoverRelease at h
  have hK := Kept.refl s
  try dsimp only at h
  repeat' first
    | (with_reducible refine kept_settled h ?_; clear h)
    | with_reducible assumption
    | with_reducible apply finishWaiting_kept
    | with_reducible apply setRole_kept
    | split

theorem execYieldTimeout_kept {s t} (h : execYieldTimeout s = .next t) : Kept s t := by
  unfold execYieldTimeout at h
  have hK := Kept.refl s
  try dsimp only at h
  repeat' first
    | (with_reducible refine kept_settled h ?_; clear h)
    | with_reducible assumption
    | with_reducible apply finishWaiting_kept
    | with_reducible apply setRole_kept
    | split

theorem execVarricLinkUp_kept {s t} (h : execVarricLinkUp s = .next t) : Kept s t := by
  unfold execVarricLinkUp at h
  have hK := Kept.refl s
  try dsimp only at h
  repeat' first
    | (with_reducible refine kept_settled h ?_; clear h)
    | with_reducible assumption
    | with_reducible apply evtPartner_kept
    | with_reducible apply fedLanes_kept
    | split
    | simp (disch := rfl) only [Kept.set]

theorem execVarricLinkDown_kept {s t} (h : execVarricLinkDown s = .next t) : Kept s t :=
  kept_settled h (linkDown_kept (Kept.refl s))

theorem execArbFaultTimer_kept {s t} (h : execArbFaultTimer s = .next t) : Kept s t := by
  unfold execArbFaultTimer at h
  have hK := Kept.refl s
  try dsimp only at h
  repeat' first
    | (with_reducible refine kept_settled h ?_; clear h)
    | with_reducible assumption
    | with_reducible apply arbFaultStep_kept
    | split

theorem execMirrorTransactionRx_kept {x0 x1 s t} (h : execMirrorTransactionRx x0 x1 s = .next t) : Kept s t :=
  kept_settled h (mirrorIn_kept _ (Kept.refl s))

theorem execPreparedRx_kept {x0 s t} (h : execPreparedRx x0 s = .next t) : Kept s t :=
  kept_settled h (mirrorIn_kept _ (Kept.refl s))

theorem execCommitRx_kept {x0 s t} (h : execCommitRx x0 s = .next t) : Kept s t :=
  kept_settled h (mirrorIn_kept _ (Kept.refl s))

theorem execCommitAckRx_kept {s t} (h : execCommitAckRx s = .next t) : Kept s t :=
  kept_settled h (mirrorIn_kept _ (Kept.refl s))

theorem execTApplyReached_kept {s t} (h : execTApplyReached s = .next t) : Kept s t := by
  unfold execTApplyReached at h
  have hK := Kept.refl s
  try dsimp only at h
  repeat' first
    | (with_reducible refine kept_settled h ?_; clear h)
    | with_reducible assumption
    | with_reducible apply applyActive_kept
    | with_reducible apply applyStandby_kept
    | split

theorem execTwinCommitTimeout_kept {s t} (h : execTwinCommitTimeout s = .next t) : Kept s t := by
  unfold execTwinCommitTimeout at h
  have hK := Kept.refl s
  try dsimp only at h
  repeat' first
    | (with_reducible refine kept_settled h ?_; clear h)
    | with_reducible assumption
    | with_reducible apply finishWaiting_kept
    | split
    | simp (disch := rfl) only [Kept.set]

theorem execDecisionFrameRx_kept {x0 s t} (h : execDecisionFrameRx x0 s = .next t) : Kept s t :=
  kept_settled h (mirrorIn_kept _ (Kept.refl s))

theorem execSnapshotFrameRx_kept {x0 x1 s t} (h : execSnapshotFrameRx x0 x1 s = .next t) : Kept s t :=
  kept_settled h (mirrorIn_kept _ (Kept.refl s))

theorem execXfeedFrameRx_kept {x0 x1 s t} (h : execXfeedFrameRx x0 x1 s = .next t) : Kept s t := by
  unfold execXfeedFrameRx at h
  have hK := Kept.refl s
  try dsimp only at h
  repeat' first
    | (with_reducible refine kept_settled h ?_; clear h)
    | with_reducible assumption
    | with_reducible exact Kept.refl _
    | intro _
    | with_reducible apply chanToFabric_kept
    | with_reducible apply foldS_kept
    | split
    | simp (disch := rfl) only [Kept.set]

theorem execResyncStart_kept {x0 s t} (h : execResyncStart x0 s = .next t) : Kept s t :=
  kept_settled h (mirrorIn_kept _ (Kept.refl s))

theorem execResyncReady_kept {x0 s t} (h : execResyncReady x0 s = .next t) : Kept s t :=
  kept_settled h (mirrorIn_kept _ (Kept.refl s))

theorem execHistSyncComplete_kept {x0 x1 s t} (h : execHistSyncComplete x0 x1 s = .next t) : Kept s t :=
  kept_settled h (mirrorIn_kept _ (Kept.refl s))

theorem execFaultSourceEvent_kept {x0 x1 s t} (h : execFaultSourceEvent x0 x1 s = .next t) : Kept s t :=
  kept_settled h (sourceEvent_kept _ _ (Kept.refl s))

theorem execRailPathFault_kept {x0 s t} (h : execRailPathFault x0 s = .next t) : Kept s t :=
  kept_settled h (pathFault_kept _ (Kept.refl s))

theorem execRailPathRecovery_kept {x0 s t} (h : execRailPathRecovery x0 s = .next t) : Kept s t := by
  unfold execRailPathRecovery at h
  have hK := Kept.refl s
  try dsimp only at h
  repeat' first
    | (with_reducible refine kept_next h ?_; clear h)
    | with_reducible assumption
    | with_reducible apply modSrc_kept

theorem execFaultWindowEnd_kept {x0 s t} (h : execFaultWindowEnd x0 s = .next t) : Kept s t := by
  unfold execFaultWindowEnd at h
  have hK := Kept.refl s
  try dsimp only at h
  repeat' first
    | (with_reducible refine kept_next h ?_; clear h)
    | with_reducible assumption
    | simp (disch := rfl) only [Kept.set]

theorem execFaultGraceExpiry_kept {x0 s t} (h : execFaultGraceExpiry x0 s = .next t) : Kept s t :=
  kept_settled h (graceExpiry_kept _ (Kept.refl s))

theorem execTwinFirstDelay_kept {x0 s t} (h : execTwinFirstDelay x0 s = .next t) : Kept s t :=
  kept_settled h (graceExpiry_kept _ (Kept.refl s))

theorem execArmedExpiry_kept {x0 s t} (h : execArmedExpiry x0 s = .next t) : Kept s t := by
  unfold execArmedExpiry at h
  have hK := Kept.refl s
  try dsimp only at h
  repeat' first
    | (with_reducible refine kept_next h ?_; clear h)
    | with_reducible assumption
    | with_reducible apply modSrc_kept
    | split

theorem execQuiesceMaskEnd_kept {x0 s t} (h : execQuiesceMaskEnd x0 s = .next t) : Kept s t := by
  unfold execQuiesceMaskEnd at h
  have hK := Kept.refl s
  try dsimp only at h
  repeat' first
    | (with_reducible refine kept_next h ?_; clear h)
    | with_reducible assumption
    | with_reducible apply modSrc_kept
    | split

theorem execFaultNPulseEnd_kept {s t} (h : execFaultNPulseEnd s = .next t) : Kept s t := by
  unfold execFaultNPulseEnd at h
  have hK := Kept.refl s
  try dsimp only at h
  repeat' first
    | (with_reducible refine kept_next h ?_; clear h)
    | with_reducible assumption
    | split
    | simp (disch := rfl) only [Kept.set]

theorem execCheckerExercise_kept {x0 x1 s t} (h : execCheckerExercise x0 x1 s = .next t) : Kept s t :=
  kept_settled h (exercise_kept _ _ (Kept.refl s))

theorem execExerciseRetry_kept {x0 x1 s t} (h : execExerciseRetry x0 x1 s = .next t) : Kept s t :=
  kept_settled h (exerciseAgain_kept _ _ (Kept.refl s))

theorem execFwEraseDone_kept {x0 s t} (h : execFwEraseDone x0 s = .next t) : Kept s t := by
  unfold execFwEraseDone at h
  have hK := Kept.refl s
  try dsimp only at h
  repeat' first
    | (with_reducible refine kept_next h ?_; clear h)
    | with_reducible assumption
    | with_reducible apply modSlot_kept
    | with_reducible apply evtFw_kept
    | split
    | simp (disch := rfl) only [Kept.set]

theorem execFwCheckDone_kept {s t} (h : execFwCheckDone s = .next t) : Kept s t := by
  unfold execFwCheckDone at h
  have hK := Kept.refl s
  try dsimp only at h
  repeat' first
    | (with_reducible refine kept_next h ?_; clear h)
    | with_reducible assumption
    | with_reducible apply modSlot_kept
    | with_reducible apply evtFw_kept
    | split
    | simp (disch := rfl) only [Kept.set]

theorem execActivationReady_kept {s t} (h : execActivationReady s = .next t) : Kept s t :=
  kept_settled h (mirrorResume_kept (activationReady_kept (Kept.refl s)))

theorem execActivationFallback_kept {s t} (h : execActivationFallback s = .next t) : Kept s t := by
  unfold execActivationFallback at h
  refine kept_next h ?_
  split
  · dsimp only
    split
    · exact evtFw_kept _ ((Kept.refl s).firm (Nat.le_of_eq (bootWrite_counter _ _ _).symm) (bootWrite_revoked _ _ _))
    · exact Kept.refl s
  · exact Kept.refl s

theorem execJournalCompaction_kept {s t} (h : execJournalCompaction s = .next t) : Kept s t := by
  unfold execJournalCompaction at h
  have hK := Kept.refl s
  try dsimp only at h
  repeat' first
    | (with_reducible refine kept_next h ?_; clear h)
    | with_reducible assumption
    | split
    | simp (disch := rfl) only [Kept.set]

theorem execBistDone_kept {x0 x1 x2 s t} (h : execBistDone x0 x1 x2 s = .next t) : Kept s t :=
  kept_settled h (bistDone_kept _ _ _ (Kept.refl s))

theorem execEyeScanDone_kept {x0 x1 s t} (h : execEyeScanDone x0 x1 s = .next t) : Kept s t := by
  unfold execEyeScanDone at h
  have hK := Kept.refl s
  try dsimp only at h
  repeat' first
    | (with_reducible refine kept_next h ?_; clear h)
    | with_reducible assumption
    | with_reducible apply raise_kept
    | split
    | with_reducible refine Kept.upd ?_ (Nat.le_add_right _ _) rfl rfl rfl rfl rfl rfl

theorem execFaultInjectTimeout_kept {s t} (h : execFaultInjectTimeout s = .next t) : Kept s t := by
  unfold execFaultInjectTimeout at h
  have hK := Kept.refl s
  try dsimp only at h
  repeat' first
    | (with_reducible refine kept_settled h ?_; clear h)
    | with_reducible assumption
    | with_reducible apply injectDone_kept
    | simp (disch := rfl) only [Kept.set]

theorem execPrbsCheckerLock_kept {x0 x1 x2 s t} (h : execPrbsCheckerLock x0 x1 x2 s = .next t) : Kept s t := by
  unfold execPrbsCheckerLock at h
  have hK := Kept.refl s
  try dsimp only at h
  repeat' first
    | (with_reducible refine kept_next h ?_; clear h)
    | with_reducible assumption
    | simp (disch := rfl) only [Kept.set]

theorem execPrbsCheckerLockLoss_kept {x0 x1 x2 s t} (h : execPrbsCheckerLockLoss x0 x1 x2 s = .next t) : Kept s t := by
  unfold execPrbsCheckerLockLoss at h
  have hK := Kept.refl s
  try dsimp only at h
  repeat' first
    | (with_reducible refine kept_next h ?_; clear h)
    | with_reducible assumption
    | simp (disch := rfl) only [Kept.set]

theorem execJtagTckEdge_kept {x0 x1 x2 s t} (h : execJtagTckEdge x0 x1 x2 s = .next t) : Kept s t := by
  unfold execJtagTckEdge at h
  have hK := Kept.refl s
  try dsimp only at h
  repeat' first
    | (with_reducible refine kept_next h ?_; clear h)
    | with_reducible assumption
    | with_reducible apply tckRise_kept
    | with_reducible apply tckFall_kept
    | split

theorem execTrstNAssert_kept {s t} (h : execTrstNAssert s = .next t) : Kept s t := by
  unfold execTrstNAssert at h
  have hK := Kept.refl s
  try dsimp only at h
  repeat' first
    | (with_reducible refine kept_next h ?_; clear h)
    | with_reducible assumption
    | simp (disch := rfl) only [Kept.set]

/-- Whatever a command does but the removal and the return of the supply, it keeps what Kept says. -/
theorem exec_kept (c : Instr) (s t : State) (h : exec c s = .next t) (h1 : c ≠ .supplyRemoval) (h2 : c ≠ .supplyPowerUp) : Kept s t := by
  cases c
  case supplyRemoval => exact absurd rfl h1
  case supplyPowerUp => exact absurd rfl h2
  case mbxDoorbellRing => exact execMbxDoorbellRing_kept h
  case evtRingEnable => exact execEvtRingEnable_kept h
  case evtRingDisable => exact execEvtRingDisable_kept h
  case evtRingHeadWrite => exact execEvtRingHeadWrite_kept h
  case violInfoRead => exact execViolInfoRead_kept h
  case unimplementedRead => exact execUnimplementedRead_kept h
  case unimplementedWrite => exact execUnimplementedWrite_kept h
  case busyMailboxWrite => exact execBusyMailboxWrite_kept h
  case registerWrite => exact execRegisterWrite_kept h
  case commandTake => exact execCommandTake_kept h
  case eventDelivery => exact execEventDelivery_kept h
  case msixVector0HoldoffEnd => exact execMsixVector0HoldoffEnd_kept h
  case busViolationEventTimer => exact execBusViolationEventTimer_kept h
  case porstNAssert => exact execPorstNAssert_kept h
  case porstNRelease => exact execPorstNRelease_kept h
  case perstNAssert => exact execPerstNAssert_kept h
  case perstNRelease => exact execPerstNRelease_kept h
  case startupPhase1End => exact execStartupPhase1End_kept h
  case startupPhase2End => exact execStartupPhase2End_kept h
  case startupPhase3End => exact execStartupPhase3End_kept h
  case startupPhase4End => exact execStartupPhase4End_kept h
  case startupPhase5aEnd => exact execStartupPhase5aEnd_kept h
  case startupPhase5bEnd => exact execStartupPhase5bEnd_kept h
  case startupPhase6End => exact execStartupPhase6End_kept h
  case startupPhase7End => exact execStartupPhase7End_kept h
  case bootReadyTimeout => exact execBootReadyTimeout_kept h
  case domainSwitchesOpen => exact execDomainSwitchesOpen_kept h
  case domainBringUpComplete => exact execDomainBringUpComplete_kept h
  case blockResetEnd => exact execBlockResetEnd_kept h
  case mpRestartComplete => exact execMpRestartComplete_kept h
  case signalDetectPresent => exact execSignalDetectPresent_kept h
  case signalDetectAbsent => exact execSignalDetectAbsent_kept h
  case cdrLockAcquired => exact execCdrLockAcquired_kept h
  case acquisitionLimitExpiry => exact execAcquisitionLimitExpiry_kept h
  case cdrLockLost => exact execCdrLockLost_kept h
  case laneBufferSlip => exact execLaneBufferSlip_kept h
  case slipDlolExpiry => exact execSlipDlolExpiry_kept h
  case continuousAdaptationVisit => exact execContinuousAdaptationVisit_kept h
  case fasPatternMatch => exact execFasPatternMatch_kept h
  case fasCandidateCheck => exact execFasCandidateCheck_kept h
  case rxFrame => exact execRxFrame_kept h
  case dlofDeclare => exact execDlofDeclare_kept h
  case dlofClear => exact execDlofClear_kept h
  case dloflaneDeclare => exact execDloflaneDeclare_kept h
  case dloflaneClear => exact execDloflaneClear_kept h
  case dlomDeclare => exact execDlomDeclare_kept h
  case dlomClear => exact execDlomClear_kept h
  case flexoFrame => exact execFlexoFrame_kept h
  case pcsAlignmentMarker => exact execPcsAlignmentMarker_kept h
  case flexeOverheadFrame => exact execFlexeOverheadFrame_kept h
  case gfpCoreHeader => exact execGfpCoreHeader_kept h
  case hagilHeader => exact execHagilHeader_kept h
  case fabricCodeword => exact execFabricCodeword_kept h
  case txFrame => exact execTxFrame_kept h
  case gfpCmfTimer => exact execGfpCmfTimer_kept h
  case failureDeclareExpiry => exact execFailureDeclareExpiry_kept h
  case failureClearExpiry => exact execFailureClearExpiry_kept h
  case oneSecondPulse => exact execOneSecondPulse_kept h
  case pmSecondEvaluation => exact execPmSecondEvaluation_kept h
  case hagilSlotTx => exact execHagilSlotTx_kept h
  case hagilFrameRx => exact execHagilFrameRx_kept h
  case seqSkipTimeout => exact execSeqSkipTimeout_kept h
  case lcasWtrExpiry => exact execLcasWtrExpiry_kept h
  case flexeCrAck => exact execFlexeCrAck_kept h
  case flexeCalendarSwitch => exact execFlexeCalendarSwitch_kept h
  case flexeAckTimeout => exact execFlexeAckTimeout_kept h
  case bgoAccept => exact execBgoAccept_kept h
  case stitchSlotRx => exact execStitchSlotRx_kept h
  case braidRoundRead => exact execBraidRoundRead_kept h
  case braidRoundFormed => exact execBraidRoundFormed_kept h
  case braidSwitchRound => exact execBraidSwitchRound_kept h
  case braidAddTimeout => exact execBraidAddTimeout_kept h
  case braidMemberWtrExpiry => exact execBraidMemberWtrExpiry_kept h
  case braidSoloSideDelay => exact execBraidSoloSideDelay_kept h
  case braidMemberWithdrawn => exact execBraidMemberWithdrawn_kept h
  case braidClientDataTimeout => exact execBraidClientDataTimeout_kept h
  case bgoAbsence => exact execBgoAbsence_kept h
  case writerWord => exact execWriterWord_kept h
  case flushTakesEffect => exact execFlushTakesEffect_kept h
  case queueRead => exact execQueueRead_kept h
  case patrolScrub => exact execPatrolScrub_kept h
  case retirementEvaluation => exact execRetirementEvaluation_kept h
  case wsoAccept => exact execWsoAccept_kept h
  case weltPlayout => exact execWeltPlayout_kept h
  case weltAbsentTimer => exact execWeltAbsentTimer_kept h
  case weltAcquireTimer => exact execWeltAcquireTimer_kept h
  case weltNoCopyIn => exact execWeltNoCopyIn_kept h
  case weltRealignAuto => exact execWeltRealignAuto_kept h
  case holdOffExpiry => exact execHoldOffExpiry_kept h
  case protWtrExpiry => exact execProtWtrExpiry_kept h
  case fopNrTimer => exact execFopNrTimer_kept h
  case tmcSecondBoundary => exact execTmcSecondBoundary_kept h
  case candidateActivityLoss => exact execCandidateActivityLoss_kept h
  case candidatePhaseJump => exact execCandidatePhaseJump_kept h
  case candidateWaitExpiry => exact execCandidateWaitExpiry_kept h
  case dpllLockDetect => exact execDpllLockDetect_kept h
  case dpllLockLoss => exact execDpllLockLoss_kept h
  case switchCompletion => exact execSwitchCompletion_kept h
  case ocxoQualify => exact execOcxoQualify_kept h
  case ocxoDisqualify => exact execOcxoDisqualify_kept h
  case loopUpdate => exact execLoopUpdate_kept h
  case frontSample => exact execFrontSample_kept h
  case fadeComplete => exact execFadeComplete_kept h
  case phaseAdjSpreadEnd => exact execPhaseAdjSpreadEnd_kept h
  case pulseEdge => exact execPulseEdge_kept h
  case clkoutRestart => exact execClkoutRestart_kept h
  case wholeSecondCrossing => exact execWholeSecondCrossing_kept h
  case pulseReferenceEdge => exact execPulseReferenceEdge_kept h
  case heartbeatTimer => exact execHeartbeatTimer_kept h
  case heartbeatRx => exact execHeartbeatRx_kept h
  case hbxEdge => exact execHbxEdge_kept h
  case varricHeartbeatLoss => exact execVarricHeartbeatLoss_kept h
  case hbxHeartbeatLoss => exact execHbxHeartbeatLoss_kept h
  case arbClaimReleased => exact execArbClaimReleased_kept h
  case arbClaimAsserted => exact execArbClaimAsserted_kept h
  case claimDelayExpiry => exact execClaimDelayExpiry_kept h
  case handoverAtReached => exact execHandoverAtReached_kept h
  case handoverRelease => exact execHandoverRelease_kept h
  case yieldTimeout => exact execYieldTimeout_kept h
  case varricLinkUp => exact execVarricLinkUp_kept h
  case varricLinkDown => exact execVarricLinkDown_kept h
  case arbFaultTimer => exact execArbFaultTimer_kept h
  case mirrorTransactionRx => exact execMirrorTransactionRx_kept h
  case preparedRx => exact execPreparedRx_kept h
  case commitRx => exact execCommitRx_kept h
  case commitAckRx => exact execCommitAckRx_kept h
  case tApplyReached => exact execTApplyReached_kept h
  case twinCommitTimeout => exact execTwinCommitTimeout_kept h
  case decisionFrameRx => exact execDecisionFrameRx_kept h
  case snapshotFrameRx => exact execSnapshotFrameRx_kept h
  case xfeedFrameRx => exact execXfeedFrameRx_kept h
  case resyncStart => exact execResyncStart_kept h
  case resyncReady => exact execResyncReady_kept h
  case histSyncComplete => exact execHistSyncComplete_kept h
  case faultSourceEvent => exact execFaultSourceEvent_kept h
  case railPathFault => exact execRailPathFault_kept h
  case railPathRecovery => exact execRailPathRecovery_kept h
  case faultWindowEnd => exact execFaultWindowEnd_kept h
  case faultGraceExpiry => exact execFaultGraceExpiry_kept h
  case twinFirstDelay => exact execTwinFirstDelay_kept h
  case armedExpiry => exact execArmedExpiry_kept h
  case quiesceMaskEnd => exact execQuiesceMaskEnd_kept h
  case faultNPulseEnd => exact execFaultNPulseEnd_kept h
  case checkerExercise => exact execCheckerExercise_kept h
  case exerciseRetry => exact execExerciseRetry_kept h
  case fwEraseDone => exact execFwEraseDone_kept h
  case fwCheckDone => exact execFwCheckDone_kept h
  case activationReady => exact execActivationReady_kept h
  case activationFallback => exact execActivationFallback_kept h
  case journalCompaction => exact execJournalCompaction_kept h
  case bistDone => exact execBistDone_kept h
  case eyeScanDone => exact execEyeScanDone_kept h
  case faultInjectTimeout => exact execFaultInjectTimeout_kept h
  case prbsCheckerLock => exact execPrbsCheckerLock_kept h
  case prbsCheckerLockLoss => exact execPrbsCheckerLockLoss_kept h
  case jtagTckEdge => exact execJtagTckEdge_kept h
  case trstNAssert => exact execTrstNAssert_kept h
  all_goals exact viaMailbox_kept h

/-- An idle step moves the time and device time alone. -/
theorem tick_kept (s : State) : Kept { s with now := (tick s).now } (tick s) := by
  unfold tick
  split
  · exact (Kept.set rfl rfl rfl rfl rfl rfl).2 (Kept.refl _)
  · exact Kept.refl _

/-- Whatever a step does but the removal and the return of the supply, it keeps what Kept says, the queue and the time apart. -/
theorem step_kept {s t : State} (h : step s = .next t) (h1 : ∀ r, s.pending ≠ .supplyRemoval :: r) (h2 : ∀ r, s.pending ≠ .supplyPowerUp :: r) :
    ∃ l, Kept { s with pending := l, now := t.now } t := by
  unfold step at h
  split at h
  · injection h with h
    exact ⟨s.pending, h ▸ tick_kept s⟩
  · rename_i c r e
    have k := exec_kept c _ t h (fun x => h1 r (x ▸ e)) (fun x => h2 r (x ▸ e))
    exact ⟨r, k.now ▸ k⟩

end Sys2Proof.Machine
end

