-- ==== Sys2Proof/Laws/Mailbox.lean ====
section
/-! SUPPORT. A mailbox command from its words to its response: what posting it changes, and what taking it does, once for every command. -/

namespace Sys2Proof.Machine

set_option linter.unusedVariables false
set_option linter.unusedSimpArgs false
set_option linter.unusedTactic false
set_option linter.unreachableTactic false

theorem w32_toNat (n : Nat) : (w32 n).toNat = n % 2 ^ 32 := by simp [w32]

/-- A status table is read from its first row on. -/
@[simp] theorem ladder_cons (c : Bool) (st : Status) (l : List (Bool × Status)) (s : State) (k : Unit → CmdOut) :
    ladder ((c, st) :: l) s k = if c then (.done st [], s) else ladder l s k := by
  cases c <;> rfl

@[simp] theorem ladder_nil (s : State) (k : Unit → CmdOut) : ladder [] s k = k () := rfl

/-- All four bytes enabled: the word is the one written. -/
@[simp] theorem mergeBytes_all (old v : Word) : mergeBytes old v 15 = v := by
  have h := v.isLt
  apply BitVec.eq_of_toNat_eq
  have e : mergeBytes old v 15 = w32 (v.toNat % 256 + 256 * (v.toNat / 2 ^ 8 % 256) + 65536 * (v.toNat / 2 ^ 16 % 256) +
      16777216 * (v.toNat / 2 ^ 24 % 256)) := by
    simp [mergeBytes, bytesWord, wordBytes, List.range, List.range.loop]
  rw [e, w32_toNat]
  omega

/-- The request table of a mailbox with the payload words written from word i + 1 on. -/
def reqWords (l : List Word) (i : Nat) (t : Table Word) : Table Word :=
  match l with
  | [] => t
  | v :: r => reqWords r (i + 1) (tset t (i + 1) v)

theorem tget_reqWords_lo (l : List Word) (i j : Nat) (t : Table Word) (h : j ≤ i) : tget (reqWords l i t) 0 j = tget t 0 j := by
  induction l generalizing i t with
  | nil => rfl
  | cons v r ih => rw [reqWords, ih (i + 1) _ (by omega), tget_tset_ne _ _ _ (by omega)]

theorem tget_reqWords (l : List Word) (i j : Nat) (t : Table Word) (h : j < l.length) :
    tget (reqWords l i t) 0 (i + j + 1) = wd l j := by
  induction l generalizing i j t with
  | nil => simp at h
  | cons v r ih =>
    cases j with
    | zero => rw [reqWords, tget_reqWords_lo _ _ _ _ (by omega), Nat.add_zero, tget_tset_self]; rfl
    | succ k =>
      have e : i + (k + 1) + 1 = i + 1 + k + 1 := by omega
      rw [reqWords, e, ih (i + 1) k _ (by simpa using h)]
      rfl

/-- The payload words read back. -/
theorem reqWords_read (l : List Word) (t : Table Word) :
    (List.range l.length).map (fun i => tget (reqWords l 0 t) 0 (i + 1)) = l := by
  apply List.ext_getElem
  · simp
  · intro n h1 h2
    have := tget_reqWords l 0 n t (by simpa using h2)
    rw [Nat.zero_add] at this
    simp only [List.getElem_map, List.getElem_range, this, wd]
    simp [List.getD, h2]

/-- A word written into the request area of a mailbox that is not BUSY. -/
theorem busWrite_req {s : State} (m : Mbx) (i : Nat) (v : Word) (h : i ≤ 255) (hu : endpointUp s = true)
    (hi : (mbxOf s m.val).st ≠ .busy) :
    busWrite (0x10000 + 0x1000 * m.val + 4 * i) v 15 s =
      modMbx m.val (fun x => { x with req := tset x.req i v }) { s with host.busOut := .written } := by
  have hm := m.isLt
  have e1 : (0x10000 + 0x1000 * m.val + 4 * i) / 4 * 4 = 0x10000 + 0x1000 * m.val + 4 * i := by omega
  have e2 : barMbx (0x10000 + 0x1000 * m.val + 4 * i) = m.val := by unfold barMbx; omega
  have e3 : (0x10000 + 0x1000 * m.val + 4 * i) % 0x1000 = 4 * i := by omega
  have e4 : barImpl (0x10000 + 0x1000 * m.val + 4 * i) = true := by
    unfold barImpl; simp only [Bool.or_eq_true, decide_eq_true_eq]; right; omega
  have e5 : (mbxOf { s with host.busOut := .written } m.val).st ≠ .busy := hi
  unfold busWrite
  simp only [e1, e2, e3, e4, hu, Bool.not_true, Bool.false_eq_true, if_false]
  rw [if_pos (by omega), if_neg (by simpa using e5), if_pos (by omega)]
  have e6 : 4 * i / 4 = i := by omega
  simp only [e6, mergeBytes_all]

/-- s with the request table R in mailbox m, and a posted write answered. -/
def withReq (m : Nat) (R : Table Word) (s : State) : State :=
  { s with host := { s.host with busOut := .written, mbx := tset s.host.mbx m { mbxOf s m with req := R } } }

theorem mbxOf_withReq (m : Nat) (R : Table Word) (s : State) : mbxOf (withReq m R s) m = { mbxOf s m with req := R } := by
  simp [mbxOf, withReq]

/-- The payload words and then the header of a request. -/
theorem posted_words {s : State} (m : Mbx) (req : List Word) (i : Nat) (hdr : Word) (hu : endpointUp s = true)
    (hi : (mbxOf s m.val).st ≠ .busy) (hl : i + req.length ≤ 255) :
    busWrite (0x10000 + 0x1000 * m.val) hdr 15
        (foldS (req.zipIdx i) (fun e s => busWrite (0x10000 + 0x1000 * m.val + 4 * (e.2 + 1)) e.1 15 s) s) =
      withReq m.val (tset (reqWords req i (mbxOf s m.val).req) 0 hdr) s := by
  induction req generalizing i s with
  | nil => exact busWrite_req m 0 hdr (by omega) hu hi
  | cons v r ih =>
    rw [List.length_cons] at hl
    have e : busWrite (0x10000 + 0x1000 * m.val + 4 * (i + 1)) v 15 s = withReq m.val (tset (mbxOf s m.val).req (i + 1) v) s :=
      busWrite_req m (i + 1) v (by omega) hu hi
    have f : foldS ((v :: r).zipIdx i) (fun e s => busWrite (0x10000 + 0x1000 * m.val + 4 * (e.2 + 1)) e.1 15 s) s =
        foldS (r.zipIdx (i + 1)) (fun e s => busWrite (0x10000 + 0x1000 * m.val + 4 * (e.2 + 1)) e.1 15 s)
          (withReq m.val (tset (mbxOf s m.val).req (i + 1) v) s) := by
      rw [← e]; rfl
    have k : (mbxOf (withReq m.val (tset (mbxOf s m.val).req (i + 1) v) s) m.val).st ≠ .busy := by rw [mbxOf_withReq]; exact hi
    rw [f, ih (s := withReq m.val (tset (mbxOf s m.val).req (i + 1) v) s) (i + 1) hu k (by omega), mbxOf_withReq]
    simp [withReq, reqWords, mbxOf]

theorem bell_bits (m : Mbx) : (List.range 16).filter (fun k => bitOf (w32 (2 ^ m.val)) k) = [m.val] := by
  revert m; decide

/-- The mailbox after its command is posted. -/
def postedMbx (code : Nat) (tag : Byte) (req : List Word) (x : Mailbox) : Mailbox :=
  { x with
    st := .busy, req := tset (reqWords req 0 x.req) 0 (headerWord code tag req.length)
    held := if fld (headerWord code tag req.length) 31 16 == 0x0107 &&
        (match x.held with | some h => fld (tget (tset (reqWords req 0 x.req) 0 (headerWord code tag req.length)) 0 1) 15 0 == h.code | none => false)
      then x.held else none }

/-- The three writes of a command: the words, the header, the doorbell. -/
theorem posted_writes {s : State} (code : Nat) (m : Mbx) (tag : Byte) (req : List Word) (hu : endpointUp s = true)
    (hi : (mbxOf s m.val).st ≠ .busy) (hl : req.length ≤ 255) :
    busWrite 0x100 (w32 (2 ^ m.val)) 15 (busWrite (0x10000 + 0x1000 * m.val) (headerWord code tag req.length) 15
        (foldS req.zipIdx (fun e s => busWrite (0x10000 + 0x1000 * m.val + 4 * (e.2 + 1)) e.1 15 s) s)) =
      { s with host := { s.host with
          busOut := .written, bells := s.host.bells ++ [m.val]
          mbx := tset s.host.mbx m.val (postedMbx code tag req (mbxOf s m.val)) } } := by
  rw [posted_words m req 0 _ hu hi (by omega)]
  generalize hR : tset (reqWords req 0 (mbxOf s m.val).req) 0 (headerWord code tag req.length) = R
  have hb : (mbxOf (withReq m.val R s) m.val).st ≠ .busy := by rw [mbxOf_withReq]; exact hi
  have hu' : endpointUp (withReq m.val R s) = true := hu
  unfold busWrite
  simp only [hu', Bool.not_true, Bool.false_eq_true, if_false, mergeBytes_all]
  rw [if_neg (by decide), if_neg (by decide), if_neg (by decide)]
  show ringBells (w32 (2 ^ m.val)) (withReq m.val R s) = _
  unfold ringBells
  rw [bell_bits]
  show ringBell m.val (withReq m.val R s) = _
  unfold ringBell
  rw [if_neg (by simpa using hb), mbxOf_withReq]
  simp only [withReq, modMbx, mbxHdr, mbxOf, tmod, tget_tset_self, tset_tset, postedMbx, ← hR]
  rfl

/-- Posting a command changes the host interface alone: its mailbox and the answer on the bus. -/
theorem State.posted_eq {code : Nat} {m : Mbx} {req : List Word} {s : State} (tag : Byte) (h : s.takes code m req) :
    s.posted code m tag req = { s with host := { s.host with
      busOut := .written, bells := [], mbx := tset s.host.mbx m.val (postedMbx code tag req (mbxOf s m.val)) } } := by
  unfold State.posted
  dsimp only
  rw [posted_writes code m tag req h.up h.idle h.short]

theorem mbxOf_posted {code : Nat} {m : Mbx} {req : List Word} {s : State} (tag : Byte) (h : s.takes code m req) :
    mbxOf (s.posted code m tag req) m.val = postedMbx code tag req (mbxOf s m.val) := by
  rw [s.posted_eq tag h]; simp [mbxOf]

theorem headerWord_code {code : Nat} (tag : Byte) {n : Nat} (hc : code < 65536) (hn : n ≤ 255) :
    fld (headerWord code tag n) 31 16 = code ∧ fld (headerWord code tag n) 7 0 = n := by
  have := tag.isLt
  unfold fld headerWord
  rw [w32_toNat]
  omega

/-- A command sent where it can run at once is taken with its words as sent. -/
theorem viaMailbox_taken {code : Nat} {m : Mbx} {req : List Word} {s : State} (tag : Byte) (h : s.takes code m req) :
    viaMailbox code m tag req s = .next (settle (serve m.val (s.posted code m tag req))) := by
  have w := posted_writes code m tag req h.up h.idle h.short
  rw [s.posted_eq tag h]
  unfold viaMailbox
  dsimp only
  rw [w]
  dsimp only
  rw [h.quiet]
  have c : canServe { s with host := { s.host with
      busOut := .written, bells := [m.val], mbx := tset s.host.mbx m.val (postedMbx code tag req (mbxOf s m.val)) } } = true := by
    simp [canServe, h.serves, h.noRestart]
  simp only [List.nil_append, List.length_cons, List.length_nil, takeUntil, takeOne, List.contains_cons, beq_self_eq_true, Bool.true_or,
    if_true, c]

/-- A taken command is served with its own code and words. -/
theorem serve_taken {code : Nat} {m : Mbx} {req : List Word} {s : State} (tag : Byte) {f : Body} (h : s.takes code m req)
    (hc : code < 65536) (hb : bodyOf code = some f) :
    serve m.val (s.posted code m tag req) =
      (let p := s.posted code m tag req
       let wide := pairWide code req
       let ctx : Ctx := { denied := s.twin.paired && s.twin.role != .active && (wide || pairControl code req), mbx := some m.val }
       let stages := s.twin.paired && s.twin.role == .active && wide
       if stages && stagingFull s.twin then respond m.val .busy [] p
       else if stages then
         let r := f ctx req (shadowOf s.twin.staging p)
         let a := stagedReply r.1
         respond m.val a.1 a.2 (if r.1.accepted then { p with twin.staging := s.twin.staging ++ [{ code := code, req := req }] } else p)
       else
         let r := f ctx req p
         let t := if r.1.accepted then journalAdd code req r.2 else r.2
         match r.1 with
         | .done st ws => respond m.val st ws t
         | .waits k => { t with host.waiting := t.host.waiting ++ [{ mbx := some m.val, kind := k }] }) := by
  have e := mbxOf_posted tag h
  have hh : mbxHdr (s.posted code m tag req) m.val = headerWord code tag req.length := by
    unfold mbxHdr; rw [e]; simp [postedMbx]
  have hw := headerWord_code tag (n := req.length) hc h.short
  have hq : (List.range (fld (headerWord code tag req.length) 7 0)).map
      (fun i => tget (mbxOf (s.posted code m tag req) m.val).req 0 (i + 1)) = req := by
    rw [hw.2, e]
    conv => rhs; rw [← reqWords_read req (mbxOf s m.val).req]
    apply List.map_congr_left
    intro i _
    simp only [postedMbx]
    rw [tget_tset_ne _ _ _ (by omega)]
  have ht : (s.posted code m tag req).twin = s.twin := by rw [s.posted_eq tag h]
  have hf : (s.posted code m tag req).fw = s.fw := by rw [s.posted_eq tag h]
  have g : fwGate (s.posted code m tag req) code req = false := by unfold fwGate; rw [hf, h.serves]; rfl
  unfold serve
  simp only [hh, hw.1, hq, hb, ht, g, Bool.false_eq_true, if_false, h.len, Bool.not_true]
  all_goals rfl

/-- The body of a command that runs: it sees its own words, no role or FW_STATE stops it, and nothing is staged. -/
theorem serve_ready {code : Nat} {m : Mbx} {req : List Word} {s : State} (tag : Byte) {f : Body} (h : s.ready code m req)
    (hc : code < 65536) (hb : bodyOf code = some f) :
    serve m.val (s.posted code m tag req) =
      (let r := f { mbx := some m.val } req (s.posted code m tag req)
       let t := if r.1.accepted then journalAdd code req r.2 else r.2
       match r.1 with
       | .done st ws => respond m.val st ws t
       | .waits k => { t with host.waiting := t.host.waiting ++ [{ mbx := some m.val, kind := k }] }) := by
  have d : (s.twin.paired && s.twin.role != .active && (pairWide code req || pairControl code req)) = false := by
    cases hp : s.twin.paired
    · rfl
    · rcases (h.scope hp).2 with r | r <;> simp [h.scope hp, r]
  have st : (s.twin.paired && s.twin.role == .active && pairWide code req) = false := by
    cases hp : s.twin.paired
    · rfl
    · simp [h.scope hp]
  rw [serve_taken tag h.totakes hc hb]
  simp only [d, st, Bool.false_and, Bool.false_eq_true, if_false]

/-- A command whose body completes with OK. -/
theorem mailbox_done {code : Nat} {m : Mbx} {req : List Word} {s : State} (tag : Byte) {f : Body} (h : s.ready code m req)
    (hc : code < 65536) (hb : bodyOf code = some f) {ws : List Word} {t : State}
    (hf : f { mbx := some m.val } req (s.posted code m tag req) = (.done .ok ws, t)) :
    viaMailbox code m tag req s = .next (t.answered code m req ws) := by
  rw [viaMailbox_taken tag h.totakes, serve_ready tag h hc hb, hf]
  rfl

/-- A command whose body waits for the hardware. -/
theorem mailbox_waits {code : Nat} {m : Mbx} {req : List Word} {s : State} (tag : Byte) {f : Body} (h : s.ready code m req)
    (hc : code < 65536) (hb : bodyOf code = some f) {k : WaitKind} {t : State}
    (hf : f { mbx := some m.val } req (s.posted code m tag req) = (.waits k, t)) :
    viaMailbox code m tag req s = .next (settle { journalAdd code req t with
      host.waiting := (journalAdd code req t).host.waiting ++ [{ mbx := some m.val, kind := k }] }) := by
  rw [viaMailbox_taken tag h.totakes, serve_ready tag h hc hb, hf]
  rfl

/-- A command whose body completes with DEFERRED. -/
theorem mailbox_deferred {code : Nat} {m : Mbx} {req : List Word} {s : State} (tag : Byte) {f : Body} (h : s.ready code m req)
    (hc : code < 65536) (hb : bodyOf code = some f) {t : State}
    (hf : f { mbx := some m.val } req (s.posted code m tag req) = (.done .deferred [], t)) :
    viaMailbox code m tag req s = .next (settle (respond m.val .deferred [] (journalAdd code req t))) := by
  rw [viaMailbox_taken tag h.totakes, serve_ready tag h hc hb, hf]
  rfl

end Sys2Proof.Machine
end

