-- ==== Sys2Proof/Laws/Timing.lean ====
section
/-! SUPPORT. What the shared operations of the timing core and of the Temper fronts can do, said once. -/

namespace Sys2Proof.Machine

/-- The records that TMC_HISTORY answers stand in the stored order. -/
theorem histRun_sublist {α : Type} (sec : α → Int) (n : Int) (l : List α) : (histRun sec n l).Sublist l := by
  induction l generalizing n with
  | nil => exact List.Sublist.refl _
  | cons a r ih =>
    unfold histRun
    split
    · exact (ih n).cons a
    · split
      · exact (ih (n - 1)).cons_cons a
      · exact List.nil_sublist _

/-- They are of consecutive seconds, from n on towards older ones. -/
theorem histRun_sec {α : Type} (sec : α → Int) (n : Int) (l : List α) (i : Nat) (a : α) (h : (histRun sec n l)[i]? = some a) : sec a = n - i := by
  induction l generalizing n i with
  | nil => cases h
  | cons b r ih =>
    unfold histRun at h
    split at h
    · exact ih n i h
    · split at h
      · rename_i e
        cases i with
        | zero => cases h; simpa using e
        | succ j => have := ih (n - 1) j h; push_cast; omega
      · cases h

/-- A front-sample instant with no reset waiting resets nothing (R344). -/
theorem frontResets_idle {s : State} (h : s.tmc.rateDue = none) (k : ∀ c, c < 42 → (candOf s c).front.resetDue = false) : frontResets s = s := by
  unfold frontResets
  rw [h]
  have e : (List.range 42).filter (fun c => (candOf s c).front.resetDue) = [] := by
    rw [List.filter_eq_nil_iff]
    intro c hc
    simp [k c (List.mem_range.1 hc)]
  simp only [e]
  rfl

/-- Before a history there is nothing to average. -/
theorem segMean_nil (f : DcoSeg → Int) (lo hi : Nat) : segMean f lo hi [] = 0 := by
  unfold segMean segSum
  simp

/-- The gate of a clock output follows SQUELCH, ENABLE and the restart, and nothing else of the output changes but the instant (R313). -/
theorem gateStep_spec (s : State) (n : Nat) (o : Output) :
    ∃ t, gateStep s n o = { o with gate := outOn o && !(squelched s n) && o.restartUntil.isNone, gateAt := t } := by
  unfold gateStep
  dsimp only
  split
  · rename_i h
    exact ⟨o.gateAt, by rw [← eq_of_beq h]⟩
  · split
    · exact ⟨0, rfl⟩
    · exact ⟨_, rfl⟩

/-- Position 0 of a resampler is the instant of the device-wide reset (R331). -/
theorem updateAt_zero (s : State) : updateAt s 0 = s.tmc.frontAt * 65536 := by
  unfold updateAt
  simp

end Sys2Proof.Machine
end

