-- ==== Sys2Proof/Laws/Untouched.lean ====
section
/-! SUPPORT. Untouched, for everything that follows at once from a change and for the operations of the commands that touch nothing beyond
the signal and the host interface: one lemma per operation. -/

namespace Sys2Proof.Machine

set_option linter.unusedVariables false
set_option linter.unusedSimpArgs false
set_option linter.unusedTactic false
set_option linter.unreachableTactic false

/-- A change of other fields can be left out. -/
theorem Untouched.set {s t : State} {free : Nat} {host : HostIf} {fw : Firmware} {twin : Twin} {lane : Table LaneRec} {port : Table Port}
    {fabRx : Table FabRx} {sliceTx : Table SliceTx} {oh : Table Oh} {mon : Table Mon} {chan : Table Chan} {braid : Table Braid} {pool : Pool}
    {prot : Table Prot} {bridge : Table Bridge} {welt : Table Welt} {tmc : Tmc} (h : pool.mem = t.pool.mem) :
    Untouched s (State.mk t.pending t.now free t.pins t.boot t.power t.resets host fw t.fault twin t.test lane port fabRx t.fabTx sliceTx oh mon
      t.pm chan t.flex braid pool prot bridge welt tmc) ↔ Untouched s t where
  mp k := { k with hbm := h.symm.trans k.hbm }
  mpr k := { k with hbm := h.trans k.hbm }

theorem Untouched.refl (s : State) : Untouched s s where
  pending := rfl
  now := rfl
  pins := rfl
  boot := rfl
  power := rfl
  resets := rfl
  fault := rfl
  srcs _ _ := rfl
  test := rfl
  fabTx := rfl
  pm := rfl
  flex := rfl
  hbm := rfl

theorem Untouched.trans {s t u : State} (h : Untouched s t) (k : Untouched t u) : Untouched s u where
  pending := k.pending.trans h.pending
  now := k.now.trans h.now
  pins := k.pins.trans h.pins
  boot := k.boot.trans h.boot
  power := k.power.trans h.power
  resets := k.resets.trans h.resets
  fault := (congrArg (fun (f : FaultColl) => { f with src := s.fault.src, pulseUntil := s.fault.pulseUntil, inject := s.fault.inject }) k.fault).trans h.fault
  srcs a ha := (k.srcs a ha).trans (h.srcs a ha)
  test := k.test.trans h.test
  fabTx := k.fabTx.trans h.fabTx
  pm := k.pm.trans h.pm
  flex := k.flex.trans h.flex
  hbm := k.hbm.trans h.hbm

theorem foldl_still {α : Type} {s₀ : State} {l : List α} {f : State → α → State} {s : State} (h : Untouched s₀ s)
    (k : ∀ t a, Untouched t (f t a)) : Untouched s₀ (l.foldl f s) := by
  induction l generalizing s with
  | nil => exact h
  | cons a r ih => exact ih (h.trans (k s a))

theorem foldPair_still {α β : Type} {s₀ : State} {l : List α} {f : β × State → α → β × State} {b : β × State} (h : Untouched s₀ b.2)
    (k : ∀ b a, Untouched b.2 (f b a).2) : Untouched s₀ (l.foldl f b).2 := by
  induction l generalizing b with
  | nil => exact h
  | cons a r ih => exact ih (h.trans (k b a))

theorem foldS_still {α : Type} {s₀ : State} {l : List α} {f : α → State → State} {s : State} (h : Untouched s₀ s)
    (k : ∀ a t, Untouched t (f a t)) : Untouched s₀ (foldS l f s) := foldl_still h (fun t a => k a t)

theorem ladder_still {s₀ : State} {l : List (Bool × Status)} {s : State} {k : Unit → CmdOut} (h : Untouched s₀ s)
    (hk : Untouched s₀ (k ()).2) : Untouched s₀ (ladder l s k).2 := by
  unfold ladder
  split
  · exact h
  · exact hk

theorem Untouched.iteR {c : Prop} [Decidable c] {s X Y : State} (h : Untouched s X) (k : Untouched X Y) : Untouched s (if c then Y else X) := by
  split
  · exact h.trans k
  · exact h

theorem Untouched.iteL {c : Prop} [Decidable c] {s X Y : State} (h : Untouched s X) (k : Untouched X Y) : Untouched s (if c then X else Y) := by
  split
  · exact h
  · exact h.trans k

theorem drawBit_still {s₀ : State} {s : State} (hK : Untouched s₀ s) : Untouched s₀ (drawBit s).2 := by
  unfold drawBit
  try dsimp only
  repeat' first
    | with_reducible assumption
    | simp (disch := rfl) only [Untouched.set]

theorem drawInt_still {s₀ : State} {s : State} (hK : Untouched s₀ s) : Untouched s₀ (drawInt s).2 := by
  unfold drawInt
  try dsimp only
  repeat' first
    | with_reducible assumption
    | simp (disch := rfl) only [Untouched.set]

theorem raiseRec_still {s₀ : State} (r : EvRec) {s : State} (hK : Untouched s₀ s) : Untouched s₀ (raiseRec r s) := by
  unfold raiseRec
  try dsimp only
  repeat' first
    | with_reducible assumption
    | dsimp only
    | split
    | simp (disch := rfl) only [Untouched.set]

theorem raise_still {s₀ : State} (code : Nat) (cls : Nat) (kind : Nat) (num : Nat) (d4 : Nat) (d5 : Nat) (d6 : Nat) (d7 : Nat) {s : State} (hK : Untouched s₀ s) : Untouched s₀ (raise code cls kind num d4 d5 d6 d7 s) := by
  unfold raise
  try dsimp only
  repeat' first
    | with_reducible assumption
    | with_reducible apply raiseRec_still

theorem raiseAt_still {s₀ : State} (ns : Nat) (code : Nat) (cls : Nat) (kind : Nat) (num : Nat) (d4 : Nat) (d5 : Nat) (d6 : Nat) (d7 : Nat) {s : State} (hK : Untouched s₀ s) : Untouched s₀ (raiseAt ns code cls kind num d4 d5 d6 d7 s) := by
  unfold raiseAt
  try dsimp only
  repeat' first
    | with_reducible assumption
    | with_reducible apply raiseRec_still

theorem logAdd_still {s₀ : State} (cause : LogCause) (arg : Nat) {s : State} (hK : Untouched s₀ s) : Untouched s₀ (logAdd cause arg s) := by
  unfold logAdd
  try dsimp only
  repeat' first
    | with_reducible assumption
    | with_reducible exact Untouched.refl _
    | intro _
    | dsimp only
    | split
    | simp (disch := rfl) only [Untouched.set]

theorem okWith_still {s₀ : State} (ws : List Word) {s : State} (hK : Untouched s₀ s) : Untouched s₀ (okWith ws s).2 := by
  unfold okWith
  try dsimp only
  repeat' first
    | with_reducible assumption

theorem okNone_still {s₀ : State} {s : State} (hK : Untouched s₀ s) : Untouched s₀ (okNone s).2 := by
  unfold okNone
  try dsimp only
  repeat' first
    | with_reducible assumption

theorem setLane_still {s₀ : State} (k : Nat) (l : LaneRec) {s : State} (hK : Untouched s₀ s) : Untouched s₀ (setLane k l s) := by
  unfold setLane
  try dsimp only
  repeat' first
    | with_reducible assumption
    | simp (disch := rfl) only [Untouched.set]

theorem modLane_still {s₀ : State} (k : Nat) (f : LaneRec → LaneRec) {s : State} (hK : Untouched s₀ s) : Untouched s₀ (modLane k f s) := by
  unfold modLane
  try dsimp only
  repeat' first
    | with_reducible assumption
    | with_reducible apply setLane_still

theorem updPort_still {s₀ : State} (p : Nat) (f : Port → Port) {s : State} (hK : Untouched s₀ s) : Untouched s₀ (updPort p f s) := by
  unfold updPort
  try dsimp only
  repeat' first
    | with_reducible assumption
    | simp (disch := rfl) only [Untouched.set]

theorem laneOn_still {s₀ : State} (k : Nat) {s : State} (hK : Untouched s₀ s) : Untouched s₀ (laneOn k s) := by
  unfold laneOn
  try dsimp only
  repeat' first
    | with_reducible assumption
    | with_reducible apply modLane_still

theorem laneStart_still {s₀ : State} (k : Nat) {s : State} (hK : Untouched s₀ s) : Untouched s₀ (laneStart k s) := by
  unfold laneStart
  try dsimp only
  repeat' first
    | with_reducible assumption
    | with_reducible apply modLane_still
    | with_reducible apply laneOn_still
    | split

theorem sendVarric_still {s₀ : State} (typ : Nat) (ch : Nat) (payload : List Byte) {s : State} (hK : Untouched s₀ s) : Untouched s₀ (sendVarric typ ch payload s) := by
  unfold sendVarric
  try dsimp only
  repeat' first
    | with_reducible assumption
    | with_reducible exact Untouched.refl _
    | intro _
    | dsimp only
    | split
    | simp (disch := rfl) only [Untouched.set]
    | simp (disch := rfl) only [Untouched.set]

theorem sendFrames_still {s₀ : State} (typ : Nat) (n : Nat) {s : State} (hK : Untouched s₀ s) : Untouched s₀ (sendFrames typ n s) := by
  unfold sendFrames
  try dsimp only
  repeat' first
    | with_reducible assumption
    | with_reducible exact Untouched.refl _
    | intro _
    | dsimp only
    | with_reducible apply sendVarric_still
    | with_reducible apply foldS_still
    | split
    | simp (disch := rfl) only [Untouched.set]
    | simp (disch := rfl) only [Untouched.set]

theorem sendXfeed_still {s₀ : State} (p : Nat) (bs : List Byte) {s : State} (hK : Untouched s₀ s) : Untouched s₀ (sendXfeed p bs s) := by
  unfold sendXfeed
  try dsimp only
  repeat' first
    | with_reducible assumption
    | with_reducible exact Untouched.refl _
    | intro _
    | dsimp only
    | with_reducible apply sendVarric_still
    | with_reducible apply foldS_still
    | split
    | simp (disch := rfl) only [Untouched.set]

theorem sendDecision_still {s₀ : State} {s : State} (hK : Untouched s₀ s) : Untouched s₀ (sendDecision s) := by
  unfold sendDecision
  try dsimp only
  repeat' first
    | with_reducible assumption
    | with_reducible exact Untouched.refl _
    | intro _
    | dsimp only
    | with_reducible apply sendFrames_still
    | split

theorem huntLane_still {s₀ : State} (k : Nat) {s : State} (hK : Untouched s₀ s) : Untouched s₀ (huntLane k s) := by
  unfold huntLane
  try dsimp only
  repeat' first
    | with_reducible assumption
    | with_reducible exact Untouched.refl _
    | intro _
    | dsimp only
    | with_reducible apply updPort_still
    | split
    | simp (disch := rfl) only [Untouched.set]

theorem alignSettle_still {s₀ : State} {s : State} (hK : Untouched s₀ s) : Untouched s₀ (alignSettle s) := by
  unfold alignSettle
  try dsimp only
  repeat' first
    | with_reducible assumption
    | simp (disch := rfl) only [Untouched.set]

theorem updChan_still {s₀ : State} (k : Nat) (f : Chan → Chan) {s : State} (hK : Untouched s₀ s) : Untouched s₀ (updChan k f s) := by
  unfold updChan
  try dsimp only
  repeat' first
    | with_reducible assumption
    | simp (disch := rfl) only [Untouched.set]

theorem setRaw_still {s₀ : State} (addr : Nat) (b : Nat) (v : Bool) {s : State} (hK : Untouched s₀ s) : Untouched s₀ (setRaw addr b v s) := by
  unfold setRaw
  try dsimp only
  repeat' first
    | with_reducible assumption
    | split
    | simp (disch := rfl) only [Untouched.set]

theorem updMon_still {s₀ : State} (addr : Nat) (f : Mon → Mon) {s : State} (hK : Untouched s₀ s) : Untouched s₀ (updMon addr f s) := by
  unfold updMon
  try dsimp only
  repeat' first
    | with_reducible assumption
    | simp (disch := rfl) only [Untouched.set]

theorem evtDefect_still {s₀ : State} (addr : Nat) (b : Nat) (rise : Bool) (fail : Bool) {s : State} (hK : Untouched s₀ s) : Untouched s₀ (evtDefect addr b rise fail s) := by
  unfold evtDefect
  try dsimp only
  repeat' first
    | with_reducible assumption
    | with_reducible apply raise_still

theorem setFailure_still {s₀ : State} (addr : Nat) (b : Nat) (v : Bool) {s : State} (hK : Untouched s₀ s) : Untouched s₀ (setFailure addr b v s) := by
  unfold setFailure
  try dsimp only
  repeat' first
    | with_reducible assumption
    | with_reducible apply updMon_still
    | with_reducible apply evtDefect_still
    | split

theorem bitStep_still {s₀ : State} (addr : Nat) (b : Nat) (d : Bool) (r : Bool) {s : State} (hK : Untouched s₀ s) : Untouched s₀ (bitStep addr b d r s) := by
  unfold bitStep
  try dsimp only
  repeat' first
    | with_reducible assumption
    | with_reducible exact Untouched.refl _
    | intro _
    | dsimp only
    | with_reducible apply updMon_still
    | with_reducible apply evtDefect_still
    | with_reducible apply setFailure_still
    | split
    | simp (disch := rfl) only [Untouched.set]

theorem pointStep_still {s₀ : State} (addr : Nat) (d : BitVec 20) (r : BitVec 20) (cov : Bool) {s : State} (hK : Untouched s₀ s) : Untouched s₀ (pointStep addr d r cov s) := by
  unfold pointStep
  try dsimp only
  repeat' first
    | with_reducible assumption
    | with_reducible exact Untouched.refl _
    | intro _
    | with_reducible apply updMon_still
    | with_reducible apply bitStep_still
    | with_reducible apply foldS_still

theorem defectSettle_still {s₀ : State} {s : State} (hK : Untouched s₀ s) : Untouched s₀ (defectSettle s) := by
  unfold defectSettle
  try dsimp only
  repeat' first
    | with_reducible assumption
    | with_reducible exact Untouched.refl _
    | intro _
    | with_reducible apply pointStep_still
    | with_reducible apply foldl_still

theorem ssfSettle_still {s₀ : State} {s : State} (hK : Untouched s₀ s) : Untouched s₀ (ssfSettle s) := by
  unfold ssfSettle
  try dsimp only
  repeat' first
    | with_reducible assumption
    | simp (disch := rfl) only [Untouched.set]

theorem evtProtSwitch_still {s₀ : State} (n : Nat) (g : Prot) {s : State} (hK : Untouched s₀ s) : Untouched s₀ (evtProtSwitch n g s) := by
  unfold evtProtSwitch
  try dsimp only
  repeat' first
    | with_reducible assumption
    | with_reducible apply raise_still

theorem evtProtFop_still {s₀ : State} (n : Nat) (pm : Bool) (nr : Bool) (rise : Bool) {s : State} (hK : Untouched s₀ s) : Untouched s₀ (evtProtFop n pm nr rise s) := by
  unfold evtProtFop
  try dsimp only
  repeat' first
    | with_reducible assumption
    | with_reducible apply raise_still

theorem protConns_still {s₀ : State} (g : Prot) (g' : Prot) {s : State} (hK : Untouched s₀ s) : Untouched s₀ (protConns g g' s) := by
  unfold protConns
  try dsimp only
  repeat' first
    | with_reducible assumption
    | with_reducible apply updChan_still
    | split

theorem protSelect_still {s₀ : State} (n : Nat) {s : State} (hK : Untouched s₀ s) : Untouched s₀ (protSelect n s) := by
  unfold protSelect
  try dsimp only
  repeat' first
    | with_reducible assumption
    | with_reducible exact Untouched.refl _
    | intro _
    | dsimp only
    | with_reducible apply sendDecision_still
    | with_reducible apply evtProtSwitch_still
    | with_reducible apply evtProtFop_still
    | with_reducible apply protConns_still
    | split
    | simp (disch := rfl) only [Untouched.set]

theorem protTrigger_still {s₀ : State} (n : Nat) (k : Nat) (v : Bool) {s : State} (hK : Untouched s₀ s) : Untouched s₀ (protTrigger n k v s) := by
  unfold protTrigger
  try dsimp only
  repeat' first
    | with_reducible assumption
    | split
    | simp (disch := rfl) only [Untouched.set]

theorem protSettle_still {s₀ : State} {s : State} (hK : Untouched s₀ s) : Untouched s₀ (protSettle s) := by
  unfold protSettle
  try dsimp only
  repeat' first
    | with_reducible assumption
    | with_reducible exact Untouched.refl _
    | intro _
    | with_reducible apply protSelect_still
    | with_reducible apply protTrigger_still
    | with_reducible apply foldS_still
    | split

theorem apsAccept_still {s₀ : State} (n : Nat) (rx : Nat) {s : State} (hK : Untouched s₀ s) : Untouched s₀ (apsAccept n rx s) := by
  unfold apsAccept
  try dsimp only
  repeat' first
    | with_reducible assumption
    | with_reducible exact Untouched.refl _
    | intro _
    | dsimp only
    | with_reducible apply evtProtFop_still
    | with_reducible apply protSelect_still
    | split
    | simp (disch := rfl) only [Untouched.set]

theorem updOh_still {s₀ : State} (key : Nat) (f : Oh → Oh) {s : State} (hK : Untouched s₀ s) : Untouched s₀ (updOh key f s) := by
  unfold updOh
  try dsimp only
  repeat' first
    | with_reducible assumption
    | simp (disch := rfl) only [Untouched.set]

theorem accField_still {s₀ : State} (key : Nat) (lvl : Nat) (field : Nat) (n : Nat) (v : Nat) {s : State} (hK : Untouched s₀ s) : Untouched s₀ (accField key lvl field n v s) := by
  unfold accField
  try dsimp only
  repeat' first
    | with_reducible assumption
    | with_reducible apply updOh_still

theorem msiSettle_still {s₀ : State} (k' : Nat) {s : State} (hK : Untouched s₀ s) : Untouched s₀ (msiSettle k' s) := by
  unfold msiSettle
  try dsimp only
  repeat' first
    | with_reducible assumption
    | with_reducible exact Untouched.refl _
    | intro _
    | with_reducible apply updChan_still
    | with_reducible apply foldS_still
    | split

theorem rxTrace_still {s₀ : State} (key : Nat) (addr : Nat) (lvl : Nat) (otn : Bool) (f : Trace → Trace) {s : State} (hK : Untouched s₀ s) : Untouched s₀ (rxTrace key addr lvl otn f s) := by
  unfold rxTrace
  try dsimp only
  repeat' first
    | with_reducible assumption
    | with_reducible apply setRaw_still
    | with_reducible apply updOh_still

theorem countBlock_still {s₀ : State} (addr : Nat) (v : Option Nat) (rei : Nat) {s : State} (hK : Untouched s₀ s) : Untouched s₀ (countBlock addr v rei s) := by
  unfold countBlock
  try dsimp only
  repeat' first
    | with_reducible assumption
    | with_reducible apply updMon_still

theorem backAdd_still {s₀ : State} (key : Nat) (lvl : Nat) (v : Option Nat) {s : State} (hK : Untouched s₀ s) : Untouched s₀ (backAdd key lvl v s) := by
  unfold backAdd
  try dsimp only
  repeat' first
    | with_reducible assumption
    | with_reducible apply updOh_still

theorem backTake_still {s₀ : State} (key : Nat) (lvl : Nat) (cap : Nat) {s : State} (hK : Untouched s₀ s) : Untouched s₀ (backTake key lvl cap s).2 := by
  unfold backTake
  try dsimp only
  repeat' first
    | with_reducible assumption
    | with_reducible apply updOh_still

theorem rxLevelFields_still {s₀ : State} (key : Nat) (addr : Nat) (lvl : Nat) (base : Nat) (sm : Bool) (f : RxFrame) {s : State} (hK : Untouched s₀ s) : Untouched s₀ (rxLevelFields key addr lvl base sm f s) := by
  unfold rxLevelFields
  try dsimp only
  repeat' first
    | with_reducible assumption
    | with_reducible exact Untouched.refl _
    | intro _
    | dsimp only
    | with_reducible apply setRaw_still
    | with_reducible apply accField_still
    | with_reducible apply rxTrace_still
    | split
    | simp (disch := rfl) only [Untouched.set]

theorem rxOtnLevel_still {s₀ : State} (key : Nat) (addr : Nat) (addr0 : Nat) (lvl : Nat) (base : Nat) (inst : Nat) (sm : Bool) (term : Bool) (live : Bool) (oof : Bool) (f : RxFrame) {s : State} (hK : Untouched s₀ s) : Untouched s₀ (rxOtnLevel key addr addr0 lvl base inst sm term live oof f s) := by
  unfold rxOtnLevel
  try dsimp only
  repeat' first
    | with_reducible assumption
    | with_reducible exact Untouched.refl _
    | intro _
    | dsimp only
    | with_reducible apply countBlock_still
    | with_reducible apply backAdd_still
    | with_reducible apply rxLevelFields_still
    | split

theorem rxCapture_still {s₀ : State} (key : Nat) (live : Bool) (f : RxFrame) {s : State} (hK : Untouched s₀ s) : Untouched s₀ (rxCapture key live f s) := by
  unfold rxCapture
  try dsimp only
  repeat' first
    | with_reducible assumption
    | with_reducible apply updOh_still

theorem rxPointer_still {s₀ : State} (k : Nat) (f : RxFrame) {s : State} (hK : Untouched s₀ s) : Untouched s₀ (rxPointer k f s) := by
  unfold rxPointer
  try dsimp only
  repeat' first
    | with_reducible assumption
    | with_reducible apply updChan_still
    | with_reducible apply setRaw_still
    | split

theorem ohSettle_still {s₀ : State} {s : State} (hK : Untouched s₀ s) : Untouched s₀ (ohSettle s) := by
  unfold ohSettle
  try dsimp only
  repeat' first
    | with_reducible assumption
    | simp (disch := rfl) only [Untouched.set]

theorem rxOtu_still {s₀ : State} (p : Nat) (inst : Nat) (live : Bool) (oof : Bool) (f : RxFrame) {s : State} (hK : Untouched s₀ s) : Untouched s₀ (rxOtu p inst live oof f s) := by
  unfold rxOtu
  try dsimp only
  repeat' first
    | with_reducible assumption
    | with_reducible exact Untouched.refl _
    | intro _
    | dsimp only
    | with_reducible apply rxOtnLevel_still
    | with_reducible apply rxCapture_still
    | split

theorem weltTally_still {s₀ : State} (k : Nat) (m : Nat) (v : Option Nat) {s : State} (hK : Untouched s₀ s) : Untouched s₀ (weltTally k m v s) := by
  unfold weltTally
  try dsimp only
  repeat' first
    | with_reducible assumption
    | with_reducible exact Untouched.refl _
    | intro _
    | dsimp only
    | split
    | simp (disch := rfl) only [Untouched.set]

theorem rxOdu_still {s₀ : State} (k : Nat) (inst : Nat) (live : Bool) (oof : Bool) (f : RxFrame) {s : State} (hK : Untouched s₀ s) : Untouched s₀ (rxOdu k inst live oof f s) := by
  unfold rxOdu
  try dsimp only
  repeat' first
    | with_reducible assumption
    | with_reducible exact Untouched.refl _
    | intro _
    | dsimp only
    | with_reducible apply setRaw_still
    | with_reducible apply updOh_still
    | with_reducible apply msiSettle_still
    | with_reducible apply rxOtnLevel_still
    | with_reducible apply rxCapture_still
    | with_reducible apply weltTally_still
    | with_reducible apply foldS_still
    | split
    | simp (disch := rfl) only [Untouched.set]

theorem rxMs_still {s₀ : State} (p : Nat) (n : Nat) (m : Nat) (v2 : Option Nat) (live : Bool) (f : RxFrame) {s : State} (hK : Untouched s₀ s) : Untouched s₀ (rxMs p n m v2 live f s) := by
  unfold rxMs
  try dsimp only
  repeat' first
    | with_reducible assumption
    | with_reducible exact Untouched.refl _
    | intro _
    | dsimp only
    | with_reducible apply setRaw_still
    | with_reducible apply accField_still
    | with_reducible apply countBlock_still
    | with_reducible apply backAdd_still
    | split
    | simp (disch := rfl) only [Untouched.set]

theorem rxStm_still {s₀ : State} (p : Nat) (live : Bool) (f : RxFrame) {s : State} (hK : Untouched s₀ s) : Untouched s₀ (rxStm p live f s) := by
  unfold rxStm
  try dsimp only
  repeat' first
    | with_reducible assumption
    | with_reducible exact Untouched.refl _
    | intro _
    | dsimp only
    | with_reducible apply updOh_still
    | with_reducible apply rxTrace_still
    | with_reducible apply countBlock_still
    | with_reducible apply rxCapture_still
    | with_reducible apply rxMs_still
    | split
    | simp (disch := rfl) only [Untouched.set]

theorem rxVc_still {s₀ : State} (k : Nat) (live : Bool) (f : RxFrame) {s : State} (hK : Untouched s₀ s) : Untouched s₀ (rxVc k live f s) := by
  unfold rxVc
  try dsimp only
  repeat' first
    | with_reducible assumption
    | with_reducible exact Untouched.refl _
    | intro _
    | dsimp only
    | with_reducible apply setRaw_still
    | with_reducible apply updOh_still
    | with_reducible apply accField_still
    | with_reducible apply rxTrace_still
    | with_reducible apply countBlock_still
    | with_reducible apply backAdd_still
    | with_reducible apply rxCapture_still
    | with_reducible apply rxPointer_still
    | split
    | simp (disch := rfl) only [Untouched.set]

theorem replSettle_still {s₀ : State} {s : State} (hK : Untouched s₀ s) : Untouched s₀ (replSettle s) := by
  unfold replSettle
  try dsimp only
  repeat' first
    | with_reducible assumption
    | with_reducible exact Untouched.refl _
    | intro _
    | with_reducible apply updOh_still
    | with_reducible apply foldS_still

theorem txEnd_still {s₀ : State} (key : Nat) (bytes : Table Byte) (f : TxFrame) {s : State} (hK : Untouched s₀ s) : Untouched s₀ (txEnd key bytes f s) := by
  unfold txEnd
  try dsimp only
  repeat' first
    | with_reducible assumption
    | with_reducible apply updOh_still

theorem txOtu_still {s₀ : State} (p : Nat) (inst : Nat) (own : Table Byte) (f : TxFrame) {s : State} (hK : Untouched s₀ s) : Untouched s₀ (txOtu p inst own f s) := by
  unfold txOtu
  try dsimp only
  repeat' first
    | with_reducible assumption
    | with_reducible exact Untouched.refl _
    | intro _
    | dsimp only
    | with_reducible apply updOh_still
    | with_reducible apply backTake_still
    | with_reducible apply txEnd_still
    | split
    | simp (disch := rfl) only [Untouched.set]

theorem txLevel_still {s₀ : State} (k : Nat) (inst : Nat) (lvl : Nat) (w : List Word) (f : TxFrame) {s : State} (hK : Untouched s₀ s) : Untouched s₀ (txLevel k inst lvl w f s).2 := by
  unfold txLevel
  try dsimp only
  repeat' first
    | with_reducible assumption
    | dsimp only
    | with_reducible apply backTake_still
    | split

theorem txOdu_still {s₀ : State} (k : Nat) (inst : Nat) (own : Table Byte) (exp : Option (Byte × Byte)) (f : TxFrame) {s : State} (hK : Untouched s₀ s) :
    Untouched s₀ (txOdu k inst own exp f s) := by
  unfold txOdu
  split
  · exact hK
  · dsimp only
    refine txEnd_still _ _ _ ?_
    split
    · exact updOh_still _ _ hK
    · exact foldPair_still (updOh_still _ _ hK) (fun b a => txLevel_still _ _ _ _ _ (Untouched.refl b.2))

theorem txStm_still {s₀ : State} (p : Nat) (own : Table Byte) (f : TxFrame) {s : State} (hK : Untouched s₀ s) : Untouched s₀ (txStm p own f s) := by
  unfold txStm
  try dsimp only
  repeat' first
    | with_reducible assumption
    | with_reducible exact Untouched.refl _
    | intro _
    | dsimp only
    | with_reducible apply updOh_still
    | with_reducible apply backTake_still
    | with_reducible apply txEnd_still
    | split
    | simp (disch := rfl) only [Untouched.set]

theorem txVc_still {s₀ : State} (k : Nat) (h4 : Byte) (f : TxFrame) {s : State} (hK : Untouched s₀ s) : Untouched s₀ (txVc k h4 f s) := by
  unfold txVc
  try dsimp only
  repeat' first
    | with_reducible assumption
    | with_reducible exact Untouched.refl _
    | intro _
    | dsimp only
    | with_reducible apply backTake_still
    | with_reducible apply txEnd_still
    | split
    | simp (disch := rfl) only [Untouched.set]

theorem updQ_still {s₀ : State} (n : Nat) (f : Queue → Queue) {s : State} (hK : Untouched s₀ s) : Untouched s₀ (updQ n f s) := by
  unfold updQ
  try dsimp only
  repeat' first
    | with_reducible assumption
    | simp (disch := rfl) only [Untouched.set]

theorem bumpQ_still {s₀ : State} (n : Nat) (c : QCount) {s : State} (hK : Untouched s₀ s) : Untouched s₀ (bumpQ n c s) := by
  unfold bumpQ
  try dsimp only
  repeat' first
    | with_reducible assumption
    | with_reducible apply updQ_still
    | split
    | simp (disch := rfl) only [Untouched.set]

theorem freeCells_still {s₀ : State} (cs : List Nat) {s : State} (hK : Untouched s₀ s) : Untouched s₀ (freeCells cs s) := by
  unfold freeCells
  try dsimp only
  repeat' first
    | with_reducible assumption
    | simp (disch := rfl) only [Untouched.set]

theorem pushFrame_still {s₀ : State} (sl : Nat) (key : Nat) (f : HagilFrame) {s : State} (hK : Untouched s₀ s) : Untouched s₀ (pushFrame sl key f s) := by
  unfold pushFrame
  try dsimp only
  repeat' first
    | with_reducible assumption
    | simp (disch := rfl) only [Untouched.set]

theorem queueFrames_still {s₀ : State} (n : Nat) (q : Queue) (typ : Byte) (fs : List (Byte × List Byte)) {s : State} (hK : Untouched s₀ s) : Untouched s₀ (queueFrames n q typ fs s) := by
  unfold queueFrames
  try dsimp only
  repeat' first
    | with_reducible assumption
    | with_reducible exact Untouched.refl _
    | intro _
    | with_reducible apply updQ_still
    | with_reducible apply pushFrame_still
    | with_reducible apply foldS_still
    | split

theorem queueToFabric_still {s₀ : State} (n : Nat) (bs : List Byte) (eop : Bool) (abort : Bool) {s : State} (hK : Untouched s₀ s) : Untouched s₀ (queueToFabric n bs eop abort s) := by
  unfold queueToFabric
  try dsimp only
  repeat' first
    | with_reducible assumption
    | with_reducible apply updQ_still
    | with_reducible apply queueFrames_still
    | split

theorem flushQ_still {s₀ : State} (n : Nat) {s : State} (hK : Untouched s₀ s) : Untouched s₀ (flushQ n s) := by
  unfold flushQ
  try dsimp only
  repeat' first
    | with_reducible assumption
    | with_reducible exact Untouched.refl _
    | intro _
    | dsimp only
    | with_reducible apply updChan_still
    | with_reducible apply updQ_still
    | with_reducible apply bumpQ_still
    | with_reducible apply freeCells_still
    | with_reducible apply queueToFabric_still
    | split
    | simp (disch := rfl) only [Untouched.set]

theorem evtQueueLoss_still {s₀ : State} (n : Nat) (owner : Nat) (reason : Nat) (pc : Nat) (cells : Nat) (items : Nat) {s : State} (hK : Untouched s₀ s) : Untouched s₀ (evtQueueLoss n owner reason pc cells items s) := by
  unfold evtQueueLoss
  try dsimp only
  repeat' first
    | with_reducible assumption
    | with_reducible apply raise_still

theorem takeFlush_still {s₀ : State} (n : Nat) {s : State} (hK : Untouched s₀ s) : Untouched s₀ (takeFlush n s) := by
  unfold takeFlush
  try dsimp only
  repeat' first
    | with_reducible assumption
    | with_reducible exact Untouched.refl _
    | intro _
    | dsimp only
    | with_reducible apply flushQ_still
    | with_reducible apply evtQueueLoss_still
    | split
    | simp (disch := rfl) only [Untouched.set]

theorem flushPending_still {s₀ : State} (n : Nat) {s : State} (hK : Untouched s₀ s) : Untouched s₀ (flushPending n s) := by
  unfold flushPending
  try dsimp only
  repeat' first
    | with_reducible assumption
    | with_reducible exact Untouched.refl _
    | intro _
    | dsimp only
    | with_reducible apply takeFlush_still
    | split
    | simp (disch := rfl) only [Untouched.set]

theorem flushFor_still {s₀ : State} (n : Nat) (why : Nat × Nat) {s : State} (hK : Untouched s₀ s) : Untouched s₀ (flushFor n why s) := by
  unfold flushFor
  try dsimp only
  repeat' first
    | with_reducible assumption
    | with_reducible exact Untouched.refl _
    | intro _
    | dsimp only
    | with_reducible apply updQ_still
    | with_reducible apply flushPending_still
    | split
    | simp (disch := rfl) only [Untouched.set]

theorem flushRetired_still {s₀ : State} (n : Nat) (r : Retiring) {s : State} (hK : Untouched s₀ s) : Untouched s₀ (flushRetired n r s) := by
  unfold flushRetired
  try dsimp only
  repeat' first
    | with_reducible assumption
    | with_reducible exact Untouched.refl _
    | intro _
    | dsimp only
    | with_reducible apply flushFor_still
    | split

theorem flushDesc_still {s₀ : State} (n : Nat) (c : Nat) {s : State} (hK : Untouched s₀ s) : Untouched s₀ (flushDesc n c s) := by
  unfold flushDesc
  try dsimp only
  repeat' first
    | with_reducible assumption
    | with_reducible exact Untouched.refl _
    | intro _
    | dsimp only
    | with_reducible apply flushFor_still
    | split
    | simp (disch := rfl) only [Untouched.set]

theorem rewindQ_still {s₀ : State} (n : Nat) {s : State} (hK : Untouched s₀ s) : Untouched s₀ (rewindQ n s) := by
  unfold rewindQ
  try dsimp only
  repeat' first
    | with_reducible assumption
    | with_reducible exact Untouched.refl _
    | intro _
    | dsimp only
    | with_reducible apply updQ_still
    | with_reducible apply freeCells_still
    | with_reducible apply flushRetired_still
    | with_reducible apply flushDesc_still
    | split
    | simp (disch := rfl) only [Untouched.set]

theorem rewindCount_still {s₀ : State} (n : Nat) (c : QCount) {s : State} (hK : Untouched s₀ s) : Untouched s₀ (rewindCount n c s) := by
  unfold rewindCount
  try dsimp only
  repeat' first
    | with_reducible assumption
    | with_reducible apply bumpQ_still
    | with_reducible apply rewindQ_still
    | split

theorem fillMeter_still {s₀ : State} (n : Nat) {s : State} (hK : Untouched s₀ s) : Untouched s₀ (fillMeter n s) := by
  unfold fillMeter
  try dsimp only
  repeat' first
    | with_reducible assumption
    | with_reducible exact Untouched.refl _
    | intro _
    | dsimp only
    | with_reducible apply updQ_still
    | split
    | simp (disch := rfl) only [Untouched.set]

theorem meterSettle_still {s₀ : State} {s : State} (hK : Untouched s₀ s) : Untouched s₀ (meterSettle s) := by
  unfold meterSettle
  try dsimp only
  repeat' first
    | with_reducible assumption
    | with_reducible exact Untouched.refl _
    | intro _
    | dsimp only
    | with_reducible apply fillMeter_still
    | with_reducible apply foldS_still
    | split
    | simp (disch := rfl) only [Untouched.set]

theorem writerGone_still {s₀ : State} (n : Nat) {s : State} (hK : Untouched s₀ s) : Untouched s₀ (writerGone n s) := by
  unfold writerGone
  try dsimp only
  repeat' first
    | with_reducible assumption
    | with_reducible exact Untouched.refl _
    | intro _
    | dsimp only
    | with_reducible apply updQ_still
    | with_reducible apply rewindCount_still
    | split
    | simp (disch := rfl) only [Untouched.set]

theorem drrPick_still {s₀ : State} (fuel : Nat) (k : Nat) {s : State} (hK : Untouched s₀ s) : Untouched s₀ (drrPick fuel k s).2 := by
  induction fuel generalizing s with
  | zero => exact hK
  | succ f ih =>
    unfold drrPick
    split
    · exact hK
    · split
      · simpa (disch := rfl) only [Untouched.set] using hK
      · split
        · exact hK
        · exact ih (updQ_still _ _ (by simpa (disch := rfl) only [Untouched.set] using hK))

theorem popCell_still {s₀ : State} (n : Nat) {s : State} (hK : Untouched s₀ s) : Untouched s₀ (popCell n s) := by
  unfold popCell
  try dsimp only
  repeat' first
    | with_reducible assumption
    | with_reducible apply updQ_still
    | with_reducible apply freeCells_still
    | split

theorem ueSeen_still {s₀ : State} (c : Nat) {s : State} (hK : Untouched s₀ s) : Untouched s₀ (ueSeen c s) := by
  unfold ueSeen
  try dsimp only
  repeat' first
    | with_reducible assumption
    | with_reducible exact Untouched.refl _
    | intro _
    | dsimp only
    | split
    | simp (disch := rfl) only [Untouched.set]

theorem readPacketCell_still {s₀ : State} (n : Nat) (ue : Bool) {s : State} (hK : Untouched s₀ s) : Untouched s₀ (readPacketCell n ue s) := by
  unfold readPacketCell
  try dsimp only
  repeat' first
    | with_reducible assumption
    | with_reducible exact Untouched.refl _
    | intro _
    | dsimp only
    | with_reducible apply updChan_still
    | with_reducible apply updQ_still
    | with_reducible apply bumpQ_still
    | with_reducible apply queueToFabric_still
    | with_reducible apply flushRetired_still
    | with_reducible apply flushDesc_still
    | with_reducible apply popCell_still
    | with_reducible apply ueSeen_still
    | split
    | simp (disch := rfl) only [Untouched.set]

theorem leafTakes_still {s₀ : State} (k : Nat) (bs : List Byte) {s : State} (hK : Untouched s₀ s) : Untouched s₀ (leafTakes k bs s) := by
  unfold leafTakes
  try dsimp only
  repeat' first
    | with_reducible assumption
    | with_reducible exact Untouched.refl _
    | intro _
    | dsimp only
    | with_reducible apply updChan_still
    | split
    | simp (disch := rfl) only [Untouched.set]

theorem readStreamCell_still {s₀ : State} (n : Nat) (ue : Bool) {s : State} (hK : Untouched s₀ s) : Untouched s₀ (readStreamCell n ue s) := by
  unfold readStreamCell
  try dsimp only
  repeat' first
    | with_reducible assumption
    | with_reducible exact Untouched.refl _
    | intro _
    | dsimp only
    | with_reducible apply updChan_still
    | with_reducible apply updQ_still
    | with_reducible apply bumpQ_still
    | with_reducible apply queueToFabric_still
    | with_reducible apply flushRetired_still
    | with_reducible apply flushDesc_still
    | with_reducible apply popCell_still
    | with_reducible apply ueSeen_still
    | with_reducible apply leafTakes_still
    | split
    | simp (disch := rfl) only [Untouched.set]

theorem schedPick_still {s₀ : State} (k : Nat) {s : State} (hK : Untouched s₀ s) : Untouched s₀ (schedPick k s).2 := by
  unfold schedPick
  try dsimp only
  repeat' first
    | with_reducible assumption
    | with_reducible apply drrPick_still
    | split

/-- Reading changes nothing beyond the signal path where no cell proves uncorrectable. -/
theorem engineErrors_nil (cs : List Nat) (s : State) : engineErrors cs [] s = s := by
  unfold engineErrors
  rw [List.filter_eq_nil_iff.2 (by simp)]
  rfl

/-- No cell proves uncorrectable. -/
theorem engineRead_still {s₀ : State} (k : Nat) (n : Nat) {s : State} (hK : Untouched s₀ s) : Untouched s₀ (engineRead k n [] s).2 := by
  unfold engineRead
  try dsimp only
  simp only [engineErrors_nil]
  repeat' first
    | with_reducible assumption
    | with_reducible exact Untouched.refl _
    | intro _
    | dsimp only
    | with_reducible apply updQ_still
    | with_reducible apply bumpQ_still
    | with_reducible apply freeCells_still
    | with_reducible apply flushRetired_still
    | with_reducible apply flushDesc_still
    | with_reducible apply foldS_still
    | split
    | simp (disch := rfl) only [Untouched.set]

theorem dropQueue_still {s₀ : State} (n : Nat) {s : State} (hK : Untouched s₀ s) : Untouched s₀ (dropQueue n s) := by
  unfold dropQueue
  try dsimp only
  repeat' first
    | with_reducible assumption
    | with_reducible apply freeCells_still
    | split
    | simp (disch := rfl) only [Untouched.set]

theorem leafFrames_still {s₀ : State} (k : Nat) (typ : Byte) (fs : List (Byte × List Byte)) {s : State} (hK : Untouched s₀ s) : Untouched s₀ (leafFrames k typ fs s) := by
  unfold leafFrames
  try dsimp only
  repeat' first
    | with_reducible assumption
    | with_reducible exact Untouched.refl _
    | intro _
    | with_reducible apply updChan_still
    | with_reducible apply pushFrame_still
    | with_reducible apply foldS_still
    | split

theorem leafSend_still {s₀ : State} (k : Nat) (bs : List Byte) (eop : Bool) (bad : Bool) {s : State} (hK : Untouched s₀ s) : Untouched s₀ (leafSend k bs eop bad s) := by
  unfold leafSend
  try dsimp only
  repeat' first
    | with_reducible assumption
    | with_reducible exact Untouched.refl _
    | intro _
    | dsimp only
    | with_reducible apply sendXfeed_still
    | with_reducible apply updChan_still
    | with_reducible apply leafFrames_still
    | with_reducible apply foldS_still
    | split
    | simp (disch := rfl) only [Untouched.set]

theorem chanToFabric_still {s₀ : State} (k : Nat) (bs : List Byte) (eop : Bool) (bad : Bool) {s : State} (hK : Untouched s₀ s) : Untouched s₀ (chanToFabric k bs eop bad s) := by
  unfold chanToFabric
  try dsimp only
  repeat' first
    | with_reducible assumption
    | with_reducible exact Untouched.refl _
    | intro _
    | dsimp only
    | with_reducible apply updChan_still
    | with_reducible apply leafSend_still
    | split
    | simp (disch := rfl) only [Untouched.set]

theorem leafNext_still {s₀ : State} (k : Nat) (f : Pending → Pending) {s : State} (hK : Untouched s₀ s) : Untouched s₀ (leafNext k f s) := by
  unfold leafNext
  try dsimp only
  repeat' first
    | with_reducible assumption
    | with_reducible exact Untouched.refl _
    | intro _
    | dsimp only
    | with_reducible apply updChan_still
    | split
    | simp (disch := rfl) only [Untouched.set]

theorem readSync_still {s₀ : State} {s : State} (hK : Untouched s₀ s) : Untouched s₀ (readSync s) := by
  unfold readSync
  try dsimp only
  repeat' first
    | with_reducible assumption
    | with_reducible exact Untouched.refl _
    | intro _
    | dsimp only
    | split
    | simp (disch := rfl) only [Untouched.set]

theorem leafSettle_still {s₀ : State} {s : State} (hK : Untouched s₀ s) : Untouched s₀ (leafSettle s) := by
  unfold leafSettle
  try dsimp only
  repeat' first
    | with_reducible assumption
    | with_reducible exact Untouched.refl _
    | intro _
    | dsimp only
    | with_reducible apply readSync_still
    | split
    | simp (disch := rfl) only [Untouched.set]

theorem connectFabric_still {s₀ : State} (k : Nat) (f : Nat) {s : State} (hK : Untouched s₀ s) : Untouched s₀ (connectFabric k f s) := by
  unfold connectFabric
  try dsimp only
  repeat' first
    | with_reducible assumption
    | with_reducible exact Untouched.refl _
    | intro _
    | dsimp only
    | with_reducible apply leafNext_still
    | split

theorem connectHairpin_still {s₀ : State} (i : Nat) (e : Nat) {s : State} (hK : Untouched s₀ s) : Untouched s₀ (connectHairpin i e s) := by
  unfold connectHairpin
  try dsimp only
  repeat' first
    | with_reducible assumption
    | with_reducible exact Untouched.refl _
    | intro _
    | dsimp only
    | with_reducible apply leafNext_still
    | split

theorem connectQueue_still {s₀ : State} (k : Nat) (n : Nat) {s : State} (hK : Untouched s₀ s) : Untouched s₀ (connectQueue k n s) := by
  unfold connectQueue
  try dsimp only
  repeat' first
    | with_reducible assumption
    | with_reducible exact Untouched.refl _
    | intro _
    | dsimp only
    | with_reducible apply updQ_still
    | with_reducible apply leafNext_still
    | with_reducible apply readSync_still
    | split
    | simp (disch := rfl) only [Untouched.set]

theorem disconnect_still {s₀ : State} (k : Nat) (kind : Nat) (target : Nat) {s : State} (hK : Untouched s₀ s) : Untouched s₀ (disconnect k kind target s) := by
  unfold disconnect
  try dsimp only
  repeat' first
    | with_reducible assumption
    | with_reducible exact Untouched.refl _
    | intro _
    | dsimp only
    | with_reducible apply updQ_still
    | with_reducible apply writerGone_still
    | with_reducible apply leafNext_still
    | with_reducible apply readSync_still
    | split
    | simp (disch := rfl) only [Untouched.set]

theorem gfpDeliver_still {s₀ : State} (k : Nat) (pli : Nat) (f : GfpFrame) {s : State} (hK : Untouched s₀ s) : Untouched s₀ (gfpDeliver k pli f s) := by
  unfold gfpDeliver
  try dsimp only
  repeat' first
    | with_reducible assumption
    | with_reducible apply updChan_still
    | with_reducible apply chanToFabric_still
    | split

theorem rxJust_still {s₀ : State} (k : Nat) (inst : Nat) (f : RxFrame) {s : State} (hK : Untouched s₀ s) : Untouched s₀ (rxJust k inst f s) := by
  unfold rxJust
  try dsimp only
  repeat' first
    | with_reducible assumption
    | with_reducible exact Untouched.refl _
    | intro _
    | dsimp only
    | with_reducible apply updChan_still
    | split
    | simp (disch := rfl) only [Untouched.set]

theorem txJust_still {s₀ : State} (k : Nat) (inst : Nat) (mfas : Nat) (omfi : Nat) {s : State} (hK : Untouched s₀ s) : Untouched s₀ (txJust k inst mfas omfi s).2 := by
  unfold txJust
  try dsimp only
  repeat' first
    | with_reducible assumption
    | with_reducible exact Untouched.refl _
    | intro _
    | dsimp only
    | with_reducible apply updChan_still
    | split
    | simp (disch := rfl) only [Untouched.set]

theorem adaptClient_still {s₀ : State} (k : Nat) {s : State} (hK : Untouched s₀ s) : Untouched s₀ (adaptClient k s) := by
  unfold adaptClient
  try dsimp only
  repeat' first
    | with_reducible assumption
    | with_reducible exact Untouched.refl _
    | intro _
    | dsimp only
    | with_reducible apply updChan_still
    | split

theorem txPointer_still {s₀ : State} (k : Nat) {s : State} (hK : Untouched s₀ s) : Untouched s₀ (txPointer k s) := by
  unfold txPointer
  try dsimp only
  repeat' first
    | with_reducible assumption
    | with_reducible exact Untouched.refl _
    | intro _
    | dsimp only
    | with_reducible apply updChan_still
    | split
    | simp (disch := rfl) only [Untouched.set]

theorem lcasRx_still {s₀ : State} (k : Nat) (ctrl : Nat) (mst : Nat) (grp : Nat) (ack : Bool) {s : State} (hK : Untouched s₀ s) : Untouched s₀ (lcasRx k ctrl mst grp ack s) := by
  unfold lcasRx
  try dsimp only
  repeat' first
    | with_reducible assumption
    | with_reducible exact Untouched.refl _
    | intro _
    | dsimp only
    | with_reducible apply updChan_still
    | with_reducible apply foldS_still
    | split
    | simp (disch := rfl) only [Untouched.set]

theorem rxH4_still {s₀ : State} (k : Nat) (b : Byte) {s : State} (hK : Untouched s₀ s) : Untouched s₀ (rxH4 k b s) := by
  unfold rxH4
  try dsimp only
  repeat' first
    | with_reducible assumption
    | with_reducible exact Untouched.refl _
    | intro _
    | dsimp only
    | with_reducible apply updChan_still
    | with_reducible apply lcasRx_still
    | split
    | simp (disch := rfl) only [Untouched.set]

theorem rxVcoh_still {s₀ : State} (k : Nat) (f : RxFrame) {s : State} (hK : Untouched s₀ s) : Untouched s₀ (rxVcoh k f s) := by
  unfold rxVcoh
  try dsimp only
  repeat' first
    | with_reducible assumption
    | with_reducible exact Untouched.refl _
    | intro _
    | dsimp only
    | with_reducible apply updChan_still
    | with_reducible apply lcasRx_still
    | split
    | simp (disch := rfl) only [Untouched.set]

theorem rxVcat_still {s₀ : State} (k : Nat) (f : RxFrame) {s : State} (hK : Untouched s₀ s) : Untouched s₀ (rxVcat k f s) := by
  unfold rxVcat
  try dsimp only
  repeat' first
    | with_reducible assumption
    | with_reducible exact Untouched.refl _
    | intro _
    | dsimp only
    | with_reducible apply rxH4_still
    | with_reducible apply rxVcoh_still
    | split
    | simp (disch := rfl) only [Untouched.set]

theorem txH4_still {s₀ : State} (k : Nat) {s : State} (hK : Untouched s₀ s) : Untouched s₀ (txH4 k s).2 := by
  unfold txH4
  try dsimp only
  repeat' first
    | with_reducible assumption
    | with_reducible exact Untouched.refl _
    | intro _
    | dsimp only
    | with_reducible apply updChan_still
    | split
    | simp (disch := rfl) only [Untouched.set]

theorem txVcoh_still {s₀ : State} (k : Nat) (n : Nat) {s : State} (hK : Untouched s₀ s) : Untouched s₀ (txVcoh k n s).2 := by
  unfold txVcoh
  try dsimp only
  repeat' first
    | with_reducible assumption
    | with_reducible exact Untouched.refl _
    | intro _
    | dsimp only
    | with_reducible apply updChan_still
    | split
    | simp (disch := rfl) only [Untouched.set]

theorem lcasMember_still {s₀ : State} (g : Nat) (m : Nat) {s : State} (hK : Untouched s₀ s) : Untouched s₀ (lcasMember g m s) := by
  unfold lcasMember
  try dsimp only
  repeat' first
    | with_reducible assumption
    | with_reducible exact Untouched.refl _
    | intro _
    | dsimp only
    | with_reducible apply updChan_still
    | split
    | simp (disch := rfl) only [Untouched.set]

theorem lcasGroup_still {s₀ : State} (g : Nat) {s : State} (hK : Untouched s₀ s) : Untouched s₀ (lcasGroup g s) := by
  unfold lcasGroup
  try dsimp only
  repeat' first
    | with_reducible assumption
    | with_reducible exact Untouched.refl _
    | intro _
    | dsimp only
    | with_reducible apply sendDecision_still
    | with_reducible apply updChan_still
    | with_reducible apply lcasMember_still
    | with_reducible apply foldS_still
    | split
    | simp (disch := rfl) only [Untouched.set]

theorem lcasSettle_still {s₀ : State} {s : State} (hK : Untouched s₀ s) : Untouched s₀ (lcasSettle s) := by
  unfold lcasSettle
  try dsimp only
  repeat' first
    | with_reducible assumption
    | with_reducible exact Untouched.refl _
    | intro _
    | dsimp only
    | with_reducible apply lcasGroup_still
    | with_reducible apply foldS_still
    | split

theorem lineSend_still {s₀ : State} (p : Nat) (bytes : List Byte) {s : State} (hK : Untouched s₀ s) : Untouched s₀ (lineSend p bytes s) := by
  unfold lineSend
  try dsimp only
  repeat' first
    | with_reducible assumption
    | with_reducible exact Untouched.refl _
    | intro _
    | dsimp only
    | with_reducible apply updPort_still
    | with_reducible apply sendXfeed_still
    | split
    | simp (disch := rfl) only [Untouched.set]

theorem updSide_still {s₀ : State} (g : Nat) (tx : Bool) (f : Side → Side) {s : State} (hK : Untouched s₀ s) : Untouched s₀ (updSide g tx f s) := by
  unfold updSide
  try dsimp only
  repeat' first
    | with_reducible assumption
    | split
    | simp (disch := rfl) only [Untouched.set]

theorem updMember_still {s₀ : State} (g : Nat) (tx : Bool) (m : Nat) (f : Member → Member) {s : State} (hK : Untouched s₀ s) : Untouched s₀ (updMember g tx m f s) := by
  unfold updMember
  try dsimp only
  repeat' first
    | with_reducible assumption
    | with_reducible apply updSide_still

theorem updClient_still {s₀ : State} (g : Nat) (tx : Bool) (c : Nat) (f : Client → Client) {s : State} (hK : Untouched s₀ s) : Untouched s₀ (updClient g tx c f s) := by
  unfold updClient
  try dsimp only
  repeat' first
    | with_reducible assumption
    | with_reducible apply updSide_still

theorem evtBraidMember_still {s₀ : State} (g : Nat) (tx : Bool) (midx : Nat) (mstate : Nat) (fail : Bool) (status : Nat) (completes : Bool) {s : State} (hK : Untouched s₀ s) : Untouched s₀ (evtBraidMember g tx midx mstate fail status completes s) := by
  unfold evtBraidMember
  try dsimp only
  repeat' first
    | with_reducible assumption
    | with_reducible apply raise_still

theorem evtMemberNow_still {s₀ : State} (g : Nat) (tx : Bool) (midx : Nat) (status : Nat) (completes : Bool) {s : State} (hK : Untouched s₀ s) : Untouched s₀ (evtMemberNow g tx midx status completes s) := by
  unfold evtMemberNow
  try dsimp only
  repeat' first
    | with_reducible assumption
    | with_reducible apply evtBraidMember_still
    | split

theorem evtMemberGone_still {s₀ : State} (g : Nat) (tx : Bool) (m : Member) {s : State} (hK : Untouched s₀ s) : Untouched s₀ (evtMemberGone g tx m s) := by
  unfold evtMemberGone
  try dsimp only
  repeat' first
    | with_reducible assumption
    | with_reducible exact Untouched.refl _
    | intro _
    | dsimp only
    | with_reducible apply evtBraidMember_still
    | with_reducible apply foldS_still
    | split

theorem evtBraidSched_still {s₀ : State} (g : Nat) (tx : Bool) (n : Nat) {s : State} (hK : Untouched s₀ s) : Untouched s₀ (evtBraidSched g tx n s) := by
  unfold evtBraidSched
  try dsimp only
  repeat' first
    | with_reducible assumption
    | with_reducible exact Untouched.refl _
    | intro _
    | dsimp only
    | with_reducible apply raise_still
    | split
    | simp (disch := rfl) only [Untouched.set]

theorem flushMember_still {s₀ : State} (g : Nat) (m : Nat) {s : State} (hK : Untouched s₀ s) : Untouched s₀ (flushMember g m s) := by
  unfold flushMember
  try dsimp only
  repeat' first
    | with_reducible assumption
    | with_reducible apply flushQ_still
    | with_reducible apply updMember_still
    | split
    | simp (disch := rfl) only [Untouched.set]

theorem flushMembers_still {s₀ : State} (g : Nat) {s : State} (hK : Untouched s₀ s) : Untouched s₀ (flushMembers g s) := by
  unfold flushMembers
  try dsimp only
  repeat' first
    | with_reducible assumption
    | with_reducible exact Untouched.refl _
    | intro _
    | with_reducible apply flushMember_still
    | with_reducible apply foldS_still
    | split

theorem toAcquire_still {s₀ : State} (g : Nat) (count : Bool) {s : State} (hK : Untouched s₀ s) : Untouched s₀ (toAcquire g count s) := by
  unfold toAcquire
  try dsimp only
  repeat' first
    | with_reducible assumption
    | with_reducible exact Untouched.refl _
    | intro _
    | dsimp only
    | with_reducible apply logAdd_still
    | with_reducible apply updSide_still
    | with_reducible apply flushMembers_still
    | split
    | simp (disch := rfl) only [Untouched.set]

theorem onMemberFail_still {s₀ : State} (g : Nat) (m : Nat) {s : State} (hK : Untouched s₀ s) : Untouched s₀ (onMemberFail g m s) := by
  unfold onMemberFail
  try dsimp only
  repeat' first
    | with_reducible assumption
    | with_reducible apply updMember_still
    | with_reducible apply evtMemberNow_still
    | with_reducible apply flushMember_still
    | with_reducible apply toAcquire_still
    | split

theorem onMemberHealthy_still {s₀ : State} (g : Nat) (m : Nat) {s : State} (hK : Untouched s₀ s) : Untouched s₀ (onMemberHealthy g m s) := by
  unfold onMemberHealthy
  try dsimp only
  repeat' first
    | with_reducible assumption
    | with_reducible apply updMember_still
    | with_reducible apply evtMemberNow_still
    | split

theorem trySetS_still {s₀ : State} (g : Nat) {s : State} (hK : Untouched s₀ s) : Untouched s₀ (trySetS g s) := by
  unfold trySetS
  try dsimp only
  repeat' first
    | with_reducible assumption
    | with_reducible exact Untouched.refl _
    | intro _
    | dsimp only
    | with_reducible apply engineRead_still
    | with_reducible apply updSide_still
    | with_reducible apply foldS_still
    | with_reducible apply foldl_still
    | split
    | simp (disch := rfl) only [Untouched.set]

theorem braidRxSettle_still {s₀ : State} (g : Nat) {s : State} (hK : Untouched s₀ s) : Untouched s₀ (braidRxSettle g s) := by
  unfold braidRxSettle
  try dsimp only
  repeat' first
    | with_reducible assumption
    | with_reducible exact Untouched.refl _
    | intro _
    | dsimp only
    | with_reducible apply updSide_still
    | with_reducible apply updMember_still
    | with_reducible apply flushMembers_still
    | with_reducible apply toAcquire_still
    | with_reducible apply onMemberFail_still
    | with_reducible apply onMemberHealthy_still
    | with_reducible apply trySetS_still
    | with_reducible apply foldS_still
    | split
    | simp (disch := rfl) only [Untouched.set]

theorem txRequest_still {s₀ : State} (g : Nat) (m : Nat) (work : Bool) {s : State} (hK : Untouched s₀ s) : Untouched s₀ (txRequest g m work s) := by
  unfold txRequest
  try dsimp only
  repeat' first
    | with_reducible assumption
    | with_reducible apply updSide_still

theorem beginChange_still {s₀ : State} (g : Nat) (given : Option Nat) {s : State} (hK : Untouched s₀ s) : Untouched s₀ (beginChange g given s) := by
  unfold beginChange
  try dsimp only
  repeat' first
    | with_reducible assumption
    | with_reducible exact Untouched.refl _
    | intro _
    | dsimp only
    | with_reducible apply updSide_still
    | split
    | simp (disch := rfl) only [Untouched.set]

theorem txChange_still {s₀ : State} (g : Nat) {s : State} (hK : Untouched s₀ s) : Untouched s₀ (txChange g s) := by
  unfold txChange
  try dsimp only
  repeat' first
    | with_reducible assumption
    | with_reducible exact Untouched.refl _
    | intro _
    | dsimp only
    | with_reducible apply sendDecision_still
    | with_reducible apply beginChange_still
    | split
    | simp (disch := rfl) only [Untouched.set]

theorem suspendClients_still {s₀ : State} (g : Nat) (given : Option Nat) {s : State} (hK : Untouched s₀ s) : Untouched s₀ (suspendClients g given s) := by
  unfold suspendClients
  try dsimp only
  repeat' first
    | with_reducible assumption
    | with_reducible exact Untouched.refl _
    | intro _
    | with_reducible apply flushQ_still
    | with_reducible apply updClient_still
    | with_reducible apply foldS_still
    | split
    | simp (disch := rfl) only [Untouched.set]

theorem removesDone_still {s₀ : State} (g : Nat) (m : Nat) {s : State} (hK : Untouched s₀ s) : Untouched s₀ (removesDone g m s) := by
  unfold removesDone
  try dsimp only
  repeat' first
    | with_reducible assumption
    | with_reducible exact Untouched.refl _
    | intro _
    | dsimp only
    | with_reducible apply updMember_still
    | with_reducible apply evtMemberNow_still
    | with_reducible apply foldS_still
    | split
    | simp (disch := rfl) only [Untouched.set]

theorem txSwitch_still {s₀ : State} (g : Nat) {s : State} (hK : Untouched s₀ s) : Untouched s₀ (txSwitch g s) := by
  unfold txSwitch
  try dsimp only
  repeat' first
    | with_reducible assumption
    | with_reducible exact Untouched.refl _
    | intro _
    | dsimp only
    | with_reducible apply updSide_still
    | with_reducible apply evtMemberNow_still
    | with_reducible apply evtBraidSched_still
    | with_reducible apply txChange_still
    | with_reducible apply suspendClients_still
    | with_reducible apply removesDone_still
    | with_reducible apply foldS_still
    | split
    | simp (disch := rfl) only [Untouched.set]

theorem txLost_still {s₀ : State} (g : Nat) (m : Nat) {s : State} (hK : Untouched s₀ s) : Untouched s₀ (txLost g m s) := by
  unfold txLost
  try dsimp only
  repeat' first
    | with_reducible assumption
    | with_reducible apply updMember_still
    | with_reducible apply txRequest_still
    | split

theorem farChange_still {s₀ : State} (g : Nat) (m : Nat) (v : Bool) {s : State} (hK : Untouched s₀ s) : Untouched s₀ (farChange g m v s) := by
  unfold farChange
  try dsimp only
  repeat' first
    | with_reducible assumption
    | with_reducible exact Untouched.refl _
    | intro _
    | dsimp only
    | with_reducible apply updMember_still
    | with_reducible apply evtMemberNow_still
    | with_reducible apply txRequest_still
    | with_reducible apply txLost_still
    | split
    | simp (disch := rfl) only [Untouched.set]

theorem braidTxSettle_still {s₀ : State} (g : Nat) {s : State} (hK : Untouched s₀ s) : Untouched s₀ (braidTxSettle g s) := by
  unfold braidTxSettle
  try dsimp only
  repeat' first
    | with_reducible assumption
    | with_reducible exact Untouched.refl _
    | intro _
    | dsimp only
    | with_reducible apply txChange_still
    | with_reducible apply txLost_still
    | with_reducible apply farChange_still
    | with_reducible apply foldS_still
    | split
    | simp (disch := rfl) only [Untouched.set]

theorem braidSettle_still {s₀ : State} {s : State} (hK : Untouched s₀ s) : Untouched s₀ (braidSettle s) := by
  unfold braidSettle
  try dsimp only
  repeat' first
    | with_reducible assumption
    | with_reducible exact Untouched.refl _
    | intro _
    | dsimp only
    | with_reducible apply updSide_still
    | with_reducible apply braidRxSettle_still
    | with_reducible apply braidTxSettle_still
    | with_reducible apply foldS_still
    | split
    | simp (disch := rfl) only [Untouched.set]

theorem braidQueueLost_still {s₀ : State} (g : Nat) (n : Nat) {s : State} (hK : Untouched s₀ s) : Untouched s₀ (braidQueueLost g n s) := by
  unfold braidQueueLost
  try dsimp only
  repeat' first
    | with_reducible assumption
    | with_reducible exact Untouched.refl _
    | intro _
    | dsimp only
    | with_reducible apply updMember_still
    | with_reducible apply toAcquire_still
    | split
    | simp (disch := rfl) only [Untouched.set]

theorem delays_still {s₀ : State} {s : State} (d : Side) (hK : Untouched s₀ s) : Untouched s₀ (delays s d).2 := by
  unfold delays
  split
  · exact hK
  · refine foldPair_still hK (fun b a => ?_)
    split
    · exact Untouched.refl _
    · exact drawInt_still (Untouched.refl _)

theorem mstStep_still {s₀ : State} (g : Nat) (i : Nat) (b : Byte) {s : State} (hK : Untouched s₀ s) : Untouched s₀ (mstStep g i b s) := by
  unfold mstStep
  try dsimp only
  repeat' first
    | with_reducible assumption
    | with_reducible exact Untouched.refl _
    | intro _
    | with_reducible apply updMember_still
    | with_reducible apply farChange_still
    | with_reducible apply foldS_still
    | split

theorem bgoAccept_still {s₀ : State} (g : Nat) (midx : Nat) (b : List Byte) (ts : Nat) {s : State} (hK : Untouched s₀ s) : Untouched s₀ (bgoAccept g midx b ts s) := by
  unfold bgoAccept
  split
  · split
    · exact hK
    · split
      · exact updMember_still _ _ _ _ (updSide_still _ _ _ hK)
      · extract_lets fsn a tag tc ctrl work act nNew pend implied bad good first resync s1 s2 s3 s4 w s5 s6
        have h1 : Untouched s₀ s1 := updMember_still _ _ _ _ hK
        clear_value s1
        have h2 : Untouched s₀ s2 := by
          dsimp only [s2]
          repeat' first
            | with_reducible assumption
            | with_reducible apply updSide_still
            | split
        clear_value s2
        have h3 : Untouched s₀ s3 := updSide_still _ _ _ h2
        clear_value s3
        have h4 : Untouched s₀ s4 := by
          dsimp only [s4]
          split
          · exact sendDecision_still h3
          · exact h3
        clear_value s4
        have h5 : Untouched s₀ s5 := updSide_still _ _ _ h4
        clear_value s5
        refine mstStep_still _ _ _ ?_
        dsimp only [s6]
        split
        · exact updSide_still _ _ _ (delays_still _ h5)
        · exact h5
  · exact hK

theorem braidFrameZero_still {s₀ : State} (ch : Nat) {s : State} (hK : Untouched s₀ s) : Untouched s₀ (braidFrameZero ch s) := by
  unfold braidFrameZero
  try dsimp only
  repeat' first
    | with_reducible assumption
    | with_reducible exact Untouched.refl _
    | intro _
    | dsimp only
    | split
    | simp (disch := rfl) only [Untouched.set]

theorem clientToFabric_still {s₀ : State} (g : Nat) (c : Nat) (bs : List Byte) {s : State} (hK : Untouched s₀ s) : Untouched s₀ (clientToFabric g c bs s) := by
  unfold clientToFabric
  try dsimp only
  repeat' first
    | with_reducible assumption
    | with_reducible apply pushFrame_still
    | with_reducible apply updClient_still
    | split

/-- No cell proves uncorrectable. -/
theorem readPosition_still {s₀ : State} (g : Nat) (r : Nat) (pos : Nat) (m : Nat) {s : State} (hK : Untouched s₀ s) : Untouched s₀ (readPosition g r [] pos m s) := by
  unfold readPosition
  try dsimp only
  repeat' first
    | with_reducible assumption
    | with_reducible exact Untouched.refl _
    | intro _
    | dsimp only
    | with_reducible apply engineRead_still
    | with_reducible apply updSide_still
    | with_reducible apply updMember_still
    | with_reducible apply clientToFabric_still
    | split
    | simp (disch := rfl) only [Untouched.set]

/-- No cell proves uncorrectable. -/
theorem roundRead_still {s₀ : State} (g : Nat) {s : State} (hK : Untouched s₀ s) : Untouched s₀ (roundRead g [] s) := by
  unfold roundRead
  try dsimp only
  repeat' first
    | with_reducible assumption
    | with_reducible exact Untouched.refl _
    | intro _
    | dsimp only
    | with_reducible apply updSide_still
    | with_reducible apply readPosition_still
    | with_reducible apply foldS_still
    | split
    | simp (disch := rfl) only [Untouched.set]

theorem rxSwitch_still {s₀ : State} (g : Nat) {s : State} (hK : Untouched s₀ s) : Untouched s₀ (rxSwitch g s) := by
  unfold rxSwitch
  try dsimp only
  repeat' first
    | with_reducible assumption
    | with_reducible exact Untouched.refl _
    | intro _
    | dsimp only
    | with_reducible apply updSide_still
    | with_reducible apply evtMemberNow_still
    | with_reducible apply evtBraidSched_still
    | with_reducible apply toAcquire_still
    | with_reducible apply foldS_still
    | split
    | simp (disch := rfl) only [Untouched.set]

/-- No cell proves uncorrectable. -/
theorem formPosition_still {s₀ : State} (g : Nat) (rmax : Nat) (W : Nat) (r : Nat) (pos : Nat) (m : Nat) {s : State} (hK : Untouched s₀ s) : Untouched s₀ (formPosition g rmax W r [] pos m s) := by
  unfold formPosition
  try dsimp only
  repeat' first
    | with_reducible assumption
    | with_reducible exact Untouched.refl _
    | intro _
    | dsimp only
    | with_reducible apply engineRead_still
    | with_reducible apply updSide_still
    | with_reducible apply updMember_still
    | with_reducible apply updClient_still
    | split
    | simp (disch := rfl) only [Untouched.set]

/-- No cell proves uncorrectable. -/
theorem roundFormed_still {s₀ : State} (g : Nat) {s : State} (hK : Untouched s₀ s) : Untouched s₀ (roundFormed g [] s) := by
  unfold roundFormed
  try dsimp only
  repeat' first
    | with_reducible assumption
    | with_reducible exact Untouched.refl _
    | intro _
    | dsimp only
    | with_reducible apply updSide_still
    | with_reducible apply formPosition_still
    | with_reducible apply foldS_still
    | split
    | simp (disch := rfl) only [Untouched.set]

theorem memberFrame_still {s₀ : State} (ch : Nat) (n : Nat) {s : State} (hK : Untouched s₀ s) : Untouched s₀ (memberFrame ch n s).2 := by
  unfold memberFrame
  try dsimp only
  repeat' first
    | with_reducible assumption
    | with_reducible exact Untouched.refl _
    | intro _
    | dsimp only
    | with_reducible apply updSide_still
    | with_reducible apply updMember_still
    | split
    | simp (disch := rfl) only [Untouched.set]

theorem dropMember_still {s₀ : State} (g : Nat) (tx : Bool) (m : Nat) {s : State} (hK : Untouched s₀ s) : Untouched s₀ (dropMember g tx m s) := by
  unfold dropMember
  try dsimp only
  repeat' first
    | with_reducible assumption
    | with_reducible apply dropQueue_still
    | with_reducible apply updSide_still
    | split

theorem updWelt_still {s₀ : State} (w : Nat) (f : Welt → Welt) {s : State} (hK : Untouched s₀ s) : Untouched s₀ (updWelt w f s) := by
  unfold updWelt
  try dsimp only
  repeat' first
    | with_reducible assumption
    | simp (disch := rfl) only [Untouched.set]

theorem evtWelt_still {s₀ : State} (w : Nat) (reason : Nat) {s : State} (hK : Untouched s₀ s) : Untouched s₀ (evtWelt w reason s) := by
  unfold evtWelt
  try dsimp only
  repeat' first
    | with_reducible assumption
    | with_reducible apply raise_still
    | split

theorem setCopyState_still {s₀ : State} (w : Nat) (c : Bool) (st : CopyState) {s : State} (hK : Untouched s₀ s) : Untouched s₀ (setCopyState w c st s) := by
  unfold setCopyState
  try dsimp only
  repeat' first
    | with_reducible assumption
    | with_reducible apply updWelt_still
    | with_reducible apply evtWelt_still
    | split

theorem moveReadout_still {s₀ : State} (w : Nat) (src : Nat) (dst : Nat) {s : State} (hK : Untouched s₀ s) : Untouched s₀ (moveReadout w src dst s) := by
  unfold moveReadout
  try dsimp only
  repeat' first
    | with_reducible assumption
    | with_reducible exact Untouched.refl _
    | intro _
    | dsimp only
    | split
    | simp (disch := rfl) only [Untouched.set]

theorem weltSettle_still {s₀ : State} {s : State} (hK : Untouched s₀ s) : Untouched s₀ (weltSettle s) := by
  unfold weltSettle
  try dsimp only
  repeat' first
    | with_reducible assumption
    | with_reducible exact Untouched.refl _
    | intro _
    | dsimp only
    | with_reducible apply updWelt_still
    | with_reducible apply evtWelt_still
    | with_reducible apply moveReadout_still
    | with_reducible apply foldS_still
    | split
    | simp (disch := rfl) only [Untouched.set]

theorem flushCopy_still {s₀ : State} (q : Nat) {s : State} (hK : Untouched s₀ s) : Untouched s₀ (flushCopy q s) := by
  unfold flushCopy
  try dsimp only
  repeat' first
    | with_reducible assumption
    | with_reducible apply flushQ_still
    | simp (disch := rfl) only [Untouched.set]

theorem weltRealign_still {s₀ : State} (w : Nat) {s : State} (hK : Untouched s₀ s) : Untouched s₀ (weltRealign w s) := by
  unfold weltRealign
  try dsimp only
  repeat' first
    | with_reducible assumption
    | with_reducible exact Untouched.refl _
    | intro _
    | dsimp only
    | with_reducible apply updWelt_still
    | with_reducible apply evtWelt_still
    | with_reducible apply flushCopy_still
    | split
    | simp (disch := rfl) only [Untouched.set]

theorem weltAnchor_still {s₀ : State} (w : Nat) {s : State} (hK : Untouched s₀ s) : Untouched s₀ (weltAnchor w s) := by
  unfold weltAnchor
  try dsimp only
  repeat' first
    | with_reducible assumption
    | with_reducible exact Untouched.refl _
    | intro _
    | dsimp only
    | with_reducible apply updWelt_still
    | with_reducible apply evtWelt_still
    | with_reducible apply foldl_still
    | split
    | simp (disch := rfl) only [Untouched.set]

theorem wsoAccept_still {s₀ : State} (w : Nat) (c : Bool) (reps : List (List Byte)) (start : Nat) (ended : Bool) {s : State} (hK : Untouched s₀ s) : Untouched s₀ (wsoAccept w c reps start ended s) := by
  unfold wsoAccept
  try dsimp only
  repeat' first
    | with_reducible assumption
    | with_reducible exact Untouched.refl _
    | intro _
    | dsimp only
    | with_reducible apply updWelt_still
    | with_reducible apply setCopyState_still
    | with_reducible apply weltAnchor_still
    | split
    | simp (disch := rfl) only [Untouched.set]

theorem evtWeltDisabled_still {s₀ : State} (w : Nat) {s : State} (hK : Untouched s₀ s) : Untouched s₀ (evtWeltDisabled w s) := by
  unfold evtWeltDisabled
  try dsimp only
  repeat' first
    | with_reducible assumption
    | with_reducible apply raise_still

theorem weltDisable_still {s₀ : State} (w : Nat) {s : State} (hK : Untouched s₀ s) : Untouched s₀ (weltDisable w s) := by
  unfold weltDisable
  try dsimp only
  repeat' first
    | with_reducible assumption
    | with_reducible apply updChan_still
    | with_reducible apply dropQueue_still
    | with_reducible apply updWelt_still
    | with_reducible apply evtWeltDisabled_still
    | split

theorem weltQueue_still {s₀ : State} (w : Nat) (limit : Nat) {s : State} (hK : Untouched s₀ s) : Untouched s₀ (weltQueue w limit s).2 := by
  unfold weltQueue
  try dsimp only
  repeat' first
    | with_reducible assumption
    | simp (disch := rfl) only [Untouched.set]

theorem weltEnable_still {s₀ : State} (w : Nat) {s : State} (hK : Untouched s₀ s) : Untouched s₀ (weltEnable w s) := by
  unfold weltEnable
  try dsimp only
  repeat' first
    | with_reducible assumption
    | with_reducible exact Untouched.refl _
    | intro _
    | dsimp only
    | with_reducible apply updChan_still
    | with_reducible apply updWelt_still
    | with_reducible apply weltQueue_still
    | split
    | simp (disch := rfl) only [Untouched.set]

theorem weltQueueLost_still {s₀ : State} (w : Nat) (n : Nat) {s : State} (hK : Untouched s₀ s) : Untouched s₀ (weltQueueLost w n s) := by
  unfold weltQueueLost
  try dsimp only
  repeat' first
    | with_reducible assumption
    | with_reducible apply updWelt_still
    | with_reducible apply evtWelt_still
    | split

theorem lostSettle_still {s₀ : State} {s : State} (hK : Untouched s₀ s) : Untouched s₀ (lostSettle s) := by
  unfold lostSettle
  try dsimp only
  repeat' first
    | with_reducible assumption
    | with_reducible exact Untouched.refl _
    | intro _
    | with_reducible apply braidQueueLost_still
    | with_reducible apply weltQueueLost_still
    | with_reducible apply foldS_still
    | split
    | simp (disch := rfl) only [Untouched.set]

theorem bridgeFrame_still {s₀ : State} (ch : Nat) (n : Nat) {s : State} (hK : Untouched s₀ s) : Untouched s₀ (bridgeFrame ch n s).2 := by
  unfold bridgeFrame
  try dsimp only
  repeat' first
    | with_reducible assumption
    | with_reducible exact Untouched.refl _
    | intro _
    | dsimp only
    | split
    | simp (disch := rfl) only [Untouched.set]

theorem monCreate_still {s₀ : State} (addrs : List Nat) {s : State} (hK : Untouched s₀ s) : Untouched s₀ (monCreate addrs s) := by
  unfold monCreate
  try dsimp only
  repeat' first
    | with_reducible assumption
    | simp (disch := rfl) only [Untouched.set]

theorem monDelete_still {s₀ : State} (addrs : List Nat) {s : State} (hK : Untouched s₀ s) : Untouched s₀ (monDelete addrs s) := by
  unfold monDelete
  try dsimp only
  repeat' first
    | with_reducible assumption
    | simp (disch := rfl) only [Untouched.set]

theorem evtTca_still {s₀ : State} (addr : Nat) (b24 : Bool) (r : PmRec) (p : Nat) {s : State} (hK : Untouched s₀ s) : Untouched s₀ (evtTca addr b24 r p s) := by
  unfold evtTca
  try dsimp only
  repeat' first
    | with_reducible assumption
    | with_reducible apply raise_still

theorem commitBins_still {s₀ : State} (addr : Nat) (b24 : Bool) (n : Judge) (f : Judge) (m : Mon) (bins : List Bin) {s : State}
    (hK : Untouched s₀ s) : Untouched s₀ (commitBins addr b24 n f m bins s).2 := by
  unfold commitBins
  refine foldPair_still hK (fun b a => ?_)
  dsimp only
  split
  · exact foldS_still (Untouched.refl _) (fun _ _ => evtTca_still _ _ _ _ (Untouched.refl _))
  · exact Untouched.refl _

theorem judgePoint_still {s₀ : State} (addr : Nat) (n : Judge) (f : Judge) {s : State} (hK : Untouched s₀ s) : Untouched s₀ (judgePoint addr n f s) := by
  unfold judgePoint
  try dsimp only
  repeat' first
    | with_reducible assumption
    | with_reducible exact Untouched.refl _
    | intro _
    | dsimp only
    | with_reducible apply commitBins_still
    | split
    | simp (disch := rfl) only [Untouched.set]

theorem evalSecond_still {s₀ : State} (addr : Nat) {s : State} (hK : Untouched s₀ s) : Untouched s₀ (evalSecond addr s) := by
  unfold evalSecond
  try dsimp only
  repeat' first
    | with_reducible assumption
    | with_reducible apply judgePoint_still
    | split
    | simp (disch := rfl) only [Untouched.set]

theorem modCand_still {s₀ : State} (c : Nat) (f : Candidate → Candidate) {s : State} (hK : Untouched s₀ s) : Untouched s₀ (modCand c f s) := by
  unfold modCand
  try dsimp only
  repeat' first
    | with_reducible assumption
    | simp (disch := rfl) only [Untouched.set]

theorem modDpll_still {s₀ : State} (d : Nat) (f : Dpll → Dpll) {s : State} (hK : Untouched s₀ s) : Untouched s₀ (modDpll d f s) := by
  unfold modDpll
  try dsimp only
  repeat' first
    | with_reducible assumption
    | simp (disch := rfl) only [Untouched.set]

theorem temperReset_still {s₀ : State} {s : State} (hK : Untouched s₀ s) : Untouched s₀ (temperReset s) := by
  unfold temperReset
  try dsimp only
  repeat' first
    | with_reducible assumption
    | with_reducible exact Untouched.refl _
    | intro _
    | dsimp only
    | with_reducible apply modDpll_still
    | with_reducible apply foldS_still
    | split
    | simp (disch := rfl) only [Untouched.set]

theorem frontTake_still {s₀ : State} (n : Nat) (xs : List (Nat × List Int)) (c : Nat) {s : State} (hK : Untouched s₀ s) : Untouched s₀ (frontTake n xs c s) := by
  unfold frontTake
  try dsimp only
  repeat' first
    | with_reducible assumption
    | with_reducible exact Untouched.refl _
    | intro _
    | dsimp only
    | with_reducible apply modCand_still
    | split
    | simp (disch := rfl) only [Untouched.set]
    | simp (disch := rfl) only [Untouched.set]

theorem frontResets_still {s₀ : State} {s : State} (hK : Untouched s₀ s) : Untouched s₀ (frontResets s) := by
  unfold frontResets
  try dsimp only
  repeat' first
    | with_reducible assumption
    | with_reducible exact Untouched.refl _
    | intro _
    | dsimp only
    | with_reducible apply modCand_still
    | with_reducible apply temperReset_still
    | with_reducible apply foldS_still
    | split
    | simp (disch := rfl) only [Untouched.set]

theorem frontSample_still {s₀ : State} (xs : List (Nat × List Int)) {s : State} (hK : Untouched s₀ s) : Untouched s₀ (frontSample xs s) := by
  unfold frontSample
  try dsimp only
  repeat' first
    | with_reducible assumption
    | with_reducible exact Untouched.refl _
    | intro _
    | dsimp only
    | with_reducible apply modCand_still
    | with_reducible apply frontTake_still
    | with_reducible apply frontResets_still
    | with_reducible apply foldS_still
    | split
    | simp (disch := rfl) only [Untouched.set]

theorem evtSwap_still {s₀ : State} (c : Nat) (bank : Bool) (pend : Bool) {s : State} (hK : Untouched s₀ s) : Untouched s₀ (evtSwap c bank pend s) := by
  unfold evtSwap
  try dsimp only
  repeat' first
    | with_reducible assumption
    | with_reducible apply raise_still

theorem journalActive_still {s₀ : State} (c : Nat) {s : State} (hK : Untouched s₀ s) : Untouched s₀ (journalActive c s) := by
  unfold journalActive
  try dsimp only
  repeat' first
    | with_reducible assumption
    | simp (disch := rfl) only [Untouched.set]

theorem fadeComplete_still {s₀ : State} (c : Nat) {s : State} (hK : Untouched s₀ s) : Untouched s₀ (fadeComplete c s) := by
  unfold fadeComplete
  try dsimp only
  repeat' first
    | with_reducible assumption
    | with_reducible apply modCand_still
    | with_reducible apply evtSwap_still
    | with_reducible apply journalActive_still
    | split

theorem modOut_still {s₀ : State} (n : Nat) (f : Output → Output) {s : State} (hK : Untouched s₀ s) : Untouched s₀ (modOut n f s) := by
  unfold modOut
  try dsimp only
  repeat' first
    | with_reducible assumption
    | simp (disch := rfl) only [Untouched.set]

theorem evtOutput_still {s₀ : State} (n : Nat) (aligned : Bool) {s : State} (hK : Untouched s₀ s) : Untouched s₀ (evtOutput n aligned s) := by
  unfold evtOutput
  try dsimp only
  repeat' first
    | with_reducible assumption
    | with_reducible apply raise_still

theorem dcoSettle_still {s₀ : State} {s : State} (hK : Untouched s₀ s) : Untouched s₀ (dcoSettle s) := by
  unfold dcoSettle
  try dsimp only
  repeat' first
    | with_reducible assumption
    | with_reducible exact Untouched.refl _
    | intro _
    | dsimp only
    | with_reducible apply modDpll_still
    | with_reducible apply foldS_still
    | split

theorem evtRef_still {s₀ : State} (c : Nat) (cause : Nat) {s : State} (hK : Untouched s₀ s) : Untouched s₀ (evtRef c cause s) := by
  unfold evtRef
  try dsimp only
  repeat' first
    | with_reducible assumption
    | with_reducible apply raise_still

theorem stick_still {s₀ : State} (d : Nat) (b : Nat) {s : State} (hK : Untouched s₀ s) : Untouched s₀ (stick d b s) := by
  unfold stick
  try dsimp only
  repeat' first
    | with_reducible assumption
    | with_reducible apply modDpll_still

theorem evtTmcState_still {s₀ : State} (d : Nat) (old : DState) (reason : Nat) {s : State} (hK : Untouched s₀ s) : Untouched s₀ (evtTmcState d old reason s) := by
  unfold evtTmcState
  try dsimp only
  repeat' first
    | with_reducible assumption
    | with_reducible apply raise_still

theorem enterState_still {s₀ : State} (d : Nat) (t : DState) {s : State} (hK : Untouched s₀ s) : Untouched s₀ (enterState d t s) := by
  unfold enterState
  try dsimp only
  repeat' first
    | with_reducible assumption
    | with_reducible exact Untouched.refl _
    | intro _
    | dsimp only
    | with_reducible apply modDpll_still
    | with_reducible apply stick_still
    | with_reducible apply evtTmcState_still
    | split
    | simp (disch := rfl) only [Untouched.set]

theorem toNone_still {s₀ : State} (d : Nat) {s : State} (hK : Untouched s₀ s) : Untouched s₀ (toNone d s) := by
  unfold toNone
  try dsimp only
  repeat' first
    | with_reducible assumption
    | with_reducible apply modDpll_still
    | with_reducible apply enterState_still

theorem startLoop_still {s₀ : State} (d : Nat) (c : Nat) (build : Bool) {s : State} (hK : Untouched s₀ s) : Untouched s₀ (startLoop d c build s) := by
  unfold startLoop
  try dsimp only
  repeat' first
    | with_reducible assumption
    | with_reducible exact Untouched.refl _
    | intro _
    | dsimp only
    | with_reducible apply modDpll_still
    | with_reducible apply enterState_still
    | split
    | simp (disch := rfl) only [Untouched.set]

theorem toBridge_still {s₀ : State} (d : Nat) (c : Nat) (cause : Nat) {s : State} (hK : Untouched s₀ s) : Untouched s₀ (toBridge d c cause s) := by
  unfold toBridge
  try dsimp only
  repeat' first
    | with_reducible assumption
    | with_reducible exact Untouched.refl _
    | intro _
    | dsimp only
    | with_reducible apply modDpll_still
    | with_reducible apply stick_still
    | with_reducible apply enterState_still
    | split
    | simp (disch := rfl) only [Untouched.set]

theorem applySelect_still {s₀ : State} (d : Nat) (op : Nat) (c : Nat) {s : State} (hK : Untouched s₀ s) : Untouched s₀ (applySelect d op c s) := by
  unfold applySelect
  try dsimp only
  repeat' first
    | with_reducible assumption
    | with_reducible apply modDpll_still

theorem selectOnce_still {s₀ : State} (d : Nat) (why : Nat) {s : State} (hK : Untouched s₀ s) : Untouched s₀ (selectOnce d why s) := by
  unfold selectOnce
  try dsimp only
  repeat' first
    | with_reducible assumption
    | with_reducible apply modDpll_still
    | with_reducible apply toNone_still
    | with_reducible apply startLoop_still
    | with_reducible apply toBridge_still
    | split

theorem takePending_still {s₀ : State} (d : Nat) {s : State} (hK : Untouched s₀ s) : Untouched s₀ (takePending d s) := by
  unfold takePending
  try dsimp only
  repeat' first
    | with_reducible assumption
    | with_reducible apply modDpll_still
    | with_reducible apply applySelect_still
    | with_reducible apply selectOnce_still
    | split

theorem selectForce_still {s₀ : State} (d : Nat) (why : Nat) {s : State} (hK : Untouched s₀ s) : Untouched s₀ (selectForce d why s) := by
  unfold selectForce
  try dsimp only
  repeat' first
    | with_reducible assumption
    | with_reducible apply selectOnce_still
    | with_reducible apply takePending_still

theorem runSelect_still {s₀ : State} (d : Nat) (why : Nat) {s : State} (hK : Untouched s₀ s) : Untouched s₀ (runSelect d why s) := by
  unfold runSelect
  try dsimp only
  repeat' first
    | with_reducible assumption
    | with_reducible apply selectForce_still
    | split

theorem switchDone_still {s₀ : State} (d : Nat) (phi : Int) {s : State} (hK : Untouched s₀ s) : Untouched s₀ (switchDone d phi s) := by
  unfold switchDone
  try dsimp only
  repeat' first
    | with_reducible assumption
    | with_reducible exact Untouched.refl _
    | intro _
    | dsimp only
    | with_reducible apply raise_still
    | with_reducible apply modDpll_still
    | with_reducible apply enterState_still
    | with_reducible apply takePending_still
    | with_reducible apply runSelect_still
    | split
    | simp (disch := rfl) only [Untouched.set]

theorem candFaultState_still {s₀ : State} (c : Nat) (cause : Nat) {s : State} (hK : Untouched s₀ s) : Untouched s₀ (candFaultState c cause s) := by
  unfold candFaultState
  try dsimp only
  repeat' first
    | with_reducible assumption
    | with_reducible exact Untouched.refl _
    | intro _
    | with_reducible apply modCand_still
    | with_reducible apply evtRef_still
    | with_reducible apply stick_still
    | with_reducible apply foldS_still
    | split

theorem candReselect_still {s₀ : State} (c : Nat) (abandon : Bool) {s : State} (hK : Untouched s₀ s) : Untouched s₀ (candReselect c abandon s) := by
  unfold candReselect
  try dsimp only
  repeat' first
    | with_reducible assumption
    | with_reducible exact Untouched.refl _
    | intro _
    | with_reducible apply selectForce_still
    | with_reducible apply runSelect_still
    | with_reducible apply foldS_still
    | split

theorem candFault_still {s₀ : State} (c : Nat) (cause : Nat) {s : State} (hK : Untouched s₀ s) : Untouched s₀ (candFault c cause s) := by
  unfold candFault
  try dsimp only
  repeat' first
    | with_reducible assumption
    | with_reducible apply candFaultState_still
    | with_reducible apply candReselect_still

theorem activityLost_still {s₀ : State} (c : Nat) {s : State} (hK : Untouched s₀ s) : Untouched s₀ (activityLost c s) := by
  unfold activityLost
  try dsimp only
  repeat' first
    | with_reducible assumption
    | with_reducible apply modCand_still
    | with_reducible apply candFault_still
    | split

theorem selectSettle_still {s₀ : State} (d : Nat) {s : State} (hK : Untouched s₀ s) : Untouched s₀ (selectSettle d s) := by
  unfold selectSettle
  try dsimp only
  repeat' first
    | with_reducible assumption
    | with_reducible exact Untouched.refl _
    | intro _
    | dsimp only
    | with_reducible apply runSelect_still
    | split
    | simp (disch := rfl) only [Untouched.set]

theorem candSettle_still {s₀ : State} {s : State} (hK : Untouched s₀ s) : Untouched s₀ (candSettle s) := by
  unfold candSettle
  try dsimp only
  repeat' first
    | with_reducible assumption
    | with_reducible exact Untouched.refl _
    | intro _
    | dsimp only
    | with_reducible apply runSelect_still
    | with_reducible apply activityLost_still
    | with_reducible apply selectSettle_still
    | with_reducible apply foldS_still
    | split

theorem loopUpdate_still {s₀ : State} (d : Nat) (sub : Nat) {s : State} (hK : Untouched s₀ s) : Untouched s₀ (loopUpdate d sub s) := by
  unfold loopUpdate
  try dsimp only
  repeat' first
    | with_reducible assumption
    | with_reducible exact Untouched.refl _
    | intro _
    | dsimp only
    | with_reducible apply modDpll_still
    | split
    | simp (disch := rfl) only [Untouched.set]
    | simp (disch := rfl) only [Untouched.set]

theorem phaseAdj_still {s₀ : State} (d : Nat) (v : Int) {s : State} (hK : Untouched s₀ s) : Untouched s₀ (phaseAdj d v s) := by
  unfold phaseAdj
  try dsimp only
  repeat' first
    | with_reducible assumption
    | with_reducible apply modDpll_still
    | split

theorem pulseEdge_still {s₀ : State} (n : Nat) {s : State} (hK : Untouched s₀ s) : Untouched s₀ (pulseEdge n s) := by
  unfold pulseEdge
  try dsimp only
  repeat' first
    | with_reducible assumption
    | with_reducible exact Untouched.refl _
    | intro _
    | dsimp only
    | with_reducible apply modOut_still
    | with_reducible apply evtOutput_still
    | split
    | simp (disch := rfl) only [Untouched.set]

theorem gateSettle_still {s₀ : State} {s : State} (hK : Untouched s₀ s) : Untouched s₀ (gateSettle s) := by
  unfold gateSettle
  try dsimp only
  repeat' first
    | with_reducible assumption
    | with_reducible exact Untouched.refl _
    | intro _
    | dsimp only
    | split
    | simp (disch := rfl) only [Untouched.set]

theorem tmcSettle_still {s₀ : State} {s : State} (hK : Untouched s₀ s) : Untouched s₀ (tmcSettle s) := by
  unfold tmcSettle
  try dsimp only
  repeat' first
    | with_reducible assumption
    | with_reducible exact Untouched.refl _
    | intro _
    | dsimp only
    | with_reducible apply dcoSettle_still
    | with_reducible apply gateSettle_still
    | split

theorem modMbx_still {s₀ : State} (m : Nat) (f : Mailbox → Mailbox) {s : State} (hK : Untouched s₀ s) : Untouched s₀ (modMbx m f s) := by
  unfold modMbx
  try dsimp only
  repeat' first
    | with_reducible assumption
    | simp (disch := rfl) only [Untouched.set]

theorem msixSend_still {s₀ : State} (v : Nat) {s : State} (hK : Untouched s₀ s) : Untouched s₀ (msixSend v s) := by
  unfold msixSend
  try dsimp only
  repeat' first
    | with_reducible assumption
    | with_reducible exact Untouched.refl _
    | intro _
    | dsimp only
    | split
    | simp (disch := rfl) only [Untouched.set]

theorem msixFlush_still {s₀ : State} {s : State} (hK : Untouched s₀ s) : Untouched s₀ (msixFlush s) := by
  unfold msixFlush
  try dsimp only
  repeat' first
    | with_reducible assumption
    | with_reducible exact Untouched.refl _
    | intro _
    | with_reducible apply msixSend_still
    | with_reducible apply foldS_still
    | simp (disch := rfl) only [Untouched.set]

theorem respond_still {s₀ : State} (m : Nat) (st : Status) (ws : List Word) {s : State} (hK : Untouched s₀ s) : Untouched s₀ (respond m st ws s) := by
  unfold respond
  try dsimp only
  repeat' first
    | with_reducible assumption
    | with_reducible apply modMbx_still
    | with_reducible apply msixSend_still
    | split

theorem finishWaiting_still {s₀ : State} (p : WaitKind → Bool) (st : Status) (ws : List Word) {s : State} (hK : Untouched s₀ s) : Untouched s₀ (finishWaiting p st ws s) := by
  unfold finishWaiting
  try dsimp only
  repeat' first
    | with_reducible assumption
    | with_reducible exact Untouched.refl _
    | intro _
    | with_reducible apply respond_still
    | with_reducible apply foldS_still
    | split
    | simp (disch := rfl) only [Untouched.set]

theorem restartSettle_still {s₀ : State} {s : State} (hK : Untouched s₀ s) : Untouched s₀ (restartSettle s) := by
  unfold restartSettle
  split
  · dsimp only
    split
    · simpa (disch := rfl) only [Untouched.set] using hK
    · simpa (disch := rfl) only [Untouched.set] using hK
  · exact hK

theorem violation_still {s₀ : State} (off : Nat) (typ : Nat) (mbx : Nat) (be : Nat) {s : State} (hK : Untouched s₀ s) : Untouched s₀ (violation off typ mbx be s) := by
  unfold violation
  try dsimp only
  repeat' first
    | with_reducible assumption
    | split
    | simp (disch := rfl) only [Untouched.set]

theorem readRefused_still {s₀ : State} (off : Nat) (bes : List Nat) {s : State} (hK : Untouched s₀ s) : Untouched s₀ (readRefused off bes s) := by
  unfold readRefused
  try dsimp only
  repeat' first
    | with_reducible assumption
    | with_reducible exact Untouched.refl _
    | intro _
    | dsimp only
    | with_reducible apply violation_still
    | with_reducible apply foldS_still
    | split
    | simp (disch := rfl) only [Untouched.set]

theorem busRead_still {s₀ : State} (off : Nat) (be : Nat) {s : State} (hK : Untouched s₀ s) : Untouched s₀ (busRead off be s) := by
  unfold busRead
  try dsimp only
  repeat' first
    | with_reducible assumption
    | with_reducible exact Untouched.refl _
    | intro _
    | dsimp only
    | with_reducible apply readRefused_still
    | split
    | simp (disch := rfl) only [Untouched.set]
    | simp (disch := rfl) only [Untouched.set]

theorem busReads_still {s₀ : State} (off : Nat) (bes : List Nat) {s : State} (hK : Untouched s₀ s) : Untouched s₀ (busReads off bes s) := by
  unfold busReads
  try dsimp only
  repeat' first
    | with_reducible assumption
    | with_reducible exact Untouched.refl _
    | intro _
    | dsimp only
    | with_reducible apply readRefused_still
    | with_reducible apply busRead_still
    | with_reducible apply foldS_still
    | split

theorem ringBell_still {s₀ : State} (m : Nat) {s : State} (hK : Untouched s₀ s) : Untouched s₀ (ringBell m s) := by
  unfold ringBell
  try dsimp only
  repeat' first
    | with_reducible assumption
    | with_reducible apply drawBit_still
    | with_reducible apply modMbx_still
    | split
    | simp (disch := rfl) only [Untouched.set]

theorem ringBells_still {s₀ : State} (v : Word) {s : State} (hK : Untouched s₀ s) : Untouched s₀ (ringBells v s) := by
  unfold ringBells
  try dsimp only
  repeat' first
    | with_reducible assumption
    | with_reducible exact Untouched.refl _
    | intro _
    | with_reducible apply ringBell_still
    | with_reducible apply foldS_still

theorem ringBase_still {s₀ : State} (lo : Word) (hi : Word) {s : State} (hK : Untouched s₀ s) : Untouched s₀ (ringBase lo hi s) := by
  unfold ringBase
  try dsimp only
  repeat' first
    | with_reducible assumption
    | with_reducible exact Untouched.refl _
    | intro _
    | dsimp only
    | with_reducible apply ringHead_still
    | split
    | simp (disch := rfl) only [Untouched.set]
    | simp (disch := rfl) only [Untouched.set]

theorem ringHead_still {s₀ : State} (h : BitVec 12) {s : State} (hK : Untouched s₀ s) : Untouched s₀ (ringHead h s) := by
  unfold ringHead
  try dsimp only
  repeat' first
    | with_reducible assumption
    | with_reducible exact Untouched.refl _
    | intro _
    | dsimp only
    | split
    | simp (disch := rfl) only [Untouched.set]

theorem busWrite_still {s₀ : State} (off : Nat) (v : Word) (be : Nat) {s : State} (hK : Untouched s₀ s) : Untouched s₀ (busWrite off v be s) := by
  unfold busWrite
  try dsimp only
  repeat' first
    | with_reducible assumption
    | with_reducible exact Untouched.refl _
    | intro _
    | dsimp only
    | with_reducible apply modMbx_still
    | with_reducible apply msixFlush_still
    | with_reducible apply violation_still
    | with_reducible apply ringBells_still
    | with_reducible apply ringBase_still
    | with_reducible apply ringHead_still
    | split
    | simp (disch := rfl) only [Untouched.set]

theorem hostWrite_still {s₀ : State} (a : Nat) (ws : List Word) {s : State} (hK : Untouched s₀ s) : Untouched s₀ (hostWrite a ws s) := by
  unfold hostWrite
  try dsimp only
  repeat' first
    | with_reducible assumption
    | with_reducible exact Untouched.refl _
    | intro _
    | dsimp only
    | with_reducible apply foldl_still
    | split
    | simp (disch := rfl) only [Untouched.set]

theorem ringTarget_still {s₀ : State} {s : State} (hK : Untouched s₀ s) : Untouched s₀ (ringTarget s).2 := by
  unfold ringTarget
  try dsimp only
  repeat' first
    | with_reducible assumption
    | with_reducible exact Untouched.refl _
    | intro _
    | dsimp only
    | split
    | simp (disch := rfl) only [Untouched.set]
    | simp (disch := rfl) only [Untouched.set]

theorem ringWords_still {s₀ : State} (r : EvRec) {s : State} (hK : Untouched s₀ s) : Untouched s₀ (ringWords r s).2 := by
  unfold ringWords
  try dsimp only
  repeat' first
    | with_reducible assumption
    | with_reducible exact Untouched.refl _
    | intro _
    | dsimp only
    | split
    | simp (disch := rfl) only [Untouched.set]
    | simp (disch := rfl) only [Untouched.set]

theorem ringPut_still {s₀ : State} (r : EvRec) {s : State} (hK : Untouched s₀ s) : Untouched s₀ (ringPut r s) := by
  unfold ringPut
  try dsimp only
  repeat' first
    | with_reducible assumption
    | with_reducible exact Untouched.refl _
    | intro _
    | dsimp only
    | with_reducible apply msixSend_still
    | with_reducible apply hostWrite_still
    | with_reducible apply ringTarget_still
    | with_reducible apply ringWords_still
    | split
    | simp (disch := rfl) only [Untouched.set]

theorem deliver_still {s₀ : State} {s : State} (hK : Untouched s₀ s) : Untouched s₀ (deliver s) := by
  unfold deliver
  try dsimp only
  repeat' first
    | with_reducible assumption
    | with_reducible apply ringPut_still
    | split
    | simp (disch := rfl) only [Untouched.set]

theorem evtPartner_still {s₀ : State} (cause : Nat) {s : State} (hK : Untouched s₀ s) : Untouched s₀ (evtPartner cause s) := by
  unfold evtPartner
  try dsimp only
  repeat' first
    | with_reducible assumption
    | with_reducible apply raise_still

theorem dropStaging_still {s₀ : State} {s : State} (hK : Untouched s₀ s) : Untouched s₀ (dropStaging s) := by
  unfold dropStaging
  try dsimp only
  repeat' first
    | with_reducible assumption
    | with_reducible apply finishWaiting_still
    | simp (disch := rfl) only [Untouched.set]

theorem setRole_still {s₀ : State} (r : Role) (cause : Nat) {s : State} (hK : Untouched s₀ s) : Untouched s₀ (setRole r cause s) := by
  unfold setRole
  try dsimp only
  repeat' first
    | with_reducible assumption
    | with_reducible exact Untouched.refl _
    | intro _
    | dsimp only
    | with_reducible apply raise_still
    | with_reducible apply dropStaging_still
    | split
    | simp (disch := rfl) only [Untouched.set]

theorem claimCheck_still {s₀ : State} {s : State} (hK : Untouched s₀ s) : Untouched s₀ (claimCheck s) := by
  unfold claimCheck
  try dsimp only
  repeat' first
    | with_reducible assumption
    | with_reducible apply setRole_still
    | split
    | simp (disch := rfl) only [Untouched.set]

theorem lostTimer_still {s₀ : State} {s : State} (hK : Untouched s₀ s) : Untouched s₀ (lostTimer s) := by
  unfold lostTimer
  try dsimp only
  repeat' first
    | with_reducible assumption
    | with_reducible exact Untouched.refl _
    | intro _
    | dsimp only
    | split
    | simp (disch := rfl) only [Untouched.set]

theorem arbFaultStep_still {s₀ : State} (v : Bool) {s : State} (hK : Untouched s₀ s) : Untouched s₀ (arbFaultStep v s) := by
  unfold arbFaultStep
  try dsimp only
  repeat' first
    | with_reducible assumption
    | with_reducible apply evtPartner_still
    | split
    | simp (disch := rfl) only [Untouched.set]

theorem fedLanes_still {s₀ : State} (los : Bool) {s : State} (hK : Untouched s₀ s) : Untouched s₀ (fedLanes los s) := by
  unfold fedLanes
  try dsimp only
  repeat' first
    | with_reducible assumption
    | with_reducible exact Untouched.refl _
    | intro _
    | dsimp only
    | with_reducible apply modLane_still
    | with_reducible apply huntLane_still
    | with_reducible apply foldS_still
    | split
    | simp (disch := rfl) only [Untouched.set]

theorem linkDown_still {s₀ : State} {s : State} (hK : Untouched s₀ s) : Untouched s₀ (linkDown s) := by
  unfold linkDown
  try dsimp only
  repeat' first
    | with_reducible assumption
    | with_reducible exact Untouched.refl _
    | intro _
    | dsimp only
    | with_reducible apply evtPartner_still
    | with_reducible apply fedLanes_still
    | split
    | simp (disch := rfl) only [Untouched.set]

theorem linkSettle_still {s₀ : State} {s : State} (hK : Untouched s₀ s) : Untouched s₀ (linkSettle s) := by
  unfold linkSettle
  try dsimp only
  repeat' first
    | with_reducible assumption
    | with_reducible exact Untouched.refl _
    | intro _
    | dsimp only
    | with_reducible apply linkDown_still
    | split

theorem twinSettle_still {s₀ : State} {s : State} (hK : Untouched s₀ s) : Untouched s₀ (twinSettle s) := by
  unfold twinSettle
  try dsimp only
  repeat' first
    | with_reducible assumption
    | with_reducible exact Untouched.refl _
    | intro _
    | dsimp only
    | with_reducible apply evtPartner_still
    | split
    | simp (disch := rfl) only [Untouched.set]

theorem sendHeartbeat_still {s₀ : State} {s : State} (hK : Untouched s₀ s) : Untouched s₀ (sendHeartbeat s) := by
  unfold sendHeartbeat
  try dsimp only
  repeat' first
    | with_reducible assumption
    | with_reducible exact Untouched.refl _
    | intro _
    | dsimp only
    | with_reducible apply sendVarric_still
    | split
    | simp (disch := rfl) only [Untouched.set]

theorem heartbeatSeen_still {s₀ : State} {s : State} (hK : Untouched s₀ s) : Untouched s₀ (heartbeatSeen s) := by
  unfold heartbeatSeen
  try dsimp only
  repeat' first
    | with_reducible assumption
    | with_reducible apply setRole_still
    | with_reducible apply lostTimer_still
    | with_reducible apply arbFaultStep_still
    | split
    | simp (disch := rfl) only [Untouched.set]

theorem heartbeatLost_still {s₀ : State} {s : State} (hK : Untouched s₀ s) : Untouched s₀ (heartbeatLost s) := by
  unfold heartbeatLost
  try dsimp only
  repeat' first
    | with_reducible assumption
    | with_reducible apply evtPartner_still
    | with_reducible apply claimCheck_still
    | with_reducible apply lostTimer_still
    | simp (disch := rfl) only [Untouched.set]

theorem evtFault_still {s₀ : State} (a : Nat) (kind : Nat) (action : Nat) (more : List (Nat × Nat)) {s : State} (hK : Untouched s₀ s) : Untouched s₀ (evtFault a kind action more s) := by
  unfold evtFault
  try dsimp only
  repeat' first
    | with_reducible assumption
    | with_reducible apply raiseAt_still

/-- A change of a source of the HBM alone. -/
theorem modSrc_still {s₀ s : State} {a : Nat} (f : Src → Src) (ha : 0x800 ≤ a ∧ a < 0x900) (hK : Untouched s₀ s) : Untouched s₀ (modSrc a f s) :=
  { hK with
    fault := hK.fault
    srcs := fun b hb => (srcOf_modSrc_ne f s (by omega)).trans (hK.srcs b hb) }

theorem faultPulse_still {s₀ s : State} (hK : Untouched s₀ s) : Untouched s₀ (faultPulse s) := { hK with fault := hK.fault, srcs := hK.srcs }

theorem raiseSrc_still {s₀ s : State} {a : Nat} (p : Bool) (ha : 0x800 ≤ a ∧ a < 0x900) (hK : Untouched s₀ s) : Untouched s₀ (raiseSrc a p s) :=
  faultPulse_still (evtFault_still _ _ _ _ (modSrc_still _ ha hK))

theorem classifyGroup_still {s₀ s : State} {a : Nat} (ha : 0x800 ≤ a ∧ a < 0x900) (hK : Untouched s₀ s) : Untouched s₀ (classifyGroup a s) := by
  unfold classifyGroup
  dsimp only
  repeat' first
    | exact ha
    | with_reducible assumption
    | with_reducible apply raiseSrc_still
    | with_reducible apply modSrc_still
    | split

/-- A change of the injections in progress. -/
theorem Untouched.injections {s₀ s : State} {l : List Inject} (hK : Untouched s₀ s) : Untouched s₀ { s with fault.inject := l } :=
  { hK with fault := hK.fault, srcs := hK.srcs }

theorem injectCount_still {s₀ s : State} {i : Inject} (n m k : Nat) (ha : 0x800 ≤ i.addr ∧ i.addr < 0x900) (hK : Untouched s₀ s) :
    Untouched s₀ (injectCount i n m k s) := Untouched.injections (modSrc_still _ ha hK)

theorem injectDone_still {s₀ s : State} (hK : Untouched s₀ s) : Untouched s₀ (injectDone s) :=
  foldS_still hK.injections (fun _ t => finishWaiting_still _ _ _ (Untouched.refl t))

/-- The injection in progress on a source is that source's. -/
theorem injecting_addr {s : State} {a k : Nat} {i : Inject} (e : injecting s a k = some i) : i.addr = a := by
  unfold injecting at e
  have h := List.find?_some e
  simp only [Bool.and_eq_true, beq_iff_eq] at h
  exact h.1.1

theorem realSeen_still {s₀ s : State} {a : Nat} (ha : 0x800 ≤ a ∧ a < 0x900) (hK : Untouched s₀ s) : Untouched s₀ (realSeen a s) := by
  unfold realSeen
  split
  · exact classifyGroup_still ha hK
  · rename_i i e
    have hi : 0x800 ≤ i.addr ∧ i.addr < 0x900 := injecting_addr e ▸ ha
    split
    · exact injectDone_still (classifyGroup_still ha (injectCount_still _ _ _ hi hK))
    · exact injectDone_still (injectCount_still _ _ _ hi hK)

theorem seenSettle_still {s₀ s : State} (hK : Untouched s₀ s) : Untouched s₀ (seenSettle s) := by
  unfold seenSettle
  dsimp only
  split
  · exact hK
  · have h1 : Untouched s₀ { s with pool.seen := [] } := by simpa (disch := rfl) only [Untouched.set] using hK
    split
    · exact foldS_still h1 (fun e t => realSeen_still (by have h : b2n e.2 ≤ 1 := (by cases e.2 <;> decide); omega) (Untouched.refl t))
    · exact h1

theorem signalSettle_still {s₀ : State} {s : State} (hK : Untouched s₀ s) : Untouched s₀ (signalSettle s) := by
  unfold signalSettle
  try dsimp only
  repeat' first
    | with_reducible assumption
    | with_reducible apply alignSettle_still
    | with_reducible apply defectSettle_still
    | with_reducible apply ssfSettle_still
    | with_reducible apply ohSettle_still
    | with_reducible apply replSettle_still

theorem flushSettle_still {s₀ : State} {s : State} (hK : Untouched s₀ s) : Untouched s₀ (flushSettle s) := by
  unfold flushSettle
  try dsimp only
  repeat' first
    | with_reducible assumption
    | with_reducible apply finishWaiting_still
    | split

theorem settle_still {s₀ : State} {s : State} (hK : Untouched s₀ s) : Untouched s₀ (settle s) := by
  unfold settle
  try dsimp only
  repeat' first
    | with_reducible assumption
    | with_reducible exact Untouched.refl _
    | intro _
    | dsimp only
    | with_reducible apply defectSettle_still
    | with_reducible apply protSettle_still
    | with_reducible apply meterSettle_still
    | with_reducible apply leafSettle_still
    | with_reducible apply lcasSettle_still
    | with_reducible apply braidSettle_still
    | with_reducible apply weltSettle_still
    | with_reducible apply lostSettle_still
    | with_reducible apply candSettle_still
    | with_reducible apply tmcSettle_still
    | with_reducible apply restartSettle_still
    | with_reducible apply linkSettle_still
    | with_reducible apply twinSettle_still
    | with_reducible apply seenSettle_still
    | with_reducible apply signalSettle_still
    | with_reducible apply flushSettle_still
    | split

theorem cmdFaultRead_still {s₀ : State} (c : Ctx) (req : List Word) {s : State} (hK : Untouched s₀ s) : Untouched s₀ (cmdFaultRead c req s).2 := by
  unfold cmdFaultRead
  try dsimp only
  repeat' first
    | with_reducible assumption
    | with_reducible apply okWith_still
    | with_reducible apply ladder_still
    | split

theorem cmdSysInfo_still {s₀ : State} (x0 : Ctx) (x1 : List Word) {s : State} (hK : Untouched s₀ s) : Untouched s₀ (cmdSysInfo x0 x1 s).2 := by
  unfold cmdSysInfo
  try dsimp only
  repeat' first
    | with_reducible assumption
    | with_reducible apply okWith_still

theorem cmdSysEventMask_still {s₀ : State} (c : Ctx) (req : List Word) {s : State} (hK : Untouched s₀ s) : Untouched s₀ (cmdSysEventMask c req s).2 := by
  unfold cmdSysEventMask
  try dsimp only
  repeat' first
    | with_reducible assumption
    | with_reducible apply okWith_still
    | with_reducible apply ladder_still
    | split
    | simp (disch := rfl) only [Untouched.set]

theorem cmdSysViolationRead_still {s₀ : State} (c : Ctx) (x1 : List Word) {s : State} (hK : Untouched s₀ s) : Untouched s₀ (cmdSysViolationRead c x1 s).2 := by
  unfold cmdSysViolationRead
  try dsimp only
  repeat' first
    | with_reducible assumption
    | with_reducible apply okWith_still
    | with_reducible apply ladder_still
    | simp (disch := rfl) only [Untouched.set]

theorem partAsked_still {s₀ : State} (m : Nat) (part : Nat) {s : State} (hK : Untouched s₀ s) : Untouched s₀ (partAsked m part s) := by
  unfold partAsked
  try dsimp only
  repeat' first
    | with_reducible assumption
    | with_reducible exact Untouched.refl _
    | intro _
    | dsimp only
    | with_reducible apply modMbx_still
    | split
    | simp (disch := rfl) only [Untouched.set]

theorem cmdSysContinue_still {s₀ : State} (c : Ctx) (req : List Word) {s : State} (hK : Untouched s₀ s) : Untouched s₀ (cmdSysContinue c req s).2 := by
  unfold cmdSysContinue
  try dsimp only
  repeat' first
    | with_reducible assumption
    | with_reducible exact Untouched.refl _
    | intro _
    | dsimp only
    | with_reducible apply okWith_still
    | with_reducible apply partAsked_still
    | with_reducible apply ladder_still
    | split
    | simp (disch := rfl) only [Untouched.set]
    | simp (disch := rfl) only [Untouched.set]

theorem perhaps_still {s₀ : State} {f : State → State} {s : State} (hK : Untouched s₀ s) (k : ∀ t, Untouched t (f t)) : Untouched s₀ (perhaps f s) := by
  unfold perhaps
  have h := drawBit_still hK
  dsimp only
  split
  · exact h.trans (k _)
  · exact h

theorem openPoint_still {s₀ : State} (a : Nat) {s : State} (hK : Untouched s₀ s) : Untouched s₀ (openPoint a s) := by
  unfold openPoint
  try dsimp only
  repeat' first
    | with_reducible assumption
    | with_reducible exact Untouched.refl _
    | intro _
    | dsimp only
    | split
    | simp (disch := rfl) only [Untouched.set]
    | simp (disch := rfl) only [Untouched.set]

theorem openTraffic_still {s₀ : State} (k : Nat) {s : State} (hK : Untouched s₀ s) : Untouched s₀ (openTraffic k s) := by
  unfold openTraffic
  try dsimp only
  repeat' first
    | with_reducible assumption
    | with_reducible exact Untouched.refl _
    | intro _
    | dsimp only
    | with_reducible apply updChan_still
    | with_reducible apply perhaps_still
    | split
    | simp (disch := rfl) only [Untouched.set]

theorem openChan_still {s₀ : State} (fuel : Nat) (k : Nat) {s : State} (hK : Untouched s₀ s) : Untouched s₀ (openChan fuel k s) := by
  induction fuel generalizing s₀ k s with
  | zero => exact hK
  | succ f ih =>
    exact foldS_still (foldS_still (openTraffic_still k hK) (fun a t => openPoint_still a (Untouched.refl t))) (fun a t => ih a (Untouched.refl t))

theorem cmdLaneStatus_still {s₀ : State} (c : Ctx) (req : List Word) {s : State} (hK : Untouched s₀ s) : Untouched s₀ (cmdLaneStatus c req s).2 := by
  unfold cmdLaneStatus
  try dsimp only
  repeat' first
    | with_reducible assumption
    | with_reducible apply okWith_still
    | with_reducible apply ladder_still
    | split
    | simp (disch := rfl) only [Untouched.set]

theorem cmdPortCreate_still {s₀ : State} (c : Ctx) (req : List Word) {s : State} (hK : Untouched s₀ s) : Untouched s₀ (cmdPortCreate c req s).2 := by
  unfold cmdPortCreate
  try dsimp only
  repeat' first
    | with_reducible assumption
    | with_reducible exact Untouched.refl _
    | intro _
    | with_reducible apply okNone_still
    | with_reducible apply laneStart_still
    | with_reducible apply monCreate_still
    | with_reducible apply foldS_still
    | with_reducible apply ladder_still
    | simp (disch := rfl) only [Untouched.set]

theorem cmdPortStatus_still {s₀ : State} (c : Ctx) (req : List Word) {s : State} (hK : Untouched s₀ s) : Untouched s₀ (cmdPortStatus c req s).2 := by
  unfold cmdPortStatus
  try dsimp only
  repeat' first
    | with_reducible assumption
    | with_reducible apply okWith_still
    | with_reducible apply okNone_still
    | with_reducible apply ladder_still
    | split

theorem cmdAlignConfig_still {s₀ : State} (c : Ctx) (req : List Word) {s : State} (hK : Untouched s₀ s) : Untouched s₀ (cmdAlignConfig c req s).2 := by
  unfold cmdAlignConfig
  try dsimp only
  repeat' first
    | with_reducible assumption
    | with_reducible apply okNone_still
    | with_reducible apply updPort_still
    | with_reducible apply updChan_still
    | with_reducible apply ladder_still
    | split

theorem lofStep_still {s₀ : State} (p : Nat) (i : Nat) (v : Bool) {s : State} (hK : Untouched s₀ s) : Untouched s₀ (lofStep p i v s) := by
  unfold lofStep
  try dsimp only
  repeat' first
    | with_reducible assumption
    | with_reducible apply updPort_still

theorem lofLaneStep_still {s₀ : State} (p : Nat) (i : Nat) (v : Bool) {s : State} (hK : Untouched s₀ s) : Untouched s₀ (lofLaneStep p i v s) := by
  unfold lofLaneStep
  try dsimp only
  repeat' first
    | with_reducible assumption
    | with_reducible apply updPort_still

theorem lomStep_still {s₀ : State} (p : Nat) (i : Nat) (v : Bool) {s : State} (hK : Untouched s₀ s) : Untouched s₀ (lomStep p i v s) := by
  unfold lomStep
  try dsimp only
  repeat' first
    | with_reducible assumption
    | with_reducible apply updPort_still

theorem cmdOhRead_still {s₀ : State} (c : Ctx) (req : List Word) {s : State} (hK : Untouched s₀ s) : Untouched s₀ (cmdOhRead c req s).2 := by
  unfold cmdOhRead
  try dsimp only
  repeat' first
    | with_reducible assumption
    | with_reducible apply okWith_still
    | with_reducible apply ladder_still
    | simp (disch := rfl) only [Untouched.set]

theorem cmdOhWrite_still {s₀ : State} (c : Ctx) (req : List Word) {s : State} (hK : Untouched s₀ s) : Untouched s₀ (cmdOhWrite c req s).2 := by
  unfold cmdOhWrite
  try dsimp only
  repeat' first
    | with_reducible assumption
    | with_reducible exact Untouched.refl _
    | intro _
    | dsimp only
    | with_reducible apply okNone_still
    | with_reducible apply updOh_still
    | with_reducible apply foldS_still
    | with_reducible apply ladder_still
    | split
    | simp (disch := rfl) only [Untouched.set]

theorem cmdTtiSet_still {s₀ : State} (c : Ctx) (req : List Word) {s : State} (hK : Untouched s₀ s) : Untouched s₀ (cmdTtiSet c req s).2 := by
  unfold cmdTtiSet
  try dsimp only
  repeat' first
    | with_reducible assumption
    | with_reducible exact Untouched.refl _
    | intro _
    | dsimp only
    | with_reducible apply okNone_still
    | with_reducible apply setRaw_still
    | with_reducible apply updOh_still
    | with_reducible apply foldS_still
    | with_reducible apply ladder_still
    | split
    | simp (disch := rfl) only [Untouched.set]

theorem cmdTtiRead_still {s₀ : State} (c : Ctx) (req : List Word) {s : State} (hK : Untouched s₀ s) : Untouched s₀ (cmdTtiRead c req s).2 := by
  unfold cmdTtiRead
  try dsimp only
  repeat' first
    | with_reducible assumption
    | with_reducible apply okWith_still
    | with_reducible apply ladder_still

theorem rxComm_still {s₀ : State} (srv : Server) (f : RxFrame) {s : State} (hK : Untouched s₀ s) : Untouched s₀ (rxComm srv f s) := by
  unfold rxComm
  try dsimp only
  repeat' first
    | with_reducible assumption
    | with_reducible exact Untouched.refl _
    | intro _
    | with_reducible apply chanToFabric_still
    | with_reducible apply foldS_still
    | split

theorem rxAps_still {s₀ : State} (msp : Bool) (key : Nat) (obj : Nat) (lvl : Nat) {s : State} (hK : Untouched s₀ s) : Untouched s₀ (rxAps msp key obj lvl s) := by
  unfold rxAps
  try dsimp only
  repeat' first
    | with_reducible assumption
    | with_reducible exact Untouched.refl _
    | intro _
    | with_reducible apply apsAccept_still
    | with_reducible apply foldS_still
    | split

theorem rxProc_still {s₀ : State} (p : Nat) (i : Nat) (f : RxFrame) {s : State} (hK : Untouched s₀ s) : Untouched s₀ (rxProc p i f s) := by
  unfold rxProc
  try dsimp only
  repeat' first
    | with_reducible assumption
    | with_reducible apply updPort_still
    | with_reducible apply rxOtu_still
    | with_reducible apply rxStm_still
    | with_reducible apply rxComm_still
    | with_reducible apply rxAps_still
    | split

theorem rxOduFrame_still {s₀ : State} (k : Nat) (inst : Nat) (f : RxFrame) {s : State} (hK : Untouched s₀ s) : Untouched s₀ (rxOduFrame k inst f s) := by
  unfold rxOduFrame
  try dsimp only
  repeat' first
    | with_reducible assumption
    | with_reducible exact Untouched.refl _
    | intro _
    | dsimp only
    | with_reducible apply accField_still
    | with_reducible apply rxOdu_still
    | with_reducible apply rxJust_still
    | with_reducible apply rxVcat_still
    | with_reducible apply braidFrameZero_still
    | with_reducible apply rxComm_still
    | with_reducible apply rxAps_still
    | split
    | simp (disch := rfl) only [Untouched.set]

theorem commTake_still {s₀ : State} (k : Nat) (n : Nat) {s : State} (hK : Untouched s₀ s) : Untouched s₀ (commTake k n s).2 := by
  unfold commTake
  try dsimp only
  repeat' first
    | with_reducible assumption
    | with_reducible exact Untouched.refl _
    | intro _
    | dsimp only
    | with_reducible apply updChan_still
    | split
    | simp (disch := rfl) only [Untouched.set]

theorem commBytes_still {s₀ : State} (srv : Server) {s : State} (hK : Untouched s₀ s) : Untouched s₀ (commBytes srv s).2 :=
  foldPair_still hK (fun b a => by
    dsimp only
    split
    · exact commTake_still _ _ (Untouched.refl _)
    · exact Untouched.refl _)

theorem txDraw_still {s₀ : State} (self : List Nat) (srv : Server) (f : TxFrame) {s : State} (hK : Untouched s₀ s) : Untouched s₀ (txDraw self srv f s) := by
  unfold txDraw
  try dsimp only
  repeat' first
    | with_reducible assumption
    | with_reducible exact Untouched.refl _
    | intro _
    | dsimp only
    | with_reducible apply updChan_still
    | with_reducible apply adaptClient_still
    | with_reducible apply foldS_still
    | split
    | simp (disch := rfl) only [Untouched.set]

theorem txOduFrame_still {s₀ : State} (k : Nat) (inst : Nat) (f : TxFrame) {s : State} (hK : Untouched s₀ s) : Untouched s₀ (txOduFrame k inst f s) := by
  unfold txOduFrame
  try dsimp only
  repeat' first
    | with_reducible assumption
    | with_reducible exact Untouched.refl _
    | intro _
    | dsimp only
    | with_reducible apply updOh_still
    | with_reducible apply txOdu_still
    | with_reducible apply txJust_still
    | with_reducible apply txVcoh_still
    | with_reducible apply memberFrame_still
    | with_reducible apply bridgeFrame_still
    | with_reducible apply commBytes_still
    | with_reducible apply txDraw_still
    | with_reducible apply foldl_still
    | split
    | simp (disch := rfl) only [Untouched.set]

theorem txVcFrame_still {s₀ : State} (k : Nat) (f : TxFrame) {s : State} (hK : Untouched s₀ s) : Untouched s₀ (txVcFrame k f s) := by
  unfold txVcFrame
  try dsimp only
  repeat' first
    | with_reducible assumption
    | with_reducible exact Untouched.refl _
    | intro _
    | dsimp only
    | with_reducible apply updOh_still
    | with_reducible apply txVc_still
    | with_reducible apply txPointer_still
    | with_reducible apply txH4_still
    | with_reducible apply txDraw_still
    | split
    | simp (disch := rfl) only [Untouched.set]

theorem oduReady_still {s₀ : State} (p : Nat) (inst : Nat) (f : TxFrame) {s : State} (hK : Untouched s₀ s) : Untouched s₀ (oduReady p inst f s) := by
  unfold oduReady
  try dsimp only
  repeat' first
    | with_reducible assumption
    | with_reducible exact Untouched.refl _
    | intro _
    | dsimp only
    | with_reducible apply updOh_still
    | with_reducible apply txOduFrame_still
    | split
    | simp (disch := rfl) only [Untouched.set]

theorem txPort_still {s₀ : State} (p : Nat) (i : Nat) (f : TxFrame) {s : State} (hK : Untouched s₀ s) : Untouched s₀ (txPort p i f s) := by
  unfold txPort
  try dsimp only
  repeat' first
    | with_reducible assumption
    | with_reducible exact Untouched.refl _
    | intro _
    | dsimp only
    | with_reducible apply txOtu_still
    | with_reducible apply txStm_still
    | with_reducible apply lineSend_still
    | with_reducible apply commBytes_still
    | with_reducible apply txDraw_still
    | with_reducible apply oduReady_still
    | split
    | simp (disch := rfl) only [Untouched.set]

theorem dropWritten_still {s₀ : State} (key : Nat) (idx : List Nat) {s : State} (hK : Untouched s₀ s) : Untouched s₀ (dropWritten key idx s) := by
  unfold dropWritten
  try dsimp only
  repeat' first
    | with_reducible assumption
    | with_reducible apply updOh_still

theorem iaeStart_still {s₀ : State} (k : Nat) (w : List Word) {s : State} (hK : Untouched s₀ s) : Untouched s₀ (iaeStart k w s) := by
  unfold iaeStart
  try dsimp only
  repeat' first
    | with_reducible assumption
    | with_reducible exact Untouched.refl _
    | intro _
    | dsimp only
    | with_reducible apply updOh_still
    | with_reducible apply foldS_still
    | split
    | simp (disch := rfl) only [Untouched.set]

theorem chanAdd_still {s₀ : State} (k : Nat) (w : List Word) (en : Bool) {s : State} (hK : Untouched s₀ s) : Untouched s₀ (chanAdd k w en s) := by
  unfold chanAdd
  try dsimp only
  repeat' first
    | with_reducible assumption
    | with_reducible exact Untouched.refl _
    | intro _
    | dsimp only
    | with_reducible apply updMon_still
    | with_reducible apply monCreate_still
    | with_reducible apply dropWritten_still
    | with_reducible apply iaeStart_still
    | with_reducible apply foldl_still
    | split
    | simp (disch := rfl) only [Untouched.set]

theorem cmdChanCreate_still {s₀ : State} (c : Ctx) (req : List Word) {s : State} (hK : Untouched s₀ s) : Untouched s₀ (cmdChanCreate c req s).2 := by
  unfold cmdChanCreate
  try dsimp only
  repeat' first
    | with_reducible assumption
    | with_reducible apply okNone_still
    | with_reducible apply connectFabric_still
    | with_reducible apply chanAdd_still
    | with_reducible apply ladder_still
    | split

theorem modeChange_still {s₀ : State} (k : Nat) (w : List Word) (w' : List Word) (lvl : Nat) {s : State} (hK : Untouched s₀ s) : Untouched s₀ (modeChange k w w' lvl s) := by
  unfold modeChange
  try dsimp only
  repeat' first
    | with_reducible assumption
    | with_reducible exact Untouched.refl _
    | intro _
    | dsimp only
    | with_reducible apply updMon_still
    | with_reducible apply updOh_still
    | with_reducible apply foldS_still
    | split
    | simp (disch := rfl) only [Untouched.set]

theorem chanModify_still {s₀ : State} (k : Nat) (w' : List Word) {s : State} (hK : Untouched s₀ s) : Untouched s₀ (chanModify k w' s) := by
  unfold chanModify
  try dsimp only
  repeat' first
    | with_reducible assumption
    | with_reducible exact Untouched.refl _
    | intro _
    | dsimp only
    | with_reducible apply updChan_still
    | with_reducible apply msiSettle_still
    | with_reducible apply monCreate_still
    | with_reducible apply monDelete_still
    | with_reducible apply iaeStart_still
    | with_reducible apply modeChange_still
    | with_reducible apply foldS_still
    | split
    | simp (disch := rfl) only [Untouched.set]

theorem writersStop_still {s₀ : State} (k : Nat) {s : State} (hK : Untouched s₀ s) : Untouched s₀ (writersStop k s) := by
  unfold writersStop
  try dsimp only
  repeat' first
    | with_reducible assumption
    | with_reducible exact Untouched.refl _
    | intro _
    | dsimp only
    | with_reducible apply writerGone_still
    | with_reducible apply foldS_still
    | split

theorem chanEnable_still {s₀ : State} (k : Nat) (en : Bool) {s : State} (hK : Untouched s₀ s) : Untouched s₀ (chanEnable k en s) := by
  unfold chanEnable
  try dsimp only
  repeat' first
    | with_reducible assumption
    | with_reducible exact Untouched.refl _
    | intro _
    | dsimp only
    | with_reducible apply leafNext_still
    | with_reducible apply iaeStart_still
    | with_reducible apply writersStop_still
    | split
    | simp (disch := rfl) only [Untouched.set]

theorem openMerged_still {s₀ : State} (k : Nat) {s : State} (hK : Untouched s₀ s) : Untouched s₀ (openMerged k s) := by
  unfold openMerged
  try dsimp only
  repeat' first
    | with_reducible assumption
    | with_reducible exact Untouched.refl _
    | intro _
    | dsimp only
    | split
    | simp (disch := rfl) only [Untouched.set]
    | simp (disch := rfl) only [Untouched.set]

theorem modifyMisuse_still {s₀ : State} (k : Nat) {s : State} (hK : Untouched s₀ s) : Untouched s₀ (modifyMisuse k s) := by
  unfold modifyMisuse
  try dsimp only
  repeat' first
    | with_reducible assumption
    | with_reducible exact Untouched.refl _
    | intro _
    | dsimp only
    | with_reducible apply openPoint_still
    | with_reducible apply openChan_still
    | with_reducible apply openMerged_still
    | with_reducible apply foldS_still
    | split
    | simp (disch := rfl) only [Untouched.set]

theorem cmdChanModify_still {s₀ : State} (c : Ctx) (req : List Word) {s : State} (hK : Untouched s₀ s) : Untouched s₀ (cmdChanModify c req s).2 := by
  unfold cmdChanModify
  try dsimp only
  repeat' first
    | with_reducible assumption
    | with_reducible exact Untouched.refl _
    | intro _
    | dsimp only
    | with_reducible apply okWith_still
    | with_reducible apply okNone_still
    | with_reducible apply chanModify_still
    | with_reducible apply chanEnable_still
    | with_reducible apply modifyMisuse_still
    | with_reducible apply ladder_still
    | split
    | simp (disch := rfl) only [Untouched.set]

theorem connMade_still {s₀ : State} (kind k t : Nat) {s : State} (hK : Untouched s₀ s) : Untouched s₀ (connMade kind k t s) := by
  unfold connMade
  repeat' first
    | with_reducible assumption
    | with_reducible apply connectFabric_still
    | with_reducible apply connectHairpin_still
    | with_reducible apply connectQueue_still
    | split

theorem cmdXcConnect_still {s₀ : State} (c : Ctx) (req : List Word) {s : State} (hK : Untouched s₀ s) : Untouched s₀ (cmdXcConnect c req s).2 := by
  unfold cmdXcConnect
  try dsimp only
  repeat' first
    | with_reducible assumption
    | with_reducible apply okNone_still
    | with_reducible apply connMade_still
    | with_reducible apply ladder_still
    | split

theorem cmdXcDisconnect_still {s₀ : State} (c : Ctx) (req : List Word) {s : State} (hK : Untouched s₀ s) : Untouched s₀ (cmdXcDisconnect c req s).2 := by
  unfold cmdXcDisconnect
  try dsimp only
  repeat' first
    | with_reducible assumption
    | with_reducible exact Untouched.refl _
    | intro _
    | dsimp only
    | with_reducible apply okNone_still
    | with_reducible apply disconnect_still
    | with_reducible apply ladder_still
    | split
    | simp (disch := rfl) only [Untouched.set]

theorem cmdDefectRead_still {s₀ : State} (c : Ctx) (req : List Word) {s : State} (hK : Untouched s₀ s) : Untouched s₀ (cmdDefectRead c req s).2 := by
  unfold cmdDefectRead
  try dsimp only
  repeat' first
    | with_reducible assumption
    | with_reducible exact Untouched.refl _
    | intro _
    | dsimp only
    | with_reducible apply okWith_still
    | with_reducible apply updMon_still
    | with_reducible apply ladder_still
    | split
    | simp (disch := rfl) only [Untouched.set]

theorem cmdDefectConfig_still {s₀ : State} (c : Ctx) (req : List Word) {s : State} (hK : Untouched s₀ s) : Untouched s₀ (cmdDefectConfig c req s).2 := by
  unfold cmdDefectConfig
  try dsimp only
  repeat' first
    | with_reducible assumption
    | with_reducible exact Untouched.refl _
    | intro _
    | dsimp only
    | with_reducible apply okNone_still
    | with_reducible apply updMon_still
    | with_reducible apply ladder_still
    | split

theorem cmdPmRead_still {s₀ : State} (c : Ctx) (req : List Word) {s : State} (hK : Untouched s₀ s) : Untouched s₀ (cmdPmRead c req s).2 := by
  unfold cmdPmRead
  try dsimp only
  repeat' first
    | with_reducible assumption
    | with_reducible exact Untouched.refl _
    | intro _
    | dsimp only
    | with_reducible apply okWith_still
    | with_reducible apply ladder_still
    | split

theorem cmdPmHistory_still {s₀ : State} (c : Ctx) (req : List Word) {s : State} (hK : Untouched s₀ s) : Untouched s₀ (cmdPmHistory c req s).2 := by
  unfold cmdPmHistory
  try dsimp only
  repeat' first
    | with_reducible assumption
    | with_reducible exact Untouched.refl _
    | intro _
    | dsimp only
    | with_reducible apply okWith_still
    | with_reducible apply ladder_still
    | split

theorem failureAt_still {s₀ : State} (a : Nat) (b : Nat) (v : Bool) (t : Nat) {s : State} (hK : Untouched s₀ s) : Untouched s₀ (failureAt a b v t s) := by
  unfold failureAt
  try dsimp only
  repeat' first
    | with_reducible assumption
    | with_reducible exact Untouched.refl _
    | intro _
    | dsimp only
    | with_reducible apply raiseAt_still
    | with_reducible apply updMon_still
    | split
    | simp (disch := rfl) only [Untouched.set]

theorem braidQueue_still {s₀ : State} (g : Nat) (limit : Nat) {s : State} (hK : Untouched s₀ s) : Untouched s₀ (braidQueue g limit s).2 := by
  unfold braidQueue
  try dsimp only
  repeat' first
    | with_reducible assumption
    | simp (disch := rfl) only [Untouched.set]

theorem addClient_still {s₀ : State} (g : Nat) (e : ClientEntry) {s : State} (hK : Untouched s₀ s) : Untouched s₀ (addClient g e s) := by
  unfold addClient
  try dsimp only
  repeat' first
    | with_reducible assumption
    | with_reducible apply updSide_still
    | with_reducible apply braidQueue_still
    | split

theorem addClients_still {s₀ : State} (g : Nat) (es : List ClientEntry) {s : State} (hK : Untouched s₀ s) : Untouched s₀ (addClients g es s).2 :=
  foldPair_still hK (fun b e => addClient_still g e (Untouched.refl b.2))

theorem dropClient_still {s₀ : State} (g : Nat) (tx : Bool) (c : Nat) {s : State} (hK : Untouched s₀ s) : Untouched s₀ (dropClient g tx c s) := by
  unfold dropClient
  try dsimp only
  repeat' first
    | with_reducible assumption
    | with_reducible apply dropQueue_still
    | with_reducible apply updSide_still
    | split

theorem braidDelete_still {s₀ : State} (g : Nat) {s : State} (hK : Untouched s₀ s) : Untouched s₀ (braidDelete g s) := by
  unfold braidDelete
  try dsimp only
  repeat' first
    | with_reducible assumption
    | with_reducible exact Untouched.refl _
    | intro _
    | with_reducible apply monDelete_still
    | with_reducible apply dropClient_still
    | with_reducible apply foldS_still
    | simp (disch := rfl) only [Untouched.set]

theorem cmdBraidCreate_still {s₀ : State} (c : Ctx) (req : List Word) {s : State} (hK : Untouched s₀ s) : Untouched s₀ (cmdBraidCreate c req s).2 := by
  unfold cmdBraidCreate
  try dsimp only
  repeat' first
    | with_reducible assumption
    | with_reducible exact Untouched.refl _
    | intro _
    | with_reducible apply okNone_still
    | with_reducible apply monCreate_still
    | with_reducible apply addClients_still
    | with_reducible apply dropClient_still
    | with_reducible apply braidDelete_still
    | with_reducible apply foldS_still
    | with_reducible apply ladder_still
    | split
    | simp (disch := rfl) only [Untouched.set]

theorem addMember_still {s₀ : State} (g : Nat) (tx : Bool) (spare : Bool) (midx : Nat) (ch : Nat) {s : State} (hK : Untouched s₀ s) : Untouched s₀ (addMember g tx spare midx ch s) := by
  unfold addMember
  try dsimp only
  repeat' first
    | with_reducible assumption
    | with_reducible exact Untouched.refl _
    | intro _
    | dsimp only
    | with_reducible apply updSide_still
    | with_reducible apply dropWritten_still
    | with_reducible apply braidQueue_still
    | split
    | simp (disch := rfl) only [Untouched.set]

theorem cmdBraidMemberAdd_still {s₀ : State} (c : Ctx) (req : List Word) {s : State} (hK : Untouched s₀ s) : Untouched s₀ (cmdBraidMemberAdd c req s).2 := by
  unfold cmdBraidMemberAdd
  try dsimp only
  repeat' first
    | with_reducible assumption
    | dsimp only
    | with_reducible apply addMember_still
    | with_reducible apply ladder_still

theorem forceRemove_still {s₀ : State} (g : Nat) (tx : Bool) (midx : Nat) {s : State} (hK : Untouched s₀ s) : Untouched s₀ (forceRemove g tx midx s) := by
  unfold forceRemove
  try dsimp only
  repeat' first
    | with_reducible assumption
    | with_reducible exact Untouched.refl _
    | intro _
    | dsimp only
    | with_reducible apply dropQueue_still
    | with_reducible apply updSide_still
    | with_reducible apply updMember_still
    | with_reducible apply evtMemberGone_still
    | with_reducible apply toAcquire_still
    | with_reducible apply dropMember_still
    | split
    | simp (disch := rfl) only [Untouched.set]

theorem txRemove_still {s₀ : State} (g : Nat) (midx : Nat) {s : State} (hK : Untouched s₀ s) : Untouched s₀ (txRemove g midx s) := by
  unfold txRemove
  try dsimp only
  repeat' first
    | with_reducible assumption
    | with_reducible exact Untouched.refl _
    | intro _
    | dsimp only
    | with_reducible apply updSide_still
    | with_reducible apply updMember_still
    | with_reducible apply evtMemberNow_still
    | with_reducible apply txRequest_still
    | with_reducible apply removesDone_still
    | split
    | simp (disch := rfl) only [Untouched.set]

theorem cmdBraidMemberRemove_still {s₀ : State} (c : Ctx) (req : List Word) {s : State} (hK : Untouched s₀ s) : Untouched s₀ (cmdBraidMemberRemove c req s).2 := by
  unfold cmdBraidMemberRemove
  try dsimp only
  repeat' first
    | with_reducible assumption
    | with_reducible exact Untouched.refl _
    | intro _
    | dsimp only
    | with_reducible apply okNone_still
    | with_reducible apply updMember_still
    | with_reducible apply forceRemove_still
    | with_reducible apply txRemove_still
    | with_reducible apply ladder_still
    | split
    | simp (disch := rfl) only [Untouched.set]

theorem cmdBraidStatus_still {s₀ : State} (c : Ctx) (req : List Word) {s : State} (hK : Untouched s₀ s) : Untouched s₀ (cmdBraidStatus c req s).2 := by
  unfold cmdBraidStatus
  try dsimp only
  repeat' first
    | with_reducible assumption
    | with_reducible apply okWith_still
    | with_reducible apply okNone_still
    | with_reducible apply updSide_still
    | with_reducible apply ladder_still
    | split

theorem queueSet_still {s₀ : State} (x op : Nat) (n : Queue) {s : State} (hK : Untouched s₀ s) : Untouched s₀ (queueSet x op n s) := by
  unfold queueSet
  try dsimp only
  repeat' first
    | with_reducible assumption
    | with_reducible apply updQ_still
    | with_reducible apply fillMeter_still
    | split
    | simp (disch := rfl) only [Untouched.set]

theorem cmdQueueConfig_still {s₀ : State} (c : Ctx) (req : List Word) {s : State} (hK : Untouched s₀ s) : Untouched s₀ (cmdQueueConfig c req s).2 := by
  unfold cmdQueueConfig
  try dsimp only
  repeat' first
    | with_reducible assumption
    | with_reducible apply okWith_still
    | with_reducible apply okNone_still
    | with_reducible apply queueSet_still
    | with_reducible apply flushQ_still
    | with_reducible apply dropQueue_still
    | with_reducible apply ladder_still
    | split

theorem cmdQueueCount_still {s₀ : State} (c : Ctx) (req : List Word) {s : State} (hK : Untouched s₀ s) : Untouched s₀ (cmdQueueCount c req s).2 := by
  unfold cmdQueueCount
  try dsimp only
  repeat' first
    | with_reducible assumption
    | with_reducible apply okWith_still
    | with_reducible apply okNone_still
    | with_reducible apply ladder_still
    | split

theorem cmdQueueFlush_still {s₀ : State} (c : Ctx) (req : List Word) {s : State} (hK : Untouched s₀ s) : Untouched s₀ (cmdQueueFlush c req s).2 := by
  unfold cmdQueueFlush
  try dsimp only
  repeat' first
    | with_reducible assumption
    | with_reducible exact Untouched.refl _
    | intro _
    | dsimp only
    | with_reducible apply okNone_still
    | with_reducible apply updQ_still
    | with_reducible apply takeFlush_still
    | with_reducible apply ladder_still
    | split
    | simp (disch := rfl) only [Untouched.set]

theorem cmdQueueScan_still {s₀ : State} (c : Ctx) (req : List Word) {s : State} (hK : Untouched s₀ s) : Untouched s₀ (cmdQueueScan c req s).2 := by
  unfold cmdQueueScan
  try dsimp only
  repeat' first
    | with_reducible assumption
    | with_reducible apply okWith_still
    | with_reducible apply ladder_still
    | split
    | simp (disch := rfl) only [Untouched.set]

theorem cmdPoolStatus_still {s₀ : State} (c : Ctx) (x1 : List Word) {s : State} (hK : Untouched s₀ s) : Untouched s₀ (cmdPoolStatus c x1 s).2 := by
  unfold cmdPoolStatus
  try dsimp only
  repeat' first
    | with_reducible assumption
    | with_reducible apply okWith_still
    | with_reducible apply ladder_still

theorem protAdd_still {s₀ : State} (n : Nat) (w : List Word) {s : State} (hK : Untouched s₀ s) : Untouched s₀ (protAdd n w s) := by
  unfold protAdd
  try dsimp only
  repeat' first
    | with_reducible assumption
    | with_reducible exact Untouched.refl _
    | intro _
    | dsimp only
    | with_reducible apply connectFabric_still
    | with_reducible apply dropWritten_still
    | with_reducible apply foldS_still
    | split
    | simp (disch := rfl) only [Untouched.set]

theorem protDrop_still {s₀ : State} (n : Nat) {s : State} (hK : Untouched s₀ s) : Untouched s₀ (protDrop n s) := by
  unfold protDrop
  try dsimp only
  repeat' first
    | with_reducible assumption
    | with_reducible exact Untouched.refl _
    | intro _
    | with_reducible apply updChan_still
    | with_reducible apply foldS_still
    | split
    | simp (disch := rfl) only [Untouched.set]

theorem cmdProtGroupCreate_still {s₀ : State} (c : Ctx) (req : List Word) {s : State} (hK : Untouched s₀ s) : Untouched s₀ (cmdProtGroupCreate c req s).2 := by
  unfold cmdProtGroupCreate
  try dsimp only
  repeat' first
    | with_reducible assumption
    | with_reducible apply okWith_still
    | with_reducible apply okNone_still
    | with_reducible apply protAdd_still
    | with_reducible apply protDrop_still
    | with_reducible apply ladder_still
    | split
    | simp (disch := rfl) only [Untouched.set]

theorem cmdProtCommand_still {s₀ : State} (c : Ctx) (req : List Word) {s : State} (hK : Untouched s₀ s) : Untouched s₀ (cmdProtCommand c req s).2 := by
  unfold cmdProtCommand
  try dsimp only
  repeat' first
    | with_reducible assumption
    | with_reducible exact Untouched.refl _
    | intro _
    | dsimp only
    | with_reducible apply okNone_still
    | with_reducible apply sendDecision_still
    | with_reducible apply ladder_still
    | split
    | simp (disch := rfl) only [Untouched.set]

theorem cmdProtStatus_still {s₀ : State} (c : Ctx) (req : List Word) {s : State} (hK : Untouched s₀ s) : Untouched s₀ (cmdProtStatus c req s).2 := by
  unfold cmdProtStatus
  try dsimp only
  repeat' first
    | with_reducible assumption
    | with_reducible exact Untouched.refl _
    | intro _
    | dsimp only
    | with_reducible apply okWith_still
    | with_reducible apply okNone_still
    | with_reducible apply ladder_still
    | split
    | simp (disch := rfl) only [Untouched.set]
    | simp (disch := rfl) only [Untouched.set]

theorem weltAdd_still {s₀ : State} (n : Nat) (req : List Word) {s : State} (hK : Untouched s₀ s) : Untouched s₀ (weltAdd n req s) := by
  unfold weltAdd
  try dsimp only
  repeat' first
    | with_reducible assumption
    | with_reducible exact Untouched.refl _
    | intro _
    | dsimp only
    | with_reducible apply weltDisable_still
    | with_reducible apply weltEnable_still
    | with_reducible apply monCreate_still
    | with_reducible apply dropWritten_still
    | with_reducible apply foldS_still
    | split
    | simp (disch := rfl) only [Untouched.set]

theorem weltDrop_still {s₀ : State} (n : Nat) {s : State} (hK : Untouched s₀ s) : Untouched s₀ (weltDrop n s) := by
  unfold weltDrop
  try dsimp only
  repeat' first
    | with_reducible assumption
    | with_reducible apply updChan_still
    | with_reducible apply dropQueue_still
    | with_reducible apply monDelete_still
    | split
    | simp (disch := rfl) only [Untouched.set]

theorem bridgeAdd_still {s₀ : State} (req : List Word) {s : State} (hK : Untouched s₀ s) : Untouched s₀ (bridgeAdd req s) := by
  unfold bridgeAdd
  try dsimp only
  repeat' first
    | with_reducible assumption
    | with_reducible exact Untouched.refl _
    | intro _
    | dsimp only
    | with_reducible apply updOh_still
    | with_reducible apply connectFabric_still
    | with_reducible apply dropWritten_still
    | with_reducible apply foldS_still
    | split
    | simp (disch := rfl) only [Untouched.set]

theorem bridgeDrop_still {s₀ : State} (a : Nat) {s : State} (hK : Untouched s₀ s) : Untouched s₀ (bridgeDrop a s) := by
  unfold bridgeDrop
  try dsimp only
  repeat' first
    | with_reducible assumption
    | with_reducible exact Untouched.refl _
    | intro _
    | with_reducible apply updChan_still
    | with_reducible apply foldS_still
    | split
    | simp (disch := rfl) only [Untouched.set]

theorem weltSet_still {s₀ : State} (op n : Nat) (req : List Word) {s : State} (hK : Untouched s₀ s) : Untouched s₀ (weltSet op n req s) := by
  unfold weltSet
  try dsimp only
  repeat' first
    | with_reducible assumption
    | with_reducible apply updWelt_still
    | with_reducible apply weltEnable_still
    | with_reducible apply weltAdd_still
    | with_reducible apply bridgeAdd_still
    | split

theorem cmdWeltCreate_still {s₀ : State} (c : Ctx) (req : List Word) {s : State} (hK : Untouched s₀ s) : Untouched s₀ (cmdWeltCreate c req s).2 := by
  unfold cmdWeltCreate
  try dsimp only
  repeat' first
    | with_reducible assumption
    | with_reducible apply okNone_still
    | with_reducible apply weltSet_still
    | with_reducible apply weltRealign_still
    | with_reducible apply weltDrop_still
    | with_reducible apply bridgeDrop_still
    | with_reducible apply ladder_still
    | split

theorem cmdWeltStatus_still {s₀ : State} (c : Ctx) (req : List Word) {s : State} (hK : Untouched s₀ s) : Untouched s₀ (cmdWeltStatus c req s).2 := by
  unfold cmdWeltStatus
  try dsimp only
  repeat' first
    | with_reducible assumption
    | with_reducible apply okWith_still
    | with_reducible apply okNone_still
    | with_reducible apply updWelt_still
    | with_reducible apply ladder_still
    | split

theorem candBegin_still {s₀ : State} (c : Nat) {s : State} (hK : Untouched s₀ s) : Untouched s₀ (candBegin c s) := by
  unfold candBegin
  try dsimp only
  repeat' first
    | with_reducible assumption
    | with_reducible exact Untouched.refl _
    | intro _
    | dsimp only
    | with_reducible apply modCand_still
    | split
    | simp (disch := rfl) only [Untouched.set]
    | simp (disch := rfl) only [Untouched.set]

theorem rankReselect_still {s₀ : State} (c : Nat) (old : Candidate) {s : State} (hK : Untouched s₀ s) : Untouched s₀ (rankReselect c old s) := by
  unfold rankReselect
  try dsimp only
  repeat' first
    | with_reducible assumption
    | with_reducible exact Untouched.refl _
    | intro _
    | with_reducible apply runSelect_still
    | with_reducible apply foldS_still

theorem refApply_still {s₀ : State} (c : Nat) (en : Bool) (pulse : Bool) (req : List Word) {s : State} (hK : Untouched s₀ s) : Untouched s₀ (refApply c en pulse req s) := by
  unfold refApply
  try dsimp only
  repeat' first
    | with_reducible assumption
    | with_reducible exact Untouched.refl _
    | intro _
    | dsimp only
    | with_reducible apply modCand_still
    | with_reducible apply evtRef_still
    | with_reducible apply candReselect_still
    | with_reducible apply candBegin_still
    | with_reducible apply rankReselect_still
    | split
    | simp (disch := rfl) only [Untouched.set]

theorem cmdTmcRefConfig_still {s₀ : State} (c : Ctx) (req : List Word) {s : State} (hK : Untouched s₀ s) : Untouched s₀ (cmdTmcRefConfig c req s).2 := by
  unfold cmdTmcRefConfig
  try dsimp only
  repeat' first
    | with_reducible assumption
    | with_reducible apply okWith_still
    | with_reducible apply okNone_still
    | with_reducible apply refApply_still
    | with_reducible apply ladder_still
    | split

theorem ocxoLost_still {s₀ : State} {s : State} (hK : Untouched s₀ s) : Untouched s₀ (ocxoLost s) := by
  unfold ocxoLost
  try dsimp only
  repeat' first
    | with_reducible assumption
    | with_reducible exact Untouched.refl _
    | intro _
    | with_reducible apply raise_still
    | with_reducible apply stick_still
    | with_reducible apply foldS_still
    | split
    | simp (disch := rfl) only [Untouched.set]

theorem toDco_still {s₀ : State} (d : Nat) {s : State} (hK : Untouched s₀ s) : Untouched s₀ (toDco d s) := by
  unfold toDco
  try dsimp only
  repeat' first
    | with_reducible assumption
    | with_reducible apply modDpll_still
    | with_reducible apply enterState_still
    | with_reducible apply applySelect_still
    | split

theorem fromDco_still {s₀ : State} (d : Nat) {s : State} (hK : Untouched s₀ s) : Untouched s₀ (fromDco d s) := by
  unfold fromDco
  try dsimp only
  repeat' first
    | with_reducible assumption
    | with_reducible apply modDpll_still
    | with_reducible apply enterState_still
    | with_reducible apply startLoop_still
    | split

theorem dpllConfig_still {s₀ : State} (d : Nat) (ws : List Word) {s : State} (hK : Untouched s₀ s) : Untouched s₀ (dpllConfig d ws s) := by
  unfold dpllConfig
  try dsimp only
  repeat' first
    | with_reducible assumption
    | with_reducible apply modDpll_still
    | with_reducible apply runSelect_still
    | with_reducible apply toDco_still
    | with_reducible apply fromDco_still
    | split

theorem dpllForce_still {s₀ : State} (d : Nat) (op : Nat) (c : Nat) {s : State} (hK : Untouched s₀ s) : Untouched s₀ (dpllForce d op c s) := by
  unfold dpllForce
  try dsimp only
  repeat' first
    | with_reducible assumption
    | with_reducible apply modDpll_still
    | with_reducible apply applySelect_still
    | with_reducible apply runSelect_still
    | split

theorem cmdTmcSelect_still {s₀ : State} (c : Ctx) (req : List Word) {s : State} (hK : Untouched s₀ s) : Untouched s₀ (cmdTmcSelect c req s).2 := by
  unfold cmdTmcSelect
  try dsimp only
  repeat' first
    | with_reducible assumption
    | with_reducible apply okWith_still
    | with_reducible apply okNone_still
    | with_reducible apply ocxoLost_still
    | with_reducible apply dpllConfig_still
    | with_reducible apply dpllForce_still
    | with_reducible apply ladder_still
    | split
    | simp (disch := rfl) only [Untouched.set]

theorem cmdTmcDcoSteer_still {s₀ : State} (c : Ctx) (req : List Word) {s : State} (hK : Untouched s₀ s) : Untouched s₀ (cmdTmcDcoSteer c req s).2 := by
  unfold cmdTmcDcoSteer
  try dsimp only
  repeat' first
    | with_reducible assumption
    | with_reducible apply okNone_still
    | with_reducible apply modDpll_still
    | with_reducible apply phaseAdj_still
    | with_reducible apply ladder_still
    | split

theorem outApply_still {s₀ : State} (n : Nat) (ws : List Word) {s : State} (hK : Untouched s₀ s) : Untouched s₀ (outApply n ws s) := by
  unfold outApply
  try dsimp only
  repeat' first
    | with_reducible assumption
    | with_reducible exact Untouched.refl _
    | intro _
    | dsimp only
    | with_reducible apply modOut_still
    | with_reducible apply evtOutput_still
    | split
    | simp (disch := rfl) only [Untouched.set]

theorem cmdTmcOutputConfig_still {s₀ : State} (c : Ctx) (req : List Word) {s : State} (hK : Untouched s₀ s) : Untouched s₀ (cmdTmcOutputConfig c req s).2 := by
  unfold cmdTmcOutputConfig
  try dsimp only
  repeat' first
    | with_reducible assumption
    | with_reducible apply okWith_still
    | with_reducible apply okNone_still
    | with_reducible apply outApply_still
    | with_reducible apply ladder_still
    | split

theorem cmdTmcStatus_still {s₀ : State} (c : Ctx) (req : List Word) {s : State} (hK : Untouched s₀ s) : Untouched s₀ (cmdTmcStatus c req s).2 := by
  unfold cmdTmcStatus
  try dsimp only
  repeat' first
    | with_reducible assumption
    | with_reducible apply okWith_still
    | with_reducible apply modDpll_still
    | with_reducible apply ladder_still
    | split

theorem histReply_still {s₀ : State} (l : List (Nat × List Word)) {s : State} (hK : Untouched s₀ s) : Untouched s₀ (histReply l s).2 := by
  unfold histReply
  try dsimp only
  repeat' first
    | with_reducible assumption
    | with_reducible apply okWith_still
    | split
    | simp (disch := rfl) only [Untouched.set]

theorem cmdTmcHistory_still {s₀ : State} (c : Ctx) (req : List Word) {s : State} (hK : Untouched s₀ s) : Untouched s₀ (cmdTmcHistory c req s).2 := by
  unfold cmdTmcHistory
  try dsimp only
  repeat' first
    | with_reducible assumption
    | with_reducible exact Untouched.refl _
    | intro _
    | dsimp only
    | with_reducible apply histReply_still
    | with_reducible apply ladder_still
    | split

theorem candTimers_still {s₀ : State} {s : State} (hK : Untouched s₀ s) : Untouched s₀ (candTimers s) := by
  unfold candTimers
  try dsimp only
  repeat' first
    | with_reducible assumption
    | with_reducible exact Untouched.refl _
    | intro _
    | with_reducible apply modCand_still
    | with_reducible apply foldS_still
    | split

theorem cmdTemperConfig_still {s₀ : State} (c : Ctx) (req : List Word) {s : State} (hK : Untouched s₀ s) : Untouched s₀ (cmdTemperConfig c req s).2 := by
  unfold cmdTemperConfig
  try dsimp only
  repeat' first
    | with_reducible assumption
    | with_reducible exact Untouched.refl _
    | intro _
    | dsimp only
    | with_reducible apply okWith_still
    | with_reducible apply okNone_still
    | with_reducible apply modCand_still
    | with_reducible apply modDpll_still
    | with_reducible apply ladder_still
    | split
    | simp (disch := rfl) only [Untouched.set]

theorem cmdTemperBankLoad_still {s₀ : State} (c : Ctx) (req : List Word) {s : State} (hK : Untouched s₀ s) : Untouched s₀ (cmdTemperBankLoad c req s).2 := by
  unfold cmdTemperBankLoad
  try dsimp only
  repeat' first
    | with_reducible assumption
    | with_reducible apply okNone_still
    | with_reducible apply modCand_still
    | with_reducible apply ladder_still
    | split

theorem cmdTemperBankSwap_still {s₀ : State} (c : Ctx) (req : List Word) {s : State} (hK : Untouched s₀ s) : Untouched s₀ (cmdTemperBankSwap c req s).2 := by
  unfold cmdTemperBankSwap
  try dsimp only
  repeat' first
    | with_reducible assumption
    | with_reducible apply okNone_still
    | with_reducible apply modCand_still
    | with_reducible apply ladder_still

theorem cmdTemperStatus_still {s₀ : State} (c : Ctx) (req : List Word) {s : State} (hK : Untouched s₀ s) : Untouched s₀ (cmdTemperStatus c req s).2 := by
  unfold cmdTemperStatus
  try dsimp only
  repeat' first
    | with_reducible assumption
    | with_reducible apply okWith_still
    | with_reducible apply ladder_still
    | split

theorem cmdTwinConfig_still {s₀ : State} (c : Ctx) (req : List Word) {s : State} (hK : Untouched s₀ s) : Untouched s₀ (cmdTwinConfig c req s).2 := by
  unfold cmdTwinConfig
  try dsimp only
  repeat' first
    | with_reducible assumption
    | with_reducible exact Untouched.refl _
    | intro _
    | dsimp only
    | with_reducible apply okWith_still
    | with_reducible apply okNone_still
    | with_reducible apply claimCheck_still
    | with_reducible apply ladder_still
    | split
    | simp (disch := rfl) only [Untouched.set]

theorem cmdTwinStatus_still {s₀ : State} (c : Ctx) (x1 : List Word) {s : State} (hK : Untouched s₀ s) : Untouched s₀ (cmdTwinStatus c x1 s).2 := by
  unfold cmdTwinStatus
  try dsimp only
  repeat' first
    | with_reducible assumption
    | with_reducible apply okWith_still
    | with_reducible apply ladder_still

theorem cmdTwinSwitch_still {s₀ : State} (c : Ctx) (req : List Word) {s : State} (hK : Untouched s₀ s) : Untouched s₀ (cmdTwinSwitch c req s).2 := by
  unfold cmdTwinSwitch
  try dsimp only
  repeat' first
    | with_reducible assumption
    | with_reducible exact Untouched.refl _
    | intro _
    | dsimp only
    | with_reducible apply okNone_still
    | with_reducible apply setRole_still
    | with_reducible apply claimCheck_still
    | with_reducible apply ladder_still
    | split
    | simp (disch := rfl) only [Untouched.set]

theorem cmdTwinCommit_still {s₀ : State} (c : Ctx) (req : List Word) {s : State} (hK : Untouched s₀ s) : Untouched s₀ (cmdTwinCommit c req s).2 := by
  unfold cmdTwinCommit
  try dsimp only
  repeat' first
    | with_reducible assumption
    | dsimp only
    | with_reducible apply okWith_still
    | with_reducible apply sendFrames_still
    | with_reducible apply ladder_still
    | split
    | simp (disch := rfl) only [Untouched.set]

theorem preparedRx_still {s₀ : State} (ok : Bool) {s : State} (hK : Untouched s₀ s) : Untouched s₀ (preparedRx ok s) := by
  unfold preparedRx
  try dsimp only
  repeat' first
    | with_reducible assumption
    | with_reducible exact Untouched.refl _
    | intro _
    | dsimp only
    | with_reducible apply finishWaiting_still
    | with_reducible apply evtPartner_still
    | with_reducible apply sendFrames_still
    | split
    | simp (disch := rfl) only [Untouched.set]

theorem commitAckRx_still {s₀ : State} {s : State} (hK : Untouched s₀ s) : Untouched s₀ (commitAckRx s) := by
  unfold commitAckRx
  try dsimp only
  repeat' first
    | with_reducible assumption
    | with_reducible exact Untouched.refl _
    | intro _
    | dsimp only
    | split
    | simp (disch := rfl) only [Untouched.set]

theorem commitRx_still {s₀ : State} (tApply : Nat) {s : State} (hK : Untouched s₀ s) : Untouched s₀ (commitRx tApply s) := by
  unfold commitRx
  try dsimp only
  repeat' first
    | with_reducible assumption
    | with_reducible exact Untouched.refl _
    | intro _
    | dsimp only
    | with_reducible apply sendFrames_still
    | split
    | simp (disch := rfl) only [Untouched.set]

theorem snapshotRx_still {s₀ : State} (a : Nat) (j : Snapshot) {s : State} (hK : Untouched s₀ s) : Untouched s₀ (snapshotRx a j s) := by
  unfold snapshotRx
  try dsimp only
  repeat' first
    | with_reducible assumption
    | with_reducible apply judgePoint_still
    | split
    | simp (disch := rfl) only [Untouched.set]

theorem pmCopy_still {s₀ : State} {s : State} (e : PmCopy) (hK : Untouched s₀ s) : Untouched s₀ (pmCopy s e) := by
  unfold pmCopy
  try dsimp only
  repeat' first
    | with_reducible assumption
    | simp (disch := rfl) only [Untouched.set]

theorem pmHistCopy_still {s₀ : State} {s : State} (e : PmHistCopy) (hK : Untouched s₀ s) : Untouched s₀ (pmHistCopy s e) := by
  unfold pmHistCopy
  try dsimp only
  repeat' first
    | with_reducible assumption
    | simp (disch := rfl) only [Untouched.set]

theorem timingCopy_still {s₀ : State} {s : State} (e : TimingCopy) (hK : Untouched s₀ s) : Untouched s₀ (timingCopy s e) := by
  unfold timingCopy
  try dsimp only
  repeat' first
    | with_reducible assumption
    | with_reducible exact Untouched.refl _
    | intro _
    | dsimp only
    | with_reducible apply modDpll_still
    | split
    | simp (disch := rfl) only [Untouched.set]

theorem resyncReady_still {s₀ : State} (bins : List PmCopy) {s : State} (hK : Untouched s₀ s) : Untouched s₀ (resyncReady bins s) := by
  unfold resyncReady
  try dsimp only
  repeat' first
    | with_reducible assumption
    | with_reducible exact Untouched.refl _
    | intro _
    | dsimp only
    | with_reducible apply evtPartner_still
    | with_reducible apply pmCopy_still
    | with_reducible apply foldl_still
    | split
    | simp (disch := rfl) only [Untouched.set]

theorem histSynced_still {s₀ : State} (pm : List PmHistCopy) (tim : List TimingCopy) {s : State} (hK : Untouched s₀ s) : Untouched s₀ (histSynced pm tim s) := by
  unfold histSynced
  try dsimp only
  repeat' first
    | with_reducible assumption
    | with_reducible exact Untouched.refl _
    | intro _
    | dsimp only
    | with_reducible apply evtPartner_still
    | with_reducible apply pmHistCopy_still
    | with_reducible apply timingCopy_still
    | with_reducible apply foldl_still
    | split
    | simp (disch := rfl) only [Untouched.set]

theorem modSlot_still {s₀ : State} (i : Nat) (g : Slot → Slot) {s : State} (hK : Untouched s₀ s) : Untouched s₀ (modSlot i g s) := by
  unfold modSlot
  try dsimp only
  repeat' first
    | with_reducible assumption
    | split
    | simp (disch := rfl) only [Untouched.set]

theorem evtFw_still {s₀ : State} (cmd : Nat) {s : State} (hK : Untouched s₀ s) : Untouched s₀ (evtFw cmd s) := by
  unfold evtFw
  try dsimp only
  repeat' first
    | with_reducible assumption
    | with_reducible apply raise_still

theorem cmdFwStage_still {s₀ : State} (c : Ctx) (req : List Word) {s : State} (hK : Untouched s₀ s) : Untouched s₀ (cmdFwStage c req s).2 := by
  unfold cmdFwStage
  try dsimp only
  repeat' first
    | with_reducible assumption
    | dsimp only
    | with_reducible apply okNone_still
    | with_reducible apply modSlot_still
    | with_reducible apply ladder_still
    | split
    | simp (disch := rfl) only [Untouched.set]

theorem cmdFwActivate_still {s₀ : State} (c : Ctx) (req : List Word) {s : State} (hK : Untouched s₀ s) : Untouched s₀ (cmdFwActivate c req s).2 := by
  unfold cmdFwActivate
  refine ladder_still hK ?_
  split
  · exact (Untouched.set rfl).2 hK
  · exact (Untouched.set rfl).2 hK
  · simpa (disch := rfl) only [Untouched.set] using hK

theorem cmdFwStatus_still {s₀ : State} (c : Ctx) (x1 : List Word) {s : State} (hK : Untouched s₀ s) : Untouched s₀ (cmdFwStatus c x1 s).2 := by
  unfold cmdFwStatus
  try dsimp only
  repeat' first
    | with_reducible assumption
    | with_reducible apply okWith_still
    | with_reducible apply ladder_still

theorem cmdLogRead_still {s₀ : State} (c : Ctx) (req : List Word) {s : State} (hK : Untouched s₀ s) : Untouched s₀ (cmdLogRead c req s).2 := by
  unfold cmdLogRead
  try dsimp only
  repeat' first
    | with_reducible assumption
    | with_reducible apply okWith_still
    | with_reducible apply ladder_still

theorem bankJournal_still {s₀ : State} (c : Nat) {s : State} (hK : Untouched s₀ s) : Untouched s₀ (bankJournal c s) := by
  unfold bankJournal
  try dsimp only
  repeat' first
    | with_reducible assumption
    | with_reducible exact Untouched.refl _
    | intro _
    | dsimp only
    | split
    | simp (disch := rfl) only [Untouched.set]

theorem journalAdd_still {s₀ : State} (code : Nat) (req : List Word) {s : State} (hK : Untouched s₀ s) : Untouched s₀ (journalAdd code req s) := by
  unfold journalAdd
  try dsimp only
  repeat' first
    | with_reducible assumption
    | with_reducible exact Untouched.refl _
    | intro _
    | dsimp only
    | with_reducible apply bankJournal_still
    | split
    | simp (disch := rfl) only [Untouched.set]

/-- What arrives from the partner, held or acted on. -/
theorem mirrorIn_still {s₀ s : State} {m : MirrorFrame} (k : Untouched s₀ (mirrorStep m s)) (hK : Untouched s₀ s) : Untouched s₀ (mirrorIn m s) := by
  unfold mirrorIn
  split
  · exact k
  · simpa (disch := rfl) only [Untouched.set] using hK

end Sys2Proof.Machine
end

