-- ==== Sys2Proof/Tests/Slice0.lean ====
section
/-! SUPPORT. Tests of the model: for every statement with hypotheses a state and operands that meet them together (`witness_`, one part
per clause), worked examples of the manual, and the refusal of ill-formed commands. -/

namespace Sys2Proof.Tests
open Sys2Proof Sys2Proof.Machine

set_option Elab.async false

/-! ### The states that the witnesses use -/

/-- Every domain is on. -/
def allOn : Table Domain := (List.range 36).map (fun d => (d, { st := .on, up := true }))

/-- A device that has started: READY, its domains on, nothing configured. -/
def tUp : State :=
  { State.reset with
    pins := { railsOk := true, porstN := true, perstN := true }
    boot := { phase := .finished, endpoint := true, memDone := true, lanesDone := true }
    power := { dom := allOn }, fw.state := 1, pool.trained := true }

/-- When a mailbox command is taken, as one condition that can be decided. -/
abbrev Taken (code : Nat) (m : Mbx) (req : List Word) (s : State) : Prop :=
  endpointUp s = true ∧ (mbxOf s m.val).st ≠ .busy ∧ s.host.bells = [] ∧ s.fw.state = 1 ∧ s.fw.restartAt = none ∧ req.length ≤ 255 ∧
    lenOk code req = true

theorem takes_of {code : Nat} {m : Mbx} {req : List Word} {s : State} (h : Taken code m req s) : s.takes code m req where
  up := h.1
  idle := h.2.1
  quiet := h.2.2.1
  serves := h.2.2.2.1
  noRestart := h.2.2.2.2.1
  short := h.2.2.2.2.2.1
  len := h.2.2.2.2.2.2

/-- The same for one that is taken and takes effect at once. -/
theorem ready_of {code : Nat} {m : Mbx} {req : List Word} {s : State}
    (h : Taken code m req s ∧ (s.twin.paired = true → pairWide code req = false ∧ (s.twin.role = .active ∨ pairControl code req = false))) :
    s.ready code m req :=
  { takes_of h.1 with scope := h.2 }

theorem some_of {α : Type} {o : Option α} (h : o.isSome = true) : o = some (o.get h) := (Option.some_get h).symm

/-- Port n as PORT_CREATE's words make it. -/
def withPort (n : Nat) (req : List Word) (s : State) : State := { s with port := tset s.port n (portOfWords 0 req) }

/-- The words of an OTU4 port of four lanes. -/
def otu4 : List Word := [0x30400, 0, 0, 0]

/-- A device with OTU4 ports 0 and 4. -/
def tPorts : State := withPort 4 otu4 (withPort 0 otu4 tUp)

/-- CHAN_CREATE's words for an ODU4 that is terminated, in direction eg on port p. -/
def odu4 (eg : Bool) (ch p : Nat) : List Word :=
  [w32 (ch + (if eg then 16384 else 0) + 0x58000), w32 p] ++ List.replicate 11 0 ++ [1] ++ List.replicate 5 0

/-- The ODU4s of both ports: ingress and egress channels 0 and 1. -/
def tChans : State :=
  chanAdd (chKey true 1) (odu4 true 1 4) true (chanAdd (chKey true 0) (odu4 true 0 0) true
    (chanAdd 1 (odu4 false 1 4) true (chanAdd 0 (odu4 false 0 0) true tPorts)))

/-- Two lower-order ODU0s, egress channels 2 and 3, in the ODU4 of port 0. -/
def tBridge : State :=
  let odu (n slot : Nat) : List Word :=
    [w32 (n + 16384 + 0x18000), 0x14000, w32 (slot * 512), w32 (2 ^ (slot - 1))] ++ List.replicate 9 0 ++ [1] ++ List.replicate 5 0
  chanAdd (chKey true 3) (odu 3 2) true (chanAdd (chKey true 2) (odu 2 1) true tChans)

/-- An OTU1 port, 255, on lane 255. -/
def tOtu1 : State := { withPort 255 [0x10100, 0, 0, 0] tUp with lane := [(255, { st := .track })] }

/-- An OTU4 port, 252, on four lanes that track. -/
def tOtl : State := { withPort 252 otu4 tUp with lane := [(252, { st := .track }), (253, { st := .track }), (254, { st := .track }), (255, { st := .track })] }

/-- A FlexO port of eight lanes on 248, with one FlexO instance. -/
def tFlexo : State := { withPort 248 [0x40800, 0x112, 0, 0] tUp with lane := (List.range 8).map (fun i => (248 + i, { st := .track })) }

/-- A 100GBASE-R port of four lanes on 252. -/
def tEth : State := { withPort 252 [0x120400, 0, 0, 0] tUp with lane := [(252, { st := .track }), (253, { st := .track }), (254, { st := .track }), (255, { st := .track })] }

/-- A FlexE PHY on four lanes that is aligned and has seen an overhead frame. -/
def tFlexe : State := { tEth with port := [(252, { portOfWords 0 [0x120400, 0x1000, 0, 0] with procs := [(0, { st := .inFrame }), (33, { st := .inFrame })] })] }

/-- An STM-64 port 255 in frame, and VC-4 channel 7 on it. -/
def tVc : State :=
  chanAdd 7 ([0x108007, 255] ++ List.replicate 17 0) true { tUp with lane := [(255, { st := .track })], port := [(255, { portOfWords 0 [0x50100, 0, 0, 0] with procs := [(0, { st := .inFrame })] })] }

/-- The same with the port out of frame. -/
def tVcOof : State := { tVc with port := [(255, { portOfWords 0 [0x50100, 0, 0, 0] with procs := [(0, { st := .oof })] })] }

/-- A GFP-F leaf, ingress channel 9, in the ODU1 of an OTU1 port in frame, its delineation in SYNC. -/
def tGfp : State :=
  { tUp with lane := [(255, { st := .track })],
             port := [(255, { portOfWords 0 [0x10100, 0, 0, 0] with lof := false, procs := [(0, { st := .inFrame })] })],
             chan := [(8, { words := [0x28008, 255] }), (9, { words := [0x308009, 0x54008], gfp := { st := .sync } })] }

/-- Cell 0 stored in a packet queue. -/
def tCell : State := writeCell { kind := 1 } 0 [7] true true { tUp with pool.q := [(1048575, { kind := 1, items := 1, chain := [0] })] }

/-- A heartbeat of a paired partner that is synchronised with software word 0. -/
def beat (role : Fin 8) : Heartbeat :=
  { version := 0, role := role, strap := true, paired := true, ready := false, follow := true, seq := 0, txTime := 0, echoTx := 0, echoRx := 0, phase0 := 0,
    phase1 := 0, activeSince := 0, handoverAt := 0, request := false, ack := true, txnApplied := 0 }

/-! ### Witnesses: for each statement one part per clause that has hypotheses -/

theorem witness_SystemCommandsComplete :
    (∃ (m : Mbx) (tag : Byte) (req : List Word) (s : State) (p : State), p = s.posted 0x0101 m tag req ∧ s.ready 0x0101 m req) ∧
    (∃ (m : Mbx) (tag : Byte) (req : List Word) (s : State) (p : State), p = s.posted 0x0105 m tag req ∧ s.ready 0x0105 m req ∧ fld (wd req 0) 31 20 = 0 ∧
      eventCodes.contains (fld (wd req 0) 15 0) = true ∧ fld (wd req 0) 19 16 = 1 ∧ unmaskable.contains (fld (wd req 0) 15 0) = false) ∧
    (∃ (m : Mbx) (tag : Byte) (req : List Word) (s : State) (p : State), p = s.posted 0x0105 m tag req ∧ s.ready 0x0105 m req ∧ fld (wd req 0) 31 20 = 0 ∧
      eventCodes.contains (fld (wd req 0) 15 0) = true ∧ fld (wd req 0) 19 16 = 2) ∧
    (∃ (m : Mbx) (tag : Byte) (req : List Word) (s : State) (p : State), p = s.posted 0x0105 m tag req ∧ s.ready 0x0105 m req ∧ fld (wd req 0) 31 20 = 0 ∧
      eventCodes.contains (fld (wd req 0) 15 0) = true ∧ fld (wd req 0) 19 16 = 3) ∧
    (∃ (m : Mbx) (tag : Byte) (req : List Word) (s : State) (p : State), p = s.posted 0x0106 m tag req ∧ s.ready 0x0106 m req) ∧
    (∃ (m : Mbx) (tag : Byte) (req : List Word) (s : State) (p : State) (h : HeldResp), p = s.posted 0x0107 m tag req ∧ s.ready 0x0107 m req ∧ (mbxOf p
      m.val).held = some h ∧ fld (wd req 0) 31 24 = 0 ∧ h.code = fld (wd req 0) 15 0 ∧ h.last < fld (wd req 0) 23 16 ∧ 255 * fld (wd req 0) 23 16 <
      h.words.length) :=
  ⟨⟨0, 0, [], tUp, _, rfl, ready_of (by decide +kernel)⟩,
   ⟨0, 0, [0x10201], tUp, _, rfl, ready_of (by decide +kernel), by decide +kernel⟩,
   ⟨0, 0, [0x20201], tUp, _, rfl, ready_of (by decide +kernel), by decide +kernel⟩,
   ⟨0, 0, [0x30101], tUp, _, rfl, ready_of (by decide +kernel), by decide +kernel⟩,
   ⟨0, 0, [], tUp, _, rfl, ready_of (by decide +kernel)⟩,
   ⟨0, 0, [0x10101], { tUp with host.mbx := [(0, { st := .done, held := some { code := 0x0101, words := List.replicate 300 0 } })] }, _, _, rfl, ready_of
     (by decide +kernel), some_of (by decide +kernel), by decide +kernel⟩⟩

theorem witness_SystemControlCompletes :
    (∃ (m : Mbx) (tag : Byte) (req : List Word) (s : State) (p : State), p = s.posted 0x0102 m tag req ∧ s.ready 0x0102 m req ∧ (∀ d, blockDomain (fld (wd
      req 0) 3 0) (fld (wd req 0) 15 8) = some d → domUp p d = true) ∧ fld (wd req 0) 7 4 = 0 ∧ fld (wd req 0) 31 16 = 0 ∧ blockOk (fld (wd req 0) 3
      0) (fld (wd req 0) 15 8) = true ∧ fld (wd req 0) 3 0 = 7) ∧
    (∃ (m : Mbx) (tag : Byte) (req : List Word) (s : State) (p : State), p = s.posted 0x0102 m tag req ∧ s.ready 0x0102 m req ∧ (∀ d, blockDomain (fld (wd
      req 0) 3 0) (fld (wd req 0) 15 8) = some d → domUp p d = true) ∧ fld (wd req 0) 7 4 = 0 ∧ fld (wd req 0) 31 16 = 0 ∧ blockOk (fld (wd req 0) 3
      0) (fld (wd req 0) 15 8) = true ∧ fld (wd req 0) 3 0 ≠ 7) ∧
    (∃ (m : Mbx) (tag : Byte) (req : List Word) (s : State) (p : State), p = s.posted 0x0103 m tag req ∧ s.ready 0x0103 m req ∧ fld (wd req 0) 7 6 = 0 ∧
      fld (wd req 0) 31 12 = 0 ∧ fld (wd req 0) 5 0 ≤ 35 ∧ fld (wd req 0) 11 8 = 3) ∧
    (∃ (m : Mbx) (tag : Byte) (req : List Word) (s : State) (p : State), p = s.posted 0x0103 m tag req ∧ s.ready 0x0103 m req ∧ fld (wd req 0) 7 6 = 0 ∧
      fld (wd req 0) 31 12 = 0 ∧ fld (wd req 0) 5 0 ≤ 35 ∧ fld (wd req 0) 11 8 = 1 ∧ fatalSet p = false ∧ (domOf p (fld (wd req 0) 5 0)).up = true ∧
      (domOf p (fld (wd req 0) 5 0)).sw = none ∧ p.power.queue.any (fun e => e.1 == fld (wd req 0) 5 0) = false) ∧
    (∃ (m : Mbx) (tag : Byte) (req : List Word) (s : State) (p : State), p = s.posted 0x0103 m tag req ∧ s.ready 0x0103 m req ∧ fld (wd req 0) 7 6 = 0 ∧
      fld (wd req 0) 31 12 = 0 ∧ fld (wd req 0) 5 0 ≤ 35 ∧ fld (wd req 0) 11 8 = 2 ∧ fld (wd req 0) 5 0 < 32 ∧ (domOf p (fld (wd req 0) 5 0)).up =
      false ∧ (domOf p (fld (wd req 0) 5 0)).sw = none ∧ p.power.queue.any (fun e => e.1 == fld (wd req 0) 5 0) = false) ∧
    (∃ (m : Mbx) (tag : Byte) (req : List Word) (s : State) (p : State), p = s.posted 0x0103 m tag req ∧ s.ready 0x0103 m req ∧ fld (wd req 0) 7 6 = 0 ∧
      fld (wd req 0) 31 12 = 0 ∧ fld (wd req 0) 5 0 ≤ 35 ∧ fld (wd req 0) 11 8 = 1 ∧ fatalSet p = false ∧ (domOf p (fld (wd req 0) 5 0)).up = false ∧
      (domOf p (fld (wd req 0) 5 0)).sw = none ∧ p.power.queue = [] ∧ switchings p < 4) ∧
    (∃ (m : Mbx) (tag : Byte) (req : List Word) (s : State) (p : State), p = s.posted 0x0103 m tag req ∧ s.ready 0x0103 m req ∧ fld (wd req 0) 7 6 = 0 ∧
      fld (wd req 0) 31 12 = 0 ∧ fld (wd req 0) 5 0 ≤ 35 ∧ fld (wd req 0) 11 8 = 2 ∧ fld (wd req 0) 5 0 < 32 ∧ (domOf p (fld (wd req 0) 5 0)).up =
      true ∧ (domOf p (fld (wd req 0) 5 0)).sw = none ∧ p.power.queue = [] ∧ switchings p < 4) ∧
    (∃ (m : Mbx) (tag : Byte) (req : List Word) (s : State) (p : State), p = s.posted 0x0104 m tag req ∧ s.ready 0x0104 m req ∧ resBad req [(0, 31, 2),
      (3, 31, 16)] = false ∧ fld (wd req 0) 1 0 = 1 ∧ ((wd req 1).toNat + 4294967296 * (wd req 2).toNat) % 1000000000 = 0 ∧ fld (wd req 3) 15 0 = 0) ∧
    (∃ (m : Mbx) (tag : Byte) (req : List Word) (s : State) (p : State), p = s.posted 0x0104 m tag req ∧ s.ready 0x0104 m req ∧ resBad req [(0, 31, 2),
      (3, 31, 16)] = false ∧ fld (wd req 0) 1 0 = 2 ∧ (timeAligned p 0 = false ∨ (sx 64 ((wd req 1).toNat + 4294967296 * (wd req 2).toNat) * 65536 +
      (fld (wd req 3) 15 0 : Int)) % 65536000000000 = 0)) :=
  ⟨⟨0, 0, [7], tUp, _, rfl, ready_of (by decide +kernel), (fun d h => by cases h), by decide +kernel⟩,
   ⟨0, 0, [0x703], tUp, _, rfl, ready_of (by decide +kernel), (fun d h => by cases h; decide +kernel), by decide +kernel⟩,
   ⟨0, 0, [0x323], tUp, _, rfl, ready_of (by decide +kernel), by decide +kernel⟩,
   ⟨0, 0, [0x123], tUp, _, rfl, ready_of (by decide +kernel), by decide +kernel⟩,
   ⟨0, 0, [0x21f], { tUp with power.dom := tset allOn 31 { st := .offCmd } }, _, rfl, ready_of (by decide +kernel), by decide +kernel⟩,
   ⟨0, 0, [0x123], { tUp with power.dom := tset allOn 35 { st := .offCmd } }, _, rfl, ready_of (by decide +kernel), by decide +kernel⟩,
   ⟨0, 0, [0x21f], tUp, _, rfl, ready_of (by decide +kernel), by decide +kernel⟩,
   ⟨0, 0, [1, 0x3b9aca00, 0, 0], tUp, _, rfl, ready_of (by decide +kernel), by decide +kernel⟩,
   ⟨0, 0, [2, 0, 0, 0], tUp, _, rfl, ready_of (by decide +kernel), by decide +kernel⟩⟩

theorem witness_LaneCommandsComplete :
    (∃ (m : Mbx) (tag : Byte) (req : List Word) (s : State) (p : State) (k : Nat), k = kindLane (fld (wd req 0) 1 0) (fld (wd req 0) 15 8) ∧ p = s.posted
      0x0201 m tag req ∧ s.ready 0x0201 m req ∧ fld (wd req 0) 7 2 = 0 ∧ laneBadId (fld (wd req 0) 1 0) (fld (wd req 0) 15 8) = false ∧ domUp p
      (laneDomain k) = true ∧ fld (wd req 0) 31 20 = 0 ∧ fld (wd req 0) 19 16 = 1 ∧ fld (wd req 1) 7 4 = 0 ∧ fld (wd req 1) 31 16 = 0 ∧ fld (wd req 1)
      15 8 ≤ 100 ∧ tapsBad (wd req 2) = false ∧ bitOf (wd req 1) 3 = false) ∧
    (∃ (m : Mbx) (tag : Byte) (req : List Word) (s : State) (p : State) (k : Nat), k = kindLane (fld (wd req 0) 1 0) (fld (wd req 0) 15 8) ∧ p = s.posted
      0x0201 m tag req ∧ s.ready 0x0201 m req ∧ fld (wd req 0) 7 2 = 0 ∧ laneBadId (fld (wd req 0) 1 0) (fld (wd req 0) 15 8) = false ∧ domUp p
      (laneDomain k) = true ∧ fld (wd req 0) 31 20 = 0 ∧ fld (wd req 0) 19 16 = 1 ∧ fld (wd req 1) 7 4 = 0 ∧ fld (wd req 1) 31 16 = 0 ∧ fld (wd req 1)
      15 8 ≤ 100 ∧ tapsBad (wd req 2) = false ∧ bitOf (wd req 1) 3 = true ∧ (laneOf p k).st = .track) ∧
    (∃ (m : Mbx) (tag : Byte) (req : List Word) (s : State) (p : State) (k : Nat), k = kindLane (fld (wd req 0) 1 0) (fld (wd req 0) 15 8) ∧ p = s.posted
      0x0201 m tag req ∧ s.ready 0x0201 m req ∧ fld (wd req 0) 7 2 = 0 ∧ laneBadId (fld (wd req 0) 1 0) (fld (wd req 0) 15 8) = false ∧ domUp p
      (laneDomain k) = true ∧ fld (wd req 0) 31 20 = 0 ∧ fld (wd req 0) 19 16 = 2 ∧ wd req 1 = 0 ∧ wd req 2 = 0) ∧
    (∃ (m : Mbx) (tag : Byte) (req : List Word) (s : State) (p : State) (k : Nat) (mode : Nat), k = kindLane (fld (wd req 0) 1 0) (fld (wd req 0) 15 8) ∧
      p = s.posted 0x0202 m tag req ∧ s.ready 0x0202 m req ∧ laneMode p k = some mode ∧ fld (wd req 0) 7 2 = 0 ∧ laneBadId (fld (wd req 0) 1 0) (fld
      (wd req 0) 15 8) = false ∧ domUp p (laneDomain k) = true ∧ fld (wd req 0) 31 16 = 0) :=
  ⟨⟨0, 0, [0x10703, 0x6400, 0x3f0000], tUp, _, _, rfl, rfl, ready_of (by decide +kernel), by decide +kernel⟩,
   ⟨0, 0, [0x10703, 8, 0x3f0000], { tUp with lane := [(519, { st := .track })] }, _, _, rfl, rfl, ready_of (by decide +kernel), by decide +kernel⟩,
   ⟨0, 0, [0x20703, 0, 0], tUp, _, _, rfl, rfl, ready_of (by decide +kernel), by decide +kernel⟩,
   ⟨0, 0, [0xff02], tUp, _, _, _, rfl, rfl, ready_of (by decide +kernel), some_of (by decide +kernel), by decide +kernel⟩⟩

theorem witness_PortCommandsComplete :
    (∃ (m : Mbx) (tag : Byte) (req : List Word) (s : State) (p : State) (n : Nat) (q : _), n = fld (wd req 0) 7 0 ∧ q = portOfWords p.now req ∧ p =
      s.posted 0x0203 m tag req ∧ s.ready 0x0203 m req ∧ portBad n req = false ∧ domUp p (n / 8) = true ∧ (∀ k ∈ portLanes n q, portOfLane p k =
      none)) ∧
    (∃ (m : Mbx) (tag : Byte) (req : List Word) (s : State) (p : State) (n : Nat) (q : _), n = fld (wd req 0) 7 0 ∧ p = s.posted 0x0204 m tag req ∧
      s.ready 0x0204 m req ∧ portAt p n = some q ∧ fld (wd req 0) 31 8 = 0 ∧ portUsed p n = false) ∧
    (∃ (m : Mbx) (tag : Byte) (req : List Word) (s : State) (p : State) (n : Nat) (q : _) (i : Nat), n = fld (wd req 0) 7 0 ∧ p = s.posted 0x0205 m tag
      req ∧ s.ready 0x0205 m req ∧ i = fld (wd req 0) 13 8 ∧ portAt p n = some q ∧ fld (wd req 0) 31 14 = 0 ∧ i ≤ 48 ∧ (procList q).contains i = true
      ∧ domUp p (n / 8) = true) :=
  ⟨⟨0, 0, [0x304fc, 0, 0, 0], tUp, _, _, _, rfl, rfl, rfl, ready_of (by decide +kernel), by decide +kernel⟩,
   ⟨0, 0, [0xfc], withPort 252 otu4 tUp, _, _, _, rfl, rfl, ready_of (by decide +kernel), some_of (by decide +kernel), by decide +kernel⟩,
   ⟨0, 0, [0xfc], withPort 252 otu4 tUp, _, _, _, _, rfl, rfl, ready_of (by decide +kernel), rfl, some_of (by decide +kernel), by decide +kernel⟩⟩

theorem witness_AlignConfigCompletes :
    (∃ (m : Mbx) (tag : Byte) (req : List Word) (s : State) (p : State) (id : Nat) (q : _), p = s.posted 0x0301 m tag req ∧ s.ready 0x0301 m req ∧ id =
      fld (wd req 0) 21 8 ∧ portAt p id = some q ∧ resBad req [(0, 7, 4), (0, 31, 22), (1, 3, 2), (1, 15, 7)] = false ∧ fld (wd req 0) 3 0 = 1 ∧ id ≤
      255 ∧ fld (wd req 1) 6 4 = 0 ∧ fld (wd req 1) 31 16 = 0 ∧ (bitOf (wd req 1) 0 = true → isOtn q = true)) ∧
    (∃ (m : Mbx) (tag : Byte) (req : List Word) (s : State) (p : State) (id : Nat) (x : _), p = s.posted 0x0301 m tag req ∧ s.ready 0x0301 m req ∧ id =
      fld (wd req 0) 21 8 ∧ chanAt p false id = some x ∧ resBad req [(0, 7, 4), (0, 31, 22), (1, 3, 2), (1, 15, 7)] = false ∧ fld (wd req 0) 3 0 = 2 ∧
      bitOf (wd req 1) 0 = false ∧ (fld (wd req 1) 31 16 = 0 ∨ 4 ≤ fld (wd req 1) 31 16) ∧ isGfp x.words = true ∧ bitOf (wd req 1) 1 = false) :=
  ⟨⟨0, 0, [0xff01, 1], withPort 255 [0x10100, 0, 0, 0] tUp, _, _, _, rfl, ready_of (by decide +kernel), rfl, some_of (by decide +kernel),
     by decide +kernel⟩,
   ⟨0, 0, [0x3fff02, 0xffff0000], { tUp with chan := [(16383, { words := [0x303FFF, 0x50000] })] }, _, _, _, rfl, ready_of (by decide +kernel), rfl,
     some_of (by decide +kernel), by decide +kernel⟩⟩

theorem witness_OverheadCommandsComplete :
    (∃ (m : Mbx) (tag : Byte) (req : List Word) (s : State) (p : State) (l : List Nat) (key : Nat) (f : Captured), p = s.posted 0x0302 m tag req ∧ s.ready
      0x0302 m req ∧ l = ohNamed p (fld (wd req 0) 3 0) (fld (wd req 0) 21 8) (fld (wd req 0) 25 22) ∧ key = (if bitOf (wd req 0) 4 then ohTx l else
      ohRx l) ∧ (if bitOf (wd req 0) 4 then (ohOf p key).tx else (ohOf p key).rx) = some f ∧ ohBad req false = false ∧ l.isEmpty = false ∧ (bitOf (wd
      req 0) 4 = false → (ohOf p key).everInFrame = true)) ∧
    (∃ (m : Mbx) (tag : Byte) (req : List Word) (s : State) (p : State) (l : List Nat), p = s.posted 0x0303 m tag req ∧ s.ready 0x0303 m req ∧ l = ohNamed
      p (fld (wd req 0) 3 0) (fld (wd req 0) 21 8) (fld (wd req 0) 25 22) ∧ ohBad req true = false ∧ l.isEmpty = false ∧ (List.range (fld (wd req 1)
      16 8)).any (fun i => ohTaken p (fld (wd req 0) 3 0) (fld (wd req 0) 21 8) (fld (wd req 1) 7 0 + i)) = false) :=
  ⟨⟨0, 0, [0xff01, 0x13f],
     { withPort 255 [0x10100, 0, 0, 0] tUp with oh := [(ohKey 0 255 0, { everInFrame := true, rx := some { mfas := 0, ns := 0, bytes := [] } })] }, _,
     _, _, _, rfl, ready_of (by decide +kernel), rfl, rfl, some_of (by decide +kernel), by decide +kernel⟩,
   ⟨0, 0, [0xff01, 0x10d, 0], withPort 255 [0x10100, 0, 0, 0] tUp, _, _, rfl, ready_of (by decide +kernel), rfl, by decide +kernel⟩⟩

theorem witness_TraceCommandsComplete :
    (∃ (m : Mbx) (tag : Byte) (req : List Word) (s : State) (p : State) (kind : Nat) (fmt : Nat) (lvl : Nat) (bs : List Byte) (l : List Nat), kind = fld
      (wd req 0) 3 0 ∧ l = ohNamed p (ttiKind kind) (fld (wd req 0) 21 8) (fld (wd req 0) 25 22) ∧ lvl = ttiLevel kind (fld (wd req 0) 6 4) ∧ fmt =
      fld (wd req 1) 3 2 ∧ p = s.posted 0x0304 m tag req ∧ s.ready 0x0304 m req ∧ bs = (reqBytes req 2 16).take (traceLen (decide (kind ≤ 3)) fmt) ∧
      l.isEmpty = false ∧ traceWords req = true ∧ bitOf (wd req 0) 7 = false ∧ fld (wd req 1) 1 0 = 0) ∧
    (∃ (m : Mbx) (tag : Byte) (req : List Word) (s : State) (p : State) (kind : Nat) (fmt : Nat) (lvl : Nat) (bs : List Byte) (l : List Nat), kind = fld
      (wd req 0) 3 0 ∧ l = ohNamed p (ttiKind kind) (fld (wd req 0) 21 8) (fld (wd req 0) 25 22) ∧ lvl = ttiLevel kind (fld (wd req 0) 6 4) ∧ fmt =
      fld (wd req 1) 3 2 ∧ p = s.posted 0x0304 m tag req ∧ s.ready 0x0304 m req ∧ bs = (reqBytes req 2 16).take (traceLen (decide (kind ≤ 3)) fmt) ∧
      l.isEmpty = false ∧ traceWords req = true ∧ bitOf (wd req 0) 7 = true) ∧
    (∃ (m : Mbx) (tag : Byte) (req : List Word) (s : State) (p : State) (kind : Nat) (fmt : Nat) (lvl : Nat) (l : List Nat) (what : Nat) (key : Nat) (t :
      Trace), kind = fld (wd req 0) 3 0 ∧ l = ohNamed p (ttiKind kind) (fld (wd req 0) 21 8) (fld (wd req 0) 25 22) ∧ lvl = ttiLevel kind (fld (wd req
      0) 6 4) ∧ fmt = fld (wd req 1) 3 2 ∧ p = s.posted 0x0305 m tag req ∧ s.ready 0x0305 m req ∧ what = fld (wd req 1) 1 0 ∧ key = (if what = 0 then
      ohTx l else ohRx l) ∧ t = tget (ohOf p key).trace {} lvl ∧ l.isEmpty = false ∧ ttiBad (wd req 0) = false ∧ bitOf (wd req 0) 7 = false ∧ fld (wd
      req 1) 31 2 = 0 ∧ what ≤ 2) :=
  ⟨⟨0, 0, [0xff01, 0, 0, 0, 0, 0, 0, 0, 0, 0, 0, 0, 0, 0, 0, 0, 0, 0], withPort 255 [0x10100, 0, 0, 0] tUp, _, _, _, _, _, _, rfl, rfl, rfl, rfl, rfl,
     ready_of (by decide +kernel), rfl, by decide +kernel⟩,
   ⟨0, 0, [0xff84, 7, 0, 0, 0, 0x80000000, 0, 0, 0, 0, 0, 0, 0, 0, 0, 0, 0, 0], withPort 255 [0x50100, 0, 0, 0] tUp, _, _, _, _, _, _, rfl, rfl, rfl,
     rfl, rfl, ready_of (by decide +kernel), rfl, by decide +kernel⟩,
   ⟨0, 0, [0xff04, 2], withPort 255 [0x50100, 0, 0, 0] tUp, _, _, _, _, _, _, _, _, rfl, rfl, rfl, rfl, rfl, ready_of (by decide +kernel), rfl, rfl, rfl,
     by decide +kernel⟩⟩

theorem witness_MonitorReadsComplete :
    (∃ (m : Mbx) (tag : Byte) (req : List Word) (s : State) (p : State) (n : Mon), p = s.posted 0x0401 m tag req ∧ s.ready 0x0401 m req ∧ n = tget p.mon
      {} (wd req 0).toNat ∧ addrBad (wd req 0) = false ∧ fld (wd req 1) 31 1 = 0 ∧ thas p.mon (wd req 0).toNat = true) ∧
    (∃ (m : Mbx) (tag : Byte) (req : List Word) (s : State) (p : State) (n : Mon) (bin : Nat), p = s.posted 0x0403 m tag req ∧ s.ready 0x0403 m req ∧ bin
      = fld (wd req 1) 1 0 ∧ n = tget p.mon {} (wd req 0).toNat ∧ pmAddrBad (wd req 0) = false ∧ fld (wd req 1) 31 2 = 0 ∧ bin ≠ 3 ∧ thas p.mon (wd
      req 0).toNat = true) ∧
    (∃ (m : Mbx) (tag : Byte) (req : List Word) (s : State) (p : State) (n : Mon) (age : Nat), p = s.posted 0x0405 m tag req ∧ s.ready 0x0405 m req ∧ age
      = fld (wd req 1) 6 1 ∧ n = tget p.mon {} (wd req 0).toNat ∧ pmAddrBad (wd req 0) = false ∧ fld (wd req 1) 31 7 = 0 ∧ 1 ≤ age ∧ age ≤ (if bitOf
      (wd req 1) 0 then 7 else 32) ∧ thas p.mon (wd req 0).toNat = true) :=
  ⟨⟨0, 0, [0x400ff02, 0], { tUp with mon := [(monAddr 2 0 255 0 1, {})] }, _, _, rfl, ready_of (by decide +kernel), rfl, by decide +kernel⟩,
   ⟨0, 0, [0x400ff02, 2], { tUp with mon := [(monAddr 2 0 255 0 1, {})] }, _, _, _, rfl, ready_of (by decide +kernel), rfl, rfl, by decide +kernel⟩,
   ⟨0, 0, [0x400ff02, 0x40], { tUp with mon := [(monAddr 2 0 255 0 1, {})] }, _, _, _, rfl, ready_of (by decide +kernel), rfl, rfl, by decide +kernel⟩⟩

theorem witness_MonitorSettingsComplete :
    (∃ (m : Mbx) (tag : Byte) (req : List Word) (s : State) (p : State), p = s.posted 0x0402 m tag req ∧ s.ready 0x0402 m req ∧ addrBad (wd req 0) = false
      ∧ fld (wd req 1) 7 2 = 0 ∧ fld (wd req 1) 31 28 = 0 ∧ (fld (wd req 1) 15 8 = 0 ∨ (5 ≤ fld (wd req 1) 15 8 ∧ fld (wd req 1) 15 8 ≤ 100)) ∧ fld
      (wd req 1) 23 16 ≤ 60 ∧ fld (wd req 1) 27 24 ≠ 1 ∧ fld (wd req 1) 27 24 ≤ 10 ∧ fld (wd req 2) 31 24 = 0 ∧ thas p.mon (wd req 0).toNat = true) ∧
    (∃ (m : Mbx) (tag : Byte) (req : List Word) (s : State) (p : State), p = s.posted 0x0404 m tag req ∧ s.ready 0x0404 m req ∧ wd req 0 = 0 ∧ fld (wd req
      1) 31 17 = 0 ∧ wd req 2 = 0 ∧ fld (wd req 1) 16 0 % 900 = 0 ∧ fld (wd req 1) 16 0 ≤ 85500) ∧
    (∃ (m : Mbx) (tag : Byte) (req : List Word) (s : State) (p : State), p = s.posted 0x0404 m tag req ∧ s.ready 0x0404 m req ∧ aLayer (wd req 0).toNat ≠
      0 ∧ pmAddrBad (wd req 0) = false ∧ fld (wd req 1) 31 6 = 0 ∧ fld (wd req 1) 3 0 ≤ 8 ∧ thas p.mon (wd req 0).toNat = true) :=
  ⟨⟨0, 0, [0x400ff02, 0xa3c6400, 0], { tUp with mon := [(monAddr 2 0 255 0 1, {})] }, _, rfl, ready_of (by decide +kernel), by decide +kernel⟩,
   ⟨0, 0, [0, 0x14dfc, 0], tUp, _, rfl, ready_of (by decide +kernel), by decide +kernel⟩,
   ⟨0, 0, [0x400ff02, 8, 0], { tUp with mon := [(monAddr 2 0 255 0 1, {})] }, _, rfl, ready_of (by decide +kernel), by decide +kernel⟩⟩

theorem witness_ChannelCreationCompletes :
    (∃ (m : Mbx) (tag : Byte) (req : List Word) (s : State) (p : State) (k : Nat) (t : State) (u : State), p = s.posted 0x0501 m tag req ∧ s.ready 0x0501
      m req ∧ k = chKey (bitOf (wd req 0) 14) (fld (wd req 0) 13 0) ∧ t = chanAdd k req (bitOf (wd req 0) 15) p ∧ u = (if fld (wd req 15) 23 0 = 0
      then t else connectFabric k (fld (wd req 15) 23 0) t) ∧ chanFieldsBad req = false ∧ comboBad p (bitOf (wd req 0) 14) req = false ∧ srvExists p
      (bitOf (wd req 0) 14) req = true ∧ retMissing p req = false ∧ vcgMissing p (bitOf (wd req 0) 14) req = false ∧ createBlocked p t k req = false ∧
      chanOver p u k = false) ∧
    (∃ (m : Mbx) (tag : Byte) (req : List Word) (s : State) (p : State) (k : Nat) (d : Chan), p = s.posted 0x0502 m tag req ∧ s.ready 0x0502 m req ∧ k =
      chKey (bitOf (wd req 0) 14) (fld (wd req 0) 13 0) ∧ tget? p.chan k = some d ∧ fld (wd req 0) 31 15 = 0 ∧ isClient p k = false ∧ servedBy p k =
      [] ∧ vcatMembers p k = [] ∧ (∀ y ∈ cConns d, y.kind = 1) ∧ chanUsed p k = false) :=
  ⟨⟨0, 0, [0x5bfff, 4, 0, 0, 0, 0, 0, 0, 0, 0, 0, 0, 0, 1, 0, 0, 0, 0, 0], tPorts, _, _, _, _, rfl, ready_of (by decide +kernel), rfl, rfl, rfl,
     by decide +kernel⟩,
   ⟨0, 0, [0x4001], tChans, _, _, _, rfl, ready_of (by decide +kernel), rfl, some_of (by decide +kernel), by decide +kernel⟩⟩

theorem witness_ChannelChangesComplete :
    (∃ (m : Mbx) (tag : Byte) (req : List Word) (s : State) (p : State) (k : Nat) (d : Chan) (w : List Word), p = s.posted 0x0503 m tag req ∧ s.ready
      0x0503 m req ∧ k = chKey (bitOf (wd req 0) 14) (fld (wd req 0) 13 0) ∧ tget? p.chan k = some d ∧ w = modWords d req ∧ fld (wd req 0) 23 15 = 0 ∧
      fld (wd req 0) 31 28 = 0 ∧ fld (wd req 0) 27 24 = 0 ∧ modDiffers d w = false ∧ chanFieldsBad w = false ∧ retMissing p w = false ∧ isClient p k =
      false ∧ (chanUsed p k = false ∨ cEn d = true) ∧ retBad p (keyEg k) w = false ∧ pmNeeded p k w = false ∧ chanOver p (chanModify k w p) k = false) ∧
    (∃ (m : Mbx) (tag : Byte) (req : List Word) (s : State) (p : State) (k : Nat) (d : Chan), p = s.posted 0x0503 m tag req ∧ s.ready 0x0503 m req ∧ k =
      chKey (bitOf (wd req 0) 14) (fld (wd req 0) 13 0) ∧ tget? p.chan k = some d ∧ fld (wd req 0) 23 15 = 0 ∧ fld (wd req 0) 31 28 = 0 ∧ fld (wd req
      0) 27 24 = 1) ∧
    (∃ (m : Mbx) (tag : Byte) (req : List Word) (s : State) (p : State) (k : Nat) (d : Chan), p = s.posted 0x0503 m tag req ∧ s.ready 0x0503 m req ∧ k =
      chKey (bitOf (wd req 0) 14) (fld (wd req 0) 13 0) ∧ tget? p.chan k = some d ∧ fld (wd req 0) 23 15 = 0 ∧ fld (wd req 0) 31 28 = 0 ∧ fld (wd req
      0) 27 24 = 2) ∧
    (∃ (m : Mbx) (tag : Byte) (req : List Word) (s : State) (p : State) (k : Nat) (d : Chan), p = s.posted 0x0503 m tag req ∧ s.ready 0x0503 m req ∧ k =
      chKey (bitOf (wd req 0) 14) (fld (wd req 0) 13 0) ∧ tget? p.chan k = some d ∧ fld (wd req 0) 23 15 = 0 ∧ fld (wd req 0) 31 28 = 0 ∧ fld (wd req
      0) 27 24 = 3) ∧
    (∃ (m : Mbx) (tag : Byte) (req : List Word) (s : State) (p : State) (k : Nat) (d : Chan), p = s.posted 0x0503 m tag req ∧ s.ready 0x0503 m req ∧ k =
      chKey (bitOf (wd req 0) 14) (fld (wd req 0) 13 0) ∧ tget? p.chan k = some d ∧ fld (wd req 0) 23 15 = 0 ∧ fld (wd req 0) 31 28 = 0 ∧ fld (wd req
      0) 27 24 = 4) :=
  ⟨⟨0, 0, [0x4001, 4, 0, 0, 0, 0, 0, 0, 0, 0, 0, 0, 0, 1, 0, 0, 0, 0, 0], tChans, _, _, _, _, rfl, ready_of (by decide +kernel), rfl, some_of
     (by decide +kernel), rfl, by decide +kernel⟩,
   ⟨0, 0, [0x1004001], tChans, _, _, _, rfl, ready_of (by decide +kernel), rfl, some_of (by decide +kernel), by decide +kernel⟩,
   ⟨0, 0, [0x2004001], tChans, _, _, _, rfl, ready_of (by decide +kernel), rfl, some_of (by decide +kernel), by decide +kernel⟩,
   ⟨0, 0, [0x3004001], tChans, _, _, _, rfl, ready_of (by decide +kernel), rfl, some_of (by decide +kernel), by decide +kernel⟩,
   ⟨0, 0, [0x4004001], tChans, _, _, _, rfl, ready_of (by decide +kernel), rfl, some_of (by decide +kernel), by decide +kernel⟩⟩

theorem witness_CrossConnectsComplete :
    (∃ (m : Mbx) (tag : Byte) (req : List Word) (s : State) (p : State) (k : Nat) (n : Nat) (t : Nat), p = s.posted 0x0504 m tag req ∧ s.ready 0x0504 m
      req ∧ k = chKey (bitOf (wd req 0) 14) (fld (wd req 0) 13 0) ∧ n = fld (wd req 0) 19 16 ∧ t = fld (wd req 1) 23 0 ∧ xcBad req = false ∧ thas
      p.chan k = true ∧ (n = 2 → thas p.chan (chKey true t) = true) ∧ (n = 3 → (queueAt p t).isSome = true) ∧ connBad p k n t = false ∧ fits p
      (connMade n k t p) = true ∧ connShort n t (connMade n k t p) = false) ∧
    (∃ (m : Mbx) (tag : Byte) (req : List Word) (s : State) (p : State) (k : Nat) (n : Nat) (t : Nat) (d : Chan) (y : Conn), p = s.posted 0x0505 m tag req
      ∧ s.ready 0x0505 m req ∧ k = chKey (bitOf (wd req 0) 14) (fld (wd req 0) 13 0) ∧ n = fld (wd req 0) 19 16 ∧ t = fld (wd req 1) 23 0 ∧ tget?
      p.chan k = some d ∧ (cConns d).find? (connNamed p k n t) = some y ∧ xcBad req = false ∧ chanUsed p k = false) :=
  ⟨⟨0, 0, [0x10001, 5], tChans, _, _, _, _, rfl, ready_of (by decide +kernel), rfl, rfl, rfl, by decide +kernel⟩,
   ⟨0, 0, [0x10001, 5], connectFabric 1 5 tChans, _, _, _, _, _, _, rfl, ready_of (by decide +kernel), rfl, rfl, rfl, some_of (by decide +kernel),
     some_of (by decide +kernel), by decide +kernel⟩⟩

theorem witness_FlexeCalendarCompletes :
    (∃ (m : Mbx) (tag : Byte) (req : List Word) (s : State) (p : State) (key : Nat), p = s.posted 0x0506 m tag req ∧ s.ready 0x0506 m req ∧ key = flexKey
      (fld (wd req 0) 8 4) (fld (wd req 0) 9 9) ∧ fld (wd req 0) 31 10 = 0 ∧ fld (wd req 0) 3 0 = 1 ∧ flexBad p key 1 req = false ∧ flexBlocked p (fld
      (wd req 0) 8 4) key 1 (fld (wd req 1) 5 5) (flexPhys req) = false ∧ (∀ x ∈ flexPhys req, thas p.port x.port = true)) ∧
    (∃ (m : Mbx) (tag : Byte) (req : List Word) (s : State) (p : State) (key : Nat) (g : FlexGroup), p = s.posted 0x0506 m tag req ∧ s.ready 0x0506 m req
      ∧ key = flexKey (fld (wd req 0) 8 4) (fld (wd req 0) 9 9) ∧ tget? p.flex key = some g ∧ fld (wd req 0) 31 10 = 0 ∧ fld (wd req 0) 3 0 = 2 ∧
      flexBad p key 2 req = false ∧ flexBlocked p (fld (wd req 0) 8 4) key 2 (fld (wd req 1) 5 5) (flexPhys req) = false) ∧
    (∃ (m : Mbx) (tag : Byte) (req : List Word) (s : State) (p : State) (key : Nat) (g : FlexGroup), p = s.posted 0x0506 m tag req ∧ s.ready 0x0506 m req
      ∧ key = flexKey (fld (wd req 0) 8 4) (fld (wd req 0) 9 9) ∧ tget? p.flex key = some g ∧ fld (wd req 0) 31 10 = 0 ∧ fld (wd req 0) 3 0 = 3 ∧
      flexBad p key 3 req = false ∧ flexBlocked p (fld (wd req 0) 8 4) key 3 (fld (wd req 1) 5 5) (flexPhys req) = false ∧ fits p (flexBoth key (1 -
      g.active) p) = true) ∧
    (∃ (m : Mbx) (tag : Byte) (req : List Word) (s : State) (p : State) (key : Nat) (g : FlexGroup), p = s.posted 0x0506 m tag req ∧ s.ready 0x0506 m req
      ∧ key = flexKey (fld (wd req 0) 8 4) (fld (wd req 0) 9 9) ∧ tget? p.flex key = some g ∧ fld (wd req 0) 31 10 = 0 ∧ fld (wd req 0) 3 0 = 4 ∧
      flexBad p key 4 req = false ∧ flexBlocked p (fld (wd req 0) 8 4) key 4 (fld (wd req 1) 5 5) (flexPhys req) = false) ∧
    (∃ (m : Mbx) (tag : Byte) (req : List Word) (s : State) (p : State) (key : Nat) (g : FlexGroup), p = s.posted 0x0506 m tag req ∧ s.ready 0x0506 m req
      ∧ key = flexKey (fld (wd req 0) 8 4) (fld (wd req 0) 9 9) ∧ tget? p.flex key = some g ∧ fld (wd req 0) 31 10 = 0 ∧ fld (wd req 0) 3 0 = 5 ∧
      flexBad p key 5 req = false ∧ flexBlocked p (fld (wd req 0) 8 4) key 5 (fld (wd req 1) 5 5) (flexPhys req) = false) :=
  ⟨⟨0, 0, [1, 1, 0x10100, 0, 0, 0, 0, 0, 0, 0], withPort 0 [0x120400, 0x1000, 0, 0] tUp, _, _, rfl, ready_of (by decide +kernel), rfl, by decide +kernel⟩,
   ⟨0, 0, [2, 0x20, 0, 0, 0, 0, 0, 0, 0, 0, 0, 0],
     { withPort 0 [0x120400, 0x1000, 0, 0] tUp with flex := [(0, { num := 1, phys := [{ port := 0, num := 1 }] })] }, _, _, _, rfl, ready_of
     (by decide +kernel), rfl, some_of (by decide +kernel), by decide +kernel⟩,
   ⟨0, 0, [3], { withPort 0 [0x120400, 0x1000, 0, 0] tUp with flex := [(0, { num := 1, phys := [{ port := 0, num := 1 }] })] }, _, _, _, rfl, ready_of
     (by decide +kernel), rfl, some_of (by decide +kernel), by decide +kernel⟩,
   ⟨0, 0, [4], { withPort 0 [0x120400, 0x1000, 0, 0] tUp with flex := [(0, { num := 1, phys := [{ port := 0, num := 1 }] })] }, _, _, _, rfl, ready_of
     (by decide +kernel), rfl, some_of (by decide +kernel), by decide +kernel⟩,
   ⟨0, 0, [5, 0], { withPort 0 [0x120400, 0x1000, 0, 0] tUp with flex := [(0, { num := 1, phys := [{ port := 0, num := 1 }] })] }, _, _, _, rfl, ready_of
     (by decide +kernel), rfl, some_of (by decide +kernel), by decide +kernel⟩⟩

theorem witness_BraidGroupCommandsComplete :
    (∃ (m : Mbx) (tag : Byte) (req : List Word) (s : State) (p : State) (g : Nat) (r : Bool × State), p = s.posted 0x0601 m tag req ∧ s.ready 0x0601 m req
      ∧ g = fld (wd req 0) 7 0 ∧ r = addClients g (clientEntries req) (monCreate [monAddr 7 0 g 0 0]
      { p with braid := tset p.braid g (braidNew req) }) ∧ braidBad req = false ∧ fld (wd req 0) 11 8 = 1 ∧ thas p.braid g = false ∧ r.1 = false ∧
      fits p r.2 = true ∧ clientsOver r.2 (clientEntries req) = false ∧ capOver r.2 g = false) ∧
    (∃ (m : Mbx) (tag : Byte) (req : List Word) (s : State) (p : State) (g : Nat), p = s.posted 0x0601 m tag req ∧ s.ready 0x0601 m req ∧ g = fld (wd req
      0) 7 0 ∧ braidBad req = false ∧ fld (wd req 0) 11 8 = 2 ∧ thas p.braid g = true ∧ hasMembers p g = false) ∧
    (∃ (m : Mbx) (tag : Byte) (req : List Word) (s : State) (p : State) (g : Nat) (r : Bool × State), p = s.posted 0x0601 m tag req ∧ s.ready 0x0601 m req
      ∧ g = fld (wd req 0) 7 0 ∧ r = addClients g (clientEntries req) p ∧ braidBad req = false ∧ fld (wd req 0) 11 8 = 3 ∧ thas p.braid g = true ∧ r.1
      = false ∧ fits p r.2 = true ∧ clientsOver r.2 (clientEntries req) = false ∧ capOver r.2 g = false) ∧
    (∃ (m : Mbx) (tag : Byte) (req : List Word) (s : State) (p : State) (g : Nat), p = s.posted 0x0601 m tag req ∧ s.ready 0x0601 m req ∧ g = fld (wd req 0) 7 0 ∧ braidBad req = false ∧ fld (wd req 0) 11 8 = 4 ∧ thas p.braid g = true ∧ (clientEntries req).any (fun e => match sideOf p g e.tx with | some d => !(d.clients.any (fun x => x.cidx == e.cidx)) | none => true) = false) ∧
    (∃ (m : Mbx) (tag : Byte) (req : List Word) (s : State) (p : State) (g : Nat) (tx : Bool) (d : Side), p = s.posted 0x0604 m tag req ∧ s.ready 0x0604 m
      req ∧ g = fld (wd req 0) 7 0 ∧ tx = bitOf (wd req 0) 8 ∧ sideOf p g tx = some d ∧ fld (wd req 0) 31 10 = 0 ∧ thas p.braid g = true) :=
  ⟨⟨0, 0, [0x31ff, 0x4e20000, 0x2d0, 1, 0x57f, 0x7ffff, 9], tChans, _, _, _, rfl, ready_of (by decide +kernel), rfl, rfl, by decide +kernel⟩,
   ⟨0, 0, [0x2ff, 0, 0, 0], { tChans with braid := [(255, { rx := some {}, tx := some {}, tagTx := 1, tagExp := 1, maxDd := 1250, wtr := 300 })] }, _, _,
     rfl, ready_of (by decide +kernel), rfl, by decide +kernel⟩,
   ⟨0, 0, [0x3ff, 0, 0, 1, 0x57f, 0x7ffff, 9],
     { tChans with braid := [(255, { rx := some {}, tx := some {}, tagTx := 1, tagExp := 1, maxDd := 1250, wtr := 300 })] }, _, _, _, rfl, ready_of
     (by decide +kernel), rfl, rfl, by decide +kernel⟩,
   ⟨0, 0, [0x4ff, 0, 0, 1, 0x57f, 0x7ffff, 9],
     { tChans with braid := [(255, { tx := some { clients := [{ cidx := 63, tx := true, type := 5, n := 0, ch := 16383, slice := 31, fabricCh := 9 }] } })] },
     _, _, rfl, ready_of (by decide +kernel), rfl, by decide +kernel⟩,
   ⟨0, 0, [0x1ff], { tChans with braid := [(255, { rx := some {}, tx := some {}, tagTx := 1, tagExp := 1, maxDd := 1250, wtr := 300 })] }, _, _, _, _,
     rfl, ready_of (by decide +kernel), rfl, rfl, some_of (by decide +kernel), by decide +kernel⟩⟩

theorem witness_BraidMemberCommandsComplete :
    (∃ (m : Mbx) (tag : Byte) (req : List Word) (s : State) (p : State) (g : Nat) (midx : Nat) (tx : Bool) (d : Side) (k : Nat) (t : State), p = s.posted
      0x0602 m tag req ∧ s.ready 0x0602 m req ∧ g = fld (wd req 0) 7 0 ∧ tx = bitOf (wd req 0) 8 ∧ midx = fld (wd req 0) 15 10 ∧ sideOf p g tx = some
      d ∧ k = chKey tx (fld (wd req 1) 13 0) ∧ t = addMember g tx (bitOf (wd req 0) 9) midx (fld (wd req 1) 13 0) p ∧ memberBad req false = false ∧
      thas p.braid g = true ∧ memberTypeBad p g tx k = false ∧ thas p.chan k = true ∧ memberChanBad p k = false ∧ memberOf d midx = none ∧ fits p t =
      true) ∧
    (∃ (m : Mbx) (tag : Byte) (req : List Word) (s : State) (p : State) (g : Nat) (midx : Nat) (tx : Bool) (d : Side) (x : Member), p = s.posted 0x0603 m
      tag req ∧ s.ready 0x0603 m req ∧ g = fld (wd req 0) 7 0 ∧ tx = bitOf (wd req 0) 8 ∧ midx = fld (wd req 0) 15 10 ∧ sideOf p g tx = some d ∧
      memberOf d midx = some x ∧ memberBad req true = false ∧ thas p.braid g = true ∧ x.ch ≠ goneCh ∧ (tx = false ∨ bitOf (wd req 0) 16 = true) ∧
      (x.weight = 0 ∨ bitOf (wd req 0) 16 = true)) ∧
    (∃ (m : Mbx) (tag : Byte) (req : List Word) (s : State) (p : State) (g : Nat) (midx : Nat) (tx : Bool) (d : Side) (x : Member) (b : Braid) (t :
      State), p = s.posted 0x0603 m tag req ∧ s.ready 0x0603 m req ∧ g = fld (wd req 0) 7 0 ∧ tx = bitOf (wd req 0) 8 ∧ midx = fld (wd req 0) 15 10 ∧
      sideOf p g tx = some d ∧ memberOf d midx = some x ∧ tx = true ∧ tget? p.braid g = some b ∧ t = updMember g true midx (fun m =>
      { m with removing := true, removes := m.removes + 1, soloAt := if b.rx.isNone && !m.removing then some (p.now + 2000000000) else m.soloAt }) p ∧
      memberBad req true = false ∧ thas p.braid g = true ∧ x.ch ≠ goneCh ∧ bitOf (wd req 0) 16 = false) :=
  ⟨⟨0, 0, [0xfdff, 1], { tChans with braid := [(255, { rx := some {}, tx := some {}, tagTx := 1, tagExp := 1, maxDd := 1250, wtr := 300 })] }, _, _, _,
     _, _, _, _, rfl, ready_of (by decide +kernel), rfl, rfl, rfl, some_of (by decide +kernel), rfl, rfl, by decide +kernel⟩,
   ⟨0, 0, [0x1fdff], { tChans with braid := [(255, { rx := some {}, tx := some { members := [{ midx := 63, ch := 1 }] }, maxDd := 1250 })] }, _, _, _, _,
     _, _, rfl, ready_of (by decide +kernel), rfl, rfl, rfl, some_of (by decide +kernel), some_of (by decide +kernel), by decide +kernel⟩,
   ⟨0, 0, [0xfdff], { tChans with braid := [(255, { rx := some {}, tx := some { members := [{ midx := 63, ch := 1 }] }, maxDd := 1250 })] }, _, _, _, _,
     _, _, _, _, rfl, ready_of (by decide +kernel), rfl, rfl, rfl, some_of (by decide +kernel), some_of (by decide +kernel), rfl, some_of
     (by decide +kernel), rfl, by decide +kernel⟩⟩

theorem witness_QueueConfigCompletes :
    (∃ (m : Mbx) (tag : Byte) (req : List Word) (s : State) (p : State) (x : Nat) (n : Queue), p = s.posted 0x0701 m tag req ∧ s.ready 0x0701 m req ∧ x =
      fld (wd req 0) 19 0 ∧ n = queueOfWords p.now req ∧ fld (wd req 0) 23 20 = 1 ∧ queueConfigBad p x 1 n req = false ∧ queueBlocked p x 1 n = false
      ∧ queueNoReader p n = false ∧ queueOver p (queueSet x 1 n p) x 1 n = false) ∧
    (∃ (m : Mbx) (tag : Byte) (req : List Word) (s : State) (p : State) (x : Nat) (n : Queue), p = s.posted 0x0701 m tag req ∧ s.ready 0x0701 m req ∧ x =
      fld (wd req 0) 19 0 ∧ n = queueOfWords p.now req ∧ fld (wd req 0) 23 20 = 2 ∧ queueConfigBad p x 2 n req = false ∧ queueBlocked p x 2 n = false
      ∧ (queueAt p x).isSome = true ∧ queueNoReader p n = false ∧ queueOver p (queueSet x 2 n p) x 2 n = false) ∧
    (∃ (m : Mbx) (tag : Byte) (req : List Word) (s : State) (p : State) (x : Nat) (n : Queue) (q : Queue), p = s.posted 0x0701 m tag req ∧ s.ready 0x0701
      m req ∧ x = fld (wd req 0) 19 0 ∧ n = queueOfWords p.now req ∧ queueAt p x = some q ∧ fld (wd req 0) 23 20 = 3 ∧ queueConfigBad p x 3 n req =
      false ∧ queueBlocked p x 3 n = false) ∧
    (∃ (m : Mbx) (tag : Byte) (req : List Word) (s : State) (p : State) (x : Nat) (n : Queue) (q : Queue), p = s.posted 0x0701 m tag req ∧ s.ready 0x0701
      m req ∧ x = fld (wd req 0) 19 0 ∧ n = queueOfWords p.now req ∧ queueAt p x = some q ∧ fld (wd req 0) 23 20 = 4 ∧ queueConfigBad p x 4 n req =
      false ∧ queueBlocked p x 4 n = false) :=
  ⟨⟨0, 0, [0x11fffff, 8, 2, 7, 2, 8, 1, 0x10, 0, 0], tUp, _, _, _, rfl, ready_of (by decide +kernel), rfl, rfl, by decide +kernel⟩,
   ⟨0, 0, [0x12fffff, 8, 2, 7, 2, 8, 1, 0x10, 0, 0], { tUp with pool.q := [(1048575, queueOfWords 0 [0x11FFFFF, 8, 2, 7, 2, 8, 1, 16, 0, 0])] }, _, _, _,
     rfl, ready_of (by decide +kernel), rfl, rfl, by decide +kernel⟩,
   ⟨0, 0, [0x3fffff, 0, 0, 0, 0, 0, 0, 0, 0, 0], { tUp with pool.q := [(1048575, queueOfWords 0 [0x11FFFFF, 8, 2, 7, 2, 8, 1, 16, 0, 0])] }, _, _, _, _,
     rfl, ready_of (by decide +kernel), rfl, rfl, some_of (by decide +kernel), by decide +kernel⟩,
   ⟨0, 0, [0x4fffff, 0, 0, 0, 0, 0, 0, 0, 0, 0], { tUp with pool.q := [(1048575, queueOfWords 0 [0x11FFFFF, 8, 2, 7, 2, 8, 1, 16, 0, 0])] }, _, _, _, _,
     rfl, ready_of (by decide +kernel), rfl, rfl, some_of (by decide +kernel), by decide +kernel⟩⟩

theorem witness_QueueCommandsComplete :
    (∃ (m : Mbx) (tag : Byte) (req : List Word) (s : State) (p : State) (x : Nat) (q : Queue), p = s.posted 0x0702 m tag req ∧ s.ready 0x0702 m req ∧ x =
      fld (wd req 0) 19 0 ∧ queueAt p x = some q ∧ fld (wd req 0) 31 20 = 0) ∧
    (∃ (m : Mbx) (tag : Byte) (req : List Word) (s : State) (p : State) (x : Nat) (q : Queue), p = s.posted 0x0703 m tag req ∧ s.ready 0x0703 m req ∧ x =
      fld (wd req 0) 19 0 ∧ queueAt p x = some q ∧ fld (wd req 0) 31 20 = 0 ∧ q.owner = 0 ∧ q.partialBytes = []) ∧
    (∃ (m : Mbx) (tag : Byte) (req : List Word) (s : State) (p : State) (x : Nat) (q : Queue), p = s.posted 0x0703 m tag req ∧ s.ready 0x0703 m req ∧ x =
      fld (wd req 0) 19 0 ∧ queueAt p x = some q ∧ fld (wd req 0) 31 20 = 0 ∧ q.owner = 0 ∧ q.partialBytes ≠ []) ∧
    (∃ (m : Mbx) (tag : Byte) (req : List Word) (s : State) (p : State) (blk : Nat), p = s.posted 0x0704 m tag req ∧ s.ready 0x0704 m req ∧ blk = fld (wd
      req 0) 9 0 ∧ fld (wd req 0) 31 11 = 0) ∧
    (∃ (m : Mbx) (tag : Byte) (req : List Word) (s : State) (p : State) (f : Nat × Nat) (k : Nat), p = s.posted 0x0705 m tag req ∧ s.ready 0x0705 m req ∧
      f = freeTotals p ∧ k = p.boot.retired.toNat) :=
  ⟨⟨0, 0, [0xfffff], { tUp with pool.q := [(1048575, queueOfWords 0 [0x11FFFFF, 8, 2, 7, 2, 8, 1, 16, 0, 0])] }, _, _, _, rfl, ready_of
     (by decide +kernel), rfl, some_of (by decide +kernel), by decide +kernel⟩,
   ⟨0, 0, [0xfffff], { tUp with pool.q := [(1048575, queueOfWords 0 [0x11FFFFF, 8, 2, 7, 2, 8, 1, 16, 0, 0])] }, _, _, _, rfl, ready_of
     (by decide +kernel), rfl, some_of (by decide +kernel), by decide +kernel⟩,
   ⟨0, 0, [0xfffff], { tUp with pool.q := [(1048575, { kind := 1, partialBytes := [1] })] }, _, _, _, rfl, ready_of (by decide +kernel), rfl, some_of
     (by decide +kernel), by decide +kernel⟩,
   ⟨0, 0, [0x3ff], tUp, _, _, rfl, ready_of (by decide +kernel), rfl, by decide +kernel⟩,
   ⟨0, 0, [], tUp, _, _, _, rfl, ready_of (by decide +kernel), rfl, rfl⟩⟩

theorem witness_ProtectionCommandsComplete :
    (∃ (m : Mbx) (tag : Byte) (req : List Word) (s : State) (p : State) (n : Nat), p = s.posted 0x0801 m tag req ∧ s.ready 0x0801 m req ∧ n = fld (wd req
      0) 10 0 ∧ bitOf (wd req 0) 11 = false ∧ fld (wd req 0) 31 25 = 0 ∧ fld (wd req 0) 15 12 = 1 ∧ protRes req = false ∧ protTimesBad req = false ∧
      protBad req = false ∧ protMissing p req = false ∧ thas p.prot n = false ∧ (if gMsp req then mspBad p req else snpBad p req) = false ∧ fits p
      (protAdd n req p) = true) ∧
    (∃ (m : Mbx) (tag : Byte) (req : List Word) (s : State) (p : State) (n : Nat) (g : Prot), p = s.posted 0x0801 m tag req ∧ s.ready 0x0801 m req ∧ n =
      fld (wd req 0) 10 0 ∧ tget? p.prot n = some g ∧ bitOf (wd req 0) 11 = false ∧ fld (wd req 0) 31 25 = 0 ∧ fld (wd req 0) 15 12 = 2 ∧ wordsBad req
      1 5 = false) ∧
    (∃ (m : Mbx) (tag : Byte) (req : List Word) (s : State) (p : State) (n : Nat) (g : Prot), p = s.posted 0x0801 m tag req ∧ s.ready 0x0801 m req ∧ n =
      fld (wd req 0) 10 0 ∧ tget? p.prot n = some g ∧ bitOf (wd req 0) 11 = false ∧ fld (wd req 0) 31 25 = 0 ∧ fld (wd req 0) 15 12 = 3 ∧ protRes req
      = false ∧ protTimesBad req = false) ∧
    (∃ (m : Mbx) (tag : Byte) (req : List Word) (s : State) (p : State) (n : Nat) (g : Prot), p = s.posted 0x0801 m tag req ∧ s.ready 0x0801 m req ∧ n =
      fld (wd req 0) 10 0 ∧ tget? p.prot n = some g ∧ bitOf (wd req 0) 11 = false ∧ fld (wd req 0) 31 25 = 0 ∧ fld (wd req 0) 15 12 = 4 ∧ wordsBad req
      1 5 = false) ∧
    (∃ (m : Mbx) (tag : Byte) (req : List Word) (s : State) (p : State) (n : Nat) (g : Prot) (t : State), p = s.posted 0x0802 m tag req ∧ s.ready 0x0802 m
      req ∧ n = fld (wd req 0) 10 0 ∧ tget? p.prot n = some g ∧ t = { p with prot := tupd p.prot n (fun g => { g with ext := fld (wd req 0) 15 12 }) }
      ∧ bitOf (wd req 0) 11 = false ∧ fld (wd req 0) 31 16 = 0 ∧ fld (wd req 0) 15 12 ≤ 5 ∧ (fld (wd req 0) 15 12 = 0 ∨ fld (wd req 0) 15 12 = 1 ∨
      cmdPri (fld (wd req 0) 15 12) ≤ (topReq g).1.pri)) ∧
    (∃ (m : Mbx) (tag : Byte) (req : List Word) (s : State) (p : State) (n : Nat) (g : Prot) (left : Nat) (k2 : Nat), p = s.posted 0x0803 m tag req ∧ s.ready 0x0803 m req ∧ n = fld (wd req 0) 10 0 ∧ tget? p.prot n = some g ∧ left = (match g.wtrUntil with | some t => (t - p.now + 999999999) / 1000000000 | none => 0) ∧ k2 = (match portAt p (gLegRx g.words true) with | some q => if gMsp g.words then (txK p (gLegRx g.words true) q (ohOf p (ohKey 0 (gLegRx g.words true) 0))).2.toNat % 8 else 0 | none => 0) ∧ fld (wd req 0) 31 11 = 0) :=
  ⟨⟨0, 0, [0x8117ff, 0x10000, 0, 5, 0, 0x2d06400], tChans, _, _, rfl, ready_of (by decide +kernel), rfl, by decide +kernel⟩,
   ⟨0, 0, [0x27ff, 0, 0, 0, 0, 0], { tChans with prot := [(2047, { words := [0, 0, 0, 0, 0, 0], holdOff := 0, wtr := 300 })] }, _, _, _, rfl, ready_of
     (by decide +kernel), rfl, some_of (by decide +kernel), by decide +kernel⟩,
   ⟨0, 0, [0x37ff, 0, 0, 0, 0, 0x2d06400], { tChans with prot := [(2047, { words := [0, 0, 0, 0, 0, 0], holdOff := 0, wtr := 300 })] }, _, _, _, rfl,
     ready_of (by decide +kernel), rfl, some_of (by decide +kernel), by decide +kernel⟩,
   ⟨0, 0, [0x47ff, 0, 0, 0, 0, 0], { tChans with prot := [(2047, { words := [0, 0, 0, 0, 0, 0], holdOff := 0, wtr := 300 })] }, _, _, _, rfl, ready_of
     (by decide +kernel), rfl, some_of (by decide +kernel), by decide +kernel⟩,
   ⟨0, 0, [0x57ff], { tChans with prot := [(2047, { words := [0, 0, 0, 0, 0, 0], holdOff := 0, wtr := 300 })] }, _, _, _, _, rfl, ready_of
     (by decide +kernel), rfl, some_of (by decide +kernel), rfl, by decide +kernel⟩,
   ⟨0, 0, [0x7ff], { tChans with prot := [(2047, { words := [0, 0, 0, 0, 0, 0], holdOff := 0, wtr := 300 })] }, _, _, _, _, _, rfl, ready_of
     (by decide +kernel), rfl, some_of (by decide +kernel), rfl, rfl, by decide +kernel⟩⟩

theorem witness_WeltCommandsComplete :
    (∃ (m : Mbx) (tag : Byte) (req : List Word) (s : State) (p : State) (n : Nat), p = s.posted 0x0804 m tag req ∧ s.ready 0x0804 m req ∧ n = fld (wd req
      0) 11 0 ∧ fld (wd req 0) 15 12 = 1 ∧ weltBad p req = false ∧ weltMissing p 1 n req = false ∧ weltBlocked p 1 n req = false ∧ fits p (weltAdd n
      req p) = true) ∧
    (∃ (m : Mbx) (tag : Byte) (req : List Word) (s : State) (p : State) (n : Nat), p = s.posted 0x0804 m tag req ∧ s.ready 0x0804 m req ∧ n = fld (wd req
      0) 11 0 ∧ fld (wd req 0) 15 12 = 2 ∧ weltBad p req = false ∧ weltMissing p 2 n req = false ∧ weltBlocked p 2 n req = false) ∧
    (∃ (m : Mbx) (tag : Byte) (req : List Word) (s : State) (p : State) (n : Nat) (t : State) (u : State), p = s.posted 0x0804 m tag req ∧ s.ready 0x0804
      m req ∧ n = fld (wd req 0) 11 0 ∧ t = updWelt n (fun x => { x with auto := bitOf (wd req 4) 8 }) p ∧ u = (if bitOf (wd req 4) 9 then weltEnable
      n t else t) ∧ fld (wd req 0) 15 12 = 3 ∧ weltBad p req = false ∧ weltMissing p 3 n req = false ∧ weltBlocked p 3 n req = false ∧ fits p u =
      true) ∧
    (∃ (m : Mbx) (tag : Byte) (req : List Word) (s : State) (p : State) (n : Nat) (x : Welt), p = s.posted 0x0804 m tag req ∧ s.ready 0x0804 m req ∧ n =
      fld (wd req 0) 11 0 ∧ tget? p.welt n = some x ∧ fld (wd req 0) 15 12 = 4 ∧ weltBad p req = false ∧ weltMissing p 4 n req = false ∧ weltBlocked p
      4 n req = false) ∧
    (∃ (m : Mbx) (tag : Byte) (req : List Word) (s : State) (p : State) (n : Nat), p = s.posted 0x0804 m tag req ∧ s.ready 0x0804 m req ∧ n = fld (wd req
      0) 11 0 ∧ fld (wd req 0) 15 12 = 5 ∧ weltBad p req = false ∧ weltMissing p 5 n req = false ∧ weltBlocked p 5 n req = false ∧ p.bridge.length <
      4096 ∧ fits p (bridgeAdd req p) = true) ∧
    (∃ (m : Mbx) (tag : Byte) (req : List Word) (s : State) (p : State) (n : Nat), p = s.posted 0x0804 m tag req ∧ s.ready 0x0804 m req ∧ n = fld (wd req
      0) 11 0 ∧ fld (wd req 0) 15 12 = 6 ∧ weltBad p req = false ∧ weltMissing p 6 n req = false ∧ weltBlocked p 6 n req = false) ∧
    (∃ (m : Mbx) (tag : Byte) (req : List Word) (s : State) (p : State) (n : Nat) (x : Welt), p = s.posted 0x0805 m tag req ∧ s.ready 0x0805 m req ∧ n =
      fld (wd req 0) 11 0 ∧ tget? p.welt n = some x ∧ fld (wd req 0) 31 13 = 0) :=
  ⟨⟨0, 0, [0x1fff, 0, 1, 5, 0xfa], tChans, _, _, rfl, ready_of (by decide +kernel), rfl, by decide +kernel⟩,
   ⟨0, 0, [0x2fff, 0, 0, 0, 0],
     { tChans with welt := [(4095, { c0 := { ch := 0 }, c1 := { ch := 1 }, fabricCh := 5, window := 250, wtag := 0, auto := false })] }, _, _, rfl,
     ready_of (by decide +kernel), rfl, by decide +kernel⟩,
   ⟨0, 0, [0x3fff, 0, 0, 0, 0x200],
     { tChans with welt := [(4095, { c0 := { ch := 0 }, c1 := { ch := 1 }, fabricCh := 5, window := 250, wtag := 0, auto := false, st := .disabled })] },
     _, _, _, _, rfl, ready_of (by decide +kernel), rfl, rfl, rfl, by decide +kernel⟩,
   ⟨0, 0, [0x4fff, 0, 0, 0, 0],
     { tChans with welt := [(4095, { c0 := { ch := 0 }, c1 := { ch := 1 }, fabricCh := 5, window := 250, wtag := 0, auto := false })] }, _, _, _, rfl,
     ready_of (by decide +kernel), rfl, some_of (by decide +kernel), by decide +kernel⟩,
   ⟨0, 0, [0x5000, 2, 3, 5, 0], tBridge, _, _, rfl, ready_of (by decide +kernel), rfl, by decide +kernel⟩,
   ⟨0, 0, [0x6000, 1, 0, 0, 0], { tChans with bridge := [(1, { leg1 := 0, fabricCh := 5, wtag := 0 })] }, _, _, rfl, ready_of (by decide +kernel), rfl,
     by decide +kernel⟩,
   ⟨0, 0, [0xfff], { tChans with welt := [(4095, { c0 := { ch := 0 }, c1 := { ch := 1 }, fabricCh := 5, window := 250, wtag := 0, auto := false })] }, _,
     _, _, rfl, ready_of (by decide +kernel), rfl, some_of (by decide +kernel), by decide +kernel⟩⟩

theorem witness_TimingReferencesComplete :
    (∃ (m : Mbx) (tag : Byte) (req : List Word) (s : State) (p : State) (n : Nat), p = s.posted 0x0901 m tag req ∧ s.ready 0x0901 m req ∧ n = fld (wd req
      0) 5 0 ∧ resBad req [(0, 7, 6), (0, 31, 11)] = false ∧ n ≤ 41 ∧ bitOf (wd req 0) 10 = false ∧ refBad n (bitOf (wd req 0) 9) req = false ∧ (8 ≤ n
      → n < 40 → bitOf (wd req 0) 8 = true → (portAt p (fld (wd req 2) 7 0)).isSome = true ∧ refPortBad p n req = false)) ∧
    (∃ (m : Mbx) (tag : Byte) (req : List Word) (s : State) (p : State) (n : Nat), p = s.posted 0x0901 m tag req ∧ s.ready 0x0901 m req ∧ n = fld (wd req
      0) 5 0 ∧ resBad req [(0, 7, 6), (0, 31, 11)] = false ∧ n ≤ 41 ∧ bitOf (wd req 0) 10 = true ∧ bitOf (wd req 0) 8 = false ∧ bitOf (wd req 0) 9 =
      false ∧ wordsBad req 1 7 = false) ∧
    (∃ (m : Mbx) (tag : Byte) (req : List Word) (s : State) (p : State), p = s.posted 0x0903 m tag req ∧ s.ready 0x0903 m req ∧ fld (wd req 0) 31 10 = 0 ∧
      fld (wd req 0) 9 4 ≤ 41 ∧ bitOf (wd req 0) 3 = true ∧ bitOf (wd req 0) 2 = false) ∧
    (∃ (m : Mbx) (tag : Byte) (req : List Word) (s : State) (p : State), p = s.posted 0x0903 m tag req ∧ s.ready 0x0903 m req ∧ fld (wd req 0) 31 10 = 0 ∧
      fld (wd req 0) 9 4 ≤ 41 ∧ bitOf (wd req 0) 3 = false) ∧
    (∃ (m : Mbx) (tag : Byte) (req : List Word) (s : State) (p : State) (r : DpllHist) (l : List DpllHist) (rest : List DpllHist), p = s.posted 0x0906 m
      tag req ∧ s.ready 0x0906 m req ∧ l = (histRun (·.sec) ((p.tmc.secs : Int) + 1 - (fld (wd req 1) 19 0 : Int)) (dpllOf p (fld (wd req 0) 7
      2)).hist).take (fld (wd req 2) 6 0) ∧ l = r :: rest ∧ resBad req [(0, 31, 8), (1, 31, 20), (2, 31, 7)] = false ∧ fld (wd req 0) 1 0 = 1 ∧ fld
      (wd req 0) 7 2 ≤ 3 ∧ 1 ≤ fld (wd req 1) 19 0 ∧ 1 ≤ fld (wd req 2) 6 0 ∧ fld (wd req 2) 6 0 ≤ 63) ∧
    (∃ (m : Mbx) (tag : Byte) (req : List Word) (s : State) (p : State) (r : CandHist) (l : List CandHist) (rest : List CandHist), p = s.posted 0x0906 m
      tag req ∧ s.ready 0x0906 m req ∧ l = (histRun (·.sec) ((p.tmc.secs : Int) + 1 - (fld (wd req 1) 19 0 : Int)) (tget p.tmc.candHist [] (fld (wd
      req 0) 7 2))).take (fld (wd req 2) 6 0) ∧ l = r :: rest ∧ resBad req [(0, 31, 8), (1, 31, 20), (2, 31, 7)] = false ∧ fld (wd req 0) 1 0 = 2 ∧
      fld (wd req 0) 7 2 ≤ 41 ∧ 1 ≤ fld (wd req 1) 19 0 ∧ 1 ≤ fld (wd req 2) 6 0 ∧ fld (wd req 2) 6 0 ≤ 126) ∧
    (∃ (m : Mbx) (tag : Byte) (req : List Word) (s : State) (p : State), p = s.posted 0x0906 m tag req ∧ s.ready 0x0906 m req ∧ resBad req [(0, 31, 8),
      (1, 31, 20), (2, 31, 7)] = false ∧ (fld (wd req 0) 1 0 = 1 ∨ fld (wd req 0) 1 0 = 2) ∧ fld (wd req 0) 7 2 ≤ (if fld (wd req 0) 1 0 = 1 then 3
      else 41) ∧ 1 ≤ fld (wd req 1) 19 0 ∧ 1 ≤ fld (wd req 2) 6 0 ∧ fld (wd req 2) 6 0 ≤ (if fld (wd req 0) 1 0 = 1 then 63 else 126) ∧ (fld (wd req
      0) 1 0 = 1 → histRun (·.sec) ((p.tmc.secs : Int) + 1 - (fld (wd req 1) 19 0 : Int)) (dpllOf p (fld (wd req 0) 7 2)).hist = []) ∧ (fld (wd req 0)
      1 0 = 2 → histRun (·.sec) ((p.tmc.secs : Int) + 1 - (fld (wd req 1) 19 0 : Int)) (tget p.tmc.candHist [] (fld (wd req 0) 7 2)) = [])) :=
  ⟨⟨0, 0, [0, 0x989680, 0, 0x14000a, 0x1000000, 0, 0, 0], tUp, _, _, rfl, ready_of (by decide +kernel), rfl, by decide +kernel⟩,
   ⟨0, 0, [0x429, 0, 0, 0, 0, 0, 0, 0], tUp, _, _, rfl, ready_of (by decide +kernel), rfl, by decide +kernel⟩,
   ⟨0, 0, [0x298], tUp, _, rfl, ready_of (by decide +kernel), by decide +kernel⟩,
   ⟨0, 0, [0x290], tUp, _, rfl, ready_of (by decide +kernel), by decide +kernel⟩,
   ⟨0, 0, [0xd, 1, 0x3f],
     { tUp with tmc.dpll := [(3, { hist := [{ st := .freeRun, sel := 63, gap := false, sticky := 0, dco := 0, err := 0, start := 0 }] })], tmc.candHist := [(41, [{ off1 := 0, st := .waiting, actLost := false, dissent0 := false, gap := false, start := 0 }])] },
     _, _, _, _, rfl, ready_of (by decide +kernel), rfl, rfl, by decide +kernel⟩,
   ⟨0, 0, [0xa6, 1, 0x7e],
     { tUp with tmc.dpll := [(3, { hist := [{ st := .freeRun, sel := 63, gap := false, sticky := 0, dco := 0, err := 0, start := 0 }] })], tmc.candHist := [(41, [{ off1 := 0, st := .waiting, actLost := false, dissent0 := false, gap := false, start := 0 }])] },
     _, _, _, _, rfl, ready_of (by decide +kernel), rfl, rfl, by decide +kernel⟩,
   ⟨0, 0, [0xa6, 2, 0x7e],
     { tUp with tmc.dpll := [(3, { hist := [{ st := .freeRun, sel := 63, gap := false, sticky := 0, dco := 0, err := 0, start := 0 }] })], tmc.candHist := [(41, [{ off1 := 0, st := .waiting, actLost := false, dissent0 := false, gap := false, start := 0 }])] },
     _, rfl, ready_of (by decide +kernel), by decide +kernel⟩⟩

theorem witness_TimingControlsComplete :
    (∃ (m : Mbx) (tag : Byte) (req : List Word) (s : State) (p : State) (d : Nat), p = s.posted 0x0902 m tag req ∧ s.ready 0x0902 m req ∧ d = fld (wd req
      0) 1 0 ∧ resBad req [(0, 3, 2), (0, 31, 14)] = false ∧ fld (wd req 0) 7 4 = 1 ∧ fld (wd req 0) 13 8 = 0 ∧ dpllBad p d req = false) ∧
    (∃ (m : Mbx) (tag : Byte) (req : List Word) (s : State) (p : State) (d : Nat) (op : Nat), p = s.posted 0x0902 m tag req ∧ s.ready 0x0902 m req ∧ d =
      fld (wd req 0) 1 0 ∧ fld (wd req 0) 7 4 = op ∧ resBad req [(0, 3, 2), (0, 31, 14)] = false ∧ 2 ≤ op ∧ op ≤ 5 ∧ fld (wd req 0) 13 8 ≤ 41 ∧ (op =
      2 ∨ fld (wd req 0) 13 8 = 0) ∧ wordsBad req 1 4 = false) ∧
    (∃ (m : Mbx) (tag : Byte) (req : List Word) (s : State) (p : State) (d : Nat) (g : List Word), p = s.posted 0x0902 m tag req ∧ s.ready 0x0902 m req ∧
      d = fld (wd req 0) 1 0 ∧ g = (dpllOf p d).cfg ∧ resBad req [(0, 3, 2), (0, 31, 14)] = false ∧ fld (wd req 0) 7 4 = 6 ∧ fld (wd req 0) 13 8 = 0 ∧
      wordsBad req 1 4 = false) ∧
    (∃ (m : Mbx) (tag : Byte) (req : List Word) (s : State) (p : State) (d : Nat) (ox : Nat), p = s.posted 0x0902 m tag req ∧ s.ready 0x0902 m req ∧ d =
      fld (wd req 0) 1 0 ∧ ox = fld (wd req 1) 7 6 ∧ resBad req [(0, 3, 2), (0, 31, 14)] = false ∧ fld (wd req 0) 7 4 = 7 ∧ fld (wd req 0) 13 8 = 0 ∧
      resBad req [(1, 5, 0), (1, 31, 8)] = false ∧ ox ≠ 3 ∧ wordsBad req 2 3 = false) ∧
    (∃ (m : Mbx) (tag : Byte) (req : List Word) (s : State) (p : State) (d : Nat) (v : Int), p = s.posted 0x0904 m tag req ∧ s.ready 0x0904 m req ∧ d =
      fld (wd req 0) 1 0 ∧ v = sx 40 ((wd req 1).toNat + 4294967296 * fld (wd req 2) 7 0) + (if fld (wd req 0) 7 4 = 2 then (dpllOf p d).dco else 0) ∧
      resBad req [(0, 3, 2), (0, 31, 8), (2, 31, 8)] = false ∧ (dpllOf p d).st = .dco ∧ (fld (wd req 0) 7 4 = 1 ∨ fld (wd req 0) 7 4 = 2) ∧ v ≤ dcoMax
      ∧ -dcoMax ≤ v) ∧
    (∃ (m : Mbx) (tag : Byte) (req : List Word) (s : State) (p : State) (d : Nat), p = s.posted 0x0904 m tag req ∧ s.ready 0x0904 m req ∧ d = fld (wd req
      0) 1 0 ∧ resBad req [(0, 3, 2), (0, 31, 8), (2, 31, 8)] = false ∧ fld (wd req 0) 7 4 = 3 ∧ wd req 2 = 0 ∧ (dpllOf p d).st ≠ .freeRun ∧ (dpllOf p
      d).st ≠ .holdover) ∧
    (∃ (m : Mbx) (tag : Byte) (req : List Word) (s : State) (p : State) (n : Nat), p = s.posted 0x0905 m tag req ∧ s.ready 0x0905 m req ∧ n = fld (wd req
      0) 4 0 ∧ fld (wd req 0) 31 13 = 0 ∧ n ≤ 19 ∧ bitOf (wd req 0) 12 = false ∧ fld (wd req 0) 9 8 ≠ 3 ∧ fld (wd req 0) 11 10 ≠ 3 ∧ resBad req [(1,
      31, 30), (2, 31, 20), (4, 31, 16), (5, 15, 1)] = false ∧ (if n < 16 then clkBad req else pulseBad req) = false) ∧
    (∃ (m : Mbx) (tag : Byte) (req : List Word) (s : State) (p : State) (n : Nat), p = s.posted 0x0905 m tag req ∧ s.ready 0x0905 m req ∧ n = fld (wd req
      0) 4 0 ∧ fld (wd req 0) 31 13 = 0 ∧ n ≤ 19 ∧ bitOf (wd req 0) 12 = true ∧ wordsBad req 1 5 = false) :=
  ⟨⟨0, 0, [0x13, 0, 0, 0, 0], tUp, _, _, rfl, ready_of (by decide +kernel), rfl, by decide +kernel⟩,
   ⟨0, 0, [0x2923, 0, 0, 0, 0], tUp, _, _, _, rfl, ready_of (by decide +kernel), rfl, rfl, by decide +kernel⟩,
   ⟨0, 0, [0x63, 0, 0, 0, 0], tUp, _, _, _, rfl, ready_of (by decide +kernel), rfl, rfl, by decide +kernel⟩,
   ⟨0, 0, [0x73, 0x80, 0, 0, 0], tUp, _, _, _, rfl, ready_of (by decide +kernel), rfl, rfl, by decide +kernel⟩,
   ⟨0, 0, [0x23, 5, 0], { tUp with tmc.dpll := [(3, { st := .dco })] }, _, _, _, rfl, ready_of (by decide +kernel), rfl, rfl, by decide +kernel⟩,
   ⟨0, 0, [0x33, 0, 0], { tUp with tmc.dpll := [(3, { st := .dco })] }, _, _, rfl, ready_of (by decide +kernel), rfl, by decide +kernel⟩,
   ⟨0, 0, [0xf, 0x989680, 0, 0, 0, 0], tUp, _, _, rfl, ready_of (by decide +kernel), rfl, by decide +kernel⟩,
   ⟨0, 0, [0x1013, 0, 0, 0, 0, 0], tUp, _, _, rfl, ready_of (by decide +kernel), rfl, by decide +kernel⟩⟩

theorem witness_TemperConfigCompletes :
    (∃ (m : Mbx) (tag : Byte) (req : List Word) (s : State) (p : State), p = s.posted 0x0A01 m tag req ∧ s.ready 0x0A01 m req ∧ fld (wd req 0) 31 12 = 0 ∧
      fld (wd req 0) 3 0 = 1 ∧ fld (wd req 0) 5 4 = 0 ∧ fld (wd req 0) 11 6 = 0 ∧ temperRatesBad p req = false) ∧
    (∃ (m : Mbx) (tag : Byte) (req : List Word) (s : State) (p : State) (d : Nat), p = s.posted 0x0A01 m tag req ∧ s.ready 0x0A01 m req ∧ d = fld (wd req
      0) 5 4 ∧ fld (wd req 0) 31 12 = 0 ∧ fld (wd req 0) 3 0 = 2 ∧ fld (wd req 0) 11 6 = 0 ∧ temperRhoBad p d req = false) ∧
    (∃ (m : Mbx) (tag : Byte) (req : List Word) (s : State) (p : State) (n : Nat), p = s.posted 0x0A01 m tag req ∧ s.ready 0x0A01 m req ∧ n = fld (wd req
      0) 11 6 ∧ fld (wd req 0) 31 12 = 0 ∧ fld (wd req 0) 3 0 = 3 ∧ fld (wd req 0) 5 4 = 0 ∧ n ≤ 41 ∧ wordsBad req 1 3 = false) ∧
    (∃ (m : Mbx) (tag : Byte) (req : List Word) (s : State) (p : State) (d : Nat), p = s.posted 0x0A01 m tag req ∧ s.ready 0x0A01 m req ∧ d = fld (wd req
      0) 5 4 ∧ fld (wd req 0) 31 12 = 0 ∧ fld (wd req 0) 3 0 = 4 ∧ fld (wd req 0) 11 6 = 0 ∧ wordsBad req 1 3 = false) ∧
    (∃ (m : Mbx) (tag : Byte) (req : List Word) (s : State) (p : State) (x : Dpll), p = s.posted 0x0A04 m tag req ∧ s.ready 0x0A04 m req ∧ x = dpllOf p
      (fld (wd req 0) 9 8) ∧ resBad req [(0, 1, 1), (0, 31, 10)] = false ∧ fld (wd req 0) 7 2 ≤ 41 ∧ bitOf (wd req 0) 0 = true) ∧
    (∃ (m : Mbx) (tag : Byte) (req : List Word) (s : State) (p : State) (x : Candidate), p = s.posted 0x0A04 m tag req ∧ s.ready 0x0A04 m req ∧ x = candOf
      p (fld (wd req 0) 7 2) ∧ resBad req [(0, 1, 1), (0, 31, 10)] = false ∧ fld (wd req 0) 7 2 ≤ 41 ∧ bitOf (wd req 0) 0 = false) :=
  ⟨⟨0, 0, [1, 0xa00fa, 0, 0], tUp, _, rfl, ready_of (by decide +kernel), by decide +kernel⟩,
   ⟨0, 0, [0x32, 0, 0, 0], tUp, _, _, rfl, ready_of (by decide +kernel), rfl, by decide +kernel⟩,
   ⟨0, 0, [0xa43, 0, 0, 0], tUp, _, _, rfl, ready_of (by decide +kernel), rfl, by decide +kernel⟩,
   ⟨0, 0, [0x34, 0, 0, 0], tUp, _, _, rfl, ready_of (by decide +kernel), rfl, by decide +kernel⟩,
   ⟨0, 0, [0x3a5], tUp, _, _, rfl, ready_of (by decide +kernel), rfl, by decide +kernel⟩,
   ⟨0, 0, [0xa4], tUp, _, _, rfl, ready_of (by decide +kernel), rfl, by decide +kernel⟩⟩

theorem witness_TemperBanksComplete :
    (∃ (m : Mbx) (tag : Byte) (req : List Word) (s : State) (p : State) (n : Nat) (first : Nat) (cnt : Nat) (t : Table Int), p = s.posted 0x0A02 m tag req
      ∧ s.ready 0x0A02 m req ∧ n = fld (wd req 0) 5 0 ∧ first = fld (wd req 1) 8 0 ∧ cnt = fld (wd req 1) 16 9 ∧ t = segStaged first cnt req (candOf p
      n).front.staged ∧ resBad req [(0, 7, 6), (0, 15, 12), (0, 31, 23), (1, 31, 17), (2, 31, 17)] = false ∧ n ≤ 41 ∧ (candOf p n).pulse = false ∧
      (List.range (fld (wd req 1) 16 9)).any (fun i => fld (wd req (3 + i)) 31 24 != 0) = false ∧ fld (wd req 0) 9 8 = 1 ∧ fld (wd req 0) 22 16 = 0 ∧
      first ≤ 510 ∧ cnt ≤ 250 ∧ first + cnt ≤ 511 ∧ bitOf (wd req 0) 10 = false ∧ bitOf (wd req 0) 11 = false ∧ fld (wd req 2) 16 0 = 0) ∧
    (∃ (m : Mbx) (tag : Byte) (req : List Word) (s : State) (p : State) (n : Nat) (first : Nat) (cnt : Nat) (t : Table Int), p = s.posted 0x0A02 m tag req
      ∧ s.ready 0x0A02 m req ∧ n = fld (wd req 0) 5 0 ∧ first = fld (wd req 1) 8 0 ∧ cnt = fld (wd req 1) 16 9 ∧ t = segStaged first cnt req (candOf p
      n).front.staged ∧ resBad req [(0, 7, 6), (0, 15, 12), (0, 31, 23), (1, 31, 17), (2, 31, 17)] = false ∧ n ≤ 41 ∧ (candOf p n).pulse = false ∧
      (List.range (fld (wd req 1) 16 9)).any (fun i => fld (wd req (3 + i)) 31 24 != 0) = false ∧ fld (wd req 0) 9 8 = 1 ∧ fld (wd req 0) 22 16 = 0 ∧
      first ≤ 510 ∧ cnt ≤ 250 ∧ first + cnt ≤ 511 ∧ bitOf (wd req 0) 10 = true ∧ (fld (wd req 2) 16 0 = 0 ↔ bitOf (wd req 0) 11 = false) ∧ fld (wd req
      2) 16 0 ≤ 130560 ∧ 511 ≤ t.length ∧ bankOk (stagedCoefs t) (bitOf (wd req 0) 11) (fld (wd req 2) 16 0) = true ∧ (candOf p n).front.fade = none ∧
      (candOf p n).front.pend = none) ∧
    (∃ (m : Mbx) (tag : Byte) (req : List Word) (s : State) (p : State) (n : Nat), p = s.posted 0x0A02 m tag req ∧ s.ready 0x0A02 m req ∧ n = fld (wd req
      0) 5 0 ∧ resBad req [(0, 7, 6), (0, 15, 12), (0, 31, 23), (1, 31, 17), (2, 31, 17)] = false ∧ n ≤ 41 ∧ (candOf p n).pulse = false ∧ (List.range
      (fld (wd req 1) 16 9)).any (fun i => fld (wd req (3 + i)) 31 24 != 0) = false ∧ fld (wd req 0) 9 8 = 2 ∧ fld (wd req 1) 8 0 = 0 ∧ fld (wd req 1)
      16 9 = 0 ∧ bitOf (wd req 0) 10 = false ∧ bitOf (wd req 0) 11 = false ∧ fld (wd req 2) 16 0 = 0 ∧ fld (wd req 0) 21 16 ≤ 41 ∧ (candOf p
      n).front.fade = none ∧ (candOf p n).front.pend = none) ∧
    (∃ (m : Mbx) (tag : Byte) (req : List Word) (s : State) (p : State) (n : Nat), p = s.posted 0x0A03 m tag req ∧ s.ready 0x0A03 m req ∧ n = fld (wd req
      0) 5 0 ∧ resBad req [(0, 7, 6), (0, 31, 10), (1, 31, 16)] = false ∧ n ≤ 41 ∧ (candOf p n).pulse = false ∧ (fld (wd req 0) 9 8 = 1 ∨ (fld (wd req
      0) 9 8 = 2 ∧ fld (wd req 1) 15 0 = 0))) :=
  ⟨⟨0, 0, [0x129, 0x3fe, 0, 5], tUp, _, _, _, _, _, rfl, ready_of (by decide +kernel), rfl, rfl, rfl, rfl, by decide +kernel⟩,
   ⟨0, 0, [0x529, 0x3fe, 0, 0], { tUp with tmc.cand := [(41, { front.staged := (List.range 511).map (fun i => (i, if i = 255 then 8388608 else 0)) })] },
     _, _, _, _, _, rfl, ready_of (by decide +kernel), rfl, rfl, rfl, rfl, by decide +kernel⟩,
   ⟨0, 0, [0x290229, 0, 0], tUp, _, _, rfl, ready_of (by decide +kernel), rfl, by decide +kernel⟩,
   ⟨0, 0, [0x229, 0], tUp, _, _, rfl, ready_of (by decide +kernel), rfl, by decide +kernel⟩⟩

theorem witness_TwinSettingsComplete :
    (∃ (m : Mbx) (tag : Byte) (req : List Word) (s : State) (p : State) (pr : Bool) (again : Bool), p = s.posted 0x0B01 m tag req ∧ s.ready 0x0B01 m req ∧ pr = bitOf (wd req 0) 4 ∧ again = (pr && p.twin.role == .standby && (match p.twin.partner with | some h => h.paired | none => false)) ∧ fld (wd req 0) 31 7 = 0 ∧ fld (wd req 1) 31 10 = 0 ∧ fld (wd req 0) 3 0 = 1 ∧ (wd req 1) = 0 ∧ (if pr then p.twin.strapConflict = false else p.twin.staging = [])) ∧
    (∃ (m : Mbx) (tag : Byte) (req : List Word) (s : State) (p : State), p = s.posted 0x0B01 m tag req ∧ s.ready 0x0B01 m req ∧ fld (wd req 0) 31 7 = 0 ∧
      fld (wd req 1) 31 10 = 0 ∧ fld (wd req 0) 3 0 = 2 ∧ fld (wd req 0) 6 4 = 0 ∧ fld (wd req 1) 9 8 ≠ 3 ∧ thas p.port (fld (wd req 1) 7 0) = false ∧
      (fld (wd req 1) 9 8 = 0 ∨ xfeedLoad p ≤ 1600000000)) ∧
    (∃ (m : Mbx) (tag : Byte) (req : List Word) (s : State) (p : State), p = s.posted 0x0B01 m tag req ∧ s.ready 0x0B01 m req ∧ fld (wd req 0) 31 7 = 0 ∧
      fld (wd req 1) 31 10 = 0 ∧ fld (wd req 0) 3 0 = 3 ∧ fld (wd req 0) 6 4 = 0 ∧ (wd req 1) = 0) ∧
    (∃ (m : Mbx) (tag : Byte) (req : List Word) (s : State) (p : State) (t : Twin), p = s.posted 0x0B02 m tag req ∧ s.ready 0x0B02 m req ∧ t = p.twin) :=
  ⟨⟨0, 0, [0x11, 0], tUp, _, _, _, rfl, ready_of (by decide +kernel), rfl, rfl, by decide +kernel⟩,
   ⟨0, 0, [2, 0x2ff], tUp, _, rfl, ready_of (by decide +kernel), by decide +kernel⟩,
   ⟨0, 0, [3, 0], tUp, _, rfl, ready_of (by decide +kernel), by decide +kernel⟩,
   ⟨0, 0, [], tUp, _, _, rfl, ready_of (by decide +kernel), rfl⟩⟩

theorem witness_TwinActionsComplete :
    (∃ (m : Mbx) (tag : Byte) (req : List Word) (s : State) (p : State), p = s.posted 0x0B03 m tag req ∧ s.ready 0x0B03 m req ∧ fld (wd req 0) 31 4 = 0 ∧
      p.twin.run = true ∧ fld (wd req 0) 3 0 = 1 ∧ p.twin.role = .active ∧ p.twin.linkUp = true ∧ p.twin.partnerSt = 2) ∧
    (∃ (m : Mbx) (tag : Byte) (req : List Word) (s : State) (p : State), p = s.posted 0x0B03 m tag req ∧ s.ready 0x0B03 m req ∧ fld (wd req 0) 31 4 = 0 ∧
      p.twin.run = true ∧ fld (wd req 0) 3 0 = 2 ∧ p.twin.role = .active ∧ p.twin.linkUp = false) ∧
    (∃ (m : Mbx) (tag : Byte) (req : List Word) (s : State) (p : State), p = s.posted 0x0B03 m tag req ∧ s.ready 0x0B03 m req ∧ fld (wd req 0) 31 4 = 0 ∧
      p.twin.run = true ∧ fld (wd req 0) 3 0 = 3 ∧ p.twin.role = .standby ∧ lostLong p = true ∧ p.twin.arbAsserted = true) ∧
    (∃ (m : Mbx) (tag : Byte) (req : List Word) (s : State) (p : State), p = s.posted 0x0B03 m tag req ∧ s.ready 0x0B03 m req ∧ fld (wd req 0) 31 4 = 0 ∧
      p.twin.run = true ∧ fld (wd req 0) 3 0 = 4 ∧ p.twin.role = .out ∧ fatalSet p = false) ∧
    (∃ (m : Mbx) (tag : Byte) (req : List Word) (s : State) (p : State), p = s.posted 0x0B04 m tag req ∧ s.ready 0x0B04 m req ∧ fld (wd req 0) 31 4 = 0 ∧
      fld (wd req 0) 3 0 = 1 ∧ p.twin.paired = true ∧ p.twin.linkUp = true ∧ p.twin.partnerSt = 2 ∧ p.twin.commit = .none) ∧
    (∃ (m : Mbx) (tag : Byte) (req : List Word) (s : State) (p : State) (t : State), p = s.posted 0x0B04 m tag req ∧ s.ready 0x0B04 m req ∧ t =
      { p with twin.staging := p.twin.staging.take p.twin.commitLen } ∧ fld (wd req 0) 31 4 = 0 ∧ fld (wd req 0) 3 0 = 2 ∧ p.twin.paired = true) ∧
    (∃ (m : Mbx) (tag : Byte) (req : List Word) (s : State) (p : State), p = s.posted 0x0B04 m tag req ∧ s.ready 0x0B04 m req ∧ fld (wd req 0) 31 4 = 0 ∧
      fld (wd req 0) 3 0 = 3) :=
  ⟨⟨0, 0, [1], { tUp with twin.run := true, twin.role := .active, twin.linkUp := true, twin.partnerSt := 2 }, _, rfl, ready_of (by decide +kernel),
     by decide +kernel⟩,
   ⟨0, 0, [2], { tUp with twin.run := true, twin.role := .active }, _, rfl, ready_of (by decide +kernel), by decide +kernel⟩,
   ⟨0, 0, [3], { tUp with now := 1000000, twin.run := true, twin.role := .standby, twin.bothLostAt := some 0, twin.arbAsserted := true }, _, rfl,
     ready_of (by decide +kernel), by decide +kernel⟩,
   ⟨0, 0, [4], { tUp with twin.run := true, twin.role := .out }, _, rfl, ready_of (by decide +kernel), by decide +kernel⟩,
   ⟨0, 0, [1], { tUp with twin.paired := true, twin.role := .active, twin.linkUp := true, twin.partnerSt := 2 }, _, rfl, ready_of (by decide +kernel),
     by decide +kernel⟩,
   ⟨0, 0, [2], { tUp with twin.paired := true, twin.role := .active }, _, _, rfl, ready_of (by decide +kernel), rfl, by decide +kernel⟩,
   ⟨0, 0, [3], tUp, _, rfl, ready_of (by decide +kernel), by decide +kernel⟩⟩

theorem witness_FaultReadsComplete :
    (∃ (m : Mbx) (tag : Byte) (req : List Word) (s : State) (p : State) (a : Nat), p = s.posted 0x0C01 m tag req ∧ s.ready 0x0C01 m req ∧ a = fld (wd req
      0) 15 4 ∧ fld (wd req 0) 31 18 = 0 ∧ fld (wd req 0) 3 0 = 1 ∧ (srcGroup a).isSome = true) ∧
    (∃ (m : Mbx) (tag : Byte) (req : List Word) (s : State) (p : State) (b : Nat), p = s.posted 0x0C01 m tag req ∧ s.ready 0x0C01 m req ∧ b = fld (wd req
      0) 17 16 ∧ fld (wd req 0) 31 18 = 0 ∧ fld (wd req 0) 3 0 = 2) ∧
    (∃ (m : Mbx) (tag : Byte) (req : List Word) (s : State) (p : State) (l : Nat × Nat), p = s.posted 0x0C01 m tag req ∧ s.ready 0x0C01 m req ∧ l =
      p.fault.latch.getD (0, 0) ∧ fld (wd req 0) 31 18 = 0 ∧ fld (wd req 0) 3 0 = 3) ∧
    (∃ (m : Mbx) (tag : Byte) (req : List Word) (s : State) (p : State) (a : Nat) (g : Nat) (l : List Nat) (t : State), p = s.posted 0x0C02 m tag req ∧
      s.ready 0x0C02 m req ∧ a = fld (wd req 0) 11 0 ∧ srcGroup a = some g ∧ l = (if bitOf (wd req 0) 12 then groupSources g else [a]) ∧ t = allDue p
      ∧ fld (wd req 0) 31 13 = 0 ∧ (bitOf (wd req 0) 12 = true ∨ (srcState p a ≠ .isolated ∧ srcState p a ≠ .fatal))) ∧
    (∃ (m : Mbx) (tag : Byte) (req : List Word) (s : State) (p : State) (t : State), p = s.posted 0x0C05 m tag req ∧ s.ready 0x0C05 m req ∧ t = (match fld (wd req 0) 3 0 with | 1 => { p with fault.faultAssert := bitOf (wd req 0) 4 } | 2 => foldS p.fault.reasons (fun e s => if bitOf (wd req 1) e.1 && reasonClears s e.1 e.2 then clearReason e.1 e.2 s else s) p | 3 => setReason 11 0 p | _ => p) ∧ fld (wd req 0) 31 5 = 0 ∧ fld (wd req 1) 31 16 = 0 ∧ 1 ≤ fld (wd req 0) 3 0 ∧ fld (wd req 0) 3 0 ≤ 4) :=
  ⟨⟨0, 0, [1], tUp, _, _, rfl, ready_of (by decide +kernel), rfl, by decide +kernel⟩,
   ⟨0, 0, [0x30002], tUp, _, _, rfl, ready_of (by decide +kernel), rfl, by decide +kernel⟩,
   ⟨0, 0, [3], tUp, _, _, rfl, ready_of (by decide +kernel), rfl, by decide +kernel⟩,
   ⟨0, 0, [0x1000], tUp, _, _, _, _, _, rfl, ready_of (by decide +kernel), rfl, some_of (by decide +kernel), rfl, rfl, by decide +kernel⟩,
   ⟨0, 0, [2, 0xffff], tUp, _, _, rfl, ready_of (by decide +kernel), rfl, by decide +kernel⟩⟩

theorem witness_FaultSettingsComplete :
    (∃ (m : Mbx) (tag : Byte) (req : List Word) (s : State) (p : State) (g : Nat), p = s.posted 0x0C03 m tag req ∧ s.ready 0x0C03 m req ∧ g = fld (wd req
      0) 4 0 ∧ resBad req [(0, 7, 5), (0, 31, 12)] = false ∧ g ≤ 18 ∧ fld (wd req 0) 11 8 = 1 ∧ resBad req [(1, 7, 2), (1, 31, 20), (2, 31, 22), (3,
      31, 20)] = false ∧ fld (wd req 1) 1 0 ≠ 3 ∧ fld (wd req 1) 15 8 ≠ 0 ∧ actionOk g (fld (wd req 1) 18 16) = true ∧ fld (wd req 2) 21 0 ≠ 0 ∧ fld
      (wd req 2) 21 0 ≤ 3600000 ∧ fld (wd req 3) 19 0 ≠ 0 ∧ fld (wd req 3) 19 0 ≤ 1000000) ∧
    (∃ (m : Mbx) (tag : Byte) (req : List Word) (s : State) (p : State) (g : Nat) (x : Policy), p = s.posted 0x0C03 m tag req ∧ s.ready 0x0C03 m req ∧ g =
      fld (wd req 0) 4 0 ∧ x = policySet p g ∧ resBad req [(0, 7, 5), (0, 31, 12)] = false ∧ g ≤ 18 ∧ fld (wd req 0) 11 8 = 2 ∧ wordsBad req 1 3 =
      false) ∧
    (∃ (m : Mbx) (tag : Byte) (req : List Word) (s : State) (p : State) (a : Nat) (g : Nat), p = s.posted 0x0C04 m tag req ∧ s.ready 0x0C04 m req ∧ a =
      fld (wd req 0) 11 0 ∧ srcGroup a = some g ∧ fld (wd req 0) 31 15 = 0 ∧ fld (wd req 1) 31 8 = 0 ∧ (fld (wd req 0) 13 12 = 1 ∨ (fld (wd req 0) 13
      12 = 2 ∧ fld (wd req 1) 7 0 = 1)) ∧ fld (wd req 1) 7 0 ≠ 0 ∧ g < 16 ∧ srcMasked p a = false ∧ srcState p a ≠ .isolated ∧ srcState p a ≠ .fatal ∧
      (srcOf p a).railsEqual = false) :=
  ⟨⟨0, 0, [0x112, 0xff00, 0x36ee80, 0xf4240], tUp, _, _, rfl, ready_of (by decide +kernel), rfl, by decide +kernel⟩,
   ⟨0, 0, [0x212, 0, 0, 0], tUp, _, _, _, rfl, ready_of (by decide +kernel), rfl, rfl, by decide +kernel⟩,
   ⟨0, 0, [0x1000, 0xff], tUp, _, _, _, rfl, ready_of (by decide +kernel), rfl, some_of (by decide +kernel), by decide +kernel⟩⟩

theorem witness_PatternCommandsComplete :
    (∃ (m : Mbx) (tag : Byte) (req : List Word) (s : State) (p : State) (t : Nat) (id : Nat) (x : Nat) (old : Prbs) (y : Prbs), p = s.posted 0x0D01 m tag
      req ∧ s.ready 0x0D01 m req ∧ t = fld (wd req 0) 2 0 ∧ id = fld (wd req 0) 21 8 ∧ x = fld (wd req 1) 5 2 ∧ old = tget p.test.prbs {} (prbsKey t
      id) ∧ y = (if bitOf (wd req 1) 1 then { gen := bitOf (wd req 1) 0, chk := true, pattern := x, inv := bitOf (wd req 1) 6 } else
      { old with gen := bitOf (wd req 1) 0, chk := false, lock := false, pattern := x, inv := bitOf (wd req 1) 6 }) ∧ resBad req [(0, 7, 3), (0, 31,
      22), (1, 31, 7)] = false ∧ prbsTargetOk t id = true ∧ prbsFound p t id = true ∧ prbsReady p t id = true ∧ (t = 5 → bitOf (wd req 1) 0 = false) ∧
      (t = 4 → bitOf (wd req 1) 1 = false) ∧ (bitOf (wd req 1) 0 = true ∨ bitOf (wd req 1) 1 = true ∨ x ≠ 0 → patternAllowed p t id x = true) ∧ (4 ≤ t
      → bitOf (wd req 1) 0 = true ∨ bitOf (wd req 1) 1 = true → prbsUsed p t id < 16)) ∧
    (∃ (m : Mbx) (tag : Byte) (req : List Word) (s : State) (p : State) (t : Nat) (id : Nat) (x : Prbs), p = s.posted 0x0D02 m tag req ∧ s.ready 0x0D02 m
      req ∧ t = fld (wd req 0) 2 0 ∧ id = fld (wd req 0) 21 8 ∧ x = tget p.test.prbs {} (prbsKey t id) ∧ resBad req [(0, 7, 3), (0, 31, 22), (1, 31,
      1)] = false ∧ prbsTargetOk t id = true ∧ prbsFound p t id = true ∧ prbsReady p t id = true) ∧
    (∃ (m : Mbx) (tag : Byte) (req : List Word) (s : State) (p : State) (k : Nat) (u : State), p = s.posted 0x0D03 m tag req ∧ s.ready 0x0D03 m req ∧ k =
      kindLane (fld (wd req 0) 2 0) (fld (wd req 0) 15 8) ∧ u =
      { p with test.loop := if fld (wd req 0) 19 16 = 0 then tdel p.test.loop k else tset p.test.loop k (fld (wd req 0) 19 16) } ∧ fld (wd req 0) 7 3
      = 0 ∧ fld (wd req 0) 31 20 = 0 ∧ 1 ≤ fld (wd req 0) 2 0 ∧ fld (wd req 0) 2 0 ≤ 3 ∧ (fld (wd req 0) 2 0 = 3 → fld (wd req 0) 15 8 ≤ 7 ∧
      p.twin.paired = false) ∧ fld (wd req 0) 19 16 ≤ 2 ∧ domUp p (laneDomain k) = true) :=
  ⟨⟨0, 0, [0xff02, 0x1f], { tUp with lane := [(511, { st := .acquire })] }, _, _, _, _, _, _, rfl, ready_of (by decide +kernel), rfl, rfl, rfl, rfl, rfl,
     by decide +kernel⟩,
   ⟨0, 0, [0xff02, 0], { tUp with lane := [(511, { st := .acquire })] }, _, _, _, _, rfl, ready_of (by decide +kernel), rfl, rfl, rfl, by decide +kernel⟩,
   ⟨0, 0, [0x20703], tUp, _, _, _, rfl, ready_of (by decide +kernel), rfl, rfl, by decide +kernel⟩⟩

theorem witness_SelfTestCommandsComplete :
    (∃ (m : Mbx) (tag : Byte) (req : List Word) (s : State) (p : State) (i : Nat), p = s.posted 0x0D04 m tag req ∧ s.ready 0x0D04 m req ∧ i = fld (wd req
      0) 13 8 ∧ fld (wd req 0) 7 4 = 0 ∧ fld (wd req 0) 31 14 = 0 ∧ p.test.bist = none ∧ fld (wd req 0) 3 0 = 1 ∧ domUp p (32 + i / 32) = true ∧
      (pcRetired p i = true ∨ deepUse p = false)) ∧
    (∃ (m : Mbx) (tag : Byte) (req : List Word) (s : State) (p : State) (i : Nat), p = s.posted 0x0D04 m tag req ∧ s.ready 0x0D04 m req ∧ i = fld (wd req
      0) 13 8 ∧ fld (wd req 0) 7 4 = 0 ∧ fld (wd req 0) 31 14 = 0 ∧ p.test.bist = none ∧ fld (wd req 0) 3 0 = 2 ∧ i ≤ 31 ∧ domUp p i = true ∧
      p.port.any (fun e => e.1 / 8 == i) = false) ∧
    (∃ (m : Mbx) (tag : Byte) (req : List Word) (s : State) (p : State) (k : Nat), p = s.posted 0x0D05 m tag req ∧ s.ready 0x0D05 m req ∧ k = kindLane
      (fld (wd req 0) 1 0) (fld (wd req 0) 15 8) ∧ fld (wd req 0) 7 2 = 0 ∧ fld (wd req 0) 31 20 = 0 ∧ 1 ≤ fld (wd req 0) 1 0 ∧ (fld (wd req 0) 1 0 =
      3 → fld (wd req 0) 15 8 ≤ 7) ∧ domUp p (laneDomain k) = true ∧ fld (wd req 0) 19 16 = 1 ∧ eyeBad p k (wd req 1) = false ∧ (laneOf p k).st =
      .track ∧ (p.test.scans.filter (fun e => e.2.running)).length < 8 ∧ (∀ x, tget? p.test.scans k = some x → x.running = false)) ∧
    (∃ (m : Mbx) (tag : Byte) (req : List Word) (s : State) (p : State) (k : Nat) (x : Scan), p = s.posted 0x0D05 m tag req ∧ s.ready 0x0D05 m req ∧ k =
      kindLane (fld (wd req 0) 1 0) (fld (wd req 0) 15 8) ∧ tget? p.test.scans k = some x ∧ fld (wd req 0) 7 2 = 0 ∧ fld (wd req 0) 31 20 = 0 ∧ 1 ≤
      fld (wd req 0) 1 0 ∧ (fld (wd req 0) 1 0 = 3 → fld (wd req 0) 15 8 ≤ 7) ∧ domUp p (laneDomain k) = true ∧ fld (wd req 0) 19 16 = 2 ∧ wd req 1 =
      0 ∧ x.done = true) :=
  ⟨⟨0, 0, [0x3f01], tUp, _, _, rfl, ready_of (by decide +kernel), rfl, by decide +kernel⟩,
   ⟨0, 0, [0x1f02], tUp, _, _, rfl, ready_of (by decide +kernel), rfl, by decide +kernel⟩,
   ⟨0, 0, [0x10703, 0xc00240], { tUp with lane := [(519, { st := .track })] }, _, _, rfl, ready_of (by decide +kernel), rfl, by decide +kernel⟩,
   ⟨0, 0, [0x20703, 0], { tUp with lane := [(519, { st := .track })], test.scans := [(519, { running := false, done := true, setup := 0 })] }, _, _, _,
     rfl, ready_of (by decide +kernel), rfl, some_of (by decide +kernel), by decide +kernel⟩⟩

theorem witness_FirmwareStagingCompletes :
    (∃ (m : Mbx) (tag : Byte) (req : List Word) (s : State) (p : State) (k : Nat), p = s.posted 0x0E01 m tag req ∧ s.ready 0x0E01 m req ∧ k = stageSlot p
      ∧ fld (wd req 0) 31 4 = 0 ∧ p.fw.confirmed = true ∧ p.fw.activation = none ∧ fld (wd req 0) 3 0 = 1 ∧ req.length = 1 ∧ p.fw.erasing = false ∧
      p.fw.checking = false) ∧
    (∃ (m : Mbx) (tag : Byte) (req : List Word) (s : State) (p : State) (k : Nat), p = s.posted 0x0E01 m tag req ∧ s.ready 0x0E01 m req ∧ k = stageSlot p
      ∧ fld (wd req 0) 31 4 = 0 ∧ p.fw.confirmed = true ∧ p.fw.activation = none ∧ fld (wd req 0) 3 0 = 2 ∧ 3 ≤ req.length ∧ req.length ≤ 255 ∧ (wd
      req 1).toNat % 4 = 0 ∧ (wd req 1).toNat + 4 * (req.length - 2) ≤ slotSize ∧ ((slotOf p.fw k).staged ≠ 0 ∨ p.fw.erasing = true)) ∧
    (∃ (m : Mbx) (tag : Byte) (req : List Word) (s : State) (p : State) (k : Nat), p = s.posted 0x0E01 m tag req ∧ s.ready 0x0E01 m req ∧ k = stageSlot p
      ∧ fld (wd req 0) 31 4 = 0 ∧ p.fw.confirmed = true ∧ p.fw.activation = none ∧ fld (wd req 0) 3 0 = 3 ∧ req.length = 1 ∧ p.fw.erasing = false ∧
      p.fw.checking = false ∧ (slotOf p.fw k).staged ≠ 0) :=
  ⟨⟨0, 0, [1], tUp, _, _, rfl, ready_of (by decide +kernel), rfl, by decide +kernel⟩,
   ⟨0, 0, [2, 0, 0], { tUp with fw.erasing := true }, _, _, rfl, ready_of (by decide +kernel), rfl, by decide +kernel⟩,
   ⟨0, 0, [3], { tUp with fw.slotB.staged := 1 }, _, _, rfl, ready_of (by decide +kernel), rfl, by decide +kernel⟩⟩

theorem witness_FirmwareActivationCompletes :
    (∃ (m : Mbx) (tag : Byte) (req : List Word) (s : State) (p : State) (k : Nat), p = s.posted 0x0E02 m tag req ∧ s.ready 0x0E02 m req ∧ k = stageSlot p
      ∧ fld (wd req 0) 31 4 = 0 ∧ p.fw.activation = none ∧ fld (wd req 0) 3 0 = 1 ∧ (slotOf p.fw k).staged = 3 ∧ hitlessOk p (slotHdr (slotOf p.fw k))
      = true) ∧
    (∃ (m : Mbx) (tag : Byte) (req : List Word) (s : State) (p : State) (k : Nat), p = s.posted 0x0E02 m tag req ∧ s.ready 0x0E02 m req ∧ k = stageSlot p
      ∧ fld (wd req 0) 31 4 = 0 ∧ p.fw.activation = none ∧ fld (wd req 0) 3 0 = 2 ∧ (slotOf p.fw k).staged = 3) ∧
    (∃ (m : Mbx) (tag : Byte) (req : List Word) (s : State) (p : State) (k : Nat), p = s.posted 0x0E02 m tag req ∧ s.ready 0x0E02 m req ∧ k = stageSlot p
      ∧ fld (wd req 0) 31 4 = 0 ∧ p.fw.activation = none ∧ fld (wd req 0) 3 0 = 3) ∧
    (∃ (m : Mbx) (tag : Byte) (req : List Word) (s : State) (p : State) (k : Nat), p = s.posted 0x0E02 m tag req ∧ s.ready 0x0E02 m req ∧ k = stageSlot p
      ∧ fld (wd req 0) 31 4 = 0 ∧ p.fw.activation = none ∧ fld (wd req 0) 3 0 = 4 ∧ imageCheck p.fw (slotOf p.fw k) = 0 ∧ hitlessOk p (slotHdr (slotOf
      p.fw k)) = true) ∧
    (∃ (m : Mbx) (tag : Byte) (req : List Word) (s : State) (p : State) (f : Firmware), p = s.posted 0x0E03 m tag req ∧ s.ready 0x0E03 m req ∧ f = p.fw) ∧
    (∃ (m : Mbx) (tag : Byte) (req : List Word) (s : State) (p : State) (l : List LogEntry), p = s.posted 0x0E04 m tag req ∧ s.ready 0x0E04 m req ∧ l =
      (p.fw.log.filter (fun e => decide ((wd req 0).toNat ≤ e.seq))).take (fld (wd req 1) 4 0) ∧ fld (wd req 1) 31 5 = 0 ∧ fld (wd req 1) 4 0 ≠ 0) :=
  ⟨⟨0, 0, [1],
     { tUp with fw.slotB := { staged := 3, factory := some { major := 3, minor := 4, patch := 0, svn := 0, mirror := 1, hitMajor := 3, hitMinor := 0 } } },
     _, _, rfl, ready_of (by decide +kernel), rfl, by decide +kernel⟩,
   ⟨0, 0, [2],
     { tUp with fw.slotB := { staged := 3, factory := some { major := 3, minor := 4, patch := 0, svn := 0, mirror := 1, hitMajor := 3, hitMinor := 0 } } },
     _, _, rfl, ready_of (by decide +kernel), rfl, by decide +kernel⟩,
   ⟨0, 0, [3], tUp, _, _, rfl, ready_of (by decide +kernel), rfl, by decide +kernel⟩,
   ⟨0, 0, [4],
     { tUp with fw.slotB := { staged := 3, factory := some { major := 3, minor := 4, patch := 0, svn := 0, mirror := 1, hitMajor := 3, hitMinor := 0 } } },
     _, _, rfl, ready_of (by decide +kernel), rfl, by decide +kernel⟩,
   ⟨0, 0, [], tUp, _, _, rfl, ready_of (by decide +kernel), rfl⟩,
   ⟨0, 0, [0, 0x1f], tUp, _, _, rfl, ready_of (by decide +kernel), rfl, by decide +kernel⟩⟩

theorem witness_HostEventsComplete :
    (∃ (s : State) (t : State) (i : Instr), t = { s with host.busOut := .written } ∧ hostAccess i = true ∧ endpointUp s = false) ∧
    (∃ (s : State) (t : State), t = { s with host.busOut := .written } ∧ endpointUp s = true) ∧
    (∃ (s : State) (t : State), t = { s with host.busOut := .written } ∧ endpointUp s = true ∧ s.host.ringEnable = false) ∧
    (∃ (s : State) (t : State) (v : Word), t = { s with host.busOut := .written } ∧ endpointUp s = true ∧ s.host.ringEnable = true ∧ s.host.ringLo = w32
      (v.toNat / 4096 * 4096)) ∧
    (∃ (s : State) (t : State), t = { s with host.busOut := .written } ∧ endpointUp s = true) ∧
    (∃ (s : State) (t : State), t = { s with host.busOut := .written } ∧ endpointUp s = true) ∧
    (∃ (s : State) (t : State), t = { s with host.busOut := .written } ∧ endpointUp s = true) ∧
    (∃ (s : State) (t : State) (off : BitVec 17) (bes : List (BitVec 4)) (l : _), t = { s with host.busOut := .written } ∧ l = unimplOf off.toNat (bes.map
      (·.toNat)) ∧ endpointUp s = true ∧ l ≠ []) ∧
    (∃ (s : State) (t : State) (off : BitVec 17) (bes : List (BitVec 4)), t = { s with host.busOut := .written } ∧ endpointUp s = true ∧ unimplOf
      off.toNat (bes.map (·.toNat)) = []) ∧
    (∃ (s : State) (t : State) (off : BitVec 17), t = { s with host.busOut := .written } ∧ endpointUp s = true ∧ barImpl (off.toNat / 4 * 4) = false) ∧
    (∃ (s : State) (t : State) (off : BitVec 17) (m : Nat), t = { s with host.busOut := .written } ∧ m = barMbx (off.toNat / 4 * 4) ∧ endpointUp s = true
      ∧ 0x10000 ≤ off.toNat / 4 * 4 ∧ (mbxOf s m).st = .busy) ∧
    (∃ (s : State) (t : State) (off : BitVec 17) (m : Nat) (o : Nat), t = { s with host.busOut := .written } ∧ m = barMbx (off.toNat / 4 * 4) ∧ endpointUp
      s = true ∧ 0x10000 ≤ off.toNat / 4 * 4 ∧ (mbxOf s m).st ≠ .busy ∧ o = off.toNat / 4 * 4 % 0x1000) ∧
    (∃ (s : State) (t : State) (off : BitVec 17) (v : Word) (be : BitVec 4) (i : Nat) (w : Word), t = { s with host.busOut := .written } ∧ w = mergeBytes
      (tget s.host.msixTable (if i % 4 = 3 then 1 else 0) i) v be.toNat ∧ endpointUp s = true ∧ off.toNat / 4 * 4 = 0x1000 + 4 * i ∧ i < 68) ∧
    (∃ (s : State) (t : State) (off : BitVec 17), t = { s with host.busOut := .written } ∧ endpointUp s = true ∧ off.toNat / 4 * 4 = 0x204 ∧
      s.host.ringEnable = false) ∧
    (∃ (s : State) (t : State) (off : BitVec 17), t = { s with host.busOut := .written } ∧ endpointUp s = true ∧ off.toNat / 4 * 4 ∈ [0x0, 0x4, 0x8,
      0x104, 0x20C, 0x300, 0x304, 0x1800, 0x1804]) ∧
    (∃ (s : State) (t : State) (r : EvRec) (rest : List EvRec), t = { s with host.busOut := .written } ∧ s.host.evHeld = r :: rest ∧ ringOpen s = true ∧
      s.host.evDiscarded = 0) ∧
    (∃ (s : State) (t : State), t = { s with host.busOut := .written } ∧ ringOpen s = true ∧ s.host.evDiscarded ≠ 0 ∧ 2 * overflowHeld s < overflowCap s) ∧
    (∃ (s : State) (t : State), t = { s with host.busOut := .written } ∧ (ringOpen s = false ∨ (s.host.evHeld = [] ∧ s.host.evDiscarded = 0))) ∧
    (∃ (s : State) (t : State) (i : Nat), t = { s with host.busOut := .written } ∧ s.host.vec0At = some i ∧ s.host.vec0Due = true ∧ i + 10000 ≤ s.now) ∧
    (∃ (s : State) (t : State) (v : Viol), t = { s with host.busOut := .written } ∧ s.host.violEvtFirst = some v ∧ (∀ i, s.host.violEvtAt = some i → i +
      1000000 ≤ s.now)) ∧
    (∃ (s : State) (t : State) (m : Nat) (rest : List Nat), t = { s with host.busOut := .written } ∧ s.host.bells = m :: rest ∧ canServe s = true) ∧
    (∃ (s : State) (t : State), t = { s with host.busOut := .written } ∧ (s.host.bells = [] ∨ canServe s = false)) :=
  ⟨⟨State.reset, _, .violInfoRead, rfl, by decide +kernel⟩,
   ⟨tUp, _, rfl, by decide +kernel⟩,
   ⟨tUp, _, rfl, by decide +kernel⟩,
   ⟨{ tUp with host.ringEnable := true, host.ringLo := 0x3000 }, _, 0x3FFF, rfl, by decide +kernel⟩,
   ⟨tUp, _, rfl, by decide +kernel⟩,
   ⟨tUp, _, rfl, by decide +kernel⟩,
   ⟨tUp, _, rfl, by decide +kernel⟩,
   ⟨tUp, _, 0x0FFFC, [15, 1], _, rfl, rfl, by decide +kernel⟩,
   ⟨tUp, _, 0x103FC, [15], rfl, by decide +kernel⟩,
   ⟨tUp, _, 0x0FFFC, rfl, by decide +kernel⟩,
   ⟨{ tUp with host.mbx := [(15, { st := .busy })] }, _, 0x1FFFF, _, rfl, rfl, by decide +kernel⟩,
   ⟨tUp, _, 0x103FF, _, 0x3FC, rfl, rfl, by decide +kernel⟩,
   ⟨tUp, _, 0x110F, 7, 15, 67, _, rfl, rfl, by decide +kernel⟩,
   ⟨tUp, _, 0x207, rfl, by decide +kernel⟩,
   ⟨tUp, _, 0x1804, rfl, by decide +kernel⟩,
   ⟨{ tUp with host.ringEnable := true, host.ringHead := 5, host.evHeld := [{ code := 0x0201, cls := 0, kind := 0, num := 0, ns := 0 }] }, _, _, _, rfl,
     rfl, by decide +kernel⟩,
   ⟨{ tUp with host.ringEnable := true, host.ringHead := 5, host.evDiscarded := 1 }, _, rfl, by decide +kernel⟩,
   ⟨tUp, _, rfl, (Or.inr ⟨rfl, rfl⟩)⟩,
   ⟨{ tUp with now := 10000, host.vec0Due := true, host.vec0At := some 0 }, _, _, rfl, some_of (by decide +kernel), by decide +kernel⟩,
   ⟨{ tUp with now := 1000000, host.violEvtFirst := some { off := 0x400, typ := 2, mbx := 0, be := 15, ns := 0 }, host.violEvtAt := some 0 }, _, _, rfl,
     some_of (by decide +kernel), (fun i h => by cases h; decide +kernel)⟩,
   ⟨{ tUp with host.bells := [15] }, _, _, _, rfl, rfl, by decide +kernel⟩,
   ⟨tUp, _, rfl, (Or.inl rfl)⟩⟩

theorem witness_StartupEventsComplete :
    (∃ (s : State), s.pins.railsOk = true ∧ s.pins.porstN = false) ∧
    (∃ (s : State) (h : HostIf), h = s.host) ∧
    (∃ (s : State), s.boot.phase = .always) ∧
    (∃ (s : State) (r : BootRec), bootRec s.fw = some r ∧ s.boot.phase = .image ∧ imageCheck s.fw (slotOf s.fw r.active) = 0) ∧
    (∃ (s : State) (r : BootRec), bootRec s.fw = some r ∧ s.boot.phase = .image ∧ imageCheck s.fw (slotOf s.fw r.active) ≠ 0 ∧ imageCheck s.fw (slotOf
      s.fw (1 - r.active)) = 0) ∧
    (∃ (s : State) (r : BootRec), bootRec s.fw = some r ∧ s.boot.phase = .image ∧ imageCheck s.fw (slotOf s.fw r.active) ≠ 0 ∧ imageCheck s.fw (slotOf
      s.fw (1 - r.active)) ≠ 0) ∧
    (∃ (s : State), s.boot.phase = .firmware ∧ s.fault.latch = none) ∧
    (∃ (s : State) (a : Nat) (n : Nat), s.boot.phase = .firmware ∧ s.fault.latch = some (a, n)) ∧
    (∃ (s : State), s.boot.phase = .domains) ∧
    (∃ (s : State), s.boot.phase = .memLanes ∧ s.boot.memDone = false) ∧
    (∃ (s : State), s.boot.phase = .memLanes ∧ s.boot.lanesDone = false) ∧
    (∃ (s : State), s.boot.phase = .config) ∧
    (∃ (s : State) (t : State), t = { s with boot.phase := .finished, fw.state := 1 } ∧ s.boot.phase = .release) ∧
    (∃ (s : State) (k : Nat), k = 1 - s.fw.slot ∧ s.fw.state = 0 ∧ (s.boot.phase = .firmware ∨ s.boot.phase = .domains ∨ s.boot.phase = .memLanes ∨
      s.boot.phase = .config ∨ s.boot.phase = .release) ∧ s.boot.imageAt + 8000000000 ≤ s.now ∧ s.boot.fellBack = false ∧ imageCheck s.fw (slotOf s.fw
      k) = 0) ∧
    (∃ (s : State) (d : Fin 36) (dest : DomState) (l : State → State), (domOf s d.val).sw = some (.out dest) ∧ l = modDom d.val (fun _ =>
      { st := dest, up := false, sw := none }) ∧ ¬ (32 ≤ d.val ∧ d.val < 34)) ∧
    (∃ (s : State) (d : Fin 36) (dest : DomState) (l : State → State) (t : State → State), (domOf s d.val).sw = some (.out dest) ∧ l = modDom d.val (fun _
      => { st := dest, up := false, sw := none }) ∧ (∀ u, t u = finishDomain d.val (renewCopies (dropContent (fun p => 32 + p / 32 == d.val) (if dest
      = .offCmd then leaveS (halfPcs (d.val - 32)) false u l else l u)))) ∧ (32 ≤ d.val ∧ d.val < 34)) ∧
    (∃ (s : State) (d : Fin 36) (t : State), (domOf s d.val).sw = some .into ∧ t = finishDomain d.val (reportOn d.val s) ∧ ¬ (32 ≤ d.val ∧ d.val < 34 ∧
      (domOf s d.val).st = .offCmd)) ∧
    (∃ (s : State) (d : Fin 36) (t : State), (domOf s d.val).sw = some .into ∧ t = finishDomain d.val (budgetResume (reportOn d.val (halfReturn (d.val -
      32) s))) ∧ (32 ≤ d.val ∧ d.val < 34 ∧ (domOf s d.val).st = .offCmd)) ∧
    (∃ (s : State) (b : Fin 8) (i : Fin 256), s.resets.any (fun r => r.blk == b.val && r.idx == i.val && decide (r.until_ ≤ s.now)) = true) ∧
    (∃ (s : State), s.fw.state = 2 ∧ s.fw.activation = none) ∧
    (∃ (s : State) (l : List Nat), l = s.pool.retiring.map (·.pc) ∧ s.pool.retiring ≠ []) :=
  ⟨⟨State.reset, by decide +kernel⟩,
   ⟨tUp, _, rfl⟩,
   ⟨{ State.reset with boot.phase := .always }, by decide +kernel⟩,
   ⟨{ State.reset with boot.phase := .image }, _, some_of (by decide +kernel), by decide +kernel⟩,
   ⟨{ State.reset with boot.phase := .image, fw.rec0 := some { active := 1, confirmed := true, seq := 2 } }, _, some_of (by decide +kernel),
     by decide +kernel⟩,
   ⟨{ State.reset with boot.phase := .image, fw.slotA := {} }, _, some_of (by decide +kernel), by decide +kernel⟩,
   ⟨{ State.reset with boot.phase := .firmware }, by decide +kernel⟩,
   ⟨{ State.reset with boot.phase := .firmware, fault.latch := some (5, 0) }, 5, 0, by decide +kernel⟩,
   ⟨{ State.reset with boot.phase := .domains }, by decide +kernel⟩,
   ⟨{ State.reset with boot.phase := .memLanes }, by decide +kernel⟩,
   ⟨{ State.reset with boot.phase := .memLanes }, by decide +kernel⟩,
   ⟨{ State.reset with boot.phase := .config }, by decide +kernel⟩,
   ⟨{ State.reset with boot.phase := .release }, _, rfl, by decide +kernel⟩,
   ⟨{ State.reset with boot := { phase := .config, imageAt := 0 }, now := 8000000000, fw.slotB := { factory := some { major := 3, minor := 4, patch := 0, svn := 0, mirror := 1, hitMajor := 3, hitMinor := 0 } } },
     _, rfl, by decide +kernel⟩,
   ⟨{ tUp with power.dom := [(35, { up := true, sw := some (.out .offCmd) })] }, 35, .offCmd, _, (by decide +kernel), rfl, by decide +kernel⟩,
   ⟨{ tUp with power.dom := [(33, { up := true, sw := some (.out .offCmd) })] }, 33, .offCmd, _, _, (by decide +kernel), rfl, (fun _ => rfl),
     by decide +kernel⟩,
   ⟨{ tUp with power.dom := [(31, { sw := some .into })] }, 31, _, (by decide +kernel), rfl, by decide +kernel⟩,
   ⟨{ tUp with power.dom := [(32, { st := .offCmd, sw := some .into })] }, 32, _, (by decide +kernel), rfl, by decide +kernel⟩,
   ⟨{ tUp with now := 100, resets := [{ blk := 4, idx := 31, until_ := 100 }] }, 4, 31, by decide +kernel⟩,
   ⟨{ tUp with fw.state := 2 }, by decide +kernel⟩,
   ⟨{ tUp with pool.retiring := [{ pc := 63, before := [], until_ := 0, permanent := true }] }, _, rfl, by decide +kernel⟩⟩

theorem witness_LaneEventsComplete :
    (∃ (s : State) (l : LaneId) (k : Nat), k = laneKey l ∧ (laneOf s k).st = .idle ∧ (laneOf s k).held = false) ∧
    (∃ (s : State) (l : LaneId) (k : Nat), k = laneKey l ∧ (laneOf s k).st ≠ .off) ∧
    (∃ (s : State) (l : LaneId) (k : Nat) (p : Nat) (m : Nat) (q : Port), k = laneKey l ∧ laneMode s k = some m ∧ (laneOf s k).st = .acquire ∧ s.now ≤
      (laneOf s k).acqSince + acqLimit m ∧ k < 256 ∧ portOfLane s k = some (p, q)) ∧
    (∃ (s : State) (l : LaneId) (k : Nat) (m : Nat), k = laneKey l ∧ laneMode s k = some m ∧ (laneOf s k).st = .acquire ∧ s.now ≤ (laneOf s k).acqSince +
      acqLimit m ∧ 256 ≤ k) ∧
    (∃ (s : State) (l : LaneId) (k : Nat) (m : Nat), k = laneKey l ∧ laneMode s k = some m ∧ (laneOf s k).st = .acquire ∧ (laneOf s k).acqSince + acqLimit
      m ≤ s.now) ∧
    (∃ (s : State) (l : LaneId) (k : Nat), k = laneKey l ∧ (laneOf s k).st = .track) ∧
    (∃ (s : State) (l : LaneId) (k : Nat), k = laneKey l ∧ (laneOf s k).st = .track) ∧
    (∃ (s : State) (l : LaneId) (k : Nat) (t : Nat), k = laneKey l ∧ (laneOf s k).slipUntil = some t ∧ t ≤ s.now) ∧
    (∃ (s : State) (l : LaneId) (k : Nat), k = laneKey l ∧ (∀ sc, tget? s.test.scans k = some sc → sc.running = false) ∧ mpRuns s = true ∧ (laneOf s k).st
      = .track ∧ (laneOf s k).freeze = false) ∧
    (∃ (s : State) (l : LaneId) (k : Nat) (n : Fin 256) (hdr : List Byte), k = laneKey l ∧ laneTracks s (256 + n.val) = true ∧ laneBad (laneOf s (256 +
      n.val)) = false ∧ (fabRxOf s n.val).lock = true ∧ hdr.length = 8) ∧
    (∃ (s : State) (l : LaneId) (k : Nat) (n : Fin 256), k = laneKey l ∧ laneTracks s (256 + n.val) = true ∧ laneBad (laneOf s (256 + n.val)) = false) :=
  ⟨⟨{ tUp with lane := [(519, { st := .idle })] }, .vl 7, _, rfl, by decide +kernel⟩,
   ⟨{ tUp with lane := [(519, { st := .track })] }, .vl 7, _, rfl, by decide +kernel⟩,
   ⟨{ withPort 252 otu4 tUp with lane := [(255, { st := .acquire })] }, .ll 255, _, 252, _, portOfWords 0 otu4, rfl, some_of (by decide +kernel),
     by decide +kernel⟩,
   ⟨{ tUp with lane := [(519, { st := .acquire })] }, .vl 7, _, _, rfl, some_of (by decide +kernel), by decide +kernel⟩,
   ⟨{ tUp with lane := [(519, { st := .acquire })], now := 600000000 }, .vl 7, _, _, rfl, some_of (by decide +kernel), by decide +kernel⟩,
   ⟨{ tUp with lane := [(519, { st := .track })] }, .vl 7, _, rfl, by decide +kernel⟩,
   ⟨{ tUp with lane := [(519, { st := .track })] }, .vl 7, _, rfl, by decide +kernel⟩,
   ⟨{ tUp with lane := [(519, { st := .track, slipUntil := some 0 })] }, .vl 7, _, _, rfl, some_of (by decide +kernel), by decide +kernel⟩,
   ⟨{ tUp with lane := [(519, { st := .track })] }, .vl 7, _, rfl, (fun sc h => by cases h), by decide +kernel⟩,
   ⟨{ tUp with lane := [(511, { st := .track })], fabRx := [(255, { lock := true })] }, .vl 7, _, 255, [0, 0, 0, 0, 0, 0, 0, 0], rfl, by decide +kernel⟩,
   ⟨{ tUp with lane := [(511, { st := .track })] }, .vl 7, _, 255, rfl, by decide +kernel⟩⟩

theorem witness_FrameEventsComplete :
    (∃ (s : State) (p : Fin 256) (i : Fin 49) (q : Port) (h : Hunter) (sig : List Byte), portAt s p.val = some q ∧ hunterKind q i.val = some h ∧ procLive
      s p.val q i.val = true ∧ patternOk h sig = true) ∧
    (∃ (s : State) (p : Fin 256) (i : Fin 49) (q : Port) (h : Hunter), portAt s p.val = some q ∧ hunterKind q i.val = some h ∧ procLive s p.val q i.val =
      true) ∧
    (∃ (s : State) (p : Fin 256) (i : Fin 49) (q : Port) (h : Hunter) (n : Fin 16) (sig : List Byte) (b : Byte) (arr : Nat) (r : Proc) (u : Port), r =
      fasCheck h (procOf q i.val) n.val sig b arr ∧ u = updProc i.val (fun _ => r) q ∧ portAt s p.val = some q ∧ ((procOf q i.val).st = .inFrame ∨
      r.st ≠ .inFrame)) ∧
    (∃ (s : State) (p : Fin 256) (i : Fin 49) (q : Port) (h : Hunter) (n : Fin 16) (sig : List Byte) (b : Byte) (arr : Nat) (r : Proc) (u : Port), r =
      fasCheck h (procOf q i.val) n.val sig b arr ∧ u = updProc i.val (fun _ => r) q ∧ portAt s p.val = some q ∧ (procOf q i.val).st ≠ .inFrame ∧ r.st
      = .inFrame ∧ i.val = 0) ∧
    (∃ (s : State) (p : Fin 256) (q : Port), portAt s p.val = some q) ∧
    (∃ (s : State) (p : Fin 256) (q : Port), portAt s p.val = some q) ∧
    (∃ (s : State) (p : Fin 256) (i : Fin 49) (q : Port), portAt s p.val = some q ∧ 1 ≤ i.val ∧ i.val ≤ 32) ∧
    (∃ (s : State) (p : Fin 256) (i : Fin 49) (q : Port), portAt s p.val = some q ∧ 1 ≤ i.val ∧ i.val ≤ 32) ∧
    (∃ (s : State) (p : Fin 256) (q : Port), portAt s p.val = some q) ∧
    (∃ (s : State) (p : Fin 256) (q : Port), portAt s p.val = some q) ∧
    (∃ (s : State) (p : Fin 256) (q : Port) (l : Fin 8), portAt s p.val = some q ∧ q.proto = 4 ∧ l.val < q.width ∧ procLive s p.val q (l.val + 1) = true) ∧
    (∃ (s : State) (p : Fin 256) (q : Port) (x : Fin 32), portAt s p.val = some q ∧ isEth q = true ∧ x.val < pcsLanes q ∧ procLive s p.val q (x.val + 1) =
      true) ∧
    (∃ (s : State) (p : Fin 256) (q : Port) (sync : List Bool) (arr : Nat) (x : Proc) (y : Proc), y = blockStep q { x with arrival := arr } sync ∧ portAt
      s p.val = some q ∧ y.blk = false) ∧
    (∃ (s : State) (p : Fin 256) (q : Port) (sync : List Bool) (arr : Nat) (x : Proc) (y : Proc), y = blockStep q { x with arrival := arr } sync ∧ portAt
      s p.val = some q ∧ y.blk = true ∧ hasAm q = false) ∧
    (∃ (s : State) (p : Fin 256) (q : Port) (sync : List Bool) (arr : Nat) (x : Proc) (y : Proc), y = blockStep q { x with arrival := arr } sync ∧ portAt
      s p.val = some q ∧ y.blk = true ∧ hasAm q = true) ∧
    (∃ (s : State) (p : Fin 256) (q : Port) (n : Fin 16) (f : FlexOh) (u : Port), u = updProc (33 + n.val) (fun r => omfStep (ohFrameStep q r true) f.omf)
      q ∧ portAt s p.val = some q ∧ n.val < flexeInst q ∧ procLive s p.val q (33 + n.val) = true ∧ f.found = true ∧ (procOf u (33 + n.val)).st =
      .inFrame) ∧
    (∃ (s : State) (p : Fin 256) (q : Port), portAt s p.val = some q) ∧
    (∃ (s : State) (p : Fin 256) (q : Port), portAt s p.val = some q) ∧
    (∃ (s : State) (p : Fin 256) (q : Port) (eg : Bool) (ch : Fin 16384) (x : Chan) (st : HuntState), chanAt s eg ch.val = some x ∧ portAt s p.val = some
      q ∧ isVc (cType x.words) = true ∧ st = ohFrame s (ohKey 2 (chKey eg ch.val) 0) ∧ st = .inFrame) ∧
    (∃ (s : State) (p : Fin 256) (q : Port) (eg : Bool) (ch : Fin 16384) (x : Chan) (st : HuntState), chanAt s eg ch.val = some x ∧ portAt s p.val = some
      q ∧ isVc (cType x.words) = true ∧ st = ohFrame s (ohKey 2 (chKey eg ch.val) 0) ∧ st ≠ .hunt ∧ st ≠ .inFrame) ∧
    (∃ (s : State) (p : Fin 256) (q : Port), portAt s p.val = some q) ∧
    (∃ (s : State) (p : Fin 256) (q : Port), portAt s p.val = some q) ∧
    (∃ (s : State) (p : Fin 256) (q : Port) (eg : Bool) (ch : Fin 16384) (x : Chan) (k : Nat) (sl : Nat) (h : Byte × State), tget? s.chan k = some x ∧ h =
      txH4 k (txPointer k (updOh (ohKey 2 k 0) (txBegin false) s)) ∧ portAt s p.val = some q ∧ k = chKey eg ch.val ∧ isVc (cType x.words) = true ∧
      chanSlice s k = some sl ∧ domUp s sl = true) ∧
    (∃ (s : State) (p : Fin 256) (q : Port) (eg : Bool) (ch : Fin 16384) (x : Chan) (k : Nat) (a : Nat), tget? s.chan (chKey eg ch.val) = some x ∧ portAt
      s p.val = some q ∧ k = chanOh (chKey eg ch.val) x.words ∧ (ohOf s k).cmfAt = some a ∧ a ≤ s.now) :=
  ⟨⟨tOtu1, 255, 0, portOfWords 0 [0x10100, 0, 0, 0], .otu, fasBytes, by decide +kernel⟩,
   ⟨tOtl, 252, 20, portOfWords 0 otu4, .otl, by decide +kernel⟩,
   ⟨tFlexe, 252, 0, { portOfWords 0 [0x120400, 0x1000, 0, 0] with procs := [(0, { st := .inFrame }), (33, { st := .inFrame })] }, .otu, 0, [], 0, 0, _,
     _, rfl, rfl, by decide +kernel⟩,
   ⟨{ tUp with lane := [(255, { st := .track })], port := [(255, { portOfWords 0 [0x10100, 0, 0, 0] with procs := [(0, { slots := [(0, { pos := 0, qual := 0 })] })] })] },
     255, 0, { portOfWords 0 [0x10100, 0, 0, 0] with procs := [(0, { slots := [(0, { pos := 0, qual := 0 })] })] }, .otu, 0, fasBytes, 1, 0, _, _,
     rfl, rfl, by decide +kernel⟩,
   ⟨tOtu1, 255, portOfWords 0 [0x10100, 0, 0, 0], by decide +kernel⟩,
   ⟨tOtu1, 255, portOfWords 0 [0x10100, 0, 0, 0], by decide +kernel⟩,
   ⟨tOtl, 252, 32, portOfWords 0 otu4, by decide +kernel⟩,
   ⟨tOtl, 252, 1, portOfWords 0 otu4, by decide +kernel⟩,
   ⟨tOtu1, 255, portOfWords 0 [0x10100, 0, 0, 0], by decide +kernel⟩,
   ⟨tOtu1, 255, portOfWords 0 [0x10100, 0, 0, 0], by decide +kernel⟩,
   ⟨tFlexo, 248, portOfWords 0 [0x40800, 0x112, 0, 0], 7, by decide +kernel⟩,
   ⟨tEth, 252, portOfWords 0 [0x120400, 0, 0, 0], 19, by decide +kernel⟩,
   ⟨tEth, 252, portOfWords 0 [0x120400, 0, 0, 0], [true], 0, {}, _, rfl, by decide +kernel⟩,
   ⟨withPort 255 [0x100100, 0, 0, 0] tUp, 255, portOfWords 0 [0x100100, 0, 0, 0], [true], 0, { blk := true }, _, rfl, by decide +kernel⟩,
   ⟨tEth, 252, portOfWords 0 [0x120400, 0, 0, 0], [true], 0, { blk := true }, _, rfl, by decide +kernel⟩,
   ⟨tFlexe, 252, { portOfWords 0 [0x120400, 0x1000, 0, 0] with procs := [(0, { st := .inFrame }), (33, { st := .inFrame })] }, 0,
     { found := true, omf := false, group := 1, phys := [], inUse := true, ca := false }, updProc 33 (fun r => omfStep (ohFrameStep
     ({ portOfWords 0 [0x120400, 0x1000, 0, 0] with procs := [(0, { st := .inFrame }), (33, { st := .inFrame })] }) r true) false)
     ({ portOfWords 0 [0x120400, 0x1000, 0, 0] with procs := [(0, { st := .inFrame }), (33, { st := .inFrame })] }), (rfl), by decide +kernel⟩,
   ⟨tOtu1, 255, portOfWords 0 [0x10100, 0, 0, 0], by decide +kernel⟩,
   ⟨tOtu1, 255, portOfWords 0 [0x10100, 0, 0, 0], by decide +kernel⟩,
   ⟨tVc, 255, { portOfWords 0 [0x50100, 0, 0, 0] with procs := [(0, { st := .inFrame })] }, false, 7, _, .inFrame, some_of (by decide +kernel),
     by decide +kernel⟩,
   ⟨tVcOof, 255, { portOfWords 0 [0x50100, 0, 0, 0] with procs := [(0, { st := .oof })] }, false, 7, _, .oof, some_of (by decide +kernel),
     by decide +kernel⟩,
   ⟨tOtu1, 255, portOfWords 0 [0x10100, 0, 0, 0], by decide +kernel⟩,
   ⟨tOtu1, 255, portOfWords 0 [0x10100, 0, 0, 0], by decide +kernel⟩,
   ⟨tVc, 255, { portOfWords 0 [0x50100, 0, 0, 0] with procs := [(0, { st := .inFrame })] }, false, 7, _, 7, 31, _, some_of (by decide +kernel), rfl,
     by decide +kernel⟩,
   ⟨{ tVc with oh := [(ohKey 2 7 0, { cmfAt := some 0 })] }, 255, { portOfWords 0 [0x50100, 0, 0, 0] with procs := [(0, { st := .inFrame })] }, false, 7,
     _, ohKey 2 7 0, 0, some_of (by decide +kernel), by decide +kernel⟩⟩

theorem witness_ChannelEventsComplete :
    (∃ (s : State) (ch : Fin 16384) (hdr : Word) (k : Nat) (x : Chan) (r : HdrProc), tget? s.chan k = some x ∧ r = hdrStep x.gfp true false (if pliOk
      x.gfp.maxPli (gfpCore hdr / 65536) then some (gfpCore hdr / 65536 + 4) else none) (gfpCore hdr / 65536 + 4) ∧ k = chKey false ch.val ∧ isGfp
      x.words = true ∧ gfpCarrierFail s treeDepth k = false ∧ gfpHecOk (gfpCore hdr) = true ∧ r.st = .sync) ∧
    (∃ (s : State) (sl : Fin 32), domUp s sl.val = true) ∧
    (∃ (s : State) (l : Fin 256), fabSync s l.val = true ∧ laneNear s (256 + l.val) = false ∧ laneLooped s (256 + l.val) = false) ∧
    (∃ (s : State) (l : Fin 256), fabSync s l.val = true ∧ laneLooped s (256 + l.val) = true) ∧
    (∃ (s : State) (ch : Fin 16384) (k : Nat) (x : Chan), k = chKey true ch.val ∧ tget? s.chan k = some x ∧ seqDue s.now x.rx = true) ∧
    (∃ (s : State) (n : Fin 1048576) (x : Queue), queueAt s n.val = some x ∧ seqDue s.now x.rx = true) ∧
    (∃ (s : State) (eg : Bool) (ch : Fin 16384) (k : Nat) (g : Nat) (t : Nat) (x : Chan) (d : Chan), k = chKey eg ch.val ∧ tget? s.chan k = some x ∧
      chanAt s eg g = some d ∧ cVcg x.words = some g ∧ x.dnuSince = some t ∧ ownDecides s = true ∧ cLcas d.words = true ∧ t + cWtr d.words *
      1000000000 ≤ s.now) ∧
    (∃ (s : State) (sl : Fin 32) (g : Fin 2) (k : Nat) (t : Nat) (cal : Nat) (x : FlexGroup), k = flexKey sl.val g.val ∧ tget? s.flex k = some x ∧
      x.switching = some (cal, t, true) ∧ ownDecides s = true) ∧
    (∃ (s : State) (sl : Fin 32) (g : Fin 2) (k : Nat) (t : Nat) (cal : Nat) (x : FlexGroup), k = flexKey sl.val g.val ∧ tget? s.flex k = some x ∧
      x.switching = some (cal, t, false) ∧ t ≤ s.now) ∧
    (∃ (s : State) (l : Fin 256), laneNear s (256 + l.val) = true) :=
  ⟨⟨tGfp, 9, 0xB6AB31E0, 9, _, _, some_of (by decide +kernel), rfl, by decide +kernel⟩,
   ⟨tUp, 31, by decide +kernel⟩,
   ⟨{ tUp with lane := [(511, { st := .track })], fabRx := [(255, { hag := { st := .sync } })] }, 255, by decide +kernel⟩,
   ⟨{ tUp with lane := [(511, { st := .track })], fabRx := [(255, { hag := { st := .sync } })], test.loop := [(511, 2)] }, 255, by decide +kernel⟩,
   ⟨{ tUp with now := 200, chan := [(16384 + 5, { words := [], rx := { exp := some 0, held := [(1, (0, { type := 1 }))] } })] }, 5, _, _, rfl, some_of
     (by decide +kernel), by decide +kernel⟩,
   ⟨{ tUp with now := 200, pool.q := [(1048575, { kind := 1, rx := { exp := some 0, held := [(1, (0, { type := 1 }))] } })] }, 1048575, _, some_of
     (by decide +kernel), by decide +kernel⟩,
   ⟨{ tUp with now := 1000000000, chan := [(3, { words := [0, 0, 0, 0, 0, 0, 0, 0, 0, 0, 0, 0, 0, 0, 0, 0, 0, 0x4007], dnuSince := some 0 }), (7, { words := [0x120000, 0, 0, 0, 0, 0, 0, 0, 0, 0, 0, 0, 0, 0, 0, 0, 0x2000000, 1] })] },
     false, 3, _, 7, 0, _, _, rfl, some_of (by decide +kernel), some_of (by decide +kernel), by decide +kernel⟩,
   ⟨{ tUp with now := 1000000, flex := [(63, { num := 1, phys := [], switching := some (1, 0, true) })] }, 31, 1, _, 0, 1, _, rfl, some_of
     (by decide +kernel), by decide +kernel⟩,
   ⟨{ tUp with now := 1000000, flex := [(63, { num := 1, phys := [], switching := some (1, 1000000, false) })] }, 31, 1, _, 1000000, 1, _, rfl, some_of
     (by decide +kernel), by decide +kernel⟩,
   ⟨{ tUp with test.loop := [(511, 1)] }, 255, by decide +kernel⟩⟩

theorem witness_MonitorEventsComplete :
    (∃ (s : State) (a : Word) (b : Fin 20) (t : Nat), tget? (tget s.mon {} a.toNat).declAt b.val = some t ∧ t ≤ pointUs s a.toNat ∧ timerActs s a.toNat =
      true) ∧
    (∃ (s : State) (a : Word) (b : Fin 20) (t : Nat), tget? (tget s.mon {} a.toNat).clearAt b.val = some t ∧ t ≤ pointUs s a.toNat ∧ timerActs s a.toNat =
      true) ∧
    (∃ (s : State), pulseDue s = true) ∧
    (∃ (s : State) (a : Word), (tget s.mon {} a.toNat).closed ≠ [] ∧ mpRuns s = true ∧ judgedByPartner s = false) ∧
    (∃ (s : State) (l : LaneId) (k : Nat) (n : Nat) (x : Scan), k = laneKey l ∧ tget? s.test.scans k = some x ∧ n = eyeH x.setup * eyeV x.setup ∧
      x.running = true) :=
  ⟨⟨{ tUp with tmc.lapse := 2500000000 * 2 ^ 48, mon := [(monAddr 2 0 255 0 1, { declAt := [(8, 2500000)] })] }, 0x400FF02, 8, _, some_of
     (by decide +kernel), by decide +kernel⟩,
   ⟨{ tUp with tmc.lapse := 10000000000 * 2 ^ 48, mon := [(monAddr 2 0 255 0 1, { clearAt := [(8, 10000000)] })] }, 0x400FF02, 8, _, some_of
     (by decide +kernel), by decide +kernel⟩,
   ⟨{ tUp with tmc.dt := BitVec.ofNat _ (1000000000 * 2 ^ 48) }, by decide +kernel⟩,
   ⟨{ tUp with mon := [(monAddr 2 0 255 0 1, { closed := [{ c := {}, start := 0, begins := 0, closes := 0, viol := 0, bei := 0 }] })] }, 0x400FF02,
     by decide +kernel⟩,
   ⟨{ tUp with test.scans := [(519, { running := true, setup := 0x101 })] }, .vl 7, _, _, _, rfl, some_of (by decide +kernel), rfl, by decide +kernel⟩⟩

theorem witness_BraidEventsComplete :
    (∃ (s : State) (g : Fin 256) (i : Fin 64), memberUp s g.val i.val = true) ∧
    (∃ (s : State) (g : Fin 256) (i : Fin 64), memberUp s g.val i.val = true) ∧
    (∃ (s : State) (g : Fin 256) (tx : Bool), switchDue s g.val tx = true) ∧
    (∃ (s : State) (g : Fin 256) (i : Fin 64) (tx : Bool) (m : Member) (t : Nat), (sideOf s g.val tx).bind (fun d => memberOf d i.val) = some m ∧ m.adding
      = true ∧ m.until_ = some t ∧ t ≤ s.now ∧ m.pendWork ≠ some true) ∧
    (∃ (s : State) (g : Fin 256) (i : Fin 64) (m : Member) (t : Nat), (sideOf s g.val true).bind (fun d => memberOf d i.val) = some m ∧ m.wtrUntil = some
      t ∧ t ≤ s.now ∧ m.far = true ∧ m.st = .adding ∧ m.replaced = false ∧ txSliceUp s m = true) ∧
    (∃ (s : State) (g : Fin 256) (i : Fin 64) (m : Member) (t : Nat), (sideOf s g.val true).bind (fun d => memberOf d i.val) = some m ∧ m.wtrUntil = some
      t ∧ t ≤ s.now ∧ m.far = true ∧ m.st = .adding ∧ m.replaced = true ∧ txSliceUp s m = true) ∧
    (∃ (s : State) (g : Fin 256) (i : Fin 64) (m : Member) (t : Nat), (sideOf s g.val true).bind (fun d => memberOf d i.val) = some m ∧ m.soloAt = some t
      ∧ t ≤ s.now ∧ m.removing = true) ∧
    (∃ (s : State) (g : Fin 256) (i : Fin 64) (m : Member) (t : Nat), (sideOf s g.val true).bind (fun d => memberOf d i.val) = some m ∧ m.soloAt = some t
      ∧ t ≤ s.now ∧ m.removing = false ∧ m.adding = true) ∧
    (∃ (s : State) (g : Fin 256) (i : Fin 64) (m : Member) (t : Nat), (sideOf s g.val true).bind (fun d => memberOf d i.val) = some m ∧ m.withdrawAt =
      some t ∧ t ≤ s.now) ∧
    (∃ (s : State) (g : Fin 256) (i : Fin 64) (x : Client) (t : Nat), (sideOf s g.val false).bind (fun d => d.clients.find? (fun c => c.cidx == i.val)) =
      some x ∧ x.ssf = false ∧ x.lastData = some t ∧ t + 1000000 ≤ s.now) ∧
    (∃ (s : State) (g : Fin 256) (i : Fin 64) (m : Member) (t : Nat), (sideOf s g.val false).bind (fun d => memberOf d i.val) = some m ∧ m.bgoAt = some t
      ∧ t + 3 * subPeriod s false m ≤ s.now) :=
  ⟨⟨{ tChans with braid := [(255, { rx := some { members := [{ midx := 63, ch := 1 }] }, tx := some {}, maxDd := 1250 })] }, 255, 63, by decide +kernel⟩,
   ⟨{ tChans with braid := [(255, { rx := some { members := [{ midx := 63, ch := 1 }] }, tx := some {}, maxDd := 1250 })] }, 255, 63, by decide +kernel⟩,
   ⟨{ tChans with braid := [(255, { rx := some { schedPend := true, nStar := some 0, start := some 0 }, tx := some {}, maxDd := 1250 })] }, 255, false,
     by decide +kernel⟩,
   ⟨{ tChans with braid := [(255, { rx := some { members := [{ midx := 63, ch := 1, until_ := some 0 }] }, tx := some {}, maxDd := 1250 })] }, 255, 63,
     false, _, 0, some_of (by decide +kernel), by decide +kernel⟩,
   ⟨{ tChans with braid := [(255, { rx := some {}, tx := some { members := [{ midx := 63, ch := 1, wtrUntil := some 0, far := true }] }, maxDd := 1250 })] },
     255, 63, _, 0, some_of (by decide +kernel), by decide +kernel⟩,
   ⟨{ tChans with braid := [(255, { rx := some {}, tx := some { members := [{ midx := 63, ch := 1, wtrUntil := some 0, far := true, replaced := true }] }, maxDd := 1250 })] },
     255, 63, _, 0, some_of (by decide +kernel), by decide +kernel⟩,
   ⟨{ tChans with braid := [(255, { rx := some {}, tx := some { members := [{ midx := 63, ch := 1, soloAt := some 0, removing := true }] }, maxDd := 1250 })] },
     255, 63, _, 0, some_of (by decide +kernel), by decide +kernel⟩,
   ⟨{ tChans with braid := [(255, { rx := some {}, tx := some { members := [{ midx := 63, ch := 1, soloAt := some 0 }] }, maxDd := 1250 })] }, 255, 63,
     _, 0, some_of (by decide +kernel), by decide +kernel⟩,
   ⟨{ tChans with braid := [(255, { rx := some {}, tx := some { members := [{ midx := 63, ch := 1, withdrawAt := some 0 }] }, maxDd := 1250 })] }, 255,
     63, _, 0, some_of (by decide +kernel), by decide +kernel⟩,
   ⟨{ tChans with braid := [(255, { rx := some { clients := [{ cidx := 63, tx := false, type := 5, n := 0, ch := 3, slice := 0, fabricCh := 9, lastData := some 0, ssf := false }] }, tx := some {}, maxDd := 1250 })], now := 1000000 },
     255, 63, _, 0, some_of (by decide +kernel), by decide +kernel⟩,
   ⟨{ tChans with braid := [(255, { rx := some { members := [{ midx := 63, ch := 1, bgoAt := some 0 }] }, tx := some {}, maxDd := 1250 })], now := 1000000 },
     255, 63, _, 0, some_of (by decide +kernel), by decide +kernel⟩⟩

theorem witness_PoolEventsComplete :
    (∃ (s : State) (n : Fin 1048576) (x : Queue), queueAt s n.val = some x ∧ leafWrites s x = true) ∧
    (∃ (s : State) (n : Fin 1048576) (x : Queue), queueAt s n.val = some x ∧ leafWrites s x = false ∧ x.owner = 2 ∧ weltTakes s n.val = true) ∧
    (∃ (s : State) (n : Fin 1048576) (x : Queue) (t : Nat), queueAt s n.val = some x ∧ x.flushAt = some t ∧ (t ≤ s.now ∨ x.partialBytes = [])) ∧
    (∃ (s : State) (n : Fin 1048576) (x : Queue), queueAt s n.val = some x ∧ x.owner = 0 ∧ readerReady s x = true ∧ qPkt x = false) ∧
    (∃ (s : State) (n : Fin 1048576) (x : Queue) (k : Nat), queueAt s n.val = some x ∧ x.owner = 0 ∧ readerReady s x = true ∧ qPkt x = true ∧ x.items ≠ 0
      ∧ setOf x = some k ∧ (schedPick k s).1 = some n.val) ∧
    (∃ (s : State) (n : Fin 1048576) (x : Queue), queueAt s n.val = some x ∧ x.owner = 0 ∧ readerReady s x = true ∧ qPkt x = true ∧ x.items ≠ 0 ∧ setOf x
      = none) ∧
    (∃ (s : State) (cell : Fin 503316480), mpRuns s = true ∧ (allocSet s).contains (cell.val % 64) = true ∧ cell.val / 64 ≠ 7864319) ∧
    (∃ (s : State) (cell : Fin 503316480), mpRuns s = true ∧ cell.val / 64 = 7864319 ∧ (allocSet s).contains (cell.val % 64) = true ∧ (allocSet
      s).getLast? = some (cell.val % 64)) ∧
    (∃ (s : State) (cell : Nat) (e : Nat × Queue), s.pool.q.find? (fun e => e.2.chain.contains cell) = some e ∧ (e.2.chain.getLast? ≠ some cell ∨
      e.2.partialBytes = []) ∧ descOk s e.2 cell false = true) ∧
    (∃ (s : State) (g : Fin 2048) (k : Fin 4) (x : Prot) (y : Prot) (t : Nat), tget? s.prot g.val = some x ∧ y = { x with hold := tdel x.hold k.val } ∧
      tget? x.hold k.val = some t ∧ t ≤ s.now) ∧
    (∃ (s : State) (g : Fin 2048) (x : Prot) (t : Nat), tget? s.prot g.val = some x ∧ x.wtrUntil = some t ∧ t ≤ s.now ∧ ownDecides s = true) ∧
    (∃ (s : State) (g : Fin 2048) (x : Prot) (t : Nat), tget? s.prot g.val = some x ∧ x.nrSince = some t ∧ x.fopNr = false ∧ t + 50000000 ≤ s.now) ∧
    (∃ (s : State) (w : Fin 4096) (n : Fin 2) (x : Welt) (sl : Nat), tget? s.welt w.val = some x ∧ domUp s 34 = true ∧ chanSlice s (chKey false (copyOf x
      (n.val == 1)).ch) = some sl ∧ domUp s sl = true) ∧
    (∃ (s : State) (w : EngineRead 4096) (x : Welt) (t : Nat), tget? s.welt w.id.val = some x ∧ x.st = .run ∧ domUp s 34 = true ∧ x.playAt = some t ∧ t ≤
      devFine s) ∧
    (∃ (s : State) (w : EngineRead 4096) (x : Welt), tget? s.welt w.id.val = some x ∧ x.st = .acquire ∧ domUp s 34 = true) ∧
    (∃ (s : State) (w : Fin 4096) (n : Fin 2) (b : Bool) (x : Welt), tget? s.welt w.val = some x ∧ b = (n.val == 1) ∧ copySilent (blockPeriod (weltRate s
      x)) s.now (copyOf x b) = true) ∧
    (∃ (s : State) (w : Fin 4096) (x : Welt) (t : Nat), tget? s.welt w.val = some x ∧ x.firstAt = some t ∧ x.st = .acquire ∧ t + (windowFine x - tDec
      (weltRate s x)) / 65536 ≤ s.now) ∧
    (∃ (s : State) (w : Fin 4096) (x : Welt) (t : Nat), tget? s.welt w.val = some x ∧ x.noInSince = some t ∧ x.st = .run ∧ t + 1000000000 ≤ s.now ∧
      (x.c0.lastAt.isSome = true ∨ x.c1.lastAt.isSome = true)) ∧
    (∃ (s : State) (w : Fin 4096) (x : Welt) (t : Nat), tget? s.welt w.val = some x ∧ (x.c0.st = .isIn ∨ x.c1.st = .isIn) ∧ x.rangeSince = some t ∧ x.st =
      .run ∧ x.auto = true ∧ x.range = true ∧ t + 10000000000 ≤ s.now) :=
  ⟨⟨{ tUp with chan := [(7, { words := [], en := true }), (16384 + 5, { words := [], en := true })], pool.q := [(1048575, { kind := 1, cfg := [0, 1, 0, 641], writer := some 7, rdConn := true })] },
     1048575, _, some_of (by decide +kernel), by decide +kernel⟩,
   ⟨{ tUp with chan := [(7, { words := [], en := true }), (16384 + 5, { words := [], en := true })], pool.q := [(1048575, { kind := 1, cfg := [0, 1, 0, 641], writer := some 7, rdConn := true, owner := 2 })], welt := [(4095, { c0 := { ch := 0, queue := 1048575, blocks := [{ bsn := 0, start := 0, inRange := true }] }, c1 := { ch := 1 }, fabricCh := 5, window := 250, wtag := 0, auto := false })] },
     1048575, _, some_of (by decide +kernel), by decide +kernel⟩,
   ⟨{ tUp with chan := [(7, { words := [], en := true }), (16384 + 5, { words := [], en := true })], pool.q := [(1048575, { kind := 1, cfg := [0, 1, 0, 641], writer := some 7, rdConn := true, flushAt := some 0 })] },
     1048575, _, 0, some_of (by decide +kernel), by decide +kernel⟩,
   ⟨{ tUp with chan := [(7, { words := [], en := true }), (16384 + 5, { words := [], en := true })], pool.q := [(1048575, { kind := 2, cfg := [0, 1, 0, 641], writer := some 7, rdConn := true })] },
     1048575, _, some_of (by decide +kernel), by decide +kernel⟩,
   ⟨{ tUp with chan := [(7, { words := [], en := true }), (16384 + 5, { words := [], en := true })], pool.q := [(1048575, { kind := 1, cfg := [0, 1, 0, 641], writer := some 7, rdConn := true, items := 1, deficit := 1 })], pool.active := [(5, [1048575])] },
     1048575, _, 5, some_of (by decide +kernel), by decide +kernel⟩,
   ⟨{ tUp with chan := [(7, { words := [], en := true }), (16384 + 5, { words := [], en := true })], pool.q := [(1048575, { kind := 1, cfg := [0, 1, 0, 642], writer := some 7, rdConn := true, items := 1 })] },
     1048575, _, some_of (by decide +kernel), by decide +kernel⟩,
   ⟨{ tUp with chan := [(7, { words := [], en := true }), (16384 + 5, { words := [], en := true })], pool.q := [(1048575, { kind := 1, cfg := [0, 1, 0, 641], writer := some 7, rdConn := true, chain := [0] })] },
     0, by decide +kernel⟩,
   ⟨tUp, 503316479, by decide +kernel⟩,
   ⟨tCell, 0, (1048575, { kind := 1, items := 1, chain := [0] }), by decide +kernel⟩,
   ⟨{ tUp with now := 50000000, prot := [(2047, { words := [0, 0, 0, 0, 0, 0], holdOff := 0, wtr := 300, hold := [(3, 50000000)] })] }, 2047, 3, _, _,
     50000000, some_of (by decide +kernel), rfl, by decide +kernel⟩,
   ⟨{ tUp with now := 50000000, prot := [(2047, { words := [0, 0, 0, 0, 0, 0], holdOff := 0, wtr := 300, wtrUntil := some 0 })] }, 2047, _, 0, some_of
     (by decide +kernel), by decide +kernel⟩,
   ⟨{ tUp with now := 50000000, prot := [(2047, { words := [0, 0, 0, 0, 0, 0], holdOff := 0, wtr := 300, nrSince := some 0 })] }, 2047, _, 0, some_of
     (by decide +kernel), by decide +kernel⟩,
   ⟨{ tChans with now := 10000000000, tmc.dt := BitVec.ofNat _ (10000000000 * 2 ^ 48), welt := [(4095, { c0 := { ch := 0 }, c1 := { ch := 1 }, fabricCh := 5, window := 250, wtag := 0, auto := true })] },
     4095, 1, _, 0, some_of (by decide +kernel), by decide +kernel⟩,
   ⟨{ tChans with now := 10000000000, tmc.dt := BitVec.ofNat _ (10000000000 * 2 ^ 48), welt := [(4095, { c0 := { ch := 0 }, c1 := { ch := 1 }, fabricCh := 5, window := 250, wtag := 0, auto := true, st := .run, playAt := some 100000000000 })] },
     ⟨4095, []⟩, _, 100000000000, some_of (by decide +kernel), by decide +kernel⟩,
   ⟨{ tChans with now := 10000000000, tmc.dt := BitVec.ofNat _ (10000000000 * 2 ^ 48), welt := [(4095, { c0 := { ch := 0 }, c1 := { ch := 1 }, fabricCh := 5, window := 250, wtag := 0, auto := true })] },
     ⟨4095, []⟩, _, some_of (by decide +kernel), by decide +kernel⟩,
   ⟨{ tChans with now := 10000000000, tmc.dt := BitVec.ofNat _ (10000000000 * 2 ^ 48), welt := [(4095, { c0 := { ch := 0, lastAt := some 0 }, c1 := { ch := 1 }, fabricCh := 5, window := 250, wtag := 0, auto := true })] },
     4095, 0, false, _, some_of (by decide +kernel), by decide +kernel⟩,
   ⟨{ tChans with now := 10000000000, tmc.dt := BitVec.ofNat _ (10000000000 * 2 ^ 48), welt := [(4095, { c0 := { ch := 0 }, c1 := { ch := 1 }, fabricCh := 5, window := 250, wtag := 0, auto := true, firstAt := some 0 })] },
     4095, _, 0, some_of (by decide +kernel), by decide +kernel⟩,
   ⟨{ tChans with now := 10000000000, tmc.dt := BitVec.ofNat _ (10000000000 * 2 ^ 48), welt := [(4095, { c0 := { ch := 0, lastAt := some 0 }, c1 := { ch := 1 }, fabricCh := 5, window := 250, wtag := 0, auto := true, st := .run, noInSince := some 0 })] },
     4095, _, 0, some_of (by decide +kernel), by decide +kernel⟩,
   ⟨{ tChans with now := 10000000000, tmc.dt := BitVec.ofNat _ (10000000000 * 2 ^ 48), welt := [(4095, { c0 := { ch := 0, st := .isIn }, c1 := { ch := 1 }, fabricCh := 5, window := 250, wtag := 0, auto := true, st := .run, rangeSince := some 0, range := true })] },
     4095, _, 0, some_of (by decide +kernel), (Or.inl (by decide +kernel)), by decide +kernel⟩⟩

theorem witness_TimingEventsComplete :
    (∃ (s : State), s.tmc.waitingTime = none) ∧
    (∃ (s : State) (v : Nat) (t : State), t = { (if pulseDue s then secondPulse s else s) with tmc.waitingTime := none } ∧ s.tmc.waitingTime = some v ∧
      tmcRuns s = true ∧ (pulseDue s = true ∨ devNs s % 1000000000 ≤ 5) ∧ devSec t * 1000000000 ≠ v) ∧
    (∃ (s : State) (v : Nat) (t : State), t = { (if pulseDue s then secondPulse s else s) with tmc.waitingTime := none } ∧ s.tmc.waitingTime = some v ∧
      tmcRuns s = true ∧ (pulseDue s = true ∨ devNs s % 1000000000 ≤ 5) ∧ devSec t * 1000000000 = v) ∧
    (∃ (s : State) (n : Fin 20) (t : Nat), (outOf s n.val).restartUntil = some t) ∧
    (∃ (s : State) (x : Fin 42), candOn (candOf s x.val) = true ∧ (candOf s x.val).activity = true) ∧
    (∃ (s : State) (x : Fin 42) (phase : Int), candOn (candOf s x.val) = true ∧ cPjThr (candOf s x.val) ≠ 0 ∧ 65536 * cPjThr (candOf s x.val) < departure
      s x.val phase) ∧
    (∃ (s : State) (x : Fin 42) (t : Nat), (candOf s x.val).st = .waiting ∧ (candOf s x.val).timerUntil = some t ∧ t ≤ s.now ∧ (candOf s x.val).activity =
      true ∧ (candOf s x.val).off1.natAbs ≤ cAccept (candOf s x.val)) ∧
    (∃ (s : State) (d : Fin 4) (t : Nat), (dpllOf s d.val).st = .locking ∧ (dpllOf s d.val).valid = true ∧ (dpllOf s d.val).lockSince = some t ∧ t +
      2000000000 ≤ s.now) ∧
    (∃ (s : State) (d : Fin 4) (t : Nat), (dpllOf s d.val).st = .locked ∧ (dpllOf s d.val).valid = true ∧ (dpllOf s d.val).lossSince = some t ∧ t +
      1000000000 ≤ s.now) ∧
    (∃ (s : State) (t : Nat), s.tmc.ocxoCfg ≠ 0 ∧ s.tmc.ocxoActive = false ∧ s.tmc.ocxoSince = some t ∧ t + 60000000000 ≤ s.now) ∧
    (∃ (s : State), s.tmc.ocxoCfg ≠ 0) ∧
    (∃ (s : State) (d : Fin 4) (r : Spread), (dpllOf s d.val).spread = some r ∧ r.start + r.len ≤ s.now) :=
  ⟨⟨tUp, by decide +kernel⟩,
   ⟨{ tUp with tmc.waitingTime := some 5 }, 5, _, rfl, by decide +kernel⟩,
   ⟨{ tUp with tmc.waitingTime := some 0 }, 0, _, rfl, by decide +kernel⟩,
   ⟨{ tUp with tmc.outs := [(19, { words := [], restartUntil := some 0 })] }, 19, 0, by decide +kernel⟩,
   ⟨{ tUp with tmc.cand := [(41, { st := .qualified, activity := true })] }, 41, by decide +kernel⟩,
   ⟨{ tUp with tmc.cand := [(41, { st := .qualified, words := [0, 0, 0, 0, 65535] })] }, 41, 65536 * 65535 + 1, by decide +kernel⟩,
   ⟨{ tUp with tmc.cand := [(41, { st := .waiting, timerUntil := some 0, activity := true })] }, 41, 0, by decide +kernel⟩,
   ⟨{ tUp with tmc.dpll := [(3, { st := .locking, valid := true, lockSince := some 0 })], now := 2000000000 }, 3, 0, by decide +kernel⟩,
   ⟨{ tUp with tmc.dpll := [(3, { st := .locked, valid := true, lossSince := some 0 })], now := 1000000000 }, 3, 0, by decide +kernel⟩,
   ⟨{ tUp with now := 60000000000, tmc.ocxoCfg := 1, tmc.ocxoSince := some 0 }, 0, by decide +kernel⟩,
   ⟨{ tUp with tmc.ocxoCfg := 1 }, by decide +kernel⟩,
   ⟨{ tUp with tmc.dpll := [(3, { spread := some { amount := 1, start := 0, len := 1000 } })], now := 1000 }, 3, _, some_of (by decide +kernel),
     by decide +kernel⟩⟩

theorem witness_TwinEventsComplete :
    (∃ (s : State), s.twin.run = true ∧ s.twin.role ≠ .out ∧ s.twin.role ≠ .yield ∧ s.twin.hbNextAt ≤ s.now) ∧
    (∃ (s : State) (t : State), t = heartbeatSeen { s with twin.hbxOk := true, twin.hbxAt := some s.now } ∧ s.twin.run = true) ∧
    (∃ (s : State) (t : Nat), s.twin.run = true ∧ s.twin.vhbOk = true ∧ s.twin.vhbAt = some t ∧ t + 50000 ≤ s.now) ∧
    (∃ (s : State) (t : Nat), s.twin.run = true ∧ s.twin.hbxOk = true ∧ s.twin.hbxAt = some t ∧ t + 50000 ≤ s.now) ∧
    (∃ (s : State) (t : State), t = { s with twin.arbAsserted := false } ∧ s.twin.run = true) ∧
    (∃ (s : State) (t : State) (u : State), t = { s with twin.arbAsserted := true } ∧ u = arbFaultStep (t.twin.arbFault && bothLost t) (lostTimer t) ∧
      (u.twin.role = .startup ∨ u.twin.role = .claimWait) ∧ s.twin.run = true) ∧
    (∃ (s : State) (t : State) (u : State), t = { s with twin.arbAsserted := true } ∧ u = arbFaultStep (t.twin.arbFault && bothLost t) (lostTimer t) ∧
      s.twin.run = true ∧ u.twin.role = .yield) ∧
    (∃ (s : State) (t : Nat), s.twin.run = true ∧ s.twin.role = .claimWait ∧ s.twin.claimUntil = some t ∧ t ≤ s.now ∧ s.twin.arbAsserted = false) ∧
    (∃ (s : State) (t : Nat), s.twin.run = true ∧ s.twin.role = .claimWait ∧ s.twin.claimUntil = some t ∧ t ≤ s.now ∧ s.twin.arbAsserted = true) ∧
    (∃ (s : State) (t : Nat) (h : Heartbeat), s.twin.run = true ∧ s.twin.accepted = some t ∧ s.twin.role = .standby ∧ t ≤ devFine s ∧ s.twin.hbSent = some
      h ∧ h.ack = true) ∧
    (∃ (s : State) (t : Nat), s.twin.run = true ∧ s.twin.handoverAt = some t ∧ s.twin.role = .handover ∧ t + 9000 * 65536 ≤ devFine s ∧ s.twin.seenActive
      = true) ∧
    (∃ (s : State) (t : Nat), s.twin.run = true ∧ s.twin.handoverAt = some t ∧ s.twin.role = .handover ∧ t + 9000 * 65536 ≤ devFine s ∧ s.twin.seenActive
      = false) ∧
    (∃ (s : State) (t : Nat), s.twin.run = true ∧ s.twin.role = .yield ∧ s.twin.yieldUntil = some t ∧ t ≤ s.now) ∧
    (∃ (s : State), s.twin.run = true ∧ s.twin.role = .standby ∧ lostLong s = true ∧ s.twin.arbAsserted = true) ∧
    (∃ (s : State), s.twin.run = true ∧ s.twin.linkUp = false ∧ varricLanes s = true) ∧
    (∃ (s : State) (t : State), t = fedLanes true s ∧ s.twin.linkUp = true) ∧
    (∃ (s : State) (p : Fin 256) (x : Xfeed) (t : State), t = { s with twin.xfed := tset s.twin.xfed p.val x.bytes } ∧ s.twin.linkUp = true ∧ thas s.port
      p.val = true ∧ homingOf s p.val ≠ 0 ∧ domUp s (p.val / 8) = true) ∧
    (∃ (s : State) (i : Instr) (f : MirrorFrame), mirrorArrival i = some f ∧ mpRuns s = false) ∧
    (∃ (s : State) (dl : Nat), mpRuns s = true ∧ s.twin.commit = .prepared dl ∧ s.now ≤ dl) ∧
    (∃ (s : State) (dl : Nat), mpRuns s = true ∧ s.twin.commit = .prepared dl ∧ s.now ≤ dl) ∧
    (∃ (s : State) (t : Nat), mpRuns s = true ∧ s.twin.commit = .ack t ∧ devNs s + 100000 < t) ∧
    (∃ (s : State) (dl : Nat), mpRuns s = true ∧ s.twin.commit = .prepared dl ∧ dl < s.now) ∧
    (∃ (s : State) (t : Nat), mpRuns s = true ∧ s.twin.commit = .ack t ∧ t ≤ devNs s + 100000) ∧
    (∃ (s : State), mpRuns s = true ∧ s.twin.run = true ∧ s.twin.linkUp = true ∧ s.twin.role = .standby ∧ s.twin.rxPrepared = true) ∧
    (∃ (s : State), mpRuns s = true ∧ followsPartner s = true) ∧
    (∃ (s : State) (a : Word), mpRuns s = true ∧ followsPartner s = true ∧ pmPoint a.toNat = true) ∧
    (∃ (s : State) (bins : List PmCopy) (t : State), t = bins.foldl pmCopy s ∧ mpRuns s = true ∧ s.twin.resyncing = true ∧ s.twin.role = .standby) ∧
    (∃ (s : State) (n : Nat), mpRuns s = true ∧ s.twin.linkUp = true ∧ s.twin.paired = true ∧ s.twin.resyncAt = some n ∧ s.twin.histSync = false ∧
      s.twin.role = .standby) ∧
    (∃ (s : State) (n : Word) (t : State), t = sendFrames 0x11 1 s ∧ mpRuns s = true ∧ s.twin.run = true ∧ s.twin.linkUp = true ∧ s.twin.paired = true ∧
      s.twin.role = .standby ∧ (n ≠ s.twin.txn + 1 ∨ s.twin.rxApply.isSome = true)) ∧
    (∃ (s : State) (n : Word) (cmds : List TxnCmd) (l : List Staged) (t : State), t = sendFrames 0x11 1 s ∧ mpRuns s = true ∧ s.twin.run = true ∧
      s.twin.linkUp = true ∧ s.twin.paired = true ∧ s.twin.role = .standby ∧ n = s.twin.txn + 1 ∧ s.twin.rxApply = none ∧ l = cmds.map (fun e =>
      { code := e.code.toNat, req := e.req }) ∧ (l.foldl (fun (a : Bool × State) e => let r := txnBody e a.2; (a.1 && r.1, r.2)) (true, s)).1 = true) ∧
    (∃ (s : State) (t : Nat), mpRuns s = true ∧ s.twin.commit = .apply t ∧ t ≤ devNs s ∧ (applyActive t s).twin.rxApply = none) ∧
    (∃ (s : State) (t : Nat), (∀ x, s.twin.commit ≠ .apply x) ∧ mpRuns s = true ∧ s.twin.rxApply = some t ∧ t ≤ devNs s) ∧
    (∃ (s : State) (l : List TxnCmd) (t : State), t = resyncApply ((l.map (fun e => ({ code := e.code.toNat, req := e.req } : JEntry))).filter (fun e =>
      !(localEntry e))) s ∧ mpRuns s = true ∧ s.twin.run = true ∧ resyncDue s = true) ∧
    (∃ (s : State) (t : State), t = sendFrames 0x11 1 s ∧ mpRuns s = true ∧ s.twin.run = true ∧ resyncDue s = false ∧ resyncDueActive s = true) :=
  ⟨⟨{ tUp with twin.role := .active, twin.run := true }, by decide +kernel⟩,
   ⟨{ tUp with twin.run := true }, _, rfl, by decide +kernel⟩,
   ⟨{ tUp with twin.vhbOk := true, twin.vhbAt := some 0, now := 50000, twin.run := true }, 0, by decide +kernel⟩,
   ⟨{ tUp with twin.hbxOk := true, twin.hbxAt := some 0, now := 50000, twin.run := true }, 0, by decide +kernel⟩,
   ⟨{ tUp with twin.arbAsserted := true, twin.run := true }, _, rfl, by decide +kernel⟩,
   ⟨{ tUp with twin.role := .claimWait, twin.run := true }, _, _, rfl, rfl, (Or.inr (by decide +kernel)), by decide +kernel⟩,
   ⟨{ tUp with twin.role := .yield, twin.run := true }, _, _, rfl, rfl, by decide +kernel⟩,
   ⟨{ tUp with twin.role := .claimWait, twin.claimUntil := some 0, twin.run := true }, 0, by decide +kernel⟩,
   ⟨{ tUp with twin.role := .claimWait, twin.claimUntil := some 0, twin.arbAsserted := true, twin.run := true }, 0, by decide +kernel⟩,
   ⟨{ tUp with twin.role := .standby, twin.accepted := some 0, twin.hbSent := some (beat 1), twin.run := true }, 0, beat 1, by decide +kernel⟩,
   ⟨{ tUp with twin.role := .handover, twin.handoverAt := some 0, twin.seenActive := true, tmc.dt := BitVec.ofNat _ (9000 * 2 ^ 48), twin.run := true },
     0, by decide +kernel⟩,
   ⟨{ tUp with twin.role := .handover, twin.handoverAt := some 0, tmc.dt := BitVec.ofNat _ (9000 * 2 ^ 48), twin.run := true }, 0, by decide +kernel⟩,
   ⟨{ tUp with twin.role := .yield, twin.yieldUntil := some 0, twin.run := true }, 0, by decide +kernel⟩,
   ⟨{ tUp with twin.role := .standby, twin.bothLostAt := some 0, twin.arbAsserted := true, now := 1000000, twin.run := true }, by decide +kernel⟩,
   ⟨{ tUp with lane := (List.range 8).map (fun i => (512 + i, { st := .track })), twin.run := true }, by decide +kernel⟩,
   ⟨{ tUp with twin.linkUp := true }, _, rfl, by decide +kernel⟩,
   ⟨{ tPorts with twin.linkUp := true, twin.homing := [(4, 2)] }, 4, { bytes := [1], found := [] }, _, rfl, by decide +kernel⟩,
   ⟨{ tUp with fw.state := 2 }, .commitAckRx, .commitAck, by decide +kernel⟩,
   ⟨{ tUp with twin.commit := .prepared 5 }, 5, by decide +kernel⟩,
   ⟨{ tUp with twin.commit := .prepared 5 }, 5, by decide +kernel⟩,
   ⟨{ tUp with twin.commit := .ack 100001 }, 100001, by decide +kernel⟩,
   ⟨{ tUp with twin.commit := .prepared 5, now := 6 }, 5, by decide +kernel⟩,
   ⟨{ tUp with twin.commit := .ack 100000 }, 100000, by decide +kernel⟩,
   ⟨{ tUp with twin.rxPrepared := true, twin.run := true, twin.role := .standby, twin.linkUp := true }, by decide +kernel⟩,
   ⟨{ tUp with twin.ready := true, twin.run := true, twin.role := .standby, twin.linkUp := true, twin.paired := true }, by decide +kernel⟩,
   ⟨{ tUp with twin.ready := true, twin.run := true, twin.role := .standby, twin.linkUp := true, twin.paired := true }, 0x400FF02, by decide +kernel⟩,
   ⟨{ tUp with twin.resyncing := true, twin.role := .standby }, [], _, rfl, by decide +kernel⟩,
   ⟨{ tUp with twin.resyncAt := some 0, twin.role := .standby, twin.linkUp := true, twin.paired := true }, 0, by decide +kernel⟩,
   ⟨{ tUp with twin.run := true, twin.role := .standby, twin.linkUp := true, twin.paired := true }, 0, _, rfl, by decide +kernel⟩,
   ⟨{ tUp with twin.run := true, twin.role := .standby, twin.linkUp := true, twin.paired := true }, 1, [], [], _, rfl, by decide +kernel⟩,
   ⟨{ tUp with twin.commit := .apply 0 }, 0, by decide +kernel⟩,
   ⟨{ tUp with twin.rxApply := some 0 }, 0, (fun _ h => by cases h), by decide +kernel⟩,
   ⟨{ tUp with twin.partner := some (beat 3), fw.running.mirror := 0, twin.run := true, twin.role := .standby, twin.linkUp := true, twin.paired := true },
     [], _, rfl, by decide +kernel⟩,
   ⟨{ tUp with twin.partner := some { beat 1 with ack := false }, fw.running.mirror := 0, twin.run := true, twin.role := .active, twin.linkUp := true, twin.paired := true },
     _, rfl, by decide +kernel⟩⟩

theorem witness_FaultEventsComplete :
    (∃ (s : State) (a : Fin 4096), fcRuns s = true ∧ injecting s a.val 1 = none) ∧
    (∃ (s : State) (a : Fin 4096) (i : Inject) (t : State), injecting s a.val 1 = some i ∧ t = injectCount i 1 0 0 s ∧ fcRuns s = true ∧ srcGroup a.val ≠
      some 19) ∧
    (∃ (s : State) (a : Fin 4096), fcRuns s = true ∧ srcUp s a.val = true ∧ (srcGroup a.val).isSome = true ∧ (srcOf s a.val).railsEqual = false ∧
      injecting s a.val 2 = none) ∧
    (∃ (s : State) (a : Fin 4096) (t : State), t = (if (sourceDue s a.val).isEmpty || fatalSet s then s else runDue (4 * s.fault.src.length) s)) ∧
    (∃ (s : State) (a : Fin 4096) (t : State), t = (if (sourceDue s a.val).isEmpty || fatalSet s then s else runDue (4 * s.fault.src.length) s)) ∧
    (∃ (s : State) (b : Nat) (k : Nat), nextDue s = some (b, k)) ∧
    (∃ (s : State) (a : Fin 4096) (t : Nat), (srcOf s a.val).armedUntil = some t ∧ t ≤ s.now) ∧
    (∃ (s : State) (a : Fin 4096) (t : Nat), (srcOf s a.val).maskUntil = some t ∧ t ≤ s.now) ∧
    (∃ (s : State) (t : Nat), s.fault.pulseUntil = some t ∧ t ≤ s.now) ∧
    (∃ (s : State) (a : Fin 4096) (seen : Option CheckObs) (t : State) (r : Bool × State), t = modSrc a.val (fun x =>
      { x with exerciseAt := s.now + 10000000000 }) s ∧ r = exerciseCheck a.val seen t ∧ mpRuns s = true ∧ (srcOf s a.val).exerciseAt ≤ s.now ∧
      exerciseSkips s a.val = false) ∧
    (∃ (s : State) (a : Fin 4096) (seen : Option CheckObs) (i : Nat) (t : State) (r : Bool × State), t = modSrc a.val (fun x =>
      { x with retryAt := none }) s ∧ r = exerciseCheck a.val seen t ∧ mpRuns s = true ∧ (srcOf s a.val).retryAt = some i ∧ i ≤ s.now ∧ exerciseSkips
      t a.val = false) ∧
    (∃ (o : CheckObs), o ≠ .inj) ∧
    (∃ (s : State) (k : Nat), k = stageSlot s ∧ s.fw.erasing = true) ∧
    (∃ (s : State) (k : Nat), k = stageSlot s ∧ s.fw.checking = true ∧ s.fw.wrote = false ∧ imageCheck s.fw (slotOf s.fw k) = 0) ∧
    (∃ (s : State) (k : Nat) (r : Nat), k = stageSlot s ∧ r = imageCheck s.fw (slotOf s.fw k) ∧ s.fw.checking = true ∧ r ≠ 0) ∧
    (∃ (s : State) (x : Activation) (k : Nat) (t : State), s.fw.activation = some x ∧ k = 1 - x.prev ∧ t =
      { s with fw.running := slotHdr (slotOf s.fw k), fw.slot := k, fw.confirmed := false, fw.activation := none, fw.lastResult := 0 } ∧ s.fw.state =
      2 ∧ imageCheck s.fw (slotOf s.fw k) = 0) ∧
    (∃ (s : State) (x : Activation) (r : Nat), s.fw.activation = some x ∧ r = imageCheck s.fw (slotOf s.fw (1 - x.prev)) ∧ (r ≠ 0 ∨ x.at_ + 1800000000 ≤
      s.now) ∧ s.fw.state = 2) ∧
    (∃ (s : State), mpRuns s = true) :=
  ⟨⟨tUp, 0x7C0, by decide +kernel⟩,
   ⟨{ tUp with fault.inject := [{ id := 0, addr := 0x7C0, mode := 1, classify := false, left := 1, until_ := 1000 }] }, 0x7C0, _, _, some_of
     (by decide +kernel), rfl, by decide +kernel⟩,
   ⟨tUp, 0x7C0, by decide +kernel⟩,
   ⟨{ tUp with fault.src := [(0x7C0, { twinAt := some 0 })] }, 0x7C0, _, rfl⟩,
   ⟨{ tUp with fault.src := [(0x7C0, { twinAt := some 0 })] }, 0x7C0, _, rfl⟩,
   ⟨{ tUp with fault.src := [(0x7C0, { twinAt := some 0 })] }, 0x7C0, 3, by decide +kernel⟩,
   ⟨{ tUp with fault.src := [(0x7C0, { armedUntil := some 0 })] }, 0x7C0, 0, by decide +kernel⟩,
   ⟨{ tUp with fault.src := [(0x7C0, { maskUntil := some 0 })] }, 0x7C0, 0, by decide +kernel⟩,
   ⟨{ tUp with fault.pulseUntil := some 0 }, 0, by decide +kernel⟩,
   ⟨tUp, 0x7C0, none, _, _, rfl, rfl, by decide +kernel⟩,
   ⟨{ tUp with fault.src := [(0x7C0, { retryAt := some 0 })] }, 0x7C0, some .inj, 0, _, _, rfl, rfl, by decide +kernel⟩,
   ⟨.real, by decide +kernel⟩,
   ⟨{ tUp with fw.erasing := true }, _, rfl, by decide +kernel⟩,
   ⟨{ tUp with fw.checking := true, fw.slotB := { factory := some { major := 3, minor := 4, patch := 0, svn := 0, mirror := 1, hitMajor := 3, hitMinor := 0 } } },
     _, rfl, by decide +kernel⟩,
   ⟨{ tUp with fw.checking := true }, _, _, rfl, rfl, by decide +kernel⟩,
   ⟨{ tUp with fw.state := 2, fw.activation := some { op := 1, prev := 0, at_ := 0 }, fw.slotB := { factory := some { major := 3, minor := 4, patch := 0, svn := 0, mirror := 1, hitMajor := 3, hitMinor := 0 } } },
     _, _, _, some_of (by decide +kernel), rfl, rfl, by decide +kernel⟩,
   ⟨{ tUp with fw.state := 2, fw.activation := some { op := 1, prev := 0, at_ := 0 } }, _, _, some_of (by decide +kernel), rfl, (Or.inl
     (by decide +kernel)), by decide +kernel⟩,
   ⟨tUp, by decide +kernel⟩⟩

/-! Witnesses of the frames, the twin roles and the machine's own statements. -/

theorem witness_SignalEventFrame : ∃ (i : Instr) (s t : State), signalEvent i = true ∧ exec i s = .next t :=
  ⟨.journalCompaction, tUp, _, by decide, rfl⟩

theorem witness_SignalCommandFrame : ∃ (i : Instr) (s t : State) (code : Nat) (m : Mbx) (req : List Word),
    signalCommand i = some (code, m, req) ∧ s.ready code m req ∧ exec i s = .next t :=
  ⟨.sysInfo 0 0 [], tUp, _, _, _, _, rfl, ready_of (by decide +kernel), rfl⟩

/-- A PAIRED standby. -/
def tStandby : State := { tUp with twin.paired := true, twin.role := .standby }

theorem witness_PairWideDeniedOffActive : ∃ (i : Instr) (s : State) (code : Nat) (m : Mbx) (tag : Byte) (req : List Word),
    mailCommand i = some (code, m, tag, req) ∧ s.takes code m req ∧ s.twin.paired = true ∧ s.twin.role ≠ .active ∧ pairWide code req = true :=
  ⟨.portCreate 0 0 [0x10100, 0, 0, 0], tStandby, _, _, _, _, rfl, takes_of (by decide +kernel), by decide +kernel⟩

theorem witness_PairWideStagedOnActive : ∃ (i : Instr) (s p : State) (code : Nat) (m : Mbx) (tag : Byte) (req : List Word) (f : Body) (r : CmdOut),
    mailCommand i = some (code, m, tag, req) ∧ s.takes code m req ∧ bodyOf code = some f ∧ p = s.posted code m tag req ∧
    r = f { mbx := some m.val } req (shadowOf s.twin.staging p) ∧ s.twin.paired = true ∧ s.twin.role = .active ∧ pairWide code req = true :=
  ⟨.portCreate 0 0 [0x10100, 0, 0, 0], { tStandby with twin.role := .active }, _, 0x0203, 0, 0, [0x10100, 0, 0, 0], _, _, rfl, takes_of (by decide +kernel),
    some_of (by decide +kernel), rfl, rfl, by decide +kernel⟩

theorem witness_StepRunsFrontCommand : ∃ (c : Instr) (r : List Instr) (s : State), s.pending = c :: r :=
  ⟨.hbxEdge, [.supplyPowerUp], { State.reset with pending := [.hbxEdge, .supplyPowerUp] }, rfl⟩

theorem witness_IdleStepIsOneCycle : (∃ s : State, s.pending = [] ∧ tmcRuns s = false) ∧
    ∃ (s : State) (n : Int), s.pending = [] ∧ n = 5 * 281474976710656 * (1000000000000000 + y0 s) / 1000000000000000 ∧ tmcRuns s = true :=
  ⟨⟨State.reset, by decide +kernel⟩, ⟨tUp, _, rfl, rfl, by decide +kernel⟩⟩

theorem witness_CommandsKeepQueueAndTime : ∃ (c : Instr) (s t : State), exec c s = .next t := ⟨.journalCompaction, tUp, _, rfl⟩

theorem witness_StepKeepsMemoryCanonical : ∃ s t : State, s.memOk ∧ step s = .next t :=
  ⟨{ tUp with pool.mem := [(0, 1)] }, _, by unfold State.memOk; decide +kernel, rfl⟩

theorem witness_FatalLatchHolds : ∃ s t : State, step s = .next t ∧ (∀ r, s.pending ≠ .supplyRemoval :: r) ∧ s.fault.latch.isSome = true ∧
    s.pins.railsOk = true :=
  ⟨{ tUp with fault.latch := some (0xA78, 5) }, _, rfl, (fun _ h => by cases h), rfl, rfl⟩

theorem witness_SupplyRemovalClearsLatch : ∃ s : State, s.pins.railsOk = false := ⟨{ State.reset with pins.railsOk := false }, rfl⟩

theorem witness_FusesHold : ∃ (s t : State) (k : Nat), step s = .next t ∧ s.boot.retired.getLsbD k = true :=
  ⟨{ tUp with boot.retired := 1 }, _, 0, rfl, by decide +kernel⟩

theorem witness_LatchSourcesAreFatal_0 : ∃ (a : Fin 4096) (s t : State), srcGroup a.val = some 19 ∧ tmcRuns s = true ∧
    exec (.faultSourceEvent a .real) s = .next t :=
  ⟨0xB48, tUp, _, by decide +kernel, by decide +kernel, rfl⟩

theorem witness_LatchSourcesAreFatal_1 : ∃ (a : Fin 4096) (s : State) (m : Mbx) (req : List Word), srcGroup a.val = some 19 ∧
    s.ready 0x0C04 m req ∧ fld (wd req 0) 11 0 = a.val :=
  ⟨0xA78, tUp, 0, [0xA78, 0], by decide +kernel, ready_of (by decide +kernel), by decide +kernel⟩

theorem witness_NextStartSelected : ∃ (m : Mbx) (tag : Byte) (req : List Word) (s p : State) (k : Nat),
    p = s.posted 0x0E02 m tag req ∧ s.ready 0x0E02 m req ∧ k = stageSlot p ∧ fld (wd req 0) 31 4 = 0 ∧ fld (wd req 0) 3 0 = 2 ∧
    p.fw.activation = none ∧ (slotOf p.fw k).staged = 3 :=
  ⟨0, 0, [2], { tUp with fw.slotB := { staged := 3 } }, _, _, rfl, ready_of (by decide +kernel), rfl, by decide +kernel⟩

theorem witness_CellWriteStores : ∃ (q : Queue) (c : Nat) (bs : List Byte) (s t : State), c < 503316480 ∧ bs.length ≤ 256 ∧ s.memOk ∧
    t = writeCell q c bs true true s :=
  ⟨{ kind := 1 }, 503316479, List.replicate 256 7, tUp, _, by decide +kernel, by decide +kernel, rfl, rfl⟩

theorem witness_ScrubFrame : ∃ (cell : Fin 503316480) (ue : Bool) (s t : State), s.memOk ∧ exec (.patrolScrub cell ue) s = .next t ∧ ue = false :=
  ⟨503316479, false, tUp, _, rfl, rfl, rfl⟩

/-! ### Small tests: expected values from the manual's worked examples and from published check values -/

/-- The outcome's state, or the reset state. -/
def after (o : Host.Outcome State Fault Refusal) : State := match o with | .next t => t | _ => State.reset

/-- "HOLD = 1,000 µs at 100 Gbit/s needs 48,829 cells" (08_queue_pool.md). -/
theorem test_hold_cells : cellsFor 100000000 1000 = 48829 := by decide

/-- The standard check strings of the three codes: "123456789" (CRC-32/ISO-HDLC, CRC-16/XMODEM, CRC-8/I-432-1). -/
theorem test_crc32 : crc32 [0x31, 0x32, 0x33, 0x34, 0x35, 0x36, 0x37, 0x38, 0x39] = 0xCBF43926 := by decide +kernel

theorem test_crc16 : crc16 [0x31, 0x32, 0x33, 0x34, 0x35, 0x36, 0x37, 0x38, 0x39] = 0x31C3 := by decide +kernel

theorem test_crc8 : crc8 [0x31, 0x32, 0x33, 0x34, 0x35, 0x36, 0x37, 0x38, 0x39] = 0xA1 := by decide +kernel

/-- A GFP idle frame (G.7041): the scrambled header 0xB6AB31E0 is a good header of length 0. -/
theorem test_gfp_idle : gfpHecOk (gfpCore 0xB6AB31E0) = true ∧ gfpCore 0xB6AB31E0 = 0 := by decide +kernel

/-- The worked example of 14_host_interface_and_firmware.md: Q70000 on mailbox 3 with tag 0x2A. -/
def tExample : State := { tUp with pool.q := [(70000, { kind := 1, cfg := [0x111170, 0, 0, 0, 0, 0, 0, 0x1000, 0, 0], limit := 0x1000, items := 1, chain := [3, 5, 7], flushDiscard := 1, flushed := 1 })] }

theorem test_example_response :
    let b := (mbxOf (after (exec (.queueCount 3 0x2A [0x11170]) tExample)) 3).resp
    (List.range 6).map (fun i => tget b 0 i) = [0x07022A0C, 0, 1, 3, 0x1000, 1] := by decide +kernel

/-- A stray write to the BUSY mailbox, then the read of VIOL_INFO: 0x000F_010F is TYPE 3, MAILBOX 3, COUNT 1 and all byte enables. -/
theorem test_example_violation :
    let t := after (exec (.busyMailboxWrite 0x13004 9 15) { tUp with host.mbx := [(3, { st := .busy })] })
    t.host.violFirst.map (fun v => v.off) = some 0x13004 ∧ violInfo t.host.violFirst t.host.violCount = 0x000F010F ∧
      (after (exec .violInfoRead t)).host.violFirst = none := by decide +kernel

/-- The worked example of 13_fault_collection.md: events of group 2 (N = 3, W = 1 ms) at ticks 999, 1,000, 1,400 and 1,999 of the millisecond
boundary raise at the last one only. -/
def tFc : State := { tUp with fault.policy := [(2, { old := { cls := 1, n := 3, w := 1, grace := 100, action := 4, twinFirst := false }, new := { cls := 1, n := 3, w := 1, grace := 100, action := 4, twinFirst := false }, from_ := 0, gen := 0 })] }

/-- Source 0x018 seen at tick n. -/
def seenAt (n : Nat) (s : State) : State := after (exec (.faultSourceEvent 0x018 .real) { s with now := n * 1000 })

theorem test_window_boundary :
    (srcOf (seenAt 7001400 (seenAt 7001000 (seenAt 7000999 (seenAt 7000998 tFc)))) 0x018).st = .idle ∧
    (srcOf (seenAt 7001999 (seenAt 7001400 (seenAt 7001000 (seenAt 7000999 (seenAt 7000998 tFc))))) 0x018).st ≠ .idle := by decide +kernel

/-- R308: five nanoseconds at DCO word 0 add exactly 5 ns. -/
theorem test_idle_time : devNs (after (step tUp)) = 5 := by decide +kernel

/-- R366, R367: a standby of a pair denies PORT_CREATE. -/
theorem test_standby_denies :
    tget (mbxOf (after (exec (.portCreate 2 1 [0x10100, 0, 0, 0]) { tUp with twin.paired := true, twin.role := .standby })) 2).resp 0 1 = 0x06 := by
  decide +kernel

/-! ### Well-formedness: each check refuses an ill-formed command -/

theorem test_wf_request : (Instr.sysInfo 0 0 (List.replicate 256 0)).wf = false ∧ (Instr.sysInfo 0 0 (List.replicate 255 0)).wf = true := by decide +kernel

theorem test_wf_signature : (Instr.rxFrame (.proc 0 0) { sig := List.replicate 7 0 }).wf = false := by decide +kernel

theorem test_wf_b2 : (Instr.rxFrame (.proc 0 0) { b2 := List.replicate 769 0 }).wf = false := by decide +kernel

theorem test_wf_pointers : (Instr.rxFrame (.vc false 0) { ptr := List.replicate 257 0 }).wf = false := by decide +kernel

theorem test_wf_hagil_payload : (Instr.hagilFrameRx 0 { type := 1, payload := List.replicate 505 0 }).wf = false := by decide +kernel

theorem test_wf_hagil_header : (Instr.hagilHeader 0 [1, 2, 3]).wf = false := by decide +kernel

theorem test_wf_bgo : (Instr.bgoAccept 0 0 [1] 0).wf = false := by decide +kernel

theorem test_wf_stitch : (Instr.stitchSlotRx 0 0 [1]).wf = false := by decide +kernel

theorem test_wf_word : (Instr.writerWord 0 (List.replicate 33 0) true true false).wf = false := by decide +kernel

theorem test_wf_wso : (Instr.wsoAccept 0 0 [[1]] 0 0 false).wf = false := by decide +kernel

theorem test_wf_xfeed : (Instr.xfeedFrameRx 0 { bytes := List.replicate 505 0 }).wf = false := by decide +kernel

end Sys2Proof.Tests
end

section
/-! PROOFS of the statements on lane commands (O3): what the two bodies answer once their status tables let a request pass, and from that the
whole command. -/

namespace Sys2Proof.Machine

theorem exec_laneConfig (m : Mbx) (tag : Byte) (req : List Word) (s : State) :
    exec (.laneConfig m tag req) s = viaMailbox 0x0201 m tag req s := rfl

theorem exec_laneStatus (m : Mbx) (tag : Byte) (req : List Word) (s : State) :
    exec (.laneStatus m tag req) s = viaMailbox 0x0202 m tag req s := rfl

section LaneBodies

variable {c : Ctx} {req : List Word} {p : State} {k : Nat}
  (gate : c.gate = false) (res : fld (wd req 0) 7 2 = 0)
  (name : laneBadId (fld (wd req 0) 1 0) (fld (wd req 0) 15 8) = false)
  (lane : k = kindLane (fld (wd req 0) 1 0) (fld (wd req 0) 15 8)) (up : domUp p (laneDomain k) = true)

include gate res name lane up

/-- OP 1 of LANE_CONFIG past its status table: READAPT is the only operand that can still be refused, on a lane not in TRACK (R446). -/
theorem cmdLaneConfig_set (top : fld (wd req 0) 31 20 = 0) (op : fld (wd req 0) 19 16 = 1) (r1 : fld (wd req 1) 7 4 = 0)
    (r2 : fld (wd req 1) 31 16 = 0) (margin : fld (wd req 1) 15 8 ≤ 100) (taps : tapsBad (wd req 2) = false)
    (track : bitOf (wd req 1) 3 = true → (laneOf p k).st = .track) :
    cmdLaneConfig c req p =
      (let t := modLane k (laneSettings (wd req 1) (wd req 2)) (inversionMisuse k (wd req 1) p)
       (.done .ok [], if bitOf (wd req 1) 3 then laneReadapt k t else t)) := by
  have refused : (bitOf (wd req 1) 3 && (laneOf p k).st != .track) = false := by
    cases h : bitOf (wd req 1) 3
    · rfl
    · simp [track h]
  simp [cmdLaneConfig, okNone, gate, res, name, ← lane, up, top, op, r1, r2, Nat.not_lt.2 margin, taps, refused]

/-- OP 2 of LANE_CONFIG past its status table. -/
theorem cmdLaneConfig_read (top : fld (wd req 0) 31 20 = 0) (op : fld (wd req 0) 19 16 = 2) (z1 : wd req 1 = 0) (z2 : wd req 2 = 0) :
    cmdLaneConfig c req p =
      (let l := laneOf p k
       (.done .ok [w32 (b2n l.rxInv + 2 * b2n l.txInv + 4 * b2n l.freeze + 256 * l.margin), tapsWord l], p)) := by
  simp [cmdLaneConfig, okWith, gate, res, name, ← lane, up, top, op, z1, z2]

/-- LANE_STATUS past its status table, on a lane that has a mode. -/
theorem cmdLaneStatus_moded {mode : Nat} (top : fld (wd req 0) 31 16 = 0) (hm : laneMode p k = some mode) :
    cmdLaneStatus c req p =
      (let l := laneOf p k
       (.done .ok
         [w32 (laneCode l.st + 4 * b2n l.los + 8 * b2n (laneLol l) + 16 * b2n l.freeze + 32 * b2n l.held + 64 * mode + 256 * l.snr),
          if laneFec p k then l.preFecErr else 0xFFFFFFFF, l.acqFail, l.bufSlip,
          if 256 ≤ k ∧ k < 512 then l.badType else 0, if 256 ≤ k ∧ k < 512 then l.unknownCh else 0, tapsWord l], p)) := by
  simp [cmdLaneStatus, okWith, gate, res, name, ← lane, up, top, hm]

end LaneBodies

/-- Settles O3: each form passes its status table, and the mailbox answers what the body leaves. -/
theorem laneCommandsComplete : Obligations.LaneCommandsComplete := by
  intro m tag req s p k res name lane up
  refine ⟨?config, ?status⟩
  case config =>
    rintro rfl ready top
    rw [exec_laneConfig]
    refine ⟨fun op r1 r2 margin taps => ⟨fun keep => ?set, fun again track => ?readapt⟩, fun op z1 z2 => ?read⟩
    case set =>
      have body := cmdLaneConfig_set (c := { mbx := some m.val }) rfl res name lane up top op r1 r2 margin taps (by simp [keep])
      exact mailbox_done tag ready (by decide) rfl (by simpa [keep] using body)
    case readapt =>
      have body := cmdLaneConfig_set (c := { mbx := some m.val }) rfl res name lane up top op r1 r2 margin taps (fun _ => track)
      exact mailbox_done tag ready (by decide) rfl (by simpa [again] using body)
    case read =>
      exact mailbox_done tag ready (by decide) rfl (cmdLaneConfig_read rfl res name lane up top op z1 z2)
  case status =>
    rintro mode rfl ready top hm
    rw [exec_laneStatus]
    exact mailbox_done tag ready (by decide) rfl (cmdLaneStatus_moded rfl res name lane up top hm)

end Sys2Proof.Machine
end

section
/-! PROOFS of the frame of the signal-path, host, twin and timing events (O43). Sys2Proof/Laws/Untouched.lean says of every operation that it
touches nothing beyond the signal and the host interface; here the same is said of the outcome of every event that signalEvent names, chapter
by chapter, and the frame is the split over the events. -/

namespace Sys2Proof.Machine

/-- An outcome that, where it is a next state, leaves untouched what Untouched names. -/
def LeavesUntouched (s : State) (o : Host.Outcome State Fault Refusal) : Prop := ∀ t, o = .next t → Untouched s t

theorem leavesUntouched_next {s t : State} (h : Untouched s t) : LeavesUntouched s (.next t) := by
  rintro _ ⟨⟩
  exact h

theorem leavesUntouched_settled {s t : State} (h : Untouched s t) : LeavesUntouched s (nextSettled t) :=
  leavesUntouched_next (settle_still h)

theorem Untouched.ite {c : Prop} [Decidable c] {s t u : State} (h : Untouched s t) (k : Untouched s u) : Untouched s (if c then t else u) := by
  split
  · exact h
  · exact k

theorem Untouched.onlyIf {c : Prop} [Decidable c] {s t : State} (h : Untouched s t) : Untouched s (if c then t else s) :=
  h.ite (.refl s)

/-- An event that acts only under its condition (log 15). -/
theorem leavesUntouched_nextIf {c : Prop} [Decidable c] {s t : State} (h : Untouched s t) : LeavesUntouched s (.next (if c then t else s)) :=
  leavesUntouched_next h.onlyIf

/-- The same for one whose next state is settled. -/
theorem leavesUntouched_settledIf {c : Prop} [Decidable c] {s t : State} (h : Untouched s t) :
    LeavesUntouched s (nextSettled (if c then t else s)) :=
  leavesUntouched_settled h.onlyIf

section EventFrames

variable (s : State)

/-! ### The host interface (14_host_interface_and_firmware.md) -/

theorem execMbxDoorbellRing_still (v : Word) : LeavesUntouched s (execMbxDoorbellRing v s) :=
  leavesUntouched_next (busWrite_still _ _ _ (.refl s))

theorem execEvtRingEnable_still (v : Word) : LeavesUntouched s (execEvtRingEnable v s) :=
  leavesUntouched_next (busWrite_still _ _ _ (.refl s))

theorem execEvtRingDisable_still (v : Word) : LeavesUntouched s (execEvtRingDisable v s) :=
  leavesUntouched_next (busWrite_still _ _ _ (.refl s))

theorem execEvtRingHeadWrite_still (v : Word) (be : BitVec 4) : LeavesUntouched s (execEvtRingHeadWrite v be s) :=
  leavesUntouched_next (busWrite_still _ _ _ (.refl s))

theorem execViolInfoRead_still : LeavesUntouched s (execViolInfoRead s) :=
  leavesUntouched_next (busRead_still _ _ (.refl s))

theorem execUnimplementedRead_still (off : BitVec 17) (bes : List (BitVec 4)) : LeavesUntouched s (execUnimplementedRead off bes s) :=
  leavesUntouched_next (busReads_still _ _ (.refl s))

theorem execUnimplementedWrite_still (off : BitVec 17) (v : Word) (be : BitVec 4) : LeavesUntouched s (execUnimplementedWrite off v be s) :=
  leavesUntouched_next (busWrite_still _ _ _ (.refl s))

theorem execBusyMailboxWrite_still (off : BitVec 17) (v : Word) (be : BitVec 4) : LeavesUntouched s (execBusyMailboxWrite off v be s) :=
  leavesUntouched_next (busWrite_still _ _ _ (.refl s))

theorem execRegisterWrite_still (off : BitVec 17) (v : Word) (be : BitVec 4) : LeavesUntouched s (execRegisterWrite off v be s) :=
  leavesUntouched_next (busWrite_still _ _ _ (.refl s))

theorem execEventDelivery_still : LeavesUntouched s (execEventDelivery s) :=
  leavesUntouched_next (deliver_still (.refl s))

theorem execMsixVector0HoldoffEnd_still : LeavesUntouched s (execMsixVector0HoldoffEnd s) :=
  leavesUntouched_nextIf (msixSend_still _ ((Untouched.set rfl).2 (.refl s)))

theorem execBusViolationEventTimer_still : LeavesUntouched s (execBusViolationEventTimer s) := by
  refine leavesUntouched_next ?_
  split
  · exact .refl s
  · exact .iteL (.refl s) (raise_still _ _ _ _ _ _ _ _ ((Untouched.set rfl).2 (.refl s)))

/-! ### Firmware and the journal (14_host_interface_and_firmware.md) -/

theorem execFwEraseDone_still (ok : Bool) : LeavesUntouched s (execFwEraseDone ok s) :=
  leavesUntouched_nextIf (evtFw_still _ ((Untouched.set rfl).2 (modSlot_still _ _ (.refl s))))

theorem execFwCheckDone_still : LeavesUntouched s (execFwCheckDone s) :=
  leavesUntouched_nextIf (evtFw_still _ ((Untouched.set rfl).2 (modSlot_still _ _ (.refl s)).onlyIf))

theorem execActivationFallback_still : LeavesUntouched s (execActivationFallback s) := by
  refine leavesUntouched_next ?_
  split
  · exact (evtFw_still _ ((Untouched.set rfl).2 (.refl s))).onlyIf
  · exact .refl s

theorem execJournalCompaction_still : LeavesUntouched s (execJournalCompaction s) :=
  leavesUntouched_nextIf ((Untouched.set rfl).2 (.refl s))

/-! ### Lanes and frame alignment (02_lanes_and_ports.md, 03_frame_alignment.md) -/

theorem execCdrLockAcquired_still (l : LockedLane) : LeavesUntouched s (execCdrLockAcquired l s) := by
  refine leavesUntouched_settledIf ?_
  have locked (f : LaneRec → LaneRec) := modLane_still (laneKey l.lane) f (.refl s)
  dsimp only
  split
  · exact updPort_still _ _ (locked _)
  · exact locked _

theorem execLaneBufferSlip_still (l : LaneId) : LeavesUntouched s (execLaneBufferSlip l s) :=
  leavesUntouched_settledIf (huntLane_still _ (modLane_still _ _ (.refl s)))

theorem execSlipDlolExpiry_still (l : LaneId) : LeavesUntouched s (execSlipDlolExpiry l s) :=
  leavesUntouched_settledIf (modLane_still _ _ (.refl s))

theorem execFasPatternMatch_still (p : Fin 256) (proc : Fin 49) (pos : Nat) (sig : List Byte) (qual : Byte) :
    LeavesUntouched s (execFasPatternMatch p proc pos sig qual s) := by
  refine leavesUntouched_settled ?_
  split
  · split
    · exact (updPort_still _ _ (.refl s)).onlyIf
    · exact .refl s
  · exact .refl s

theorem execFasCandidateCheck_still (p : Fin 256) (proc : Fin 49) (slot : Fin 16) (seen : FasSeen) (qual : Byte) :
    LeavesUntouched s (execFasCandidateCheck p proc slot seen qual s) := by
  refine leavesUntouched_settled ?_
  split
  · split
    · exact (updPort_still _ _ (.refl s)).onlyIf
    · exact .refl s
  · exact .refl s

theorem execDlofDeclare_still (p : Fin 256) (proc : Fin 49) : LeavesUntouched s (execDlofDeclare p proc s) :=
  leavesUntouched_settled (lofStep_still _ _ _ (.refl s))

theorem execDlofClear_still (p : Fin 256) (proc : Fin 49) : LeavesUntouched s (execDlofClear p proc s) :=
  leavesUntouched_settled (lofStep_still _ _ _ (.refl s))

theorem execDloflaneDeclare_still (p : Fin 256) (proc : Fin 49) : LeavesUntouched s (execDloflaneDeclare p proc s) :=
  leavesUntouched_settled (lofLaneStep_still _ _ _ (.refl s))

theorem execDloflaneClear_still (p : Fin 256) (proc : Fin 49) : LeavesUntouched s (execDloflaneClear p proc s) :=
  leavesUntouched_settled (lofLaneStep_still _ _ _ (.refl s))

theorem execDlomDeclare_still (p : Fin 256) (proc : Fin 49) : LeavesUntouched s (execDlomDeclare p proc s) :=
  leavesUntouched_settled (lomStep_still _ _ _ (.refl s))

theorem execDlomClear_still (p : Fin 256) (proc : Fin 49) : LeavesUntouched s (execDlomClear p proc s) :=
  leavesUntouched_settled (lomStep_still _ _ _ (.refl s))

theorem execFlexoFrame_still (p : Fin 256) (lane : Fin 8) (am : Bool) (ident : FlexoIdent) (omfi : Byte) (arrival : Nat) :
    LeavesUntouched s (execFlexoFrame p lane am ident omfi arrival s) := by
  refine leavesUntouched_settled ?_
  split
  · exact (updPort_still _ _ (.refl s)).onlyIf
  · exact .refl s

theorem execPcsAlignmentMarker_still (p : Fin 256) (pcs : Fin 32) (sync : List Bool) (am : Bool) (lane : Fin 32) (arrival : Nat) :
    LeavesUntouched s (execPcsAlignmentMarker p pcs sync am lane arrival s) := by
  refine leavesUntouched_settled ?_
  split
  · exact (updPort_still _ _ (.refl s)).onlyIf
  · exact .refl s

theorem execHagilHeader_still (l : Fin 256) (hdr : List Byte) : LeavesUntouched s (execHagilHeader l hdr s) :=
  leavesUntouched_settledIf ((Untouched.set rfl).2 (.refl s))

theorem execFabricCodeword_still (l : Fin 256) (oks : BitVec 16) : LeavesUntouched s (execFabricCodeword l oks s) :=
  leavesUntouched_settledIf ((Untouched.set rfl).2 (.refl s))

/-! ### Overhead and mapping (04_overhead_and_parity.md, 06_mapping_and_multiplexing.md) -/

theorem execRxFrame_still (o : FrameObj) (f : RxFrame) : LeavesUntouched s (execRxFrame o f s) := by
  refine leavesUntouched_settled ?_
  cases o with
  | proc p i => exact rxProc_still _ _ _ (.refl s)
  | odu eg ch inst => exact rxOduFrame_still _ _ _ (.refl s)
  | vc eg ch =>
    have read (live : Bool) := rxVc_still (chKey eg ch.val) live f (.refl s)
    dsimp only
    split
    · exact .iteL (.refl s) (.iteR (read _) (rxVcat_still _ _ (.refl _)))
    · exact .refl s

theorem execTxFrame_still (o : FrameObj) (f : TxFrame) : LeavesUntouched s (execTxFrame o f s) := by
  refine leavesUntouched_settled ?_
  cases o with
  | proc p i => exact txPort_still _ _ _ (.refl s)
  | odu eg ch inst => exact txOduFrame_still _ _ _ (.refl s)
  | vc eg ch => exact txVcFrame_still _ _ (.refl s)

theorem execGfpCoreHeader_still (ch : Fin 16384) (hdr : Word) (f : GfpFrame) : LeavesUntouched s (execGfpCoreHeader ch hdr f s) := by
  refine leavesUntouched_settled ?_
  split
  · exact .refl s
  · exact .iteL (.refl s) (.iteR (updChan_still _ _ (.refl s)) (gfpDeliver_still _ _ _ (.refl _)))

theorem execGfpCmfTimer_still (eg : Bool) (ch : Fin 16384) : LeavesUntouched s (execGfpCmfTimer eg ch s) := by
  refine leavesUntouched_next ?_
  split
  · exact (updOh_still _ _ (.refl s)).onlyIf
  · exact .refl s

theorem execLcasWtrExpiry_still (eg : Bool) (ch : Fin 16384) : LeavesUntouched s (execLcasWtrExpiry eg ch s) := by
  refine leavesUntouched_settled ?_
  split
  · split
    · split
      · exact (updChan_still _ _ (sendDecision_still (.refl s))).onlyIf
      · exact .refl s
    · exact .refl s
  · exact .refl s

/-! ### Defects and performance monitoring (05_defects_and_performance.md) -/

theorem execFailureDeclareExpiry_still (addr : Word) (bit : Fin 20) : LeavesUntouched s (execFailureDeclareExpiry addr bit s) := by
  refine leavesUntouched_next ?_
  split
  · exact (failureAt_still _ _ _ _ (.refl s)).onlyIf
  · exact .refl s

theorem execFailureClearExpiry_still (addr : Word) (bit : Fin 20) : LeavesUntouched s (execFailureClearExpiry addr bit s) := by
  refine leavesUntouched_next ?_
  split
  · exact (failureAt_still _ _ _ _ (.refl s)).onlyIf
  · exact .refl s

theorem execPmSecondEvaluation_still (addr : Word) : LeavesUntouched s (execPmSecondEvaluation addr s) :=
  leavesUntouched_next (.iteL (.refl s) (.iteR (evalSecond_still _ (.refl s)) (sendFrames_still _ _ (.refl _))))

/-! ### Braid groups (07_braid_groups.md) -/

theorem execBgoAccept_still (g : Fin 256) (midx : Fin 64) (bgo : List Byte) (ts : Nat) : LeavesUntouched s (execBgoAccept g midx bgo ts s) :=
  leavesUntouched_settledIf (bgoAccept_still _ _ _ _ (.refl s))

theorem execBgoAbsence_still (g : Fin 256) (midx : Fin 64) : LeavesUntouched s (execBgoAbsence g midx s) := by
  refine leavesUntouched_settled ?_
  split
  · split
    · exact (updMember_still _ _ _ _ (.refl s)).onlyIf
    · exact .refl s
  · exact .refl s

/-- A round whose engine meets no uncorrectable cell: one that does marks it BAD in its descriptor (R246). -/
theorem execBraidRoundRead_still (g : Fin 256) : LeavesUntouched s (execBraidRoundRead ⟨g, []⟩ s) :=
  leavesUntouched_settled (roundRead_still _ (.refl s))

/-- The same for a round that is formed. -/
theorem execBraidRoundFormed_still (g : Fin 256) : LeavesUntouched s (execBraidRoundFormed ⟨g, []⟩ s) :=
  leavesUntouched_settled (roundFormed_still _ (.refl s))

theorem execBraidSwitchRound_still (g : Fin 256) (tx : Bool) : LeavesUntouched s (execBraidSwitchRound g tx s) :=
  leavesUntouched_settledIf (.ite (txSwitch_still _ (.refl s)) (rxSwitch_still _ (.refl s)))

theorem execBraidAddTimeout_still (g : Fin 256) (tx : Bool) (midx : Fin 64) : LeavesUntouched s (execBraidAddTimeout g tx midx s) := by
  refine leavesUntouched_settled ?_
  split
  · exact (evtMemberGone_still _ _ _ (dropMember_still _ _ _ (.refl s))).onlyIf
  · exact .refl s

theorem execBraidMemberWtrExpiry_still (g : Fin 256) (midx : Fin 64) : LeavesUntouched s (execBraidMemberWtrExpiry g midx s) := by
  refine leavesUntouched_settled ?_
  split
  · refine .onlyIf ?_
    have stopped := updMember_still g.val true midx.val (fun m => { m with wtrUntil := none }) (.refl s)
    exact .ite (evtMemberNow_still _ _ _ _ _ (updMember_still _ _ _ _ stopped)) (txRequest_still _ _ _ stopped)
  · exact .refl s

theorem execBraidSoloSideDelay_still (g : Fin 256) (tx : Bool) (midx : Fin 64) : LeavesUntouched s (execBraidSoloSideDelay g tx midx s) := by
  refine leavesUntouched_settled ?_
  split
  · refine .onlyIf ?_
    have stopped := updMember_still g.val true midx.val (fun m => { m with soloAt := none }) (.refl s)
    exact .ite (txRemove_still _ _ stopped) (.ite (farChange_still _ _ _ stopped) stopped)
  · exact .refl s

theorem execBraidMemberWithdrawn_still (g : Fin 256) (midx : Fin 64) : LeavesUntouched s (execBraidMemberWithdrawn g midx s) := by
  refine leavesUntouched_settled ?_
  split
  · exact (dropMember_still _ _ _ (.refl s)).onlyIf
  · exact .refl s

theorem execBraidClientDataTimeout_still (g : Fin 256) (cidx : Fin 64) : LeavesUntouched s (execBraidClientDataTimeout g cidx s) := by
  refine leavesUntouched_settled ?_
  split
  · exact (updClient_still _ _ _ _ (.refl s)).onlyIf
  · exact .refl s

/-! ### Queues (08_queue_pool.md) -/

theorem execFlushTakesEffect_still (q : Fin 1048576) : LeavesUntouched s (execFlushTakesEffect q s) := by
  refine leavesUntouched_settled ?_
  split
  · exact (takeFlush_still _ (.refl s)).onlyIf
  · exact .refl s

/-- A read may find a bad cell, which counts at the HBM's own sources alone (R381). -/
theorem execQueueRead_still (q : Fin 1048576) (ue : Bool) : LeavesUntouched s (execQueueRead q ue s) := by
  refine leavesUntouched_settled ?_
  split
  · exact .refl s
  · refine .iteL (.refl s) ?_
    split
    · exact readStreamCell_still _ _ (.refl s)
    · refine .iteL (.refl s) ?_
      split
      · exact readPacketCell_still _ _ (.refl s)
      · exact (readPacketCell_still _ _ (schedPick_still _ (.refl s))).onlyIf

/-! ### Welt pairs and line protection (09_welt_and_line_protection.md) -/

theorem execWsoAccept_still (w : Fin 4096) (copy : Fin 2) (reps : List (List Byte)) (start : BitVec 64) (frac : BitVec 16) (ended : Bool) :
    LeavesUntouched s (execWsoAccept w copy reps start frac ended s) := by
  refine leavesUntouched_settled ?_
  split
  · exact (wsoAccept_still _ _ _ _ _ (.refl s)).onlyIf
  · exact .refl s

theorem execWeltAbsentTimer_still (w : Fin 4096) (copy : Fin 2) : LeavesUntouched s (execWeltAbsentTimer w copy s) := by
  refine leavesUntouched_settled ?_
  split
  · exact (setCopyState_still _ _ _ (updWelt_still _ _ (.refl s))).onlyIf
  · exact .refl s

theorem execWeltAcquireTimer_still (w : Fin 4096) : LeavesUntouched s (execWeltAcquireTimer w s) := by
  refine leavesUntouched_settled ?_
  split
  · split
    · exact (weltAnchor_still _ (.refl s)).onlyIf
    · exact .refl s
  · exact .refl s

theorem execWeltNoCopyIn_still (w : Fin 4096) : LeavesUntouched s (execWeltNoCopyIn w s) := by
  refine leavesUntouched_settled ?_
  split
  · split
    · exact (weltRealign_still _ (.refl s)).onlyIf
    · exact .refl s
  · exact .refl s

theorem execWeltRealignAuto_still (w : Fin 4096) : LeavesUntouched s (execWeltRealignAuto w s) := by
  refine leavesUntouched_settled ?_
  split
  · split
    · exact (weltRealign_still _ (.refl s)).onlyIf
    · exact .refl s
  · exact .refl s

theorem execHoldOffExpiry_still (g : Fin 2048) (k : Fin 4) : LeavesUntouched s (execHoldOffExpiry g k s) := by
  refine leavesUntouched_settled ?_
  split
  · exact ((Untouched.set rfl).2 (.refl s)).onlyIf
  · exact .refl s

theorem execProtWtrExpiry_still (g : Fin 2048) : LeavesUntouched s (execProtWtrExpiry g s) := by
  refine leavesUntouched_settled ?_
  split
  · exact ((Untouched.set rfl).2 (.refl s)).onlyIf
  · exact .refl s

theorem execFopNrTimer_still (g : Fin 2048) : LeavesUntouched s (execFopNrTimer g s) := by
  refine leavesUntouched_settled ?_
  split
  · split
    · exact (evtProtFop_still _ _ _ _ ((Untouched.set rfl).2 (.refl s))).onlyIf
    · exact .refl s
  · exact .refl s

/-! ### Timing and Temper (10_timing_core.md, 11_temper_chain.md) -/

theorem execCandidateActivityLoss_still (c : Fin 42) : LeavesUntouched s (execCandidateActivityLoss c s) :=
  leavesUntouched_settled (activityLost_still _ (.refl s))

theorem execCandidatePhaseJump_still (c : Fin 42) (phase : Int) : LeavesUntouched s (execCandidatePhaseJump c phase s) :=
  leavesUntouched_settledIf (candFault_still _ _ (.refl s))

theorem execCandidateWaitExpiry_still (c : Fin 42) : LeavesUntouched s (execCandidateWaitExpiry c s) :=
  leavesUntouched_settledIf (evtRef_still _ _ (modCand_still _ _ (.refl s)))

theorem execDpllLockDetect_still (d : Fin 4) : LeavesUntouched s (execDpllLockDetect d s) :=
  leavesUntouched_settledIf (enterState_still _ _ (.refl s))

theorem execDpllLockLoss_still (d : Fin 4) : LeavesUntouched s (execDpllLockLoss d s) :=
  leavesUntouched_settledIf (enterState_still _ _ (.refl s))

theorem execSwitchCompletion_still (d : Fin 4) (phi : Int) : LeavesUntouched s (execSwitchCompletion d phi s) :=
  leavesUntouched_settled (switchDone_still _ _ (.refl s))

theorem execOcxoQualify_still : LeavesUntouched s (execOcxoQualify s) :=
  leavesUntouched_nextIf (raise_still _ _ _ _ _ _ _ _ ((Untouched.set rfl).2 (.refl s)))

theorem execOcxoDisqualify_still : LeavesUntouched s (execOcxoDisqualify s) :=
  leavesUntouched_next (.iteL (.refl s) ((Untouched.set rfl).2 (ocxoLost_still (.refl s))))

theorem execLoopUpdate_still (d : Fin 4) (sub : Fin 327680) : LeavesUntouched s (execLoopUpdate d sub s) :=
  leavesUntouched_next (loopUpdate_still _ _ (.refl s))

theorem execFrontSample_still (xs : List TdcRun) : LeavesUntouched s (execFrontSample xs s) :=
  leavesUntouched_next (candTimers_still (frontSample_still _ (.refl s)))

theorem execFadeComplete_still (c : Fin 42) : LeavesUntouched s (execFadeComplete c s) :=
  leavesUntouched_next (fadeComplete_still _ (.refl s))

theorem execPhaseAdjSpreadEnd_still (d : Fin 4) : LeavesUntouched s (execPhaseAdjSpreadEnd d s) := by
  refine leavesUntouched_next ?_
  split
  · exact (dcoSettle_still (modDpll_still _ _ (.refl s))).onlyIf
  · exact .refl s

theorem execPulseEdge_still (k : Fin 4) : LeavesUntouched s (execPulseEdge k s) :=
  leavesUntouched_next (pulseEdge_still _ (.refl s))

theorem execClkoutRestart_still (n : Fin 20) : LeavesUntouched s (execClkoutRestart n s) :=
  leavesUntouched_nextIf (gateSettle_still (modOut_still _ _ (.refl s)))

/-! ### The twin pair: heartbeats, claim and handover (12_twin_pair.md) -/

theorem execHeartbeatTimer_still : LeavesUntouched s (execHeartbeatTimer s) :=
  leavesUntouched_nextIf (sendHeartbeat_still (.refl s))

theorem execHbxEdge_still : LeavesUntouched s (execHbxEdge s) := by
  refine leavesUntouched_settledIf ?_
  have seen := heartbeatSeen_still ((Untouched.set rfl).2 (.refl s) :
    Untouched s { s with twin.hbxOk := true, twin.hbxAt := some s.now })
  exact .iteL seen (evtPartner_still _ (.refl _))

theorem execVarricHeartbeatLoss_still : LeavesUntouched s (execVarricHeartbeatLoss s) :=
  leavesUntouched_settledIf (heartbeatLost_still ((Untouched.set rfl).2 (.refl s)))

theorem execHbxHeartbeatLoss_still : LeavesUntouched s (execHbxHeartbeatLoss s) :=
  leavesUntouched_settledIf (heartbeatLost_still ((Untouched.set rfl).2 (.refl s)))

theorem execArbClaimReleased_still : LeavesUntouched s (execArbClaimReleased s) := by
  refine leavesUntouched_settled ?_
  have released : Untouched s { s with twin.arbAsserted := false } := (Untouched.set rfl).2 (.refl s)
  exact .iteR released (arbFaultStep_still _ (claimCheck_still (lostTimer_still (.refl _))))

theorem execArbClaimAsserted_still : LeavesUntouched s (execArbClaimAsserted s) := by
  refine leavesUntouched_settled ?_
  have asserted : Untouched s { s with twin.arbAsserted := true } := (Untouched.set rfl).2 (.refl s)
  refine .iteL asserted ?_
  have stepped (v : Bool) := arbFaultStep_still v (lostTimer_still (.refl { s with twin.arbAsserted := true }))
  dsimp only
  split
  · exact setRole_still _ _ (stepped _)
  · exact setRole_still _ _ (stepped _)
  · exact finishWaiting_still _ _ _ (setRole_still _ _ (stepped _))
  · exact (Untouched.set rfl).2 (stepped _)
  · exact (Untouched.set rfl).2 (stepped _)
  · exact stepped _

theorem execClaimDelayExpiry_still : LeavesUntouched s (execClaimDelayExpiry s) :=
  leavesUntouched_settledIf (.ite (setRole_still _ _ (.refl s)) (setRole_still _ _ (.refl s)))

theorem execHandoverAtReached_still : LeavesUntouched s (execHandoverAtReached s) := by
  refine leavesUntouched_settled ?_
  split
  · exact .onlyIf (.ite (sendHeartbeat_still (setRole_still _ _ (.refl s))) ((Untouched.set rfl).2 (.refl s)))
  · exact .refl s

/-- A waiting TWIN_SWITCH is answered as the role changes. -/
theorem switchEnds_still (st : Status) (role : Role) (cause : Nat) : Untouched s (finishWaiting isSwitch st [] (setRole role cause s)) :=
  finishWaiting_still _ _ _ (setRole_still _ _ (.refl s))

theorem execHandoverRelease_still : LeavesUntouched s (execHandoverRelease s) := by
  refine leavesUntouched_settled ?_
  split
  · exact .onlyIf (.ite (switchEnds_still s _ _ _) (switchEnds_still s _ _ _))
  · exact .refl s

theorem execYieldTimeout_still : LeavesUntouched s (execYieldTimeout s) :=
  leavesUntouched_settledIf (.ite (switchEnds_still s _ _ _) (switchEnds_still s _ _ _))

theorem execVarricLinkUp_still : LeavesUntouched s (execVarricLinkUp s) :=
  leavesUntouched_settledIf (evtPartner_still _ ((Untouched.set rfl).2 (fedLanes_still _ (.refl s))))

theorem execVarricLinkDown_still : LeavesUntouched s (execVarricLinkDown s) :=
  leavesUntouched_settled (linkDown_still (.refl s))

theorem execArbFaultTimer_still : LeavesUntouched s (execArbFaultTimer s) :=
  leavesUntouched_settledIf (arbFaultStep_still _ (.refl s))

/-! ### The twin pair: what arrives from the partner (12_twin_pair.md) -/

theorem execPreparedRx_still (ok : Bool) : LeavesUntouched s (execPreparedRx ok s) :=
  leavesUntouched_settled (mirrorIn_still (preparedRx_still ok (.refl s)) (.refl s))

theorem execCommitRx_still (tApply : Nat) : LeavesUntouched s (execCommitRx tApply s) :=
  leavesUntouched_settled (mirrorIn_still (commitRx_still tApply (.refl s)) (.refl s))

theorem execCommitAckRx_still : LeavesUntouched s (execCommitAckRx s) :=
  leavesUntouched_settled (mirrorIn_still (commitAckRx_still (.refl s)) (.refl s))

theorem execTwinCommitTimeout_still : LeavesUntouched s (execTwinCommitTimeout s) :=
  leavesUntouched_settledIf (finishWaiting_still _ _ _ ((Untouched.set rfl).2 (.refl s)))

theorem execSnapshotFrameRx_still (addr : Word) (j : Snapshot) : LeavesUntouched s (execSnapshotFrameRx addr j s) :=
  leavesUntouched_settled (mirrorIn_still (snapshotRx_still addr.toNat j (.refl s)).onlyIf (.refl s))

theorem execResyncReady_still (bins : List PmCopy) : LeavesUntouched s (execResyncReady bins s) :=
  leavesUntouched_settled (mirrorIn_still (resyncReady_still bins (.refl s)) (.refl s))

theorem execHistSyncComplete_still (pm : List PmHistCopy) (tim : List TimingCopy) : LeavesUntouched s (execHistSyncComplete pm tim s) :=
  leavesUntouched_settled (mirrorIn_still (histSynced_still pm tim (.refl s)) (.refl s))

theorem execXfeedFrameRx_still (p : Fin 256) (x : Xfeed) : LeavesUntouched s (execXfeedFrameRx p x s) := by
  refine leavesUntouched_settledIf ?_
  have fed : Untouched s { s with twin.xfed := tset s.twin.xfed p.val x.bytes } := (Untouched.set rfl).2 (.refl s)
  exact .iteR fed (foldS_still (.refl _) (fun a t => chanToFabric_still _ _ _ _ (.refl t)))

end EventFrames

/-- The frame of signalEvent's events, over the event. -/
theorem exec_signalEvent_still (i : Instr) (s : State) (hi : signalEvent i = true) : LeavesUntouched s (exec i s) := by
  cases i
  case eventDelivery => exact execEventDelivery_still s
  case msixVector0HoldoffEnd => exact execMsixVector0HoldoffEnd_still s
  case busViolationEventTimer => exact execBusViolationEventTimer_still s
  case cdrLockAcquired => exact execCdrLockAcquired_still s _
  case laneBufferSlip => exact execLaneBufferSlip_still s _
  case slipDlolExpiry => exact execSlipDlolExpiry_still s _
  case fasPatternMatch => exact execFasPatternMatch_still s _ _ _ _ _
  case fasCandidateCheck => exact execFasCandidateCheck_still s _ _ _ _ _
  case rxFrame => exact execRxFrame_still s _ _
  case dlofDeclare => exact execDlofDeclare_still s _ _
  case dlofClear => exact execDlofClear_still s _ _
  case dloflaneDeclare => exact execDloflaneDeclare_still s _ _
  case dloflaneClear => exact execDloflaneClear_still s _ _
  case dlomDeclare => exact execDlomDeclare_still s _ _
  case dlomClear => exact execDlomClear_still s _ _
  case flexoFrame => exact execFlexoFrame_still s _ _ _ _ _ _
  case pcsAlignmentMarker => exact execPcsAlignmentMarker_still s _ _ _ _ _ _
  case gfpCoreHeader => exact execGfpCoreHeader_still s _ _ _
  case hagilHeader => exact execHagilHeader_still s _ _
  case fabricCodeword => exact execFabricCodeword_still s _ _
  case txFrame => exact execTxFrame_still s _ _
  case gfpCmfTimer => exact execGfpCmfTimer_still s _ _
  case failureDeclareExpiry => exact execFailureDeclareExpiry_still s _ _
  case failureClearExpiry => exact execFailureClearExpiry_still s _ _
  case pmSecondEvaluation => exact execPmSecondEvaluation_still s _
  case lcasWtrExpiry => exact execLcasWtrExpiry_still s _ _
  case braidSwitchRound => exact execBraidSwitchRound_still s _ _
  case braidAddTimeout => exact execBraidAddTimeout_still s _ _ _
  case braidMemberWtrExpiry => exact execBraidMemberWtrExpiry_still s _ _
  case braidSoloSideDelay => exact execBraidSoloSideDelay_still s _ _ _
  case braidMemberWithdrawn => exact execBraidMemberWithdrawn_still s _ _
  case braidClientDataTimeout => exact execBraidClientDataTimeout_still s _ _
  case bgoAbsence => exact execBgoAbsence_still s _ _
  case flushTakesEffect => exact execFlushTakesEffect_still s _
  case queueRead => exact execQueueRead_still s _ _
  case wsoAccept => exact execWsoAccept_still s _ _ _ _ _ _
  case weltAbsentTimer => exact execWeltAbsentTimer_still s _ _
  case weltAcquireTimer => exact execWeltAcquireTimer_still s _
  case weltNoCopyIn => exact execWeltNoCopyIn_still s _
  case weltRealignAuto => exact execWeltRealignAuto_still s _
  case holdOffExpiry => exact execHoldOffExpiry_still s _ _
  case protWtrExpiry => exact execProtWtrExpiry_still s _
  case fopNrTimer => exact execFopNrTimer_still s _
  case candidateActivityLoss => exact execCandidateActivityLoss_still s _
  case candidatePhaseJump => exact execCandidatePhaseJump_still s _ _
  case candidateWaitExpiry => exact execCandidateWaitExpiry_still s _
  case dpllLockDetect => exact execDpllLockDetect_still s _
  case dpllLockLoss => exact execDpllLockLoss_still s _
  case switchCompletion => exact execSwitchCompletion_still s _ _
  case ocxoQualify => exact execOcxoQualify_still s
  case ocxoDisqualify => exact execOcxoDisqualify_still s
  case fadeComplete => exact execFadeComplete_still s _
  case phaseAdjSpreadEnd => exact execPhaseAdjSpreadEnd_still s _
  case pulseEdge => exact execPulseEdge_still s _
  case clkoutRestart => exact execClkoutRestart_still s _
  case heartbeatTimer => exact execHeartbeatTimer_still s
  case hbxEdge => exact execHbxEdge_still s
  case varricHeartbeatLoss => exact execVarricHeartbeatLoss_still s
  case hbxHeartbeatLoss => exact execHbxHeartbeatLoss_still s
  case arbClaimReleased => exact execArbClaimReleased_still s
  case arbClaimAsserted => exact execArbClaimAsserted_still s
  case claimDelayExpiry => exact execClaimDelayExpiry_still s
  case handoverAtReached => exact execHandoverAtReached_still s
  case handoverRelease => exact execHandoverRelease_still s
  case yieldTimeout => exact execYieldTimeout_still s
  case varricLinkUp => exact execVarricLinkUp_still s
  case varricLinkDown => exact execVarricLinkDown_still s
  case arbFaultTimer => exact execArbFaultTimer_still s
  case preparedRx => exact execPreparedRx_still s _
  case commitRx => exact execCommitRx_still s _
  case commitAckRx => exact execCommitAckRx_still s
  case twinCommitTimeout => exact execTwinCommitTimeout_still s
  case snapshotFrameRx => exact execSnapshotFrameRx_still s _ _
  case xfeedFrameRx => exact execXfeedFrameRx_still s _ _
  case resyncReady => exact execResyncReady_still s _
  case histSyncComplete => exact execHistSyncComplete_still s _ _
  case fwEraseDone => exact execFwEraseDone_still s _
  case fwCheckDone => exact execFwCheckDone_still s
  case activationFallback => exact execActivationFallback_still s
  case journalCompaction => exact execJournalCompaction_still s
  case mbxDoorbellRing => exact execMbxDoorbellRing_still s _
  case evtRingEnable => exact execEvtRingEnable_still s _
  case evtRingDisable => exact execEvtRingDisable_still s _
  case evtRingHeadWrite => exact execEvtRingHeadWrite_still s _ _
  case violInfoRead => exact execViolInfoRead_still s
  case unimplementedRead => exact execUnimplementedRead_still s _ _
  case unimplementedWrite => exact execUnimplementedWrite_still s _ _ _
  case busyMailboxWrite => exact execBusyMailboxWrite_still s _ _ _
  case registerWrite => exact execRegisterWrite_still s _ _ _
  case bgoAccept => exact execBgoAccept_still s _ _ _ _
  case loopUpdate => exact execLoopUpdate_still s _ _
  case frontSample => exact execFrontSample_still s _
  case braidRoundRead g =>
    obtain ⟨g, ue⟩ := g
    obtain rfl : ue = [] := eq_of_beq hi
    exact execBraidRoundRead_still s g
  case braidRoundFormed g =>
    obtain ⟨g, ue⟩ := g
    obtain rfl : ue = [] := eq_of_beq hi
    exact execBraidRoundFormed_still s g
  all_goals exact absurd hi Bool.false_ne_true

/-- Settles O43: every event that signalEvent names leaves untouched what Untouched names. -/
theorem signalEventFrame : Obligations.SignalEventFrame :=
  fun i s t hi h => exec_signalEvent_still i s hi t h

end Sys2Proof.Machine
end

section
/-! PROOFS of the statement on ALIGN_CONFIG (O5): what the body answers for a port and for a GFP channel once its status table lets a request
pass, and from that the whole command. -/

namespace Sys2Proof.Machine

theorem exec_alignConfig (m : Mbx) (tag : Byte) (req : List Word) (s : State) :
    exec (.alignConfig m tag req) s = viaMailbox 0x0301 m tag req s := rfl

/-- What ALIGN_CONFIG sets in a port (R95, R96): the MFAS qualifier, and with REALIGN every hunter back in HUNT. -/
def alignConfigPort (v : Word) (q : Port) : Port :=
  let q := { q with mfasQual := bitOf v 0 }
  if bitOf v 1 then { q with procs := q.procs.map (fun (e : Nat × Proc) => (e.1, if (hunterKind q e.1).isSome then rehunt q e.2 else e.2)) }
  else q

/-- DELTA and MAX_PLI of a GFP channel (R97). -/
def alignConfigGfp (v : Word) (x : Chan) : Chan :=
  { x with
    gfpDelta := if fld v 6 4 = 0 then 1 else fld v 6 4
    gfpMaxPli := if fld v 31 16 = 0 then 65535 else fld v 31 16 }

section AlignBody

variable {c : Ctx} {req : List Word} {p : State} (denied : c.denied = false) (gate : c.gate = false)
  (res : resBad req [(0, 7, 4), (0, 31, 22), (1, 3, 2), (1, 15, 7)] = false)

include denied gate res

/-- OP 1 of ALIGN_CONFIG past its status table: the qualifier is refused on a port that is no OTN port. -/
theorem cmdAlignConfig_port {q : Port} (op : fld (wd req 0) 3 0 = 1) (id : fld (wd req 0) 21 8 ≤ 255) (delta : fld (wd req 1) 6 4 = 0)
    (pli : fld (wd req 1) 31 16 = 0) (port : portAt p (fld (wd req 0) 21 8) = some q) (otn : bitOf (wd req 1) 0 = true → isOtn q = true) :
    cmdAlignConfig c req p = (.done .ok [], updPort (fld (wd req 0) 21 8) (alignConfigPort (wd req 1)) p) := by
  have found : thas p.port (fld (wd req 0) 21 8) = true := by
    rw [portAt] at port
    simp [thas, port]
  have refused : (bitOf (wd req 1) 0 && !(isOtn q)) = false := by
    cases h : bitOf (wd req 1) 0
    · rfl
    · simp [otn h]
  simp [cmdAlignConfig, okNone, denied, gate, res, op, Nat.not_lt.2 id, delta, pli, found, port, refused]
  rfl

/-- OP 2 of ALIGN_CONFIG past its status table: a MAX_PLI of 1 to 3 is refused. -/
theorem cmdAlignConfig_gfp {x : Chan} (op : fld (wd req 0) 3 0 = 2) (qual : bitOf (wd req 1) 0 = false)
    (pli : fld (wd req 1) 31 16 = 0 ∨ 4 ≤ fld (wd req 1) 31 16) (chan : chanAt p false (fld (wd req 0) 21 8) = some x)
    (gfp : isGfp x.words = true) (keep : bitOf (wd req 1) 1 = false) :
    cmdAlignConfig c req p = (.done .ok [], updChan (chKey false (fld (wd req 0) 21 8)) (alignConfigGfp (wd req 1)) p) := by
  have range : (fld (wd req 1) 31 16 != 0 && decide (fld (wd req 1) 31 16 < 4)) = false := by
    rw [Bool.and_eq_false_iff, bne_eq_false_iff_eq, decide_eq_false_iff_not, Nat.not_lt]
    exact pli
  simp [cmdAlignConfig, okNone, denied, gate, res, op, qual, range, chan, gfp, keep]
  rfl

end AlignBody

/-- Settles O5: both forms pass the status table, and the mailbox answers what the body leaves. -/
theorem alignConfigCompletes : Obligations.AlignConfigCompletes := by
  rintro m tag req s p id rfl ready rfl res
  rw [exec_alignConfig]
  refine ⟨fun q op small delta pli port otn => ?port, fun x op qual pli chan gfp keep => ?gfp⟩
  case port => exact mailbox_done tag ready (by decide) rfl (cmdAlignConfig_port rfl rfl res op small delta pli port otn)
  case gfp => exact mailbox_done tag ready (by decide) rfl (cmdAlignConfig_gfp rfl rfl res op qual pli chan gfp keep)

end Sys2Proof.Machine
end

section
/-! PROOFS of the statement on lane events (O34). An event that acts under a condition (log 15) is nextSettled of an if; where the condition
holds, what is left is the event's own effect. -/

namespace Sys2Proof.Machine

/-- An event whose condition holds. -/
theorem settledIf_holds {c : Bool} {t s : State} (h : c = true) : nextSettled (if c then t else s) = .next (settle t) := by
  rw [if_pos h]
  rfl

/-- An event whose condition does not hold. -/
theorem settledIf_fails {c : Bool} {t u : State} (h : c = false) : nextSettled (if c then t else u) = .next (settle u) := by
  rw [h]
  rfl

/-- As settledIf_holds, where the next state is not settled. -/
theorem nextIf_holds {c : Bool} {t s : State} (h : c = true) : (.next (if c then t else s) : Host.Outcome State Fault Refusal) = .next t := by
  rw [if_pos h]

theorem due_of_le {t : Option Nat} {d : Nat} {s : State} (h : t = some d) (past : d ≤ s.now) : due t s = true := by
  simp [due, h, past]

@[simp] theorem portOfLane_modLane (k n : Nat) (f : LaneRec → LaneRec) (s : State) : portOfLane (modLane k f s) n = portOfLane s n := rfl

/-- A lane whose initial adaptation has converged: it tracks, with the coefficients trained (R62). -/
def laneLocked (coefs : List Int) (mode : Nat) (x : LaneRec) : LaneRec :=
  { x with st := .track, below := 0, coef := (coefs.take (coefCount mode)).zipIdx.map (fun e => (e.2, e.1)) }

section LaneLock

variable {s : State} {l : LaneId} {mode : Nat} (co : List Int) (acquire : (laneOf s (laneKey l)).st = .acquire)
  (moded : laneMode s (laneKey l) = some mode) (inTime : s.now ≤ (laneOf s (laneKey l)).acqSince + acqLimit mode)

include acquire moded inTime

/-- Lock within the limit on a line lane of a port, which notes the instant for its ACQ_TIME (R98). -/
theorem execCdrLockAcquired_line {p : Nat} {q : Port} (line : laneKey l < 256) (port : portOfLane s (laneKey l) = some (p, q)) :
    execCdrLockAcquired ⟨l, co⟩ s =
      nextSettled (updPort p (fun q => { q with lastTrackAt := s.now }) (modLane (laneKey l) (laneLocked co mode) s)) := by
  simp [execCdrLockAcquired, acquire, moded, inTime, line, port]
  rfl

/-- Lock within the limit on a fabric or Varric lane, which has no port. -/
theorem execCdrLockAcquired_fabric (fabric : 256 ≤ laneKey l) :
    execCdrLockAcquired ⟨l, co⟩ s = nextSettled (modLane (laneKey l) (laneLocked co mode) s) := by
  simp [execCdrLockAcquired, acquire, moded, inTime, Nat.not_lt.2 fabric]
  rfl

end LaneLock

/-- The acquisition limit reached (R62). -/
theorem execAcquisitionLimitExpiry_reached {s : State} {l : LaneId} {mode : Nat} (moded : laneMode s (laneKey l) = some mode)
    (acquire : (laneOf s (laneKey l)).st = .acquire) (reached : (laneOf s (laneKey l)).acqSince + acqLimit mode ≤ s.now) :
    execAcquisitionLimitExpiry l s =
      nextSettled (laneIdle (laneKey l) (modLane (laneKey l) (fun x => { x with acqFail := x.acqFail + 1 }) s)) := by
  simp [execAcquisitionLimitExpiry, moded, acquire, reached]

/-- A header of eight bytes steps the delineation of a lane with codeword lock by its check alone (R90). -/
theorem execHagilHeader_examined {s : State} {n : Fin 256} {hdr : List Byte} (tracks : laneTracks s (256 + n.val) = true)
    (clean : laneBad (laneOf s (256 + n.val)) = false) (lock : (fabRxOf s n.val).lock = true) (eight : hdr.length = 8) :
    execHagilHeader n hdr s = nextSettled { s with fabRx := tset s.fabRx n.val { fabRxOf s n.val with
      hag := hdrStep (fabRxOf s n.val).hag (crc8 (hdr.take 7) == hdr.getD 7 0) false (some 512) 512 } } := by
  simp [execHagilHeader, tracks, clean, lock, eight]

/-- Settles O34: under each clause's premises the event's condition holds. -/
theorem laneEventsComplete : Obligations.LaneEventsComplete := by
  rintro s l _ rfl
  refine ⟨?present, ?absent, ?lockLine, ?lockFabric, ?limit, ?lost, ?slip, ?slipEnd, ?adapt, ?header, ?codeword⟩
  case present => exact fun idle free => settledIf_holds (by simp [idle, free])
  case absent => exact fun on => settledIf_fails (by simpa using on)
  case lockLine => exact fun co p m q acquire moded inTime line port => execCdrLockAcquired_line co acquire moded inTime line port
  case lockFabric => exact fun co m acquire moded inTime fabric => execCdrLockAcquired_fabric co acquire moded inTime fabric
  case limit => exact fun m moded acquire reached => execAcquisitionLimitExpiry_reached moded acquire reached
  case lost => exact fun track => settledIf_holds (by simp [track])
  case slip => exact fun track => settledIf_holds (by simp [track])
  case slipEnd => exact fun t until_ past => settledIf_holds (due_of_le until_ past)
  case adapt =>
    intro j d snr runs track live idle
    refine nextIf_holds ?_
    cases scan : tget? s.test.scans (laneKey l) with
    | none => simp [runs, track, live]
    | some sc => simp [runs, track, live, idle sc scan]
  case header => exact fun n hdr tracks clean lock eight => execHagilHeader_examined tracks clean lock eight
  case codeword => exact fun n oks tracks clean => settledIf_holds (by simp [tracks, clean])

end Sys2Proof.Machine
end

section
/-! PROOFS of the statement on framing events and frames (O35): what an event does on a port, channel or process that it finds, and from
that each clause. -/

namespace Sys2Proof.Machine

section FramingProcess

variable {s : State} {p : Fin 256} {q : Port} (port : portAt s p.val = some q)

include port

section Hunting

variable {i : Fin 49} {h : Hunter} (kind : hunterKind q i.val = some h) (live : procLive s p.val q i.val = true)

include kind live

/-- An opening match on a hunter whose lanes are good (R78). -/
theorem execFasPatternMatch_live {sig : List Byte} (pos : Nat) (b : Byte) (opens : patternOk h sig = true) :
    execFasPatternMatch p i pos sig b s =
      nextSettled (updPort p.val (updProc i.val (fun r => fasOpen r (pos % framePeriod q) b)) s) := by
  simp [execFasPatternMatch, port, kind, live, opens]

/-- The check of a hunter's slot (R78). -/
theorem execFasCandidateCheck_live (n : Fin 16) (sig : List Byte) (b : Byte) (arr : Nat) :
    execFasCandidateCheck p i n ⟨sig, arr⟩ b s = nextSettled (updPort p.val (fasChecked h i.val n.val sig b arr s.now) s) := by
  simp [execFasCandidateCheck, port, kind, live]

end Hunting

/-- What a FlexO frame leaves of its port (R86): the marker of its interface lane, and on port lane 0 the multiframe of the group. -/
def flexoPort (l : Fin 8) (am : Bool) (ident : FlexoIdent) (omfi : Byte) (arr : Nat) (q : Port) : Port :=
  let u := updProc (l.val + 1) (fun r =>
    { amStep r am with ident := if am then some (8 * ident.pid.val + ident.lane.val) else r.ident, arrival := arr }) q
  if l.val = 0 ∧ (procOf u 0).st = .inFrame then updProc 0 (fun r => mfStep r omfi) u else u

/-- A FlexO frame on an interface lane of an OTUCn port (R86). -/
theorem execFlexoFrame_live {l : Fin 8} (proto : q.proto = 4) (lane : l.val < q.width) (live : procLive s p.val q (l.val + 1) = true)
    (am : Bool) (ident : FlexoIdent) (omfi : Byte) (arr : Nat) :
    execFlexoFrame p l am ident omfi arr s = nextSettled (updPort p.val (flexoPort l am ident omfi arr) s) := by
  have acts : (q.proto = 4 && l.val < q.width && procLive s p.val q (l.val + 1)) = true := by simp [proto, lane, live]
  simp only [execFlexoFrame, port, acts, if_true]
  refine congrArg (fun g => nextSettled (updPort p.val g s)) (funext fun u => ?_)
  simp [flexoPort]

/-- The report of a PCS lane of an Ethernet port (R87). -/
theorem execPcsAlignmentMarker_live {x : Fin 32} (eth : isEth q = true) (lane : x.val < pcsLanes q)
    (live : procLive s p.val q (x.val + 1) = true) (sync : List Bool) (am : Bool) (l : Fin 32) (arr : Nat) :
    execPcsAlignmentMarker p x sync am l arr s = nextSettled (updPort p.val (updProc (x.val + 1) (pcsStep q sync am l.val arr)) s) := by
  simp [execPcsAlignmentMarker, port, eth, lane, live]

/-- An overhead frame found on a FlexE instance that is then in frame tells its group (R88). -/
theorem execFlexeOverheadFrame_inFrame {n : Fin 16} {f : FlexOh} {u : Port} (inst : n.val < flexeInst q)
    (live : procLive s p.val q (33 + n.val) = true) (found : f.found = true)
    (new : u = updProc (33 + n.val) (fun r => omfStep (ohFrameStep q r true) f.omf) q) (inFrame : (procOf u (33 + n.val)).st = .inFrame) :
    execFlexeOverheadFrame p n f s = nextSettled (flexTell p.val n.val f (updPort p.val (fun _ => u) s)) := by
  subst new
  simp [execFlexeOverheadFrame, port, inst, live, found, inFrame]

end FramingProcess

section CandidateCheck

variable {h : Hunter} {i n : Nat} {sig : List Byte} {b : Byte} {arr now : Nat} {q : Port}

/-- A check that brings no process to IF leaves ACQ_TIME (R98). -/
theorem fasChecked_noEntry (stays : (procOf q i).st = .inFrame ∨ (fasCheck h (procOf q i) n sig b arr).st ≠ .inFrame) :
    fasChecked h i n sig b arr now q = updProc i (fun _ => fasCheck h (procOf q i) n sig b arr) q := by
  obtain inFrame | out := stays
  · simp [fasChecked, inFrame]
  · simp [fasChecked, out]

/-- The win of a port's one hunter sets ACQ_TIME (R98). -/
theorem fasChecked_entry (out : (procOf q i).st ≠ .inFrame) (wins : (fasCheck h (procOf q i) n sig b arr).st = .inFrame) (one : i = 0) :
    fasChecked h i n sig b arr now q = setAcq now (updProc i (fun _ => fasCheck h (procOf q i) n sig b arr) q) := by
  subst one
  simp [fasChecked, out, wins]

end CandidateCheck

/-- dLOFLANE is stepped on the per-lane processes alone (R81). -/
theorem lofLaneStep_perLane {i : Nat} (lo : 1 ≤ i) (hi : i ≤ 32) (p : Nat) (v : Bool) (s : State) :
    lofLaneStep p i v s =
      updPort p (updProc i (fun r => if held3ms (if v then r.oofSince else r.okSince) s.now then { r with lof := v } else r)) s := by
  simp [lofLaneStep, lo, hi]

section PcsReport

variable {q : Port} {sync : List Bool} {x : Proc} {arr : Nat} (am : Bool) (l : Nat)

/-- A PCS lane without block lock has no marker lock (R87). -/
theorem pcsStep_unlocked (h : (blockStep q { x with arrival := arr } sync).blk = false) :
    pcsStep q sync am l arr x =
      (let y := blockStep q { x with arrival := arr } sync
       { y with st := .hunt, bad := 0, good := 0, oofEvents := if y.st = .inFrame then y.oofEvents + 1 else y.oofEvents }) := by
  simp [pcsStep, h]

/-- Without markers, block lock alone puts a PCS lane in frame (R87). -/
theorem pcsStep_noMarkers (h : (blockStep q { x with arrival := arr } sync).blk = true) (plain : hasAm q = false) :
    pcsStep q sync am l arr x = { blockStep q { x with arrival := arr } sync with st := .inFrame } := by
  simp [pcsStep, h, plain]

/-- With markers, a PCS lane with block lock follows them (R87). -/
theorem pcsStep_markers (h : (blockStep q { x with arrival := arr } sync).blk = true) (markers : hasAm q = true) :
    pcsStep q sync am l arr x =
      (let y := blockStep q { x with arrival := arr } sync
       { amStep y am with ident := if am then some l else y.ident }) := by
  simp [pcsStep, h, markers]

end PcsReport

section VcFrames

variable {s : State} {eg : Bool} {ch : Fin 16384} {x : Chan} (vc : isVc (cType x.words) = true)

include vc

/-- A received frame of a VC whose server is in frame is read with its pointer, and its VCAT multiframe stepped (R80). -/
theorem execRxFrame_vc_inFrame (chan : chanAt s eg ch.val = some x) (inFrame : ohFrame s (ohKey 2 (chKey eg ch.val) 0) = .inFrame)
    (f : RxFrame) : execRxFrame (.vc eg ch) f s = nextSettled (rxVcat (chKey eg ch.val) f (rxVc (chKey eg ch.val) true f s)) := by
  simp [execRxFrame, chan, vc, inFrame]

/-- While the server's frame is out but still delivered, the VC's pointer and multiframe stand still (R80). -/
theorem execRxFrame_vc_oof (chan : chanAt s eg ch.val = some x) (found : ohFrame s (ohKey 2 (chKey eg ch.val) 0) ≠ .hunt)
    (out : ohFrame s (ohKey 2 (chKey eg ch.val) 0) ≠ .inFrame) (f : RxFrame) :
    execRxFrame (.vc eg ch) f s = nextSettled (rxVc (chKey eg ch.val) false f s) := by
  have live : (ohFrame s (ohKey 2 (chKey eg ch.val) 0) == .inFrame) = false := by simpa using out
  simp [execRxFrame, chan, vc, found, live]

/-- A VC frame is formed where the slice of the VC is on (R110). -/
theorem txVcFrame_formed {k sl : Nat} (chan : tget? s.chan k = some x) (slice : chanSlice s k = some sl) (up : domUp s sl = true) (f : TxFrame) :
    txVcFrame k f s =
      (let h := txH4 k (txPointer k (updOh (ohKey 2 k 0) (txBegin false) s))
       txDraw [k] (.chan k) f (txVc k h.1 f h.2)) := by
  simp [txVcFrame, chan, vc, slice, up]

end VcFrames

/-- A client management frame that is due is sent, and the next one is due 100 ms later (R120). -/
theorem execGfpCmfTimer_due {s : State} {eg : Bool} {ch : Fin 16384} {x : Chan} {a : Nat} (chan : tget? s.chan (chKey eg ch.val) = some x)
    (running : (ohOf s (chanOh (chKey eg ch.val) x.words)).cmfAt = some a) (past : a ≤ s.now) :
    execGfpCmfTimer eg ch s =
      .next (updOh (chanOh (chKey eg ch.val) x.words) (fun o => { o with cmfAt := some (s.now + 100000000) }) s) := by
  simp [execGfpCmfTimer, chan, due_of_le running past]

/-- Settles O35: each clause by what its event does on the port, process or channel it names. -/
theorem frameEventsComplete : Obligations.FrameEventsComplete := by
  intro s p i q port
  refine ⟨?opens, ?checks, ?acqTime, ?lofOn, ?lofOff, ?lofLaneOn, ?lofLaneOff, ?lomOn, ?lomOff, ?flexo, ?pcs, ?pcsSteps, ?flexe,
    ?rxPort, ?rxOdu, ?rxVc, ?rxVcOof, ?txPort, ?txOdu, ?txVc, ?cmf⟩
  case opens => exact fun h pos sig b kind live ok => execFasPatternMatch_live port kind live pos b ok
  case checks => exact fun h n sig b arr kind live => execFasCandidateCheck_live port kind live n sig b arr
  case acqTime =>
    rintro h n sig b arr _ _ rfl rfl
    exact ⟨fasChecked_noEntry, fasChecked_entry⟩
  case lofOn => rfl
  case lofOff => rfl
  case lofLaneOn => exact fun lo hi => congrArg nextSettled (lofLaneStep_perLane lo hi p.val true s)
  case lofLaneOff => exact fun lo hi => congrArg nextSettled (lofLaneStep_perLane lo hi p.val false s)
  case lomOn => rfl
  case lomOff => rfl
  case flexo => exact fun l am pid lm omfi arr proto lane live => execFlexoFrame_live port proto lane live am ⟨pid, lm⟩ omfi arr
  case pcs => exact fun x sync am l arr eth lane live => execPcsAlignmentMarker_live port eth lane live sync am l arr
  case pcsSteps =>
    rintro sync am l arr x _ rfl
    exact ⟨pcsStep_unlocked am l, pcsStep_noMarkers am l, pcsStep_markers am l⟩
  case flexe => exact fun n f u inst live found new inFrame => execFlexeOverheadFrame_inFrame port inst live found new inFrame
  case rxPort => exact fun f => rfl
  case rxOdu => exact fun eg ch n f => rfl
  case rxVc =>
    rintro eg ch x f _ chan vc rfl inFrame
    exact execRxFrame_vc_inFrame vc chan inFrame f
  case rxVcOof =>
    rintro eg ch x f _ chan vc rfl found out
    exact execRxFrame_vc_oof vc chan found out f
  case txPort => exact fun f => rfl
  case txOdu => exact fun eg ch n f => rfl
  case txVc =>
    rintro eg ch x f _ sl _ rfl chan vc slice up rfl
    exact congrArg nextSettled (txVcFrame_formed vc chan slice up f)
  case cmf =>
    rintro eg ch x _ a chan rfl running past
    exact execGfpCmfTimer_due chan running past

end Sys2Proof.Machine
end

section
/-! PROOFS of the statement on channel and mapping events (O36): the core header, the order's skip timeouts, LCAS and the FlexE calendar, each
once, and from that each clause. -/

namespace Sys2Proof.Machine

/-- A good core header that leaves the delineation in SYNC delivers its frame and counts nothing (R90, R91, R163). -/
theorem execGfpCoreHeader_delivers {s : State} {ch : Fin 16384} {hdr : Word} {x : Chan} {r : HdrProc}
    (chan : tget? s.chan (chKey false ch.val) = some x) (gfp : isGfp x.words = true)
    (carried : gfpCarrierFail s treeDepth (chKey false ch.val) = false) (good : gfpHecOk (gfpCore hdr) = true)
    (step : r = hdrStep x.gfp true false (if pliOk x.gfp.maxPli (gfpCore hdr / 65536) then some (gfpCore hdr / 65536 + 4) else none)
      (gfpCore hdr / 65536 + 4))
    (sync : r.st = .sync) (f : GfpFrame) :
    execGfpCoreHeader ch hdr f s =
      nextSettled (gfpDeliver (chKey false ch.val) (gfpCore hdr / 65536) f (updChan (chKey false ch.val) (fun c => { c with gfp := r }) s)) := by
  simp [execGfpCoreHeader, chan, gfp, carried, good, ← step, sync]

section SkipTimeout

variable {s : State}

/-- A leaf whose later frame has waited for E skips it (R179). -/
theorem leafSkip_due {k : Nat} {x : Chan} (chan : tget? s.chan k = some x) (waited : seqDue s.now x.rx = true) :
    leafSkip k s = updChan k (fun c =>
      (seqSkip x.rx).1.foldl (fun c i => leafItem i c) (seqCount { gap := 1 } { c with rx := (seqSkip x.rx).2 })) s := by
  simp [leafSkip, chan, waited]

/-- So does a queue. -/
theorem queueSkip_due {n : Nat} {x : Queue} (queue : queueAt s n = some x) (waited : seqDue s.now x.rx = true) :
    queueSkip n s = foldS (seqSkip x.rx).1 (queueItem n) (updQ n (fun q => { q with rx := (seqSkip x.rx).2 }) s) := by
  simp [queueSkip, queue, waited]

end SkipTimeout

/-- A member without failure for WTR is OK again (R168). -/
theorem execLcasWtrExpiry_restored {s : State} {eg : Bool} {ch : Fin 16384} {g t : Nat} {x d : Chan}
    (chan : tget? s.chan (chKey eg ch.val) = some x) (member : cVcg x.words = some g) (since : x.dnuSince = some t)
    (group : chanAt s eg g = some d) (decides : ownDecides s = true) (lcas : cLcas d.words = true)
    (waited : t + cWtr d.words * 1000000000 ≤ s.now) :
    execLcasWtrExpiry eg ch s =
      nextSettled (updChan (chKey eg ch.val) (fun c => { c with dnuSince := none, lcas := { c.lcas with ok := true } }) (sendDecision s)) := by
  simp [execLcasWtrExpiry, chan, member, since, group, decides, lcas, waited]

section FlexeCalendar

variable {s : State} {sl : Fin 32} {g : Fin 2}

/-- An acknowledgement marks a switching that is under way, and nothing where none is (R170). -/
theorem execFlexeCrAck_marks : execFlexeCrAck sl g s =
    .next { s with flex := tupd s.flex (flexKey sl.val g.val) (fun x => { x with switching := x.switching.map (fun y => (y.1, y.2.1, true)) }) } := by
  refine congrArg (fun f => Host.Outcome.next { s with flex := tupd s.flex (flexKey sl.val g.val) f }) (funext fun x => ?_)
  cases x.switching <;> rfl

variable {t cal : Nat} {x : FlexGroup} (group : tget? s.flex (flexKey sl.val g.val) = some x)

include group

/-- An acknowledged switching takes effect (R170). -/
theorem execFlexeCalendarSwitch_acknowledged (acknowledged : x.switching = some (cal, t, true)) (decides : ownDecides s = true) :
    execFlexeCalendarSwitch sl g s =
      nextSettled (evtFlexe (flexKey sl.val g.val) 0 (flexSwitched (flexKey sl.val g.val) cal (sendDecision s))) := by
  simp [execFlexeCalendarSwitch, group, acknowledged, decides]

/-- One that is not acknowledged in time is given up (R170). -/
theorem execFlexeAckTimeout_givesUp (waiting : x.switching = some (cal, t, false)) (past : t ≤ s.now) :
    execFlexeAckTimeout sl g s = .next (evtFlexe (flexKey sl.val g.val) 9
      { s with flex := tupd s.flex (flexKey sl.val g.val) (fun g => { g with switching := none }) }) := by
  simp [execFlexeAckTimeout, group, waiting, past]

end FlexeCalendar

/-- A frame at the balls of a lane in SYNC and not in near-end loopback is received, and sent back in far-end loopback (R179, R484). -/
theorem execHagilFrameRx_sync {s : State} {l : Fin 256} (sync : fabSync s l.val = true) (balls : laneNear s (256 + l.val) = false)
    (f : HagilFrame) :
    execHagilFrameRx l f s = nextSettled (hagilRx l.val f
      (if laneLooped s (256 + l.val) then { s with fabTx := tmod s.fabTx {} l.val (fun x => { x with last := some f }) } else s)) := by
  simp [execHagilFrameRx, sync, balls]

/-- A lane in far-end loopback is in no near-end loopback: a lane has one loopback. -/
theorem laneNear_of_looped {s : State} {k : Nat} (looped : laneLooped s k = true) : laneNear s k = false := by
  have far : tget s.test.loop 0 k = 2 := by simpa [laneLooped] using looped
  simp [laneNear, far]

/-- Settles O36: each clause by what its event does to the channel, queue, group or lane it names. -/
theorem channelEventsComplete : Obligations.ChannelEventsComplete := by
  intro s
  refine ⟨?coreHeader, ?slot, ?frame, ?looped, ?leaf, ?queue, ?restored, ?ack, ?switch, ?givenUp, ?near⟩
  case coreHeader =>
    rintro ch hdr f _ x r rfl chan gfp carried good step sync
    exact execGfpCoreHeader_delivers chan gfp carried good step sync f
  case slot => exact fun sl arr up => nextIf_holds up
  case frame =>
    intro l f sync balls straight
    refine (execHagilFrameRx_sync sync balls f).trans ?_
    rw [straight]
    rfl
  case looped =>
    intro l f sync looped
    refine (execHagilFrameRx_sync sync (laneNear_of_looped looped) f).trans ?_
    rw [looped]
    rfl
  case leaf =>
    rintro ch _ x rfl chan waited
    exact congrArg nextSettled (leafSkip_due chan waited)
  case queue => exact fun n x queue waited => congrArg nextSettled (queueSkip_due queue waited)
  case restored =>
    rintro eg ch _ g t x d rfl chan member since group decides lcas waited
    exact execLcasWtrExpiry_restored chan member since group decides lcas waited
  case ack => exact fun sl g => execFlexeCrAck_marks
  case switch =>
    rintro sl g _ t cal x rfl group acknowledged decides
    exact execFlexeCalendarSwitch_acknowledged group acknowledged decides
  case givenUp =>
    rintro sl g _ t cal x rfl group waiting past
    exact execFlexeAckTimeout_givesUp group waiting past
  case near => exact fun l f near => settledIf_fails (by simp [near])

end Sys2Proof.Machine
end

section
/-! PROOFS of the statements on overhead and trail-trace commands (O6, O7): what each body answers once its status table lets a request pass,
and from that the whole command. -/

namespace Sys2Proof.Machine

theorem exec_ohRead (m : Mbx) (tag : Byte) (req : List Word) (s : State) :
    exec (.ohRead m tag req) s = viaMailbox 0x0302 m tag req s := rfl

theorem exec_ohWrite (m : Mbx) (tag : Byte) (req : List Word) (s : State) :
    exec (.ohWrite m tag req) s = viaMailbox 0x0303 m tag req s := rfl

theorem exec_ttiSet (m : Mbx) (tag : Byte) (req : List Word) (s : State) :
    exec (.ttiSet m tag req) s = viaMailbox 0x0304 m tag req s := rfl

theorem exec_ttiRead (m : Mbx) (tag : Byte) (req : List Word) (s : State) :
    exec (.ttiRead m tag req) s = viaMailbox 0x0305 m tag req s := rfl

/-- A request that no row of a status table meets runs the command. -/
theorem ladder_passes {l : List (Bool × Status)} (s : State) {k : Unit → CmdOut} (h : ∀ e ∈ l, e.1 = false) : ladder l s k = k () := by
  induction l with
  | nil => rfl
  | cons e l ih =>
    obtain ⟨row, rest⟩ := List.forall_mem_cons.1 h
    rw [ladder_cons, row]
    exact ih rest

/-- The contexts that the words of an overhead command name (R125). -/
def ohAddressed (req : List Word) (p : State) : List Nat := ohNamed p (fld (wd req 0) 3 0) (fld (wd req 0) 21 8) (fld (wd req 0) 25 22)

/-- The context that an OH_READ reads, by its direction (R125). -/
def ohReadKey (req : List Word) (p : State) : Nat := if bitOf (wd req 0) 4 then ohTx (ohAddressed req p) else ohRx (ohAddressed req p)

/-- The words of an OH_READ of a captured frame: its MFAS, where the layer has one, its time and the bytes asked for (R125). -/
def ohReadWords (req : List Word) (p : State) (f : Captured) : List Word :=
  (w32 (if fld (wd req 0) 3 0 = 3 ∨ fld (wd req 0) 3 0 = 4 then 0 else f.mfas.toNat) :: nsWords f.ns) ++
    packWords ((List.range (fld (wd req 1) 16 8)).map
      (fun i => ohByte p (fld (wd req 0) 3 0) (ohReadKey req p) (bitOf (wd req 0) 4) (fld (wd req 1) 7 0 + i))) ((fld (wd req 1) 16 8 + 3) / 4)

/-- The bytes of an OH_WRITE left for the next transmitted frame (R126). -/
def ohWaiting (req : List Word) (p : State) : State :=
  if fld (wd req 1) 16 8 = 0 then p
  else updOh (ohTx (ohAddressed req p)) (ohWriteBytes (fld (wd req 0) 3 0) (fld (wd req 1) 7 0)
    ((reqBytes req 2 ((fld (wd req 1) 16 8 + 3) / 4)).take (fld (wd req 1) 16 8))) p

/-- The maintenance signals that an OH_WRITE forces or releases in a context (R121); 0 leaves each as it is. -/
def ohForced (req : List Word) (o : Oh) : Oh :=
  { o with
    maintWaiting := if fld (wd req 1) 19 17 = 0 then o.maintWaiting else some (fld (wd req 1) 19 17)
    dsWaiting := if fld (wd req 1) 21 20 = 0 then o.dsWaiting else some (fld (wd req 1) 21 20 == 2) }

section OverheadBodies

variable {c : Ctx} {req : List Word} {p : State} (gate : c.gate = false) (named : (ohAddressed req p).isEmpty = false)

include gate named

/-- OH_READ past its status table, of a context with a captured frame: only a receiving one has to have been in frame (R127). -/
theorem cmdOhRead_captured {f : Captured} (good : ohBad req false = false)
    (seen : bitOf (wd req 0) 4 = false → (ohOf p (ohReadKey req p)).everInFrame = true)
    (captured : (if bitOf (wd req 0) 4 then (ohOf p (ohReadKey req p)).tx else (ohOf p (ohReadKey req p)).rx) = some f) :
    cmdOhRead c req p = (.done .ok (ohReadWords req p f), { p with free := p.free + 259 }) := by
  have inFrame : (!bitOf (wd req 0) 4 && !(ohOf p (ohReadKey req p)).everInFrame) = false := by
    cases h : bitOf (wd req 0) 4
    · simp [seen h]
    · rfl
  rw [ohAddressed] at named
  simp only [ohReadKey, ohAddressed] at inFrame captured
  unfold cmdOhRead
  refine (ladder_passes p ?_).trans ?_
  · simp [good, named, gate, inFrame]
  · simp only [captured, Bool.or_eq_true, decide_eq_true_eq]
    rfl

/-- OH_WRITE past its status table: no index it writes is bound to a communication channel or to a protocol (R126). -/
theorem cmdOhWrite_accepted (denied : c.denied = false) (good : ohBad req true = false)
    (free : (List.range (fld (wd req 1) 16 8)).any
      (fun i => ohTaken p (fld (wd req 0) 3 0) (fld (wd req 0) 21 8) (fld (wd req 1) 7 0 + i)) = false) :
    cmdOhWrite c req p =
      (.done .ok [], foldS (ohAddressed req p) (fun k => updOh (k / 16 * 16) (ohForced req)) (ohWaiting req p)) := by
  rw [ohAddressed] at named
  unfold cmdOhWrite
  refine (ladder_passes p ?_).trans rfl
  simp [good, denied, named, gate, free]

end OverheadBodies

/-- Settles O6: both commands pass their status tables, and the mailbox answers what the body leaves. -/
theorem overheadCommandsComplete : Obligations.OverheadCommandsComplete := by
  intro m tag req s p
  refine ⟨?read, ?write⟩
  case read =>
    rintro _ _ f rfl ready good rfl named rfl seen captured
    rw [exec_ohRead]
    exact mailbox_done tag ready (by decide) rfl (cmdOhRead_captured rfl named good seen captured)
  case write =>
    rintro _ rfl ready good rfl named free
    rw [exec_ohWrite]
    exact mailbox_done tag ready (by decide) rfl (cmdOhWrite_accepted rfl named rfl good free)

/-- The contexts that the words of a trail-trace command name (R116). -/
def ttiAddressed (req : List Word) (p : State) : List Nat :=
  ohNamed p (ttiKind (fld (wd req 0) 3 0)) (fld (wd req 0) 21 8) (fld (wd req 0) 25 22)

/-- The trace level that they name. -/
def ttiAddressedLevel (req : List Word) : Nat := ttiLevel (fld (wd req 0) 3 0) (fld (wd req 0) 6 4)

/-- The trace of a TTI_SET, as long as its KIND and FORMAT say (R116). -/
def ttiGiven (req : List Word) : List Byte :=
  (reqBytes req 2 16).take (traceLen (decide (fld (wd req 0) 3 0 ≤ 3)) (fld (wd req 1) 3 2))

/-- A context that sends a TTI_SET's trace from its next message on (R116). -/
def traceToSend (req : List Word) (o : Oh) : Oh :=
  { o with trace := tmod o.trace {} (ttiAddressedLevel req) (fun t => { t with txNext := some (ttiGiven req, fld (wd req 1) 3 2) }) }

/-- A context that expects a TTI_SET's trace, with its TIM_MODE (R116, R117). -/
def traceToExpect (req : List Word) (o : Oh) : Oh :=
  { o with trace := tmod o.trace {} (ttiAddressedLevel req) (fun t =>
      { t with exp := ttiGiven req, expFormat := fld (wd req 1) 3 2, timMode := fld (wd req 1) 1 0 }) }

/-- The context at k expects the trace, and TIM_MODE 0 ends its dTIM (R117). -/
def expectTrace (req : List Word) (k : Nat) (u : State) : State :=
  let u := updOh k (traceToExpect req) u
  if fld (wd req 1) 1 0 = 0 then setRaw (ttiPoint u k (ttiAddressedLevel req)) 13 false u else u

/-- The context that a TTI_READ reads, by its WHAT (R118, log 38). -/
def ttiReadKey (req : List Word) (p : State) : Nat :=
  if fld (wd req 1) 1 0 = 0 then ohTx (ttiAddressed req p) else ohRx (ttiAddressed req p)

/-- The words of a TTI_READ: ACCEPTED, dTIM and the format, and the trace that WHAT names (R118). -/
def ttiReadWords (req : List Word) (p : State) : List Word :=
  let what := fld (wd req 1) 1 0
  let t := tget (ohOf p (ttiReadKey req p)).trace {} (ttiAddressedLevel req)
  w32 (b2n t.acc.isSome + 2 * b2n ((rawOf p (ttiPoint p (ttiReadKey req p) (ttiAddressedLevel req))).getLsbD 13) +
      4 * (if what = 0 then t.txFormat else if what = 1 then t.expFormat else if t.acc.isSome then t.accFormat else 0)) ::
    packWords (if what = 0 then (if 3 < fld (wd req 0) 3 0 ∧ t.txFormat = 1 then crc7Byte t.tx :: t.tx.drop 1 else t.tx)
      else if what = 1 then t.exp else t.acc.getD []) 16

/-- Words that the table of a trace allows meet none of the conditions on which TTI_SET answers INVALID_PARAM for the trace itself (R116). -/
theorem traceWords_fields {req : List Word} (words : traceWords req = true) :
    ttiBad (wd req 0) = false ∧ fld (wd req 1) 31 4 = 0 ∧
      (∀ b ∈ (reqBytes req 2 16).drop (traceLen (decide (fld (wd req 0) 3 0 ≤ 3)) (fld (wd req 1) 3 2)), b = 0) ∧
      (if fld (wd req 0) 3 0 ≤ 3 then (fld (wd req 1) 3 2 = 0 ∧ (reqBytes req 2 16).getD 0 0 = 0) ∧ (reqBytes req 2 16).getD 16 0 = 0
        else if fld (wd req 0) 3 0 = 4 then fld (wd req 1) 3 2 ≤ 1 else fld (wd req 1) 3 2 ≠ 0 ∧ fld (wd req 1) 3 2 ≠ 3) := by
  simp only [traceWords, Bool.and_eq_true, Bool.not_eq_true', beq_iff_eq] at words
  obtain ⟨⟨⟨fields, reserved⟩, unused⟩, format⟩ := words
  refine ⟨fields, reserved, by simpa using unused, ?_⟩
  split_ifs at format ⊢
  · simpa using format
  · simpa using format
  · simp at format
    omega

section TraceBodies

variable {c : Ctx} {req : List Word} {p : State} (gate : c.gate = false) (named : (ttiAddressed req p).isEmpty = false)

include gate named

/-- TTI_SET of the transmitted trace past its status table, which refuses a TIM_MODE there. -/
theorem cmdTtiSet_transmitted (denied : c.denied = false) (words : traceWords req = true) (which : bitOf (wd req 0) 7 = false)
    (mode : fld (wd req 1) 1 0 = 0) : cmdTtiSet c req p = (.done .ok [], updOh (ohTx (ttiAddressed req p)) (traceToSend req) p) := by
  obtain ⟨fields, reserved, unused, format⟩ := traceWords_fields words
  rw [ttiAddressed] at named
  unfold cmdTtiSet
  refine (ladder_passes p ?_).trans ?_
  · simpa [fields, reserved, mode, denied, named, gate] using ⟨format, unused⟩
  · rw [which]
    rfl

/-- TTI_SET of the expected trace past its status table. -/
theorem cmdTtiSet_expected (denied : c.denied = false) (words : traceWords req = true) (which : bitOf (wd req 0) 7 = true) :
    cmdTtiSet c req p = (.done .ok [], foldS (ttiAddressed req p) (expectTrace req) p) := by
  obtain ⟨fields, reserved, unused, format⟩ := traceWords_fields words
  rw [ttiAddressed] at named
  unfold cmdTtiSet
  refine (ladder_passes p ?_).trans ?_
  · simpa [fields, reserved, which, denied, named, gate] using ⟨format, unused⟩
  · rw [which]
    rfl

/-- TTI_READ past its status table. -/
theorem cmdTtiRead_answers (fields : ttiBad (wd req 0) = false) (which : bitOf (wd req 0) 7 = false) (reserved : fld (wd req 1) 31 2 = 0)
    (what : fld (wd req 1) 1 0 ≤ 2) : cmdTtiRead c req p = (.done .ok (ttiReadWords req p), p) := by
  have allowed : fld (wd req 1) 1 0 ≠ 3 := by omega
  rw [ttiAddressed] at named
  unfold cmdTtiRead
  refine (ladder_passes p ?_).trans ?_
  · simp [fields, which, reserved, allowed, named, gate]
  · simp only [Bool.and_eq_true, decide_eq_true_eq]
    rfl

end TraceBodies

/-- Settles O7: each form passes its status table, and the mailbox answers what the body leaves. -/
theorem traceCommandsComplete : Obligations.TraceCommandsComplete := by
  rintro m tag req s p _ _ _ bs _ rfl rfl named rfl rfl
  refine ⟨?set, ?read⟩
  case set =>
    rintro rfl ready words rfl
    rw [exec_ttiSet]
    refine ⟨fun which mode => ?transmitted, fun which => ?expected⟩
    case transmitted => exact mailbox_done tag ready (by decide) rfl (cmdTtiSet_transmitted rfl named rfl words which mode)
    case expected => exact mailbox_done tag ready (by decide) rfl (cmdTtiSet_expected rfl named rfl words which)
  case read =>
    rintro _ _ _ rfl ready fields which reserved rfl what rfl rfl
    rw [exec_ttiRead]
    exact mailbox_done tag ready (by decide) rfl (cmdTtiRead_answers rfl named fields which reserved what)

end Sys2Proof.Machine
end

section
/-! PROOFS of the statements on monitoring commands (O8, O9): what each body answers once its status table lets a request pass, and from that
the whole command. -/

namespace Sys2Proof.Machine

theorem exec_defectRead (m : Mbx) (tag : Byte) (req : List Word) (s : State) :
    exec (.defectRead m tag req) s = viaMailbox 0x0401 m tag req s := rfl

theorem exec_defectConfig (m : Mbx) (tag : Byte) (req : List Word) (s : State) :
    exec (.defectConfig m tag req) s = viaMailbox 0x0402 m tag req s := rfl

theorem exec_pmRead (m : Mbx) (tag : Byte) (req : List Word) (s : State) :
    exec (.pmRead m tag req) s = viaMailbox 0x0403 m tag req s := rfl

theorem exec_pmConfig (m : Mbx) (tag : Byte) (req : List Word) (s : State) :
    exec (.pmConfig m tag req) s = viaMailbox 0x0404 m tag req s := rfl

theorem exec_pmHistory (m : Mbx) (tag : Byte) (req : List Word) (s : State) :
    exec (.pmHistory m tag req) s = viaMailbox 0x0405 m tag req s := rfl

/-- The words of a DEFECT_READ: the four bit words of the point at a, and its suppressor (R148). -/
def defectReadWords (a : Nat) (p : State) : List Word :=
  let n := tget p.mon {} a
  [w32 n.declared.toNat, w32 n.reported.toNat, w32 n.failure.toNat, w32 n.sticky.toNat] ++
    (match suppressorOf p a with | some x => [w32 x.1, w32 (x.2 + 2147483648)] | none => [0, 0])

/-- The record that a PM_READ reads of a point: that of the last second, or a current bin as it stands (R150). -/
def pmReadRecord (bin : Nat) (n : Mon) : Option (PmRec × Bool) :=
  if bin = 0 then n.last.map (·, true) else some (if bin = 1 then n.cur15.data else n.cur24.data, true)

/-- The closed bins of a point that a PM_HISTORY counts, the latest first: the open ones, which are provisional, before the final ones
(R145, R150). -/
def pmClosedBins (day : Bool) (n : Mon) : List (PmRec × Bool) :=
  (if day then n.open24 else n.open15).reverse.map (fun b => (b.data, true)) ++ (if day then n.hist24 else n.hist15).map (fun r => (r, false))

/-- What a PM_CONFIG makes of a point: the threshold that it names, and its current bins zeroed where it asks for that (R151). -/
def pmSettings (now : Nat) (v thr : Word) (n : Mon) : Mon :=
  let n := if fld v 3 0 = 0 then n else { n with thr := tset n.thr (fld v 3 0 + 16 * b2n (bitOf v 4)) thr.toNat }
  if bitOf v 5 then { n with cur15 := binReset now n.cur15, cur24 := binReset now n.cur24 } else n

section MonitorReads

variable {c : Ctx} {req : List Word} {p : State} (gate : c.gate = false) (point : thas p.mon (wd req 0).toNat = true)

include gate point

/-- DEFECT_READ past its status table. -/
theorem cmdDefectRead_answers (address : addrBad (wd req 0) = false) (reserved : fld (wd req 1) 31 1 = 0) :
    cmdDefectRead c req p = (.done .ok (defectReadWords (wd req 0).toNat p),
      if bitOf (wd req 1) 0 then updMon (wd req 0).toNat (fun n => { n with sticky := 0 }) p else p) := by
  unfold cmdDefectRead
  refine (ladder_passes p ?_).trans rfl
  simp [address, reserved, gate, point]

/-- PM_READ past its status table. -/
theorem cmdPmRead_answers (address : pmAddrBad (wd req 0) = false) (reserved : fld (wd req 1) 31 2 = 0) (bin : fld (wd req 1) 1 0 ≠ 3) :
    cmdPmRead c req p =
      (.done .ok (pmReply (pcsPoint p (wd req 0).toNat) (pmReadRecord (fld (wd req 1) 1 0) (tget p.mon {} (wd req 0).toNat))), p) := by
  unfold cmdPmRead
  refine (ladder_passes p ?_).trans rfl
  simp [address, reserved, bin, gate, point]

/-- PM_HISTORY past its status table: an AGE within the bins kept, whether or not so many have closed. -/
theorem cmdPmHistory_answers (address : pmAddrBad (wd req 0) = false) (reserved : fld (wd req 1) 31 7 = 0) (past : 1 ≤ fld (wd req 1) 6 1)
    (kept : fld (wd req 1) 6 1 ≤ if bitOf (wd req 1) 0 then 7 else 32) :
    cmdPmHistory c req p = (.done .ok (pmReply (pcsPoint p (wd req 0).toNat)
      (pmClosedBins (bitOf (wd req 1) 0) (tget p.mon {} (wd req 0).toNat))[fld (wd req 1) 6 1 - 1]?), p) := by
  unfold cmdPmHistory
  refine (ladder_passes p ?_).trans rfl
  simp [address, reserved, Nat.one_le_iff_ne_zero.1 past, Nat.not_lt.2 kept, gate, point]

end MonitorReads

/-- Settles O8: each command passes its status table, and the mailbox answers what the body reads. -/
theorem monitorReadsComplete : Obligations.MonitorReadsComplete := by
  intro m tag req s p
  refine ⟨?defects, ?record, ?history⟩
  case defects =>
    rintro _ rfl ready address reserved point rfl
    rw [exec_defectRead]
    exact mailbox_done tag ready (by decide) rfl (cmdDefectRead_answers rfl point address reserved)
  case record =>
    rintro _ _ rfl ready address reserved rfl bin point rfl
    rw [exec_pmRead]
    exact mailbox_done tag ready (by decide) rfl (cmdPmRead_answers rfl point address reserved bin)
  case history =>
    rintro _ _ rfl ready address reserved rfl past kept point rfl
    rw [exec_pmHistory]
    exact mailbox_done tag ready (by decide) rfl (cmdPmHistory_answers rfl point address reserved past kept)

section MonitorSettings

variable {c : Ctx} {req : List Word} {p : State} (denied : c.denied = false) (gate : c.gate = false)

include denied gate

/-- DEFECT_CONFIG past its status table: T_DECLARE is 0 or within 5 to 100 (R149). -/
theorem cmdDefectConfig_accepted (point : thas p.mon (wd req 0).toNat = true) (address : addrBad (wd req 0) = false)
    (low : fld (wd req 1) 7 2 = 0) (top : fld (wd req 1) 31 28 = 0)
    (declare : fld (wd req 1) 15 8 = 0 ∨ (5 ≤ fld (wd req 1) 15 8 ∧ fld (wd req 1) 15 8 ≤ 100)) (clear : fld (wd req 1) 23 16 ≤ 60)
    (one : fld (wd req 1) 27 24 ≠ 1) (degM : fld (wd req 1) 27 24 ≤ 10) (reserved : fld (wd req 2) 31 24 = 0) :
    cmdDefectConfig c req p =
      (.done .ok [], updMon (wd req 0).toNat (defectSettings p (wd req 0).toNat (wd req 1) (wd req 2)) p) := by
  have inRange : fld (wd req 1) 15 8 ≠ 0 → 5 ≤ fld (wd req 1) 15 8 ∧ fld (wd req 1) 15 8 ≤ 100 := declare.resolve_left
  unfold cmdDefectConfig
  refine (ladder_passes p ?_).trans rfl
  simpa [address, low, top, Nat.not_lt.2 clear, one, Nat.not_lt.2 degM, reserved, denied, gate, point] using inRange

/-- PM_CONFIG for all points, past its status table: a start of the day on a quarter of an hour (R151). -/
theorem cmdPmConfig_day (all : wd req 0 = 0) (reserved : fld (wd req 1) 31 17 = 0) (word : wd req 2 = 0)
    (quarter : fld (wd req 1) 16 0 % 900 = 0) (within : fld (wd req 1) 16 0 ≤ 85500) :
    cmdPmConfig c req p = (.done .ok [],
      { p with pm.dayPending := if fld (wd req 1) 16 0 = p.pm.dayOffset then none else some (fld (wd req 1) 16 0) }) := by
  have layer : (aLayer (wd req 0).toNat == 0) = true := by rw [all]; rfl
  unfold cmdPmConfig
  simp only [layer]
  refine (ladder_passes p ?_).trans rfl
  simp [all, reserved, word, quarter, within, denied, gate]

/-- PM_CONFIG for one point, past its status table. -/
theorem cmdPmConfig_point (one : aLayer (wd req 0).toNat ≠ 0) (address : pmAddrBad (wd req 0) = false)
    (reserved : fld (wd req 1) 31 6 = 0) (parameter : fld (wd req 1) 3 0 ≤ 8) (point : thas p.mon (wd req 0).toNat = true) :
    cmdPmConfig c req p = (.done .ok [], updMon (wd req 0).toNat (pmSettings p.now (wd req 1) (wd req 2)) p) := by
  have layer : (aLayer (wd req 0).toNat == 0) = false := beq_eq_false_iff_ne.2 one
  unfold cmdPmConfig
  simp only [layer]
  refine (ladder_passes p ?_).trans rfl
  simp [address, reserved, parameter, denied, gate, point]

end MonitorSettings

/-- Settles O9: each form passes its status table, and the mailbox answers what the body leaves. -/
theorem monitorSettingsComplete : Obligations.MonitorSettingsComplete := by
  intro m tag req s p
  refine ⟨?defect, ?day, ?point⟩
  case defect =>
    rintro rfl ready address low top declare clear one degM reserved point
    rw [exec_defectConfig]
    exact mailbox_done tag ready (by decide) rfl
      (cmdDefectConfig_accepted rfl rfl point address low top declare clear one degM reserved)
  case day =>
    rintro rfl ready all reserved word quarter within
    rw [exec_pmConfig]
    exact mailbox_done tag ready (by decide) rfl (cmdPmConfig_day rfl rfl all reserved word quarter within)
  case point =>
    rintro rfl ready one address reserved parameter point
    rw [exec_pmConfig]
    exact mailbox_done tag ready (by decide) rfl (cmdPmConfig_point rfl rfl one address reserved parameter point)

end Sys2Proof.Machine
end

section
/-! PROOFS of the statement on monitoring, pattern, scan, self-test and boundary-scan events (O37): a timer, a second or a scan that is due
acts, and from that each clause. -/

namespace Sys2Proof.Machine

/-- As settledIf_fails, where the next state is not settled. -/
theorem nextIf_fails {c : Bool} {t u : State} (h : c = false) : (.next (if c then t else u) : Host.Outcome State Fault Refusal) = .next u := by
  rw [h]
  rfl

section FailureTimers

variable {s : State} {a : Word} {b : Fin 20} {t : Nat} (past : t ≤ pointUs s a.toNat) (acts : timerActs s a.toNat = true)

include past acts

/-- A defect that has lasted T_DECLARE is declared a failure (R135). -/
theorem execFailureDeclareExpiry_ended (timer : tget? (tget s.mon {} a.toNat).declAt b.val = some t) :
    execFailureDeclareExpiry a b s = .next (failureAt a.toNat b.val true t s) := by
  rw [execFailureDeclareExpiry, timer]
  exact nextIf_holds (by simp [past, acts])

/-- A defect absent for T_CLEAR clears the failure (R135). -/
theorem execFailureClearExpiry_ended (timer : tget? (tget s.mon {} a.toNat).clearAt b.val = some t) :
    execFailureClearExpiry a b s = .next (failureAt a.toNat b.val false t s) := by
  rw [execFailureClearExpiry, timer]
  exact nextIf_holds (by simp [past, acts])

end FailureTimers

/-- The condition that holds an evaluation back is false where a closed second waits, the MP runs and this twin judges (R141, R370). -/
theorem execPmSecondEvaluation_judges {s : State} {a : Word} (waits : (tget s.mon {} a.toNat).closed ≠ []) (runs : mpRuns s = true)
    (own : judgedByPartner s = false) :
    execPmSecondEvaluation a s =
      .next (if mirrorsOut (evalSecond a.toNat s) then sendFrames 0x12 1 (evalSecond a.toNat s) else evalSecond a.toNat s) :=
  nextIf_fails (by rw [List.isEmpty_eq_false_iff.2 waits, runs, own]; rfl)

/-- The counts of a scan's n points: those that the command carries, saturated, and open ones where it carries none (R486, log 33). -/
def scanPoints (n : Nat) (pts : List Nat) (s : State) : List Nat :=
  (List.range n).map (fun i => min 65535 (pts.getD i (Config.freeNat (s.free + i))))

/-- A scan that runs ends with its points and EVT_TEST_DONE (R486). -/
theorem execEyeScanDone_running {s : State} {l : LaneId} {x : Scan} (pts : List Nat) (scan : tget? s.test.scans (laneKey l) = some x)
    (running : x.running = true) :
    execEyeScanDone l pts s =
      (let n := eyeH x.setup * eyeV x.setup
       .next (raise 0x0D01 clsCompletion 0 0 (0x0D05 + 65536 * (laneKind (laneKey l)).1 + 16777216 * (laneKind (laneKey l)).2) 0 0 0
        { s with
          test.scans := tset s.test.scans (laneKey l) { x with running := false, done := true, points := scanPoints n pts s }
          free := s.free + n })) := by
  simp [execEyeScanDone, scanPoints, scan, running]

/-- Settles O37: a clause with premises has its event's condition hold; the test events of R480, R487 and R489 act in every state. -/
theorem monitorEventsComplete : Obligations.MonitorEventsComplete := by
  intro s
  refine ⟨?declared, ?cleared, ?pulse, ?evaluation, ?lock, ?lockLoss, ?scan, ?bist, ?rise, ?fall, ?reset⟩
  case declared => exact fun a b t timer past acts => execFailureDeclareExpiry_ended past acts timer
  case cleared => exact fun a b t timer past acts => execFailureClearExpiry_ended past acts timer
  case pulse => exact fun due => settledIf_holds due
  case evaluation => exact fun a waits runs own => execPmSecondEvaluation_judges waits runs own
  case lock => exact fun t n e => rfl
  case lockLoss => exact fun t n e => rfl
  case scan =>
    rintro l _ _ pts x rfl scan running rfl
    exact execEyeScanDone_running pts scan running
  case bist => exact fun n first multi => rfl
  case rise => exact fun tms tdi => rfl
  case fall => exact fun tms tdi => rfl
  case reset => exact rfl

end Sys2Proof.Machine
end

section
/-! PROOFS of the statements on channel commands (O10, O11): what each body answers once its status table lets a request pass, and from that
the whole command. -/

namespace Sys2Proof.Machine

theorem exec_chanCreate (m : Mbx) (tag : Byte) (req : List Word) (s : State) :
    exec (.chanCreate m tag req) s = viaMailbox 0x0501 m tag req s := rfl

theorem exec_chanDelete (m : Mbx) (tag : Byte) (req : List Word) (s : State) :
    exec (.chanDelete m tag req) s = viaMailbox 0x0502 m tag req s := rfl

theorem exec_chanModify (m : Mbx) (tag : Byte) (req : List Word) (s : State) :
    exec (.chanModify m tag req) s = viaMailbox 0x0503 m tag req s := rfl

theorem thas_of_tget? {α : Type} {t : Table α} {k : Nat} {v : α} (h : tget? t k = some v) : thas t k = true := by
  rw [thas, h, Option.isSome_some]

/-- The key of the channel that word 0 of a channel command names, by its direction and number (R181). -/
def chanNamed (req : List Word) : Nat := chKey (bitOf (wd req 0) 14) (fld (wd req 0) 13 0)

/-- The channel that a CHAN_CREATE asks for, before its connection (R182). -/
def chanAsked (req : List Word) (p : State) : State := chanAdd (chanNamed req) req (bitOf (wd req 0) 15) p

/-- That channel with the connection that FABRIC_CH names, if it names one (R182). -/
def chanAskedConnected (req : List Word) (p : State) : State :=
  if fld (wd req 15) 23 0 = 0 then chanAsked req p else connectFabric (chanNamed req) (fld (wd req 15) 23 0) (chanAsked req p)

/-- What OP 1 to 4 of CHAN_MODIFY answer for a channel d at key k (R184). -/
def chanModifyOp (op k : Nat) (d : Chan) (p : State) : CmdOut :=
  match op with
  | 1 => okNone (chanEnable k true p)
  | 2 => okNone (chanEnable k false p)
  | 3 => okWith (chanWords d) p
  | _ => okWith (chanStatus p k d) p

section ChannelBodies

variable {c : Ctx} {req : List Word} {p : State} (denied : c.denied = false) (gate : c.gate = false)

include denied gate

/-- CHAN_CREATE past its status table. -/
theorem cmdChanCreate_accepted (fields : chanFieldsBad req = false) (combo : comboBad p (bitOf (wd req 0) 14) req = false)
    (server : srvExists p (bitOf (wd req 0) 14) req = true) (ret : retMissing p req = false)
    (group : vcgMissing p (bitOf (wd req 0) 14) req = false) (free : createBlocked p (chanAsked req p) (chanNamed req) req = false)
    (room : chanOver p (chanAskedConnected req p) (chanNamed req) = false) :
    cmdChanCreate c req p = (.done .ok [], chanAskedConnected req p) := by
  simp only [chanAskedConnected, chanAsked, chanNamed] at free room
  unfold cmdChanCreate
  refine (ladder_passes p ?_).trans rfl
  simp [fields, combo, denied, server, ret, group, gate, free, room]

variable {d : Chan} (chan : tget? p.chan (chanNamed req) = some d)

include chan

/-- CHAN_DELETE past its status table: a connection to the fabric alone goes with the channel (R183). -/
theorem cmdChanDelete_accepted (reserved : fld (wd req 0) 31 15 = 0) (client : isClient p (chanNamed req) = false)
    (serves : servedBy p (chanNamed req) = []) (members : vcatMembers p (chanNamed req) = []) (fabric : ∀ y ∈ cConns d, y.kind = 1)
    (unused : chanUsed p (chanNamed req) = false) : cmdChanDelete c req p = (.done .ok [], chanRemove (chanNamed req) p) := by
  have held : ((cConns d).any fun y => y.kind != 1) = false := by simpa using fabric
  have found := thas_of_tget? chan
  rw [chanNamed] at *
  unfold cmdChanDelete
  refine (ladder_passes p ?_).trans rfl
  simp [reserved, denied, found, gate, client, serves, members, chan, held, unused]

variable (low : fld (wd req 0) 23 15 = 0) (high : fld (wd req 0) 31 28 = 0)

include low high

/-- OP 0 of CHAN_MODIFY past its status table: a channel in use is modified only while it is enabled (R184). -/
theorem cmdChanModify_words (op : fld (wd req 0) 27 24 = 0) (same : modDiffers d (modWords d req) = false)
    (fields : chanFieldsBad (modWords d req) = false) (ret : retMissing p (modWords d req) = false)
    (client : isClient p (chanNamed req) = false) (used : chanUsed p (chanNamed req) = false ∨ cEn d = true)
    (partner : retBad p (keyEg (chanNamed req)) (modWords d req) = false) (pm : pmNeeded p (chanNamed req) (modWords d req) = false)
    (room : chanOver p (chanModify (chanNamed req) (modWords d req) p) (chanNamed req) = false) :
    cmdChanModify c req p = (.done .ok [], modifyMisuse (chanNamed req) (chanModify (chanNamed req) (modWords d req) p)) := by
  have inUse : (chanUsed p (chanNamed req) && !(cEn d)) = false := by
    rcases used with h | h <;> simp [h]
  rw [chanNamed] at *
  unfold cmdChanModify
  simp only [chan, op]
  refine (ladder_passes p ?_).trans rfl
  simp [low, high, same, fields, denied, ret, gate, client, inUse, partner, pm, room]

/-- OP 1 to 4 of CHAN_MODIFY past its status table, which asks only that the channel be there (R184). -/
theorem cmdChanModify_op {op : Nat} (asked : fld (wd req 0) 27 24 = op) (first : 1 ≤ op) (last : op ≤ 4) :
    cmdChanModify c req p = chanModifyOp op (chanNamed req) d p := by
  have other : op ≠ 0 := Nat.one_le_iff_ne_zero.1 first
  rw [chanNamed] at *
  unfold cmdChanModify
  simp only [chan, asked]
  refine (ladder_passes p ?_).trans ?_
  · simp [low, high, other, Nat.not_lt.2 last, denied, gate]
  · interval_cases op <;> rfl

end ChannelBodies

/-- Settles O10: both commands pass their status tables, and the mailbox answers what the body leaves. -/
theorem channelCreationCompletes : Obligations.ChannelCreationCompletes := by
  intro m tag req s p
  refine ⟨?create, ?delete⟩
  case create =>
    rintro _ _ _ rfl ready fields combo server ret group rfl rfl free rfl room
    rw [exec_chanCreate]
    exact mailbox_done tag ready (by decide) rfl (cmdChanCreate_accepted rfl rfl fields combo server ret group free room)
  case delete =>
    rintro _ d rfl ready reserved rfl chan client serves members fabric unused
    rw [exec_chanDelete]
    exact mailbox_done tag ready (by decide) rfl (cmdChanDelete_accepted rfl rfl chan reserved client serves members fabric unused)

/-- Settles O11: each OP passes the status table, and the mailbox answers what the body leaves. -/
theorem channelChangesComplete : Obligations.ChannelChangesComplete := by
  intro m tag req s p
  refine ⟨?words, ?enable, ?disable, ?read, ?status⟩
  case words =>
    rintro _ d _ rfl ready low high rfl chan op rfl same fields ret client used partner pm room
    rw [exec_chanModify]
    exact mailbox_done tag ready (by decide) rfl
      (cmdChanModify_words rfl rfl chan low high op same fields ret client used partner pm room)
  all_goals
    rintro _ d rfl ready low high rfl chan op
    rw [exec_chanModify]
    exact mailbox_done tag ready (by decide) rfl (cmdChanModify_op rfl rfl chan low high op (by decide) (by decide))

end Sys2Proof.Machine
end

section
/-! PROOFS of the statements on cross-connections and FlexE calendars (O12, O13): what each body answers once its status table lets a request
pass, and from that the whole command. -/

namespace Sys2Proof.Machine

theorem exec_xcConnect (m : Mbx) (tag : Byte) (req : List Word) (s : State) :
    exec (.xcConnect m tag req) s = viaMailbox 0x0504 m tag req s := rfl

theorem exec_xcDisconnect (m : Mbx) (tag : Byte) (req : List Word) (s : State) :
    exec (.xcDisconnect m tag req) s = viaMailbox 0x0505 m tag req s := rfl

theorem exec_flexeCalendar (m : Mbx) (tag : Byte) (req : List Word) (s : State) :
    exec (.flexeCalendar m tag req) s = viaMailbox 0x0506 m tag req s := rfl

/-- The state with the connection that an XC_CONNECT asks for (R185). -/
def connAsked (req : List Word) (p : State) : State := connMade (fld (wd req 0) 19 16) (chanNamed req) (fld (wd req 1) 23 0) p

section ConnectionBodies

variable {c : Ctx} {req : List Word} {p : State} (denied : c.denied = false) (gate : c.gate = false) (fields : xcBad req = false)

include denied gate fields

/-- XC_CONNECT past its status table: the leaf and the egress leaf of a hairpin or the queue are there, and the limits allow it (R185). -/
theorem cmdXcConnect_accepted (leaf : thas p.chan (chanNamed req) = true)
    (hairpin : fld (wd req 0) 19 16 = 2 → thas p.chan (chKey true (fld (wd req 1) 23 0)) = true)
    (queue : fld (wd req 0) 19 16 = 3 → (queueAt p (fld (wd req 1) 23 0)).isSome = true)
    (allowed : connBad p (chanNamed req) (fld (wd req 0) 19 16) (fld (wd req 1) 23 0) = false) (room : fits p (connAsked req p) = true)
    (hold : connShort (fld (wd req 0) 19 16) (fld (wd req 1) 23 0) (connAsked req p) = false) :
    cmdXcConnect c req p = (.done .ok [], connAsked req p) := by
  simp only [connAsked, chanNamed] at *
  unfold cmdXcConnect
  refine (ladder_passes p ?_).trans rfl
  simpa [fields, denied, leaf, gate, allowed, room, hold, ← Option.isSome_iff_ne_none] using ⟨hairpin, queue⟩

/-- XC_DISCONNECT past its status table, of a connection that the channel has (R185). -/
theorem cmdXcDisconnect_accepted {d : Chan} {y : Conn} (chan : tget? p.chan (chanNamed req) = some d)
    (named : (cConns d).find? (connNamed p (chanNamed req) (fld (wd req 0) 19 16) (fld (wd req 1) 23 0)) = some y)
    (unused : chanUsed p (chanNamed req) = false) :
    cmdXcDisconnect c req p = (.done .ok [], disconnect (chanNamed req) (fld (wd req 0) 19 16) y.target p) := by
  rw [chanNamed] at *
  unfold cmdXcDisconnect
  simp only [chan, Option.bind_some, named]
  refine (ladder_passes p ?_).trans rfl
  simp [fields, denied, gate, unused]

end ConnectionBodies

/-- Settles O12: both commands pass their status tables, and the mailbox answers what the body leaves. -/
theorem crossConnectsComplete : Obligations.CrossConnectsComplete := by
  intro m tag req s p
  refine ⟨?connect, ?disconnect⟩
  case connect =>
    rintro _ _ _ rfl ready fields rfl rfl rfl leaf hairpin queue allowed room hold
    rw [exec_xcConnect]
    exact mailbox_done tag ready (by decide) rfl (cmdXcConnect_accepted rfl rfl fields leaf hairpin queue allowed room hold)
  case disconnect =>
    rintro _ _ _ d y rfl ready fields rfl rfl rfl chan named unused
    rw [exec_xcDisconnect]
    exact mailbox_done tag ready (by decide) rfl (cmdXcDisconnect_accepted rfl rfl fields chan named unused)

/-- The key of the group engine that word 0 of a FLEXE_CALENDAR names (R170). -/
def flexNamed (req : List Word) : Nat := flexKey (fld (wd req 0) 8 4) (fld (wd req 0) 9 9)

/-- The calendar of a group that an OP 2 writes: one instance's slots (R170). -/
def calWritten (req : List Word) (g : FlexGroup) : FlexGroup :=
  { g with cal := tset g.cal (2 * fld (wd req 1) 4 0 + fld (wd req 1) 5 5) (calSlots req) }

/-- The words of an OP 5: the group's state, the instance and its slots (R170). -/
def calRead (req : List Word) (g : FlexGroup) : List Word :=
  [w32 (b2n g.mismatch + 2 * g.active), w32 (fld (wd req 1) 4 0 + 32 * fld (wd req 1) 5 5)] ++
    calWords (calOf g (fld (wd req 1) 4 0) (fld (wd req 1) 5 5))

/-- What OP 2 to 5 of FLEXE_CALENDAR answer for a group g (R170): a switching to the other calendar has 1 s for its acknowledgement. -/
def flexeCalendarOp (op : Nat) (req : List Word) (g : FlexGroup) (p : State) : CmdOut :=
  match op with
  | 2 => okNone { p with flex := tupd p.flex (flexNamed req) (calWritten req) }
  | 3 => (.done .deferred [],
      { p with flex := tupd p.flex (flexNamed req) (fun x => { x with switching := some (1 - g.active, p.now + 1000000000, false) }) })
  | 4 => okNone { p with flex := tdel p.flex (flexNamed req) }
  | _ => okWith (calRead req g) p

section CalendarBodies

variable {c : Ctx} {req : List Word} {p : State} {op : Nat} (denied : c.denied = false) (gate : c.gate = false)
  (reserved : fld (wd req 0) 31 10 = 0) (asked : fld (wd req 0) 3 0 = op) (fields : flexBad p (flexNamed req) op req = false)
  (free : flexBlocked p (fld (wd req 0) 8 4) (flexNamed req) op (fld (wd req 1) 5 5) (flexPhys req) = false)

include denied gate reserved asked fields free

/-- OP 1 of FLEXE_CALENDAR past its status table: every port that it names as a PHY is there (R170). -/
theorem cmdFlexeCalendar_create (create : op = 1) (ports : ∀ x ∈ flexPhys req, thas p.port x.port = true) :
    cmdFlexeCalendar c req p =
      (.done .ok [], { p with flex := tset p.flex (flexNamed req) { num := fld (wd req 1) 19 0, phys := flexPhys req } }) := by
  subst create
  rw [flexNamed] at *
  unfold cmdFlexeCalendar
  simp only [asked]
  refine (ladder_passes p ?_).trans rfl
  simpa [reserved, fields, denied, gate, free] using ports

/-- OP 2 to 5 of FLEXE_CALENDAR past its status table, of a group that is there: only a switching needs room on the fabric (R170). -/
theorem cmdFlexeCalendar_op {g : FlexGroup} (first : 2 ≤ op) (last : op ≤ 5) (group : tget? p.flex (flexNamed req) = some g)
    (room : op = 3 → fits p (flexBoth (flexNamed req) (1 - g.active) p) = true) :
    cmdFlexeCalendar c req p = flexeCalendarOp op req g p := by
  have given : op ≠ 0 := by omega
  have other : op ≠ 1 := by omega
  rw [flexNamed] at *
  unfold cmdFlexeCalendar
  simp only [asked, group]
  refine (ladder_passes p ?_).trans ?_
  · simpa [reserved, given, other, Nat.not_lt.2 last, fields, denied, gate, free] using room
  · interval_cases op <;> rfl

end CalendarBodies

/-- Settles O13: each OP passes the status table, and the mailbox answers what the body leaves. -/
theorem flexeCalendarCompletes : Obligations.FlexeCalendarCompletes := by
  intro m tag req s p
  refine ⟨?create, ?write, ?switch, ?delete, ?read⟩
  case create =>
    rintro _ rfl ready reserved op fields rfl free ports
    rw [exec_flexeCalendar]
    exact mailbox_done tag ready (by decide) rfl (cmdFlexeCalendar_create rfl rfl reserved op fields free rfl ports)
  case switch =>
    rintro _ g rfl ready reserved op fields rfl free group room
    rw [exec_flexeCalendar]
    exact mailbox_deferred tag ready (by decide) rfl
      (cmdFlexeCalendar_op rfl rfl reserved op fields free (by decide) (by decide) group fun _ => room)
  all_goals
    rintro _ g rfl ready reserved op fields rfl free group
    rw [exec_flexeCalendar]
    exact mailbox_done tag ready (by decide) rfl
      (cmdFlexeCalendar_op rfl rfl reserved op fields free (by decide) (by decide) group nofun)

end Sys2Proof.Machine
end

section
/-! PROOFS of the statements on Braid group commands (O14, O15): what each body answers once its status table lets a request pass, and from
that the whole command. -/

namespace Sys2Proof.Machine

theorem exec_braidCreate (m : Mbx) (tag : Byte) (req : List Word) (s : State) :
    exec (.braidCreate m tag req) s = viaMailbox 0x0601 m tag req s := rfl

theorem exec_braidMemberAdd (m : Mbx) (tag : Byte) (req : List Word) (s : State) :
    exec (.braidMemberAdd m tag req) s = viaMailbox 0x0602 m tag req s := rfl

theorem exec_braidMemberRemove (m : Mbx) (tag : Byte) (req : List Word) (s : State) :
    exec (.braidMemberRemove m tag req) s = viaMailbox 0x0603 m tag req s := rfl

theorem exec_braidStatus (m : Mbx) (tag : Byte) (req : List Word) (s : State) :
    exec (.braidStatus m tag req) s = viaMailbox 0x0604 m tag req s := rfl

/-- The group that word 0 of a Braid command names (R215 to R217). -/
def braidNamed (req : List Word) : Nat := fld (wd req 0) 7 0

/-- The new group that a BRAID_CREATE asks for, before its clients (R215). -/
def groupAsked (req : List Word) (p : State) : State :=
  monCreate [monAddr 7 0 (braidNamed req) 0 0] { p with braid := tset p.braid (braidNamed req) (braidNew req) }

/-- The state u with the clients that a BRAID_CREATE adds (R215). -/
def clientsAsked (req : List Word) (u : State) : State := (addClients (braidNamed req) (clientEntries req) u).2

/-- What R218 asks of clients added to the group in u, from p on: none clashes, and the pool, the slices and the schedule in force hold them. -/
structure ClientsJoin (req : List Word) (p u : State) : Prop where
  free : (addClients (braidNamed req) (clientEntries req) u).1 = false
  room : fits p (clientsAsked req u) = true
  slices : clientsOver (clientsAsked req u) (clientEntries req) = false
  capacity : capOver (clientsAsked req u) (braidNamed req) = false

/-- Whether a client that a BRAID_CREATE takes away is not there (R218). -/
def clientsMissing (req : List Word) (p : State) : Bool :=
  (clientEntries req).any (fun e => match sideOf p (braidNamed req) e.tx with
    | some d => !(d.clients.any (fun x => x.cidx == e.cidx))
    | none => true)

/-- The words of a BRAID_STATUS for a side d (R217). -/
def braidStatusWords (req : List Word) (p : State) (d : Side) : List Word :=
  let tx := bitOf (wd req 0) 8
  [w32 (sideState tx d + 4 * b2n d.schedAct + 8 * b2n d.schedPend), w32 (declaredOf p (monAddr 7 0 (braidNamed req) 0 0)).toNat,
      w32 (capacityMbit p tx d)] ++
    nsWords (suspendedWord d) ++ [d.lost, d.hec, d.bgoErr] ++ (List.range 64).flatMap (memberWords tx d)

/-- The state after a BRAID_STATUS: with CLEAR each member's DELAY_MAX starts over from its delay (R217). -/
def braidStatusLeaves (req : List Word) (p : State) : State :=
  if bitOf (wd req 0) 9 then
    updSide (braidNamed req) (bitOf (wd req 0) 8) (fun d => { d with members := d.members.map (fun m => { m with delayMax := m.delay }) }) p
  else p

section GroupBodies

variable {c : Ctx} {req : List Word} {p : State} (gate : c.gate = false)

include gate

/-- BRAID_STATUS past its status table, of a side that the group has. -/
theorem cmdBraidStatus_answers {d : Side} (reserved : fld (wd req 0) 31 10 = 0) (group : thas p.braid (braidNamed req) = true)
    (side : sideOf p (braidNamed req) (bitOf (wd req 0) 8) = some d) :
    cmdBraidStatus c req p = (.done .ok (braidStatusWords req p d), braidStatusLeaves req p) := by
  rw [braidNamed] at group side
  unfold cmdBraidStatus
  simp only [side]
  refine (ladder_passes p ?_).trans rfl
  simp [reserved, group, gate]

variable (denied : c.denied = false) (fields : braidBad req = false)

include denied fields

/-- OP 1 of BRAID_CREATE past its status table, of a group that is not there. -/
theorem cmdBraidCreate_makes (op : fld (wd req 0) 11 8 = 1) (new : thas p.braid (braidNamed req) = false)
    (join : ClientsJoin req p (groupAsked req p)) : cmdBraidCreate c req p = (.done .ok [], clientsAsked req (groupAsked req p)) := by
  obtain ⟨free, room, slices, capacity⟩ := join
  simp only [clientsAsked, groupAsked, braidNamed] at *
  unfold cmdBraidCreate
  simp only [op]
  refine (ladder_passes p ?_).trans rfl
  simp [fields, denied, gate, new, free, room, slices, capacity]

variable (group : thas p.braid (braidNamed req) = true)

include group

/-- OP 2 of BRAID_CREATE past its status table, of a group without members. -/
theorem cmdBraidCreate_deletes (op : fld (wd req 0) 11 8 = 2) (memberless : hasMembers p (braidNamed req) = false) :
    cmdBraidCreate c req p = (.done .ok [], braidDelete (braidNamed req) p) := by
  rw [braidNamed] at *
  unfold cmdBraidCreate
  simp only [op]
  refine (ladder_passes p ?_).trans rfl
  simp [fields, denied, gate, group, memberless]

/-- OP 3 of BRAID_CREATE past its status table. -/
theorem cmdBraidCreate_addsClients (op : fld (wd req 0) 11 8 = 3) (join : ClientsJoin req p p) :
    cmdBraidCreate c req p = (.done .ok [], clientsAsked req p) := by
  obtain ⟨free, room, slices, capacity⟩ := join
  simp only [clientsAsked, braidNamed] at *
  unfold cmdBraidCreate
  simp only [op]
  refine (ladder_passes p ?_).trans rfl
  simp [fields, denied, gate, group, free, room, slices, capacity]

/-- OP 4 of BRAID_CREATE past its status table, of clients that are all there. -/
theorem cmdBraidCreate_dropsClients (op : fld (wd req 0) 11 8 = 4) (present : clientsMissing req p = false) :
    cmdBraidCreate c req p =
      (.done .ok [], foldS (clientEntries req) (fun e => dropClient (braidNamed req) e.tx e.cidx) p) := by
  rw [braidNamed] at *
  unfold cmdBraidCreate
  simp only [op]
  refine (ladder_passes p ?_).trans rfl
  refine List.forall_mem_cons.2 ⟨fields, List.forall_mem_cons.2 ⟨denied, List.forall_mem_cons.2 ⟨?found, ?rest⟩⟩⟩
  case found =>
    show (!(thas p.braid (fld (wd req 0) 7 0)) || clientsMissing req p) = false
    simp [group, present]
  case rest => simp [gate]

end GroupBodies

/-- Settles O14: each OP and the reading pass their status tables, and the mailbox answers what the body leaves. -/
theorem braidGroupCommandsComplete : Obligations.BraidGroupCommandsComplete := by
  intro m tag req s p
  refine ⟨?makes, ?deletes, ?adds, ?drops, ?status⟩
  case makes =>
    rintro _ _ rfl ready fields rfl op new rfl free room slices capacity
    rw [exec_braidCreate]
    exact mailbox_done tag ready (by decide) rfl (cmdBraidCreate_makes rfl rfl fields op new ⟨free, room, slices, capacity⟩)
  case deletes =>
    rintro _ rfl ready fields rfl op group memberless
    rw [exec_braidCreate]
    exact mailbox_done tag ready (by decide) rfl (cmdBraidCreate_deletes rfl rfl fields group op memberless)
  case adds =>
    rintro _ _ rfl ready fields rfl op group rfl free room slices capacity
    rw [exec_braidCreate]
    exact mailbox_done tag ready (by decide) rfl (cmdBraidCreate_addsClients rfl rfl fields group op ⟨free, room, slices, capacity⟩)
  case drops =>
    rintro _ rfl ready fields rfl op group present
    rw [exec_braidCreate]
    exact mailbox_done tag ready (by decide) rfl (cmdBraidCreate_dropsClients rfl rfl fields group op present)
  case status =>
    rintro _ _ d rfl ready reserved rfl rfl group side
    rw [exec_braidStatus]
    exact mailbox_done tag ready (by decide) rfl (cmdBraidStatus_answers rfl reserved group side)

/-- The member that word 0 of a Braid member command names (R216). -/
def memberNamed (req : List Word) : Nat := fld (wd req 0) 15 10

/-- The state with the member that a BRAID_MEMBER_ADD asks for (R206). -/
def memberAsked (req : List Word) (p : State) : State :=
  addMember (braidNamed req) (bitOf (wd req 0) 8) (bitOf (wd req 0) 9) (memberNamed req) (fld (wd req 1) 13 0) p

/-- A transmit member whose removal has been asked for; on a side that is alone it has 2 s (R207, R209). -/
def removalAsked (solo : Bool) (now : Nat) (m : Member) : Member :=
  { m with removing := true, removes := m.removes + 1, soloAt := if solo && !m.removing then some (now + 2000000000) else m.soloAt }

section MemberBodies

variable {c : Ctx} {req : List Word} {p : State} {d : Side} (denied : c.denied = false) (gate : c.gate = false)
  (group : thas p.braid (braidNamed req) = true)

include denied gate group

/-- BRAID_MEMBER_ADD past its status table: the channel is there and may join, and the place in the side is free (R218). -/
theorem cmdBraidMemberAdd_accepted (side : sideOf p (braidNamed req) (bitOf (wd req 0) 8) = some d) (fields : memberBad req false = false)
    (kind : memberTypeBad p (braidNamed req) (bitOf (wd req 0) 8) (chKey (bitOf (wd req 0) 8) (fld (wd req 1) 13 0)) = false)
    (chan : thas p.chan (chKey (bitOf (wd req 0) 8) (fld (wd req 1) 13 0)) = true)
    (joins : memberChanBad p (chKey (bitOf (wd req 0) 8) (fld (wd req 1) 13 0)) = false) (place : memberOf d (memberNamed req) = none)
    (room : fits p (memberAsked req p) = true) : cmdBraidMemberAdd c req p = (.done .deferred [], memberAsked req p) := by
  simp only [memberAsked, braidNamed, memberNamed] at *
  unfold cmdBraidMemberAdd
  simp only [side, place]
  refine (ladder_passes p ?_).trans rfl
  simp [fields, kind, denied, group, chan, gate, joins, room]

variable {x : Member} (fields : memberBad req true = false)

include fields

/-- BRAID_MEMBER_REMOVE that acts at once: of a receive member without weight, or by FORCE (R207). -/
theorem cmdBraidMemberRemove_atOnce (side : sideOf p (braidNamed req) (bitOf (wd req 0) 8) = some d)
    (member : memberOf d (memberNamed req) = some x) (atOnce : bitOf (wd req 0) 8 = false ∨ bitOf (wd req 0) 16 = true)
    (unheld : x.weight = 0 ∨ bitOf (wd req 0) 16 = true) :
    cmdBraidMemberRemove c req p = (.done .ok [], forceRemove (braidNamed req) (bitOf (wd req 0) 8) (memberNamed req) p) := by
  have held : (!(bitOf (wd req 0) 8) && x.weight != 0 && !(bitOf (wd req 0) 16)) = false := by
    rcases unheld with h | h <;> simp [h]
  have acts : (!(bitOf (wd req 0) 8) || bitOf (wd req 0) 16) = true := by simpa using atOnce
  simp only [braidNamed, memberNamed] at *
  unfold cmdBraidMemberRemove
  simp only [side, member, Option.bind_some, held, acts]
  refine (ladder_passes p ?_).trans rfl
  simp [fields, denied, group, gate]

/-- BRAID_MEMBER_REMOVE of a transmit member without FORCE: on a side that is alone the withdrawal waits (R207, R209). -/
theorem cmdBraidMemberRemove_deferred {b : Braid} (side : sideOf p (braidNamed req) true = some d)
    (member : memberOf d (memberNamed req) = some x) (transmit : bitOf (wd req 0) 8 = true) (force : bitOf (wd req 0) 16 = false)
    (record : tget? p.braid (braidNamed req) = some b) :
    cmdBraidMemberRemove c req p =
      (let t := updMember (braidNamed req) true (memberNamed req) (removalAsked b.rx.isNone p.now) p
       (.done .deferred [], if b.rx.isNone then t else txRemove (braidNamed req) (memberNamed req) t)) := by
  simp only [braidNamed, memberNamed] at *
  unfold cmdBraidMemberRemove
  simp only [transmit, force, side, member, record, Option.bind_some]
  refine (ladder_passes p ?_).trans rfl
  simp [fields, denied, group, gate]

end MemberBodies

/-- Settles O15: both commands pass their status tables, and the mailbox answers what the body leaves. -/
theorem braidMemberCommandsComplete : Obligations.BraidMemberCommandsComplete := by
  intro m tag req s p
  refine ⟨?add, ?atOnce, ?withdraw⟩
  case add =>
    rintro _ _ _ d _ _ rfl ready fields rfl rfl rfl group side rfl kind chan joins place rfl room
    rw [exec_braidMemberAdd]
    exact mailbox_deferred tag ready (by decide) rfl (cmdBraidMemberAdd_accepted rfl rfl group side fields kind chan joins place room)
  case atOnce =>
    rintro _ _ _ d x rfl ready fields rfl rfl rfl group side member _ atOnce unheld
    rw [exec_braidMemberRemove]
    exact mailbox_done tag ready (by decide) rfl (cmdBraidMemberRemove_atOnce rfl rfl group fields side member atOnce unheld)
  case withdraw =>
    rintro _ _ tx d x b _ rfl ready fields rfl which rfl group side member _ rfl force record rfl
    rw [exec_braidMemberRemove]
    exact mailbox_deferred tag ready (by decide) rfl
      (cmdBraidMemberRemove_deferred rfl rfl group fields side member which.symm force record)

end Sys2Proof.Machine
end

section
/-! PROOFS of the statement on Braid events (O38): the timer of a member or client that is due acts on the state, and from that each clause. -/

namespace Sys2Proof.Machine

section BraidTimers

variable {s : State} {g : Fin 256} {i : Fin 64} {m : Member} {t : Nat}

/-- An addition whose time is over and that no announced change takes in ends (R206). -/
theorem execBraidAddTimeout_ends {tx : Bool} (member : (sideOf s g.val tx).bind (fun d => memberOf d i.val) = some m)
    (adding : m.adding = true) (timer : m.until_ = some t) (past : t ≤ s.now) (unannounced : m.pendWork ≠ some true) :
    execBraidAddTimeout g tx i s = .next (settle (evtMemberGone g.val tx m (dropMember g.val tx i.val s))) := by
  rw [execBraidAddTimeout, member]
  exact settledIf_holds (by simp [adding, due_of_le timer past, unannounced])

section TransmitMember

variable (member : (sideOf s g.val true).bind (fun d => memberOf d i.val) = some m)

include member

/-- The wait to restore over: a member that was replaced meanwhile becomes the spare, any other asks to be taken back in (R208). -/
theorem execBraidMemberWtrExpiry_over (timer : m.wtrUntil = some t) (past : t ≤ s.now) (far : m.far = true) (adding : m.st = .adding)
    (slice : txSliceUp s m = true) :
    execBraidMemberWtrExpiry g i s = nextSettled (
      let u := updMember g.val true i.val (fun m => { m with wtrUntil := none }) s
      if m.replaced then evtMemberNow g.val true i.val 0 false (updMember g.val true i.val (fun m => { m with st := .spare, replaced := false }) u)
      else txRequest g.val i.val true u) := by
  rw [execBraidMemberWtrExpiry, member]
  exact settledIf_holds (by simp [due_of_le timer past, far, adding, slice])

/-- The delay of a side that is alone over: a removal goes on, and otherwise an addition takes the far end's report as given (R209). -/
theorem execBraidSoloSideDelay_over (timer : m.soloAt = some t) (past : t ≤ s.now) :
    execBraidSoloSideDelay g true i s = nextSettled (
      let u := updMember g.val true i.val (fun m => { m with soloAt := none }) s
      if m.removing then txRemove g.val i.val u else if m.adding then farChange g.val i.val true u else u) := by
  rw [execBraidSoloSideDelay, member]
  exact settledIf_holds (by simp [due_of_le timer past])

/-- The fillers of a withdrawn member over (R207). -/
theorem execBraidMemberWithdrawn_over (timer : m.withdrawAt = some t) (past : t ≤ s.now) :
    execBraidMemberWithdrawn g i s = .next (settle (dropMember g.val true i.val s)) := by
  rw [execBraidMemberWithdrawn, member]
  exact settledIf_holds (due_of_le timer past)

end TransmitMember

/-- A client without data for 1 ms (R200). -/
theorem execBraidClientDataTimeout_silent {x : Client}
    (client : (sideOf s g.val false).bind (fun d => d.clients.find? (fun c => c.cidx == i.val)) = some x) (clear : x.ssf = false)
    (data : x.lastData = some t) (past : t + 1000000 ≤ s.now) :
    execBraidClientDataTimeout g i s = .next (settle (updClient g.val false i.val (fun c => { c with ssf := true }) s)) := by
  rw [execBraidClientDataTimeout, client]
  exact settledIf_holds (by simp [clear, data, past])

/-- A member without a BGO for three sub-multiframe periods (R202). -/
theorem execBgoAbsence_silent (member : (sideOf s g.val false).bind (fun d => memberOf d i.val) = some m) (last : m.bgoAt = some t)
    (past : t + 3 * subPeriod s false m ≤ s.now) :
    execBgoAbsence g i s = .next (settle (updMember g.val false i.val (fun m => { m with bgoAt := none }) s)) := by
  simp only [execBgoAbsence, member, last, if_pos past]
  rfl

end BraidTimers

/-- Settles O38: under each clause's premises the event's condition holds; a round is formed and read in every state. -/
theorem braidEventsComplete : Obligations.BraidEventsComplete := by
  intro s g i tx m
  refine ⟨?bgo, ?stitch, ?read, ?formed, ?switch, ?addition, ?restore, ?spare, ?soloRemoval, ?soloAddition, ?withdrawn, ?client, ?absence⟩
  case bgo => exact fun bgo ts up => settledIf_holds up
  case stitch => exact fun bs up => settledIf_holds up
  case read => exact fun r => rfl
  case formed => exact fun r => rfl
  case switch => exact fun reached => settledIf_holds reached
  case addition =>
    exact fun t member adding timer past unannounced => execBraidAddTimeout_ends member adding timer past unannounced
  case restore =>
    intro t member timer past far adding kept slice
    exact (execBraidMemberWtrExpiry_over member timer past far adding slice).trans (congrArg nextSettled (if_neg (Bool.eq_false_iff.1 kept)))
  case spare =>
    intro t member timer past far adding replaced slice
    exact (execBraidMemberWtrExpiry_over member timer past far adding slice).trans (congrArg nextSettled (if_pos replaced))
  case soloRemoval =>
    intro t member timer past removing
    exact (execBraidSoloSideDelay_over member timer past).trans (congrArg nextSettled (if_pos removing))
  case soloAddition =>
    intro t member timer past stays adding
    exact (execBraidSoloSideDelay_over member timer past).trans
      (congrArg nextSettled ((if_neg (Bool.eq_false_iff.1 stays)).trans (if_pos adding)))
  case withdrawn => exact fun t member timer past => execBraidMemberWithdrawn_over member timer past
  case client => exact fun x t client clear data past => execBraidClientDataTimeout_silent client clear data past
  case absence => exact fun t member last past => execBgoAbsence_silent member last past

end Sys2Proof.Machine
end

section
/-! PROOFS of the statements on the HBM (O50, O53, O59): its canonical form at reset and over every step, and what the writing of a cell
stores and leaves. -/

namespace Sys2Proof.Machine

/-- Settles O50: no byte is listed at reset. -/
theorem resetMemoryCanonical : Obligations.ResetMemoryCanonical := ⟨rfl, rfl⟩

/-- The removal and the return of the supply (R399) are the commands that Kept leaves out: the HBM is empty after the one, and the other
leaves it. -/
theorem exec_keepsMemOk {c : Instr} {s t : State} (h : exec c s = .next t) (canonical : s.memOk) : t.memOk := by
  by_cases removal : c = .supplyRemoval
  · subst removal
    cases h
    rfl
  by_cases powerUp : c = .supplyPowerUp
  · subst powerUp
    cases h
    split <;> exact canonical
  · exact (exec_kept c s t h removal powerUp).mem canonical

/-- Settles O53: an idle step leaves the HBM, and any other executes a command. -/
theorem stepKeepsMemoryCanonical : Obligations.StepKeepsMemoryCanonical := by
  intro s t canonical h
  unfold step at h
  split at h
  case h_1 =>
    injection h with idle
    exact idle ▸ (tick_kept s).mem canonical
  case h_2 => exact exec_keepsMemOk h canonical

/-- Bytes read where two memories agree. -/
theorem memRead_congr {m m' : List Host.Cell} {a n : Nat} (agree : ∀ c, a ≤ c → c < a + n → memByte m c = memByte m' c) :
    memRead m a n = memRead m' a n := by
  induction n generalizing a with
  | zero => rfl
  | succ k ih =>
    rw [memRead, memRead, agree a (Nat.le_refl a) (by omega), ih fun c low high => agree c (by omega) (by omega)]

@[simp] theorem natLe_length (n v : Nat) : (natLe n v).length = n := by
  rw [natLe, List.length_map, List.length_range]

@[simp] theorem descBytes_length (c hi : Nat) : (descBytes c hi).length = 8 := natLe_length 8 _

/-- The 256 bytes that a cell stores: those given, and zeros (R232). -/
theorem cellFill_length {bs : List Byte} (h : bs.length ≤ 256) : (bs ++ List.replicate (256 - bs.length) 0 : List Byte).length = 256 := by
  rw [List.length_append, List.length_replicate, Nat.add_sub_cancel' h]

/-- The descriptors lie above the last cell of the pool (R225). -/
theorem cell_below_descAddr {c : Nat} (h : c < 503316480) (d : Nat) : 256 * c + 256 ≤ descAddr d := by
  unfold descAddr
  omega

/-- Settles O59: the descriptor is written after the cell and apart from it, so that both read back. -/
theorem cellWriteStores : Obligations.CellWriteStores := by
  rintro q c bs sop eop s _ pool short canonical rfl
  have cell := memWrite_wf (256 * c) (bs ++ List.replicate (256 - bs.length) 0) canonical
  have apart := cell_below_descAddr pool c
  have fill := cellFill_length short
  refine ⟨memWrite_wf _ _ cell, ?bytes, memRead_memWrite _ _ cell, fun a outCell outDesc => ?rest⟩
  case bytes =>
    have written := memRead_memWrite (256 * c) (bs ++ List.replicate (256 - bs.length) 0) canonical
    rw [fill] at written
    exact (memRead_congr fun a _ high => memByte_memWrite_outside _ a _ cell (.inl (by omega))).trans written
  case rest =>
    exact (memByte_memWrite_outside _ a _ cell (by rwa [descBytes_length])).trans
      (memByte_memWrite_outside _ a _ canonical (by rwa [fill]))

end Sys2Proof.Machine
end

section
/-! PROOFS of the frame of the patrol scrub and of the Braid rounds (O60): beside what an Untouched operation leaves, each marks the descriptors
of the cells that prove uncorrectable, and no other byte of the HBM. -/

namespace Sys2Proof.Machine

/-- From s to t no byte of the HBM changes but in the descriptors of the cells cs, and beside the HBM nothing but what Untouched leaves
free. -/
structure MarksCells (cs : List Nat) (s t : State) : Prop where
  canonical : s.memOk → t.memOk
  outside : s.memOk → ∀ a, (∀ c ∈ cs, a < descAddr c ∨ descAddr c + 8 ≤ a) → memByte t.pool.mem a = memByte s.pool.mem a
  still : Untouched s { t with pool.mem := s.pool.mem }

/-- An operation that leaves the HBM marks no cell. -/
theorem MarksCells.of_still {cs : List Nat} {s t : State} (h : Untouched s t) : MarksCells cs s t where
  canonical := fun w => by
    unfold State.memOk
    rw [h.hbm]
    exact w
  outside := fun _ a _ => by rw [h.hbm]
  still := { h with hbm := rfl }

theorem MarksCells.trans {cs : List Nat} {s t u : State} (h : MarksCells cs s t) (k : MarksCells cs t u) : MarksCells cs s u where
  canonical := fun w => k.canonical (h.canonical w)
  outside := fun w a apart => (k.outside (h.canonical w) a apart).trans (h.outside w a apart)
  still := h.still.trans { k.still with hbm := rfl }

/-- As trans, for an operation that leaves the HBM. -/
theorem MarksCells.andStill {cs : List Nat} {s t u : State} (h : MarksCells cs s t) (k : Untouched t u) : MarksCells cs s u :=
  h.trans (.of_still k)

theorem MarksCells.settle {cs : List Nat} {s t : State} (h : MarksCells cs s t) : MarksCells cs s (settle t) :=
  h.andStill (settle_still (.refl t))

theorem foldS_marks {α : Type} {cs : List Nat} {f : α → State → State} {l : List α} (s : State)
    (k : ∀ a ∈ l, ∀ t, MarksCells cs t (f a t)) : MarksCells cs s (foldS l f s) := by
  induction l generalizing s with
  | nil => exact .of_still (.refl s)
  | cons a l ih =>
    obtain ⟨first, rest⟩ := List.forall_mem_cons.1 k
    exact (first s).trans (ih (f a s) rest)

/-- A descriptor rewritten is that of its own cell. -/
theorem modDesc_marks {cs : List Nat} {c : Nat} (member : c ∈ cs) (f : Nat → Nat) (s : State) : MarksCells cs s (modDesc c f s) where
  canonical := fun w => memWrite_wf _ _ w
  outside := fun w a apart => memByte_memWrite_outside _ a _ w (by
    rw [descBytes_length]
    exact apart c member)
  still := .refl s

/-- A scrub that finds an uncorrectable cell (R246): where it is stored and its descriptor holds, the descriptor is marked. -/
theorem scrubCell_marks (c : Nat) (s : State) : MarksCells [c] s (scrubCell c s) := by
  have seen : MarksCells [c] s (ueSeen c s) := .of_still (ueSeen_still c (.refl s))
  unfold scrubCell
  split
  · exact seen
  · dsimp only
    split
    · exact seen
    · split
      · exact seen.andStill (flushDesc_still _ _ (.refl _))
      · exact seen.trans (modDesc_marks (List.mem_singleton_self c) _ _)

/-- The cells that prove uncorrectable to an engine are among those that come with its command. -/
theorem engineErrors_marks (cs ue : List Nat) (s : State) : MarksCells ue s (engineErrors cs ue s) :=
  foldS_marks s fun c found t => by
    have member : c ∈ ue := by
      simp only [List.mem_filter, Bool.and_eq_true, List.contains_iff_mem] at found
      exact found.2.1
    exact (MarksCells.of_still (ueSeen_still c (.refl t))).trans (modDesc_marks member _ _)

/-- What an engine's read leaves: a flush, or the queue without the cells that are used up. -/
theorem engineRead_marks (k n : Nat) (ue : List Nat) (s : State) : MarksCells ue s (engineRead k n ue s).2 := by
  unfold engineRead
  split
  · exact .of_still (.refl s)
  · dsimp only
    split
    · exact .of_still (.refl s)
    · split
      · exact .of_still (flushRetired_still _ _ (.refl s))
      · split
        · exact .of_still (flushDesc_still _ _ (.refl s))
        · exact (engineErrors_marks _ ue s).andStill
            (freeCells_still _ (updQ_still _ _ (foldS_still (.refl _) fun _ t => bumpQ_still _ _ (.refl t))))

/-- A position of a round that is read: the engine's read, and then the stitch goes to its client (R200). -/
theorem readPosition_marks (g r : Nat) (ue : List Nat) (pos m : Nat) (s : State) : MarksCells ue s (readPosition g r ue pos m s) := by
  unfold readPosition
  split
  · exact .of_still (.refl s)
  · dsimp only
    split
    · exact .of_still (updSide_still _ _ _ (.refl s))
    · split
      · exact (engineRead_marks _ _ ue s).andStill (updSide_still _ _ _ (.refl _))
      · split
        · exact (engineRead_marks _ _ ue s).andStill (updSide_still _ _ _ (updMember_still _ _ _ _ (.refl _)))
        · split
          · exact (engineRead_marks _ _ ue s).andStill (updMember_still _ _ _ _ (.refl _))
          · split
            · exact (engineRead_marks _ _ ue s).andStill (clientToFabric_still _ _ _ (updMember_still _ _ _ _ (.refl _)))
            · exact (engineRead_marks _ _ ue s).andStill (updSide_still _ _ _ (updMember_still _ _ _ _ (.refl _)))

/-- A round that is read (R203). -/
theorem roundRead_marks (g : Nat) (ue : List Nat) (s : State) : MarksCells ue s (roundRead g ue s) := by
  unfold roundRead
  split
  · exact .of_still (.refl s)
  · dsimp only
    split
    · exact .of_still (.refl s)
    · have aligned : MarksCells ue s (updSide g false (fun d => { d with st := .aligned }) s) := .of_still (updSide_still _ _ _ (.refl s))
      exact (aligned.trans (foldS_marks _ fun pos _ t => readPosition_marks _ _ ue pos _ t)).andStill (updSide_still _ _ _ (.refl _))

/-- A position of a round that is formed: the engine's read of the client with the largest deficit, if one has data (R199). -/
theorem formPosition_marks (g rmax W r : Nat) (ue : List Nat) (pos m : Nat) (s : State) :
    MarksCells ue s (formPosition g rmax W r ue pos m s) := by
  unfold formPosition
  dsimp only
  split
  · exact .of_still (updSide_still _ _ _ (.refl s))
  · split
    · exact .of_still (updMember_still _ _ _ _ (updSide_still _ _ _ (.refl s)))
    · split
      · exact .of_still (updSide_still _ _ _ (.refl s))
      · split
        · exact ((MarksCells.of_still (updSide_still _ _ _ (.refl s))).trans (engineRead_marks _ _ ue _)).andStill
            (updMember_still _ _ _ _ (.refl _))
        · exact ((MarksCells.of_still (updSide_still _ _ _ (.refl s))).trans (engineRead_marks _ _ ue _)).andStill
            (updMember_still _ _ _ _ (updClient_still _ _ _ _ (.refl _)))

/-- A round that is formed (R197). -/
theorem roundFormed_marks (g : Nat) (ue : List Nat) (s : State) : MarksCells ue s (roundFormed g ue s) := by
  unfold roundFormed
  split
  · exact .of_still (.refl s)
  · dsimp only
    split
    · exact .of_still (.refl s)
    · exact (foldS_marks s fun pos _ t => formPosition_marks _ _ _ _ ue pos _ t).andStill (updSide_still _ _ _ (.refl _))

/-- A pass of the scrub counted (R254). -/
theorem scrubPass_still (s : State) : Untouched s { s with pool.scrubPasses := s.pool.scrubPasses + 1 } :=
  { Untouched.refl s with hbm := rfl }

/-- PATROL_SCRUB beside the cell it names counts passes alone (R254). -/
theorem execPatrolScrub_marks {cell : Fin 503316480} {ue : Bool} {s t : State} (h : execPatrolScrub cell ue s = .next t) :
    MarksCells [cell.val] s t := by
  unfold execPatrolScrub at h
  injection h with settled
  subst settled
  refine MarksCells.settle ?_
  have scrubbed : MarksCells [cell.val] s (if ue then scrubCell cell.val s else s) := by
    cases ue
    case false => exact .of_still (.refl s)
    case true => exact scrubCell_marks cell.val s
  split
  · exact .of_still (.refl s)
  · exact scrubbed.andStill (scrubPass_still _).onlyIf

/-- PATROL_SCRUB of a cell without an uncorrectable error. -/
theorem execPatrolScrub_still (cell : Fin 503316480) (s : State) : LeavesUntouched s (execPatrolScrub cell false s) := by
  refine leavesUntouched_settled ?_
  split
  · exact .refl s
  · exact (scrubPass_still s).onlyIf

theorem execBraidRoundRead_marks {g : EngineRead 256} {s t : State} (h : execBraidRoundRead g s = .next t) :
    MarksCells (g.ue.map (·.val)) s t := by
  injection h with settled
  exact settled ▸ (roundRead_marks _ _ s).settle

theorem execBraidRoundFormed_marks {g : EngineRead 256} {s t : State} (h : execBraidRoundFormed g s = .next t) :
    MarksCells (g.ue.map (·.val)) s t := by
  injection h with settled
  exact settled ▸ (roundFormed_marks _ _ s).settle

/-- Settles O60: a scrub marks at most the cell it names, none where the error is correctable, and a Braid round the cells that come with its
command. -/
theorem scrubFrame : Obligations.ScrubFrame := by
  intro s t canonical
  refine ⟨fun cell ue h => ?scrub, fun g h => ?braid⟩
  case scrub =>
    have marks : MarksCells [cell.val] s t := execPatrolScrub_marks h
    refine ⟨fun a apart => marks.outside canonical a (List.forall_mem_singleton.2 apart), fun correctable => ?_, marks.still⟩
    subst correctable
    exact (execPatrolScrub_still cell s t h).hbm
  case braid =>
    have marks : MarksCells (g.ue.map (·.val)) s t := h.elim execBraidRoundRead_marks execBraidRoundFormed_marks
    exact ⟨fun a apart => marks.outside canonical a (List.forall_mem_map.2 apart), marks.still⟩

end Sys2Proof.Machine
end

section
/-! PROOFS of the statements on queue and pool commands (O16, O17): what each body answers once its status table lets a request pass, and from
that the whole command. -/

namespace Sys2Proof.Machine

theorem exec_queueConfig (m : Mbx) (tag : Byte) (req : List Word) (s : State) :
    exec (.queueConfig m tag req) s = viaMailbox 0x0701 m tag req s := rfl

theorem exec_queueCount (m : Mbx) (tag : Byte) (req : List Word) (s : State) :
    exec (.queueCount m tag req) s = viaMailbox 0x0702 m tag req s := rfl

theorem exec_queueFlush (m : Mbx) (tag : Byte) (req : List Word) (s : State) :
    exec (.queueFlush m tag req) s = viaMailbox 0x0703 m tag req s := rfl

theorem exec_queueScan (m : Mbx) (tag : Byte) (req : List Word) (s : State) :
    exec (.queueScan m tag req) s = viaMailbox 0x0704 m tag req s := rfl

theorem exec_poolStatus (m : Mbx) (tag : Byte) (req : List Word) (s : State) :
    exec (.poolStatus m tag req) s = viaMailbox 0x0705 m tag req s := rfl

/-- The queue that word 0 of a queue command names (R255). -/
def queueNamed (req : List Word) : Nat := fld (wd req 0) 19 0

section QueueConfigBody

variable {c : Ctx} {req : List Word} {p : State} {q : Queue} (denied : c.denied = false) (gate : c.gate = false)

include denied gate

/-- OP 1 and OP 2 of QUEUE_CONFIG past its status table: the queue to replace is there, and its reader and the budget allow the words. -/
theorem cmdQueueConfig_sets {op : Nat} (is : fld (wd req 0) 23 20 = op) (sets : op = 1 ∨ op = 2 ∧ (queueAt p (queueNamed req)).isSome = true)
    (words : queueConfigBad p (queueNamed req) op (queueOfWords p.now req) req = false)
    (free : queueBlocked p (queueNamed req) op (queueOfWords p.now req) = false)
    (reader : queueNoReader p (queueOfWords p.now req) = false)
    (room : queueOver p (queueSet (queueNamed req) op (queueOfWords p.now req) p) (queueNamed req) op (queueOfWords p.now req) = false) :
    cmdQueueConfig c req p = (.done .ok [], queueSet (queueNamed req) op (queueOfWords p.now req) p) := by
  rw [queueNamed] at *
  unfold cmdQueueConfig
  simp only [is]
  refine (ladder_passes p ?_).trans ?_
  · rcases sets with rfl | ⟨rfl, found⟩
    · simp [words, denied, reader, gate, free, room]
    · simp [words, denied, reader, gate, free, room, Option.isNone_eq_false_iff.2 found]
  · rcases sets with rfl | ⟨rfl, _⟩ <;> rfl

variable (found : queueAt p (queueNamed req) = some q)

include found

/-- OP 3 of QUEUE_CONFIG past its status table. -/
theorem cmdQueueConfig_deletes (op : fld (wd req 0) 23 20 = 3)
    (words : queueConfigBad p (queueNamed req) 3 (queueOfWords p.now req) req = false)
    (free : queueBlocked p (queueNamed req) 3 (queueOfWords p.now req) = false) :
    cmdQueueConfig c req p = (.done .ok [], dropQueue (queueNamed req) (flushQ (queueNamed req) p)) := by
  rw [queueNamed] at *
  unfold cmdQueueConfig
  simp only [op, found]
  refine (ladder_passes p ?_).trans rfl
  simp [words, denied, gate, free]

/-- OP 4 of QUEUE_CONFIG past its status table. -/
theorem cmdQueueConfig_reads (op : fld (wd req 0) 23 20 = 4)
    (words : queueConfigBad p (queueNamed req) 4 (queueOfWords p.now req) req = false)
    (free : queueBlocked p (queueNamed req) 4 (queueOfWords p.now req) = false) :
    cmdQueueConfig c req p = (.done .ok q.cfg, p) := by
  rw [queueNamed] at *
  unfold cmdQueueConfig
  simp only [op, found]
  refine (ladder_passes p ?_).trans rfl
  simp [words, denied, gate, free]

end QueueConfigBody

/-- Settles O16: each OP passes the status table, and the mailbox answers what the body leaves. -/
theorem queueConfigCompletes : Obligations.QueueConfigCompletes := by
  intro m tag req s p
  refine ⟨?makes, ?replaces, ?deletes, ?reads⟩
  case makes =>
    rintro _ _ rfl ready rfl rfl op words free reader room
    rw [exec_queueConfig]
    exact mailbox_done tag ready (by decide) rfl (cmdQueueConfig_sets rfl rfl op (.inl rfl) words free reader room)
  case replaces =>
    rintro _ _ rfl ready rfl rfl op words free found reader room
    rw [exec_queueConfig]
    exact mailbox_done tag ready (by decide) rfl (cmdQueueConfig_sets rfl rfl op (.inr ⟨rfl, found⟩) words free reader room)
  case deletes =>
    rintro _ _ q rfl ready rfl rfl op words free found
    rw [exec_queueConfig]
    exact mailbox_done tag ready (by decide) rfl (cmdQueueConfig_deletes rfl rfl found op words free)
  case reads =>
    rintro _ _ q rfl ready rfl rfl op words free found
    rw [exec_queueConfig]
    exact mailbox_done tag ready (by decide) rfl (cmdQueueConfig_reads rfl rfl found op words free)

/-- The words of a QUEUE_COUNT: the state of the queue and its counts (R252). -/
def queueCountWords (q : Queue) : List Word :=
  [w32 (q.kind + 4 * q.owner + 16 * b2n q.open_ + 32 * b2n q.discard), w32 (qCells q), w32 q.limit, w32 q.items, q.lost, q.poolDrop,
    q.flushDiscard, q.oversizeDrop, q.badDrop, q.rateDrop, q.flushed, q.eccDrop]

/-- A QUEUE_SCAN with CLEAR takes CHANGED back from the queues of its block (R253). -/
def scanLeaves (req : List Word) (p : State) : State :=
  if bitOf (wd req 0) 10 then
    { p with pool.q := p.pool.q.map (fun (e : Nat × Queue) => if e.1 / 1024 = fld (wd req 0) 9 0 then (e.1, { e.2 with changed := false }) else e) }
  else p

/-- The words of a POOL_STATUS (R254). -/
def poolWords (p : State) : List Word :=
  [w32 (outsideS p + 256 * b2n (halfOffCmd p 0) + 512 * b2n (halfOffCmd p 1)), w32 p.boot.retired.toNat, w32 (p.boot.retired.toNat / 4294967296),
    w32 (allocatable p), w32 (freeTotals p).1, w32 (reserved p), w32 (freeTotals p).2, w32 (budget p / 10000), w32 (deepLoad p / 10000),
    p.pool.poolDropTotal, p.pool.descErr, w32 p.pool.q.length, p.pool.scrubPasses]

section QueueBodies

variable {c : Ctx} {req : List Word} {p : State} (gate : c.gate = false)

include gate

/-- QUEUE_SCAN past its status table. -/
theorem cmdQueueScan_answers (reserved : fld (wd req 0) 31 11 = 0) :
    cmdQueueScan c req p = (.done .ok (w32 (fld (wd req 0) 9 0) :: scanWords p (fld (wd req 0) 9 0) (·.changed) ++
      scanWords p (fld (wd req 0) 9 0) (fun q => !q.chain.isEmpty)), scanLeaves req p) := by
  unfold cmdQueueScan
  refine (ladder_passes p ?_).trans rfl
  simp [reserved, gate]

/-- POOL_STATUS past its status table. -/
theorem cmdPoolStatus_answers : cmdPoolStatus c req p = (.done .ok (poolWords p), p) := by
  unfold cmdPoolStatus
  refine (ladder_passes p ?_).trans rfl
  simp [gate]

variable {q : Queue} (reserved : fld (wd req 0) 31 20 = 0) (found : queueAt p (queueNamed req) = some q)

include reserved found

/-- QUEUE_COUNT past its status table. -/
theorem cmdQueueCount_answers : cmdQueueCount c req p = (.done .ok (queueCountWords q), p) := by
  rw [queueNamed] at found
  unfold cmdQueueCount
  simp only [found]
  refine (ladder_passes p ?_).trans rfl
  simp [reserved, gate]

variable (denied : c.denied = false) (host : q.owner = 0)

include denied host

/-- QUEUE_FLUSH past its status table: it acts at once where the writer holds no partly filled cell (R239). -/
theorem cmdQueueFlush_accepted :
    cmdQueueFlush c req p =
      if q.partialBytes.isEmpty then (.done .ok [], takeFlush (queueNamed req) p)
      else (.waits (.flush (queueNamed req)), updQ (queueNamed req) (fun q => { q with flushAt := some (q.flushAt.getD (p.now + 1000)) }) p) := by
  rw [queueNamed] at *
  unfold cmdQueueFlush
  simp only [found]
  refine (ladder_passes p ?_).trans rfl
  simp [reserved, denied, gate, host]

end QueueBodies

/-- Settles O17: each command passes its status table, and the mailbox answers what the body leaves. -/
theorem queueCommandsComplete : Obligations.QueueCommandsComplete := by
  intro m tag req s p
  refine ⟨?count, ?flush, ?flushLater, ?scan, ?pool⟩
  case count =>
    rintro _ q rfl ready rfl reserved found
    rw [exec_queueCount]
    exact mailbox_done tag ready (by decide) rfl (cmdQueueCount_answers rfl reserved found)
  case flush =>
    rintro _ q rfl ready rfl reserved found host whole
    rw [exec_queueFlush]
    exact mailbox_done tag ready (by decide) rfl
      ((cmdQueueFlush_accepted rfl reserved found rfl host).trans (if_pos (List.isEmpty_iff.2 whole)))
  case flushLater =>
    rintro _ q rfl ready rfl reserved found host part
    rw [exec_queueFlush]
    exact mailbox_waits tag ready (by decide) rfl
      ((cmdQueueFlush_accepted rfl reserved found rfl host).trans (if_neg (mt List.isEmpty_iff.1 part)))
  case scan =>
    rintro _ rfl ready reserved rfl
    rw [exec_queueScan]
    exact mailbox_done tag ready (by decide) rfl (cmdQueueScan_answers rfl reserved)
  case pool =>
    rintro _ _ rfl ready rfl rfl
    rw [exec_poolStatus]
    exact mailbox_done tag ready (by decide) rfl (cmdPoolStatus_answers rfl)

end Sys2Proof.Machine
end

section
/-! PROOFS of the statement on pool, protection and Welt events (O39): an event whose condition holds acts on the state, and from that each
clause. -/

namespace Sys2Proof.Machine

section QueueEvents

variable {s : State} {n : Fin 1048576} {x : Queue} (found : queueAt s n.val = some x)

include found

/-- A word that the slice's datapath writes into a host queue (R232). -/
theorem execWriterWord_leaf {bs : List Byte} {first last bad : Bool} (writes : leafWrites s x = true) :
    execWriterWord n bs first last bad s = .next (settle (writeWord n.val (bs.take 32) first last bad s)) := by
  rw [execWriterWord, found]
  exact settledIf_holds writes

/-- Bytes of the blocks of a Welt copy (R272). -/
theorem execWriterWord_copy {bs : List Byte} {first last bad : Bool} (leaf : leafWrites s x = false) (owner : x.owner = 2)
    (takes : weltTakes s n.val = true) :
    execWriterWord n bs first last bad s =
      .next (settle (flushPending n.val (streamPut ((bs.take 32).length + 2) n.val (bs.take 32) s))) := by
  simp [execWriterWord, nextSettled, found, leaf, owner, takes]

/-- A flush whose time has come, or that meets a cell boundary of the writer (R239). -/
theorem execFlushTakesEffect_acts {t : Nat} (pending : x.flushAt = some t) (now : t ≤ s.now ∨ x.partialBytes = []) :
    execFlushTakesEffect n s = .next (settle (takeFlush n.val s)) := by
  rw [execFlushTakesEffect, found]
  refine settledIf_holds ?_
  rcases now with past | boundary
  · rw [due_of_le pending past, pending]
    rfl
  · simp [pending, boundary]

variable (host : x.owner = 0) (ready : readerReady s x = true)

include host ready

/-- A stream queue gives a cell (R243). -/
theorem execQueueRead_stream {ue : Bool} (stream : qPkt x = false) :
    execQueueRead n ue s = .next (settle (readStreamCell n.val ue s)) := by
  simp [execQueueRead, nextSettled, found, host, ready, stream]

variable (packet : qPkt x = true) (holds : x.items ≠ 0)

include packet holds

/-- The packet queue that the scheduler of its set serves gives a cell (R243). -/
theorem execQueueRead_scheduled {ue : Bool} {k : Nat} (set : setOf x = some k) (served : (schedPick k s).1 = some n.val) :
    execQueueRead n ue s = .next (settle (readPacketCell n.val ue (schedPick k s).2)) := by
  simp [execQueueRead, nextSettled, found, host, ready, packet, holds, set, served]

/-- A packet queue of no set gives a cell (R243). -/
theorem execQueueRead_alone {ue : Bool} (set : setOf x = none) : execQueueRead n ue s = .next (settle (readPacketCell n.val ue s)) := by
  simp [execQueueRead, nextSettled, found, host, ready, packet, holds, set]

end QueueEvents

section Scrub

variable {s : State} {cell : Fin 503316480} (runs : mpRuns s = true) (allocates : (allocSet s).contains (cell.val % 64) = true)

include runs allocates

/-- The scrub of a cell with an uncorrectable error that does not end a pass (R246). -/
theorem execPatrolScrub_uncorrectable (within : cell.val / 64 ≠ 7864319) :
    execPatrolScrub cell true s = .next (settle (scrubCell cell.val s)) :=
  (settledIf_fails (by rw [runs, allocates]; rfl)).trans (congrArg nextSettled (if_neg (by simp [within])))

/-- The scrub of the last cell of the last pseudo-channel ends a pass (R254). -/
theorem execPatrolScrub_endsPass (final : cell.val / 64 = 7864319) (last : (allocSet s).getLast? = some (cell.val % 64)) :
    execPatrolScrub cell false s = .next (settle { s with pool.scrubPasses := s.pool.scrubPasses + 1 }) :=
  (settledIf_fails (by rw [runs, allocates]; rfl)).trans (congrArg nextSettled (if_pos (by simp [final, last])))

end Scrub

/-- A stored cell whose descriptor holds is marked BAD (R246). -/
theorem scrubCell_stored {s : State} {cell : Nat} {e : Nat × Queue} (stored : s.pool.q.find? (fun e => e.2.chain.contains cell) = some e)
    (full : e.2.chain.getLast? ≠ some cell ∨ e.2.partialBytes = []) (holds : descOk s e.2 cell false = true) :
    scrubCell cell s = modDesc cell (fun h => if h / 256 % 2 = 1 then h else h + 256) (ueSeen cell s) := by
  have written : (decide (e.2.chain.getLast? = some cell) && !e.2.partialBytes.isEmpty) = false := by
    rcases full with h | h <;> simp [h]
  have checked : descOk (ueSeen cell s) e.2 cell false = true := holds
  rw [scrubCell, stored]
  simp [written, checked]

section ProtectionTimers

variable {s : State} {g : Fin 2048} {x : Prot} {t : Nat} (group : tget? s.prot g.val = some x)

include group

/-- A hold-off over (R263). -/
theorem execHoldOffExpiry_over {k : Fin 4} (timer : tget? x.hold k.val = some t) (past : t ≤ s.now) :
    execHoldOffExpiry g k s =
      (let y := { x with hold := tdel x.hold k.val }
       .next (settle { s with prot := tset s.prot g.val (if reqBit k.val true x then setReq k.val false true y else y) })) := by
  rw [execHoldOffExpiry, group]
  exact settledIf_holds (due_of_le timer past)

/-- The wait to restore over, of a group that this twin decides (R265). -/
theorem execProtWtrExpiry_over (timer : x.wtrUntil = some t) (past : t ≤ s.now) (decides : ownDecides s = true) :
    execProtWtrExpiry g s = .next (settle { s with prot := tset s.prot g.val { x with wtrUntil := none } }) := by
  rw [execProtWtrExpiry, group]
  exact settledIf_holds (by simp [due_of_le timer past, decides])

/-- No response for 50 ms (R266). -/
theorem execFopNrTimer_over (since : x.nrSince = some t) (clear : x.fopNr = false) (past : t + 50000000 ≤ s.now) :
    execFopNrTimer g s =
      .next (settle (evtProtFop g.val false true true { s with prot := tset s.prot g.val { x with fopNr := true } })) := by
  simp only [execFopNrTimer, group, since]
  exact settledIf_holds (by simp [clear, past])

end ProtectionTimers

section WeltEvents

variable {s : State} {w : Fin 4096} {x : Welt} {t : Nat} (pair : tget? s.welt w.val = some x)

include pair

/-- A block's WSO of a copy whose slice is on (R272). -/
theorem execWsoAccept_up {n : Fin 2} {reps : List (List Byte)} {st : BitVec 64} {fr : BitVec 16} {ended : Bool} {sl : Nat}
    (engine : domUp s 34 = true) (slice : chanSlice s (chKey false (copyOf x (n.val == 1)).ch) = some sl) (up : domUp s sl = true) :
    execWsoAccept w n reps st fr ended s =
      .next (settle (wsoAccept w.val (n.val == 1) reps (st.toNat * 65536 + fr.toNat) ended s)) := by
  simp only [execWsoAccept, pair, slice]
  exact settledIf_holds (by simp [engine, up])

/-- A copy without blocks (R275). -/
theorem execWeltAbsentTimer_silent {n : Fin 2} (silent : copySilent (blockPeriod (weltRate s x)) s.now (copyOf x (n.val == 1)) = true) :
    execWeltAbsentTimer w n s = .next (settle (setCopyState w.val (n.val == 1) .absent
      (updWelt w.val (modCopy (n.val == 1) (silenced (blockPeriod (weltRate s x)) s.now)) s))) := by
  rw [execWeltAbsentTimer, pair]
  exact settledIf_holds silent

/-- A pair in ACQUIRE anchors (R277). -/
theorem execWeltAcquireTimer_over (first : x.firstAt = some t) (acquires : x.st = .acquire)
    (past : t + (windowFine x - tDec (weltRate s x)) / 65536 ≤ s.now) :
    execWeltAcquireTimer w s = .next (settle (weltAnchor w.val s)) := by
  simp only [execWeltAcquireTimer, pair, first]
  exact settledIf_holds (by simp [acquires, past])

variable (runs : x.st = .run)

include runs

/-- A running pair with no copy IN for 1 s realigns (R277). -/
theorem execWeltNoCopyIn_over (since : x.noInSince = some t) (past : t + 1000000000 ≤ s.now)
    (arrives : x.c0.lastAt.isSome = true ∨ x.c1.lastAt.isSome = true) :
    execWeltNoCopyIn w s = .next (settle (weltRealign w.val s)) := by
  simp only [execWeltNoCopyIn, pair, since]
  exact settledIf_holds (by simpa [runs, past] using arrives)

/-- A running pair out of range for 10 s realigns where AUTO is set (R277). -/
theorem execWeltRealignAuto_over (since : x.rangeSince = some t) (auto : x.auto = true) (range : x.range = true)
    (past : t + 10000000000 ≤ s.now) (copy : x.c0.st = .isIn ∨ x.c1.st = .isIn) :
    execWeltRealignAuto w s = .next (settle (weltRealign w.val s)) := by
  simp only [execWeltRealignAuto, pair, since]
  exact settledIf_holds (by simpa [runs, auto, range, past] using copy)

end WeltEvents

section WeltPlayout

variable {s : State} {w : EngineRead 4096} {x : Welt} {t : Nat} (pair : tget? s.welt w.id.val = some x) (engine : domUp s 34 = true)

include pair engine

/-- The playout point of a running pair's block (R276). -/
theorem execWeltPlayout_run (runs : x.st = .run) (point : x.playAt = some t) (past : t ≤ devFine s) :
    execWeltPlayout w s = .next (settle (weltPlayout w.id.val (w.ue.map (·.val)) s)) := by
  simp [execWeltPlayout, nextSettled, pair, engine, runs, point, past]

/-- In ACQUIRE the output is a block of ODU-AIS (R277, log 27). -/
theorem execWeltPlayout_acquire (acquires : x.st = .acquire) : execWeltPlayout w s = .next (settle (weltOut w.id.val aisBlock s)) := by
  rw [execWeltPlayout, pair]
  exact settledIf_holds (by simp [acquires, engine])

end WeltPlayout

/-- Settles O39: under each clause's premises the event's condition holds. -/
theorem poolEventsComplete : Obligations.PoolEventsComplete := by
  intro s
  refine ⟨?word, ?copyBytes, ?flush, ?stream, ?scheduled, ?alone, ?scrub, ?pass, ?marked, ?holdOff, ?restore, ?noResponse, ?wso, ?playout,
    ?acquire, ?absent, ?anchor, ?noCopy, ?outOfRange⟩
  case word => exact fun n bs first last bad x found writes => execWriterWord_leaf found writes
  case copyBytes => exact fun n bs first last bad x found leaf owner takes => execWriterWord_copy found leaf owner takes
  case flush => exact fun n x t found pending now => execFlushTakesEffect_acts found pending now
  case stream => exact fun n ue x found host ready stream => execQueueRead_stream found host ready stream
  case scheduled =>
    exact fun n ue x k found host ready packet holds set served => execQueueRead_scheduled found host ready packet holds set served
  case alone => exact fun n ue x found host ready packet holds set => execQueueRead_alone found host ready packet holds set
  case scrub => exact fun cell runs allocates within => execPatrolScrub_uncorrectable runs allocates within
  case pass => exact fun cell runs final allocates last => execPatrolScrub_endsPass runs allocates final last
  case marked => exact fun cell e stored full holds => scrubCell_stored stored full holds
  case holdOff =>
    rintro g k x _ t group timer past rfl
    exact execHoldOffExpiry_over group timer past
  case restore => exact fun g x t group timer past decides => execProtWtrExpiry_over group timer past decides
  case noResponse => exact fun g x t group since clear past => execFopNrTimer_over group since clear past
  case wso => exact fun w n reps st fr ended x sl pair engine slice up => execWsoAccept_up pair engine slice up
  case playout => exact fun w x t pair runs engine point past => execWeltPlayout_run pair engine runs point past
  case acquire => exact fun w x pair acquires engine => execWeltPlayout_acquire pair engine acquires
  case absent =>
    rintro w n _ x pair rfl silent
    exact execWeltAbsentTimer_silent pair silent
  case anchor => exact fun w x t pair first acquires past => execWeltAcquireTimer_over pair first acquires past
  case noCopy => exact fun w x t pair since runs past arrives => execWeltNoCopyIn_over pair runs since past arrives
  case outOfRange => exact fun w x t pair since runs auto range past copy => execWeltRealignAuto_over pair runs since auto range past copy

end Sys2Proof.Machine
end

section
/-! PROOFS of the statements on protection groups and Welt pairs (O18, O19): what each body answers once its status table lets a request pass,
and from that the whole command. -/

namespace Sys2Proof.Machine

theorem exec_protGroupCreate (m : Mbx) (tag : Byte) (req : List Word) (s : State) :
    exec (.protGroupCreate m tag req) s = viaMailbox 0x0801 m tag req s := rfl

theorem exec_protCommand (m : Mbx) (tag : Byte) (req : List Word) (s : State) :
    exec (.protCommand m tag req) s = viaMailbox 0x0802 m tag req s := rfl

theorem exec_protStatus (m : Mbx) (tag : Byte) (req : List Word) (s : State) :
    exec (.protStatus m tag req) s = viaMailbox 0x0803 m tag req s := rfl

theorem exec_weltCreate (m : Mbx) (tag : Byte) (req : List Word) (s : State) :
    exec (.weltCreate m tag req) s = viaMailbox 0x0804 m tag req s := rfl

theorem exec_weltStatus (m : Mbx) (tag : Byte) (req : List Word) (s : State) :
    exec (.weltStatus m tag req) s = viaMailbox 0x0805 m tag req s := rfl

/-- The group that word 0 of a protection command names (R280). -/
def protNamed (req : List Word) : Nat := fld (wd req 0) 10 0

/-- The state with the times of group g that an OP 3 of PROT_GROUP_CREATE asks for (R280). -/
def protRetimed (req : List Word) (g : Prot) (p : State) : State :=
  { p with prot := tset p.prot (protNamed req) { g with holdOff := fld (wd req 5) 14 8, wtr := fld (wd req 5) 25 16
                                                        words := protWordsWith g.words req } }

section ProtGroupBody

variable {c : Ctx} {req : List Word} {p : State} (denied : c.denied = false) (gate : c.gate = false)
  (spare : bitOf (wd req 0) 11 = false) (reserved : fld (wd req 0) 31 25 = 0)

include denied gate spare reserved

/-- OP 1 of PROT_GROUP_CREATE past its status table: the number is free, and the ports or legs are there and suit (R261, R285). -/
theorem cmdProtGroupCreate_makes (op : fld (wd req 0) 15 12 = 1) (words : protRes req = false) (times : protTimesBad req = false)
    (fields : protBad req = false) (present : protMissing p req = false) (new : thas p.prot (protNamed req) = false)
    (suits : (if gMsp req then mspBad p req else snpBad p req) = false) (room : fits p (protAdd (protNamed req) req p) = true) :
    cmdProtGroupCreate c req p = (.done .ok [], protAdd (protNamed req) req p) := by
  rw [protNamed] at *
  unfold cmdProtGroupCreate
  simp only [op]
  refine (ladder_passes p ?_).trans rfl
  simp [spare, reserved, words, times, fields, denied, present, gate, new, suits, room]

variable {g : Prot} (found : tget? p.prot (protNamed req) = some g)

include found

/-- OP 2 of PROT_GROUP_CREATE past its status table. -/
theorem cmdProtGroupCreate_deletes (op : fld (wd req 0) 15 12 = 2) (words : wordsBad req 1 5 = false) :
    cmdProtGroupCreate c req p = (.done .ok [], protDrop (protNamed req) p) := by
  have group := thas_of_tget? found
  rw [protNamed] at *
  unfold cmdProtGroupCreate
  simp only [op]
  refine (ladder_passes p ?_).trans rfl
  simp [spare, reserved, words, denied, group, gate]

/-- OP 3 of PROT_GROUP_CREATE past its status table. -/
theorem cmdProtGroupCreate_retimes (op : fld (wd req 0) 15 12 = 3) (words : protRes req = false) (times : protTimesBad req = false) :
    cmdProtGroupCreate c req p = (.done .ok [], protRetimed req g p) := by
  have group := thas_of_tget? found
  rw [protRetimed, protNamed] at *
  unfold cmdProtGroupCreate
  simp only [op, found]
  refine (ladder_passes p ?_).trans rfl
  simp [spare, reserved, words, times, denied, group, gate]

/-- OP 4 of PROT_GROUP_CREATE past its status table. -/
theorem cmdProtGroupCreate_reads (op : fld (wd req 0) 15 12 = 4) (words : wordsBad req 1 5 = false) :
    cmdProtGroupCreate c req p = (.done .ok (g.words.drop 1), p) := by
  have group := thas_of_tget? found
  rw [protNamed] at *
  unfold cmdProtGroupCreate
  simp only [op, found]
  refine (ladder_passes p ?_).trans rfl
  simp [spare, reserved, words, denied, group, gate]

end ProtGroupBody

/-- The state with the external command that a PROT_COMMAND sets (R281). -/
def commandSet (req : List Word) (p : State) : State :=
  { p with prot := tupd p.prot (protNamed req) (fun g => { g with ext := fld (wd req 0) 15 12 }) }

/-- The seconds left of a group's wait to restore, rounded up (R282, log 27). -/
def wtrLeft (g : Prot) (p : State) : Nat :=
  match g.wtrUntil with
  | some t => (t - p.now + 999999999) / 1000000000
  | none => 0

/-- K2 bits 6 to 8 that the protection port of an MSP group transmits (R113, R261). -/
def spareK2 (g : Prot) (p : State) : Nat :=
  match portAt p (gLegRx g.words true) with
  | some q => if gMsp g.words then (txK p (gLegRx g.words true) q (ohOf p (ohKey 0 (gLegRx g.words true) 0))).2.toNat % 8 else 0
  | none => 0

/-- The words of a PROT_STATUS (R282). -/
def protStatusWords (g : Prot) (p : State) : List Word :=
  [w32 (g.top + 16 * b2n g.topRemote + 32 * b2n g.sel + 64 * b2n g.bridge + 128 * b2n g.fopPm + 256 * b2n g.fopNr + 512 * g.ext +
      4096 * b2n g.sf.1 + 8192 * b2n g.sf.2 + 16384 * b2n g.sd.1 + 32768 * b2n g.sd.2 + 65536 * wtrLeft g p),
    g.apsTx + w32 (256 * spareK2 g p), w32 (g.apsRx.getD (Config.freeNat p.free)), g.switches] ++ nsWords g.lastSwitch

/-- A PROT_STATUS of a group that has accepted no far-end value draws an open one (log 27). -/
def protStatusLeaves (g : Prot) (p : State) : State := if g.apsRx.isNone then { p with free := p.free + 1 } else p

section ProtBodies

variable {c : Ctx} {req : List Word} {p : State} {g : Prot} (gate : c.gate = false) (found : tget? p.prot (protNamed req) = some g)

include gate found

/-- PROT_COMMAND past its status table: the command is Clear or LO, or no lower than the top request (R281). -/
theorem cmdProtCommand_accepted (denied : c.denied = false) (spare : bitOf (wd req 0) 11 = false) (reserved : fld (wd req 0) 31 16 = 0)
    (kind : fld (wd req 0) 15 12 ≤ 5)
    (allowed : fld (wd req 0) 15 12 = 0 ∨ fld (wd req 0) 15 12 = 1 ∨ cmdPri (fld (wd req 0) 15 12) ≤ (topReq g).1.pri) :
    cmdProtCommand c req p =
      (.done .ok [], if g.ext = fld (wd req 0) 15 12 then commandSet req p else sendDecision (commandSet req p)) := by
  have group := thas_of_tget? found
  rw [commandSet, protNamed] at *
  unfold cmdProtCommand
  simp only [found]
  refine (ladder_passes p ?table).trans ?effect
  case table =>
    have outranks : (fld (wd req 0) 15 12 != 0 && fld (wd req 0) 15 12 != 1 &&
        decide ((topReq g).1.pri < cmdPri (fld (wd req 0) 15 12))) = false := by
      rcases allowed with clear | lockout | high
      · simp [clear]
      · simp [lockout]
      · simp [Nat.not_lt.2 high]
    simp [spare, reserved, kind, denied, group, gate, outranks]
  case effect => simp [okNone]

/-- PROT_STATUS past its status table. -/
theorem cmdProtStatus_answers (reserved : fld (wd req 0) 31 11 = 0) :
    cmdProtStatus c req p = (.done .ok (protStatusWords g p), protStatusLeaves g p) := by
  have group := thas_of_tget? found
  rw [protNamed] at *
  unfold cmdProtStatus
  simp only [found]
  refine (ladder_passes p ?_).trans rfl
  simp [reserved, group, gate]

end ProtBodies

/-- Settles O18: each command passes its status table, and the mailbox answers what the body leaves. -/
theorem protectionCommandsComplete : Obligations.ProtectionCommandsComplete := by
  intro m tag req s p
  refine ⟨?makes, ?deletes, ?retimes, ?reads, ?command, ?status⟩
  case makes =>
    rintro _ rfl ready rfl spare reserved op words times fields present new suits room
    rw [exec_protGroupCreate]
    exact mailbox_done tag ready (by decide) rfl
      (cmdProtGroupCreate_makes rfl rfl spare reserved op words times fields present new suits room)
  case deletes =>
    rintro _ g rfl ready rfl spare reserved op words found
    rw [exec_protGroupCreate]
    exact mailbox_done tag ready (by decide) rfl (cmdProtGroupCreate_deletes rfl rfl spare reserved found op words)
  case retimes =>
    rintro _ g rfl ready rfl spare reserved op words times found
    rw [exec_protGroupCreate]
    exact mailbox_done tag ready (by decide) rfl (cmdProtGroupCreate_retimes rfl rfl spare reserved found op words times)
  case reads =>
    rintro _ g rfl ready rfl spare reserved op words found
    rw [exec_protGroupCreate]
    exact mailbox_done tag ready (by decide) rfl (cmdProtGroupCreate_reads rfl rfl spare reserved found op words)
  case command =>
    rintro _ g _ rfl ready rfl spare reserved kind found allowed rfl
    rw [exec_protCommand]
    exact mailbox_done tag ready (by decide) rfl (cmdProtCommand_accepted rfl found rfl spare reserved kind allowed)
  case status =>
    rintro _ g _ _ rfl ready rfl reserved found rfl rfl
    rw [exec_protStatus]
    exact mailbox_done tag ready (by decide) rfl (cmdProtStatus_answers rfl found reserved)

/-- The pair that word 0 of a Welt command names (R283). -/
def weltNamed (req : List Word) : Nat := fld (wd req 0) 11 0

/-- The words of a WELT_STATUS of a pair x (R284). -/
def weltStatusWords (req : List Word) (x : Welt) (p : State) : List Word :=
  [w32 (weltCode x + 4 * b2n x.last + 8 * copyCode x.c0 + 32 * copyCode x.c1 + 128 * b2n x.readAlt + 256 * b2n x.c0.mismatch +
      512 * b2n x.c1.mismatch),
    w32 (declaredOf p (monAddr 8 0 (weltNamed req) 0 0)).toNat, w32 (unsx 32 x.delay), w32 x.delayMax, w32 x.c0.hold, w32 x.c1.hold, x.c0.played,
    x.c1.played, x.switches, x.rescued, x.unrecovered, x.aisBlocks, x.early, x.late, x.seqErr, x.wsoErr, x.mergeEs, x.realign]

/-- A WELT_STATUS with CLEAR starts DELAY_MAX over from the delay (R284). -/
def weltStatusLeaves (req : List Word) (p : State) : State :=
  if bitOf (wd req 0) 12 then updWelt (weltNamed req) (fun x => { x with delayMax := x.delay.natAbs }) p else p

section WeltBodies

variable {c : Ctx} {req : List Word} {p : State} (gate : c.gate = false)

include gate

/-- WELT_STATUS past its status table. -/
theorem cmdWeltStatus_answers {x : Welt} (found : tget? p.welt (weltNamed req) = some x) (reserved : fld (wd req 0) 31 13 = 0) :
    cmdWeltStatus c req p = (.done .ok (weltStatusWords req x p), weltStatusLeaves req p) := by
  have pair := thas_of_tget? found
  rw [weltNamed] at *
  unfold cmdWeltStatus
  simp only [found]
  refine (ladder_passes p ?_).trans rfl
  simp [reserved, pair, gate]

variable {op : Nat} (denied : c.denied = false) (is : fld (wd req 0) 15 12 = op) (fields : weltBad p req = false)
  (present : weltMissing p op (weltNamed req) req = false) (free : weltBlocked p op (weltNamed req) req = false)

include denied is fields present free

/-- OP 1, 3 and 5 of WELT_CREATE past its status table: there is a place for a bridge, and the pool holds what the pair asks for (R285). -/
theorem cmdWeltCreate_sets (sets : op = 1 ∨ op = 3 ∨ op = 5) (place : op = 5 → p.bridge.length < 4096)
    (room : fits p (weltSet op (weltNamed req) req p) = true) :
    cmdWeltCreate c req p = (.done .ok [], weltSet op (weltNamed req) req p) := by
  have unfilled : (op = 5 && decide (4096 ≤ p.bridge.length)) = false := by simpa using place
  rw [weltNamed] at *
  unfold cmdWeltCreate
  simp only [is]
  refine (ladder_passes p ?table).trans ?effect
  case table => simp [fields, denied, present, gate, free, unfilled, room]
  case effect => rcases sets with rfl | rfl | rfl <;> rfl

/-- OP 2 of WELT_CREATE past its status table. -/
theorem cmdWeltCreate_deletes (deletes : op = 2) : cmdWeltCreate c req p = (.done .ok [], weltDrop (weltNamed req) p) := by
  subst deletes
  rw [weltNamed] at *
  unfold cmdWeltCreate
  simp only [is]
  refine (ladder_passes p ?_).trans rfl
  simp [fields, denied, present, gate, free]

/-- OP 4 of WELT_CREATE past its status table: it acts on a pair in RUN alone (R277, log 27). -/
theorem cmdWeltCreate_realigns {x : Welt} (realigns : op = 4) (found : tget? p.welt (weltNamed req) = some x) :
    cmdWeltCreate c req p = (.done .ok [], if x.st = .run then weltRealign (weltNamed req) p else p) := by
  subst realigns
  rw [weltNamed] at *
  unfold cmdWeltCreate
  simp only [is, found]
  refine (ladder_passes p ?table).trans ?effect
  case table => simp [fields, denied, present, gate, free]
  case effect => simp [okNone]

/-- OP 6 of WELT_CREATE past its status table. -/
theorem cmdWeltCreate_dropsBridge (drops : op = 6) : cmdWeltCreate c req p = (.done .ok [], bridgeDrop (fld (wd req 1) 13 0) p) := by
  subst drops
  rw [weltNamed] at *
  unfold cmdWeltCreate
  simp only [is]
  refine (ladder_passes p ?_).trans rfl
  simp [fields, denied, present, gate, free]

end WeltBodies

/-- Settles O19: each OP and the reading pass their status tables, and the mailbox answers what the body leaves. -/
theorem weltCommandsComplete : Obligations.WeltCommandsComplete := by
  intro m tag req s p
  refine ⟨?makes, ?deletes, ?sets, ?realigns, ?bridges, ?dropsBridge, ?status⟩
  case makes =>
    rintro _ rfl ready rfl op fields present free room
    rw [exec_weltCreate]
    exact mailbox_done tag ready (by decide) rfl (cmdWeltCreate_sets rfl rfl op fields present free (.inl rfl) nofun room)
  case deletes =>
    rintro _ rfl ready rfl op fields present free
    rw [exec_weltCreate]
    exact mailbox_done tag ready (by decide) rfl (cmdWeltCreate_deletes rfl rfl op fields present free rfl)
  case sets =>
    rintro _ _ _ rfl ready rfl op fields present free rfl rfl room
    rw [exec_weltCreate]
    exact mailbox_done tag ready (by decide) rfl (cmdWeltCreate_sets rfl rfl op fields present free (.inr (.inl rfl)) nofun room)
  case realigns =>
    rintro _ x rfl ready rfl op fields present free found
    rw [exec_weltCreate]
    exact mailbox_done tag ready (by decide) rfl (cmdWeltCreate_realigns rfl rfl op fields present free rfl found)
  case bridges =>
    rintro _ rfl ready rfl op fields present free place room
    rw [exec_weltCreate]
    exact mailbox_done tag ready (by decide) rfl
      (cmdWeltCreate_sets rfl rfl op fields present free (.inr (.inr rfl)) (fun _ => place) room)
  case dropsBridge =>
    rintro _ rfl ready rfl op fields present free
    rw [exec_weltCreate]
    exact mailbox_done tag ready (by decide) rfl (cmdWeltCreate_dropsBridge rfl rfl op fields present free rfl)
  case status =>
    rintro _ x rfl ready rfl reserved found
    rw [exec_weltStatus]
    exact mailbox_done tag ready (by decide) rfl (cmdWeltStatus_answers rfl found reserved)

end Sys2Proof.Machine
end

section
/-! PROOFS of the statement on the system's control commands (O2): what each body answers once its status table lets a request pass, and from
that the whole command. -/

namespace Sys2Proof.Machine

theorem exec_sysResetBlock (m : Mbx) (tag : Byte) (req : List Word) (s : State) :
    exec (.sysResetBlock m tag req) s = viaMailbox 0x0102 m tag req s := rfl

theorem exec_sysPowerDomain (m : Mbx) (tag : Byte) (req : List Word) (s : State) :
    exec (.sysPowerDomain m tag req) s = viaMailbox 0x0103 m tag req s := rfl

theorem exec_sysTimeSet (m : Mbx) (tag : Byte) (req : List Word) (s : State) :
    exec (.sysTimeSet m tag req) s = viaMailbox 0x0104 m tag req s := rfl

section ResetBlockBody

variable {c : Ctx} {req : List Word} {p : State} {blk idx : Nat} (gate : c.gate = false) (block : fld (wd req 0) 3 0 = blk)
  (index : fld (wd req 0) 15 8 = idx) (low : fld (wd req 0) 7 4 = 0) (high : fld (wd req 0) 31 16 = 0) (names : blockOk blk idx = true)
  (up : ∀ d, blockDomain blk idx = some d → domUp p d = true)

include gate block index low high names up

/-- SYS_RESET_BLOCK past its status table: the domain of the block, where it lies in one, is on (R443). -/
theorem cmdSysResetBlock_resets :
    cmdSysResetBlock c req p =
      if blk = 7 then okNone (blockReset blk idx p) else (.waits (.resetBlock blk idx), blockReset blk idx p) := by
  unfold cmdSysResetBlock
  simp only [block, index]
  refine (ladder_passes p ?_).trans rfl
  cases lies : blockDomain blk idx with
  | none => simp [low, high, names, gate]
  | some d => simp [low, high, names, gate, up d lies]

/-- The MP's reset is answered at once (R443, R474). -/
theorem cmdSysResetBlock_mp (mp : blk = 7) : cmdSysResetBlock c req p = (.done .ok [], blockReset blk idx p) :=
  (cmdSysResetBlock_resets gate block index low high names up).trans (if_pos mp)

/-- Any other block's reset waits for its end (R443). -/
theorem cmdSysResetBlock_waits (other : blk ≠ 7) : cmdSysResetBlock c req p = (.waits (.resetBlock blk idx), blockReset blk idx p) :=
  (cmdSysResetBlock_resets gate block index low high names up).trans (if_neg other)

end ResetBlockBody

/-- OP 3 reads a domain, OP 1 asks for it on with the fatal latch clear, and OP 2 for a slice off (R444): no use of the domain can refuse
these. -/
def domainAsked (p : State) (d op : Nat) : Prop := op = 3 ∨ (op = 1 ∧ fatalSet p = false) ∨ (op = 2 ∧ d < 32)

section PowerDomainBody

variable {c : Ctx} {req : List Word} {p : State} {d op : Nat} (gate : c.gate = false) (domain : fld (wd req 0) 5 0 = d)
  (is : fld (wd req 0) 11 8 = op) (low : fld (wd req 0) 7 6 = 0) (high : fld (wd req 0) 31 12 = 0) (range : d ≤ 35)
  (asked : domainAsked p d op)

include gate domain is low high range asked

/-- SYS_POWER_DOMAIN past its status table (R444, R470). -/
theorem cmdSysPowerDomain_passes :
    cmdSysPowerDomain c req p =
      if op = 3 || ((domOf p d).sw.isNone && (domOf p d).up == (op == 1) && !(p.power.queue.any (fun e => e.1 == d))) then
        okWith [domWord p d] p
      else
        (.waits (.domain d (op == 1)),
          if (domOf p d).sw.isSome then p
          else if 4 ≤ switchings p || !p.power.queue.isEmpty then { p with power.queue := p.power.queue ++ [(d, op == 1)] }
          else startSwitch d (op == 1) p) := by
  unfold cmdSysPowerDomain
  simp only [domain, is]
  refine (ladder_passes p ?_).trans rfl
  rcases asked with rfl | ⟨rfl, unlatched⟩ | ⟨rfl, slice⟩
  · simp [low, high, gate, range]
  · simp [low, high, gate, range, unlatched]
  · have engine : d ≠ 34 := by omega
    have twin : d ≠ 35 := by omega
    simp [low, high, gate, range, Nat.not_le.2 slice, engine, twin]

/-- A domain that is only read, or that is as asked for with no switching to end first, is answered at once (R444). -/
theorem cmdSysPowerDomain_answers (still : op = 3 ∨ (domOf p d).sw = none ∧ (domOf p d).up = (op == 1) ∧
    p.power.queue.any (fun e => e.1 == d) = false) :
    cmdSysPowerDomain c req p = (.done .ok [domWord p d], p) := by
  refine (cmdSysPowerDomain_passes gate domain is low high range asked).trans (if_pos ?_)
  rcases still with reads | ⟨rests, there, unqueued⟩
  · simp [reads]
  · simp [rests, there, unqueued]

/-- A domain in the other state starts to switch where fewer than four are in hand and none waits (R444, R470). -/
theorem cmdSysPowerDomain_switches (switch : op ≠ 3) (rests : (domOf p d).sw = none) (other : (domOf p d).up = !(op == 1))
    (unqueued : p.power.queue = []) (spare : switchings p < 4) :
    cmdSysPowerDomain c req p = (.waits (.domain d (op == 1)), startSwitch d (op == 1) p) := by
  refine (cmdSysPowerDomain_passes gate domain is low high range asked).trans ((if_neg ?moves).trans ?effect)
  case moves => simp [switch, other]
  case effect => simp [rests, unqueued, Nat.not_le.2 spare]

end PowerDomainBody

/-- The amount of a SYS_TIME_SET OP 2, in 1/65,536 ns (R309). -/
def timeStepAsked (req : List Word) : Int := sx 64 ((wd req 1).toNat + 4294967296 * (wd req 2).toNat) * 65536 + (fld (wd req 3) 15 0 : Int)

section TimeSetBody

variable {c : Ctx} {req : List Word} {p : State} (denied : c.denied = false) (gate : c.gate = false)
  (reserved : resBad req [(0, 31, 2), (3, 31, 16)] = false)

include denied gate reserved

/-- OP 1 of SYS_TIME_SET past its status table: a whole second waits for its crossing (R309). -/
theorem cmdSysTimeSet_holds (op : fld (wd req 0) 1 0 = 1)
    (second : ((wd req 1).toNat + 4294967296 * (wd req 2).toNat) % 1000000000 = 0) (unfractioned : fld (wd req 3) 15 0 = 0) :
    cmdSysTimeSet c req p =
      (.waits .timeSet, { p with tmc.waitingTime := some ((wd req 1).toNat + 4294967296 * (wd req 2).toNat) }) := by
  unfold cmdSysTimeSet
  simp only [op]
  refine (ladder_passes p ?_).trans rfl
  simp [reserved, second, unfractioned, denied, gate]

/-- OP 2 of SYS_TIME_SET past its status table: device time that a pulse reference aligns takes whole seconds alone (R309). -/
theorem cmdSysTimeSet_steps (op : fld (wd req 0) 1 0 = 2)
    (allowed : timeAligned p 0 = false ∨ timeStepAsked req % 65536000000000 = 0) :
    cmdSysTimeSet c req p = (.done .ok [], stepTimeBy (timeStepAsked req) p) := by
  rw [timeStepAsked] at *
  unfold cmdSysTimeSet
  simp only [op]
  refine (ladder_passes p ?_).trans rfl
  rcases allowed with free | whole
  · simp [reserved, denied, gate, free]
  · simp [reserved, denied, gate, whole]

end TimeSetBody

/-- Settles O2: each OP passes its status table, and the mailbox answers what the body leaves, or holds the command until the hardware is
done. -/
theorem systemControlCompletes : Obligations.SystemControlCompletes := by
  intro m tag req s
  refine ⟨?block, ?domain, ?time⟩
  case block =>
    rintro _ rfl ready low high names up
    rw [exec_sysResetBlock]
    refine ⟨fun mp => ?mp, fun other => ?waits⟩
    case mp => exact mailbox_done tag ready (by decide) rfl (cmdSysResetBlock_mp rfl mp rfl low high (mp ▸ names) (mp ▸ up) rfl)
    case waits => exact mailbox_waits tag ready (by decide) rfl (cmdSysResetBlock_waits rfl rfl rfl low high names up other)
  case domain =>
    rintro _ rfl ready low high range
    rw [exec_sysPowerDomain]
    refine ⟨fun op => ?reads, fun op unlatched on rests unqueued => ?isOn, fun op slice off rests unqueued => ?isOff,
      fun op unlatched off rests unqueued spare => ?turnsOn, fun op slice on rests unqueued spare => ?turnsOff⟩
    case reads =>
      exact mailbox_done tag ready (by decide) rfl (cmdSysPowerDomain_answers rfl rfl op low high range (.inl rfl) (.inl rfl))
    case isOn =>
      exact mailbox_done tag ready (by decide) rfl
        (cmdSysPowerDomain_answers rfl rfl op low high range (.inr (.inl ⟨rfl, unlatched⟩)) (.inr ⟨rests, on, unqueued⟩))
    case isOff =>
      exact mailbox_done tag ready (by decide) rfl
        (cmdSysPowerDomain_answers rfl rfl op low high range (.inr (.inr ⟨rfl, slice⟩)) (.inr ⟨rests, off, unqueued⟩))
    case turnsOn =>
      exact mailbox_waits tag ready (by decide) rfl
        (cmdSysPowerDomain_switches rfl rfl op low high range (.inr (.inl ⟨rfl, unlatched⟩)) (by decide) rests off unqueued spare)
    case turnsOff =>
      exact mailbox_waits tag ready (by decide) rfl
        (cmdSysPowerDomain_switches rfl rfl op low high range (.inr (.inr ⟨rfl, slice⟩)) (by decide) rests on unqueued spare)
  case time =>
    rintro _ rfl ready reserved
    rw [exec_sysTimeSet]
    refine ⟨fun op second unfractioned => ?holds, fun op allowed => ?steps⟩
    case holds => exact mailbox_waits tag ready (by decide) rfl (cmdSysTimeSet_holds rfl rfl reserved op second unfractioned)
    case steps => exact mailbox_done tag ready (by decide) rfl (cmdSysTimeSet_steps rfl rfl reserved op allowed)

end Sys2Proof.Machine
end

section
/-! PROOFS of the statements on timing references and controls (O20, O21): what each body answers once its status table lets a request pass,
and from that the whole command. -/

namespace Sys2Proof.Machine

theorem exec_tmcRefConfig (m : Mbx) (tag : Byte) (req : List Word) (s : State) :
    exec (.tmcRefConfig m tag req) s = viaMailbox 0x0901 m tag req s := rfl

theorem exec_tmcSelect (m : Mbx) (tag : Byte) (req : List Word) (s : State) :
    exec (.tmcSelect m tag req) s = viaMailbox 0x0902 m tag req s := rfl

theorem exec_tmcStatus (m : Mbx) (tag : Byte) (req : List Word) (s : State) :
    exec (.tmcStatus m tag req) s = viaMailbox 0x0903 m tag req s := rfl

theorem exec_tmcDcoSteer (m : Mbx) (tag : Byte) (req : List Word) (s : State) :
    exec (.tmcDcoSteer m tag req) s = viaMailbox 0x0904 m tag req s := rfl

theorem exec_tmcOutputConfig (m : Mbx) (tag : Byte) (req : List Word) (s : State) :
    exec (.tmcOutputConfig m tag req) s = viaMailbox 0x0905 m tag req s := rfl

theorem exec_tmcHistory (m : Mbx) (tag : Byte) (req : List Word) (s : State) :
    exec (.tmcHistory m tag req) s = viaMailbox 0x0906 m tag req s := rfl

section RefConfigBody

variable {c : Ctx} {req : List Word} {p : State} {n : Nat} (denied : c.denied = false) (gate : c.gate = false)
  (reserved : resBad req [(0, 7, 6), (0, 31, 11)] = false) (candidate : fld (wd req 0) 5 0 = n) (range : n ≤ 41)

include denied gate reserved candidate range

/-- TMC_REF_CONFIG with READ = 0 past its status table: an enabled selector's port is there and binds (R317). -/
theorem cmdTmcRefConfig_sets (writes : bitOf (wd req 0) 10 = false) (fields : refBad n (bitOf (wd req 0) 9) req = false)
    (binds : 8 ≤ n → n < 40 → bitOf (wd req 0) 8 = true →
      (portAt p (fld (wd req 2) 7 0)).isSome = true ∧ refPortBad p n req = false) :
    cmdTmcRefConfig c req p = (.done .ok [], refApply n (bitOf (wd req 0) 8) (bitOf (wd req 0) 9) req p) := by
  unfold cmdTmcRefConfig
  simp only [candidate, writes]
  refine (ladder_passes p ?_).trans rfl
  cases selector : decide (8 ≤ n) && decide (n < 40) && bitOf (wd req 0) 8 with
  | false => simp [reserved, range, fields, denied, gate]
  | true =>
    simp only [Bool.and_eq_true, decide_eq_true_eq] at selector
    obtain ⟨⟨first, last⟩, enabled⟩ := selector
    obtain ⟨there, suits⟩ := binds first last enabled
    simp [reserved, range, fields, denied, gate, suits, Option.isNone_eq_false_iff.2 there]

/-- TMC_REF_CONFIG with READ = 1 past its status table (R317). -/
theorem cmdTmcRefConfig_reads (reads : bitOf (wd req 0) 10 = true) (en : bitOf (wd req 0) 8 = false) (pulse : bitOf (wd req 0) 9 = false)
    (words : wordsBad req 1 7 = false) : cmdTmcRefConfig c req p = (.done .ok (candOf p n).words, p) := by
  unfold cmdTmcRefConfig
  simp only [candidate, reads]
  refine (ladder_passes p ?_).trans rfl
  simp [reserved, range, en, pulse, words, denied, gate]

end RefConfigBody

section StatusBody

variable {c : Ctx} {req : List Word} {p : State} (gate : c.gate = false) (reserved : fld (wd req 0) 31 10 = 0)
  (range : fld (wd req 0) 9 4 ≤ 41)

include gate reserved range

/-- TMC_STATUS of a candidate past its status table: CLEAR is for a DPLL alone (R321). -/
theorem cmdTmcStatus_candidate (candidate : bitOf (wd req 0) 3 = true) (keeps : bitOf (wd req 0) 2 = false) :
    cmdTmcStatus c req p = (.done .ok (candWords p (fld (wd req 0) 1 0) (fld (wd req 0) 9 4)), p) := by
  unfold cmdTmcStatus
  simp only [candidate]
  refine (ladder_passes p ?_).trans rfl
  simp [reserved, range, keeps, gate]

/-- TMC_STATUS of a DPLL past its status table (R321). -/
theorem cmdTmcStatus_dpll (dpll : bitOf (wd req 0) 3 = false) :
    cmdTmcStatus c req p = (.done .ok (dpllWords p (fld (wd req 0) 1 0)),
      if bitOf (wd req 0) 2 then modDpll (fld (wd req 0) 1 0) (fun x => { x with sticky := 0 }) p else p) := by
  unfold cmdTmcStatus
  simp only [dpll]
  refine (ladder_passes p ?_).trans rfl
  simp [reserved, range, gate]

end StatusBody

/-- A TMC_HISTORY that finds records answers their number, the start of the first and their words (R322). -/
theorem histReply_records {α : Type} {l rest : List α} {r : α} (start : α → Nat) (words : α → List Word) (p : State) (found : l = r :: rest) :
    histReply (l.map (fun r => (start r, words r))) p = (.done .ok (w32 l.length :: nsWords (start r) ++ l.flatMap words), p) := by
  subst found
  simp [histReply, okWith, List.flatMap_map]

/-- The second that the AGE of a TMC_HISTORY names: 1 is the one that closed last (R322). -/
def secondAsked (req : List Word) (p : State) : Int := (p.tmc.secs : Int) + 1 - (fld (wd req 1) 19 0 : Int)

/-- The records of a DPLL that a TMC_HISTORY asks for (R322). -/
def dpllRecords (req : List Word) (p : State) : List DpllHist :=
  (histRun (·.sec) (secondAsked req p) (dpllOf p (fld (wd req 0) 7 2)).hist).take (fld (wd req 2) 6 0)

/-- The records of a candidate that a TMC_HISTORY asks for (R322). -/
def candRecords (req : List Word) (p : State) : List CandHist :=
  (histRun (·.sec) (secondAsked req p) (tget p.tmc.candHist [] (fld (wd req 0) 7 2))).take (fld (wd req 2) 6 0)

section HistoryBody

variable {c : Ctx} {req : List Word} {p : State} (gate : c.gate = false)
  (reserved : resBad req [(0, 31, 8), (1, 31, 20), (2, 31, 7)] = false) (age : 1 ≤ fld (wd req 1) 19 0) (asks : 1 ≤ fld (wd req 2) 6 0)

include gate reserved age asks

/-- TMC_HISTORY past its status table: KIND tells a DPLL's records from a candidate's, and bounds the number and the records (R322). -/
theorem cmdTmcHistory_passes {k : Nat} (is : fld (wd req 0) 1 0 = k) (kind : k = 1 ∨ k = 2)
    (range : fld (wd req 0) 7 2 ≤ (if k = 1 then 3 else 41)) (most : fld (wd req 2) 6 0 ≤ (if k = 1 then 63 else 126)) :
    cmdTmcHistory c req p =
      if k = 1 then histReply ((dpllRecords req p).map (fun r => (r.start, dpllHistWords r))) p
      else histReply ((candRecords req p).map (fun r => (r.start, candHistWords r))) p := by
  have given : k ≠ 0 := by omega
  have known : k ≠ 3 := by omega
  unfold cmdTmcHistory
  simp only [is]
  refine (ladder_passes p ?_).trans rfl
  simp [reserved, given, known, Nat.not_lt.2 range, Nat.ne_of_gt age, Nat.ne_of_gt asks, Nat.not_lt.2 most, gate]

/-- TMC_HISTORY of a DPLL with a record of the second at AGE (R322). -/
theorem cmdTmcHistory_dpll {r : DpllHist} {rest : List DpllHist} (dpll : fld (wd req 0) 1 0 = 1) (range : fld (wd req 0) 7 2 ≤ 3)
    (most : fld (wd req 2) 6 0 ≤ 63) (found : dpllRecords req p = r :: rest) :
    cmdTmcHistory c req p =
      (.done .ok (w32 (dpllRecords req p).length :: nsWords r.start ++ (dpllRecords req p).flatMap dpllHistWords), p) :=
  (cmdTmcHistory_passes gate reserved age asks dpll (.inl rfl) range most).trans
    ((if_pos rfl).trans (histReply_records DpllHist.start dpllHistWords p found))

/-- TMC_HISTORY of a candidate with a record of the second at AGE (R322). -/
theorem cmdTmcHistory_candidate {r : CandHist} {rest : List CandHist} (candidate : fld (wd req 0) 1 0 = 2) (range : fld (wd req 0) 7 2 ≤ 41)
    (most : fld (wd req 2) 6 0 ≤ 126) (found : candRecords req p = r :: rest) :
    cmdTmcHistory c req p =
      (.done .ok (w32 (candRecords req p).length :: nsWords r.start ++ (candRecords req p).flatMap candHistWords), p) :=
  (cmdTmcHistory_passes gate reserved age asks candidate (.inr rfl) range most).trans
    ((if_neg (by decide)).trans (histReply_records CandHist.start candHistWords p found))

/-- TMC_HISTORY with no record of the second at AGE: its start is open (R322, log 28). -/
theorem cmdTmcHistory_none {k : Nat} (is : fld (wd req 0) 1 0 = k) (kind : k = 1 ∨ k = 2)
    (range : fld (wd req 0) 7 2 ≤ (if k = 1 then 3 else 41)) (most : fld (wd req 2) 6 0 ≤ (if k = 1 then 63 else 126))
    (noDpll : k = 1 → histRun (·.sec) (secondAsked req p) (dpllOf p (fld (wd req 0) 7 2)).hist = [])
    (noCandidate : k = 2 → histRun (·.sec) (secondAsked req p) (tget p.tmc.candHist [] (fld (wd req 0) 7 2)) = []) :
    cmdTmcHistory c req p =
      (.done .ok [0, w32 (Config.freeNat p.free), w32 (Config.freeNat (p.free + 1))], { p with free := p.free + 2 }) := by
  rw [cmdTmcHistory_passes gate reserved age asks is kind range most, dpllRecords, candRecords]
  rcases kind with rfl | rfl
  · rw [noDpll rfl, List.take_nil]
    rfl
  · rw [noCandidate rfl, List.take_nil]
    rfl

end HistoryBody

/-- Settles O20: each command passes its status table, and the mailbox answers what the body leaves. -/
theorem timingReferencesComplete : Obligations.TimingReferencesComplete := by
  intro m tag req s p
  refine ⟨?sets, ?reads, ?candidate, ?dpll, ?dpllHistory, ?candHistory, ?noHistory⟩
  case sets =>
    rintro _ rfl ready reserved rfl range writes fields binds
    rw [exec_tmcRefConfig]
    exact mailbox_done tag ready (by decide) rfl (cmdTmcRefConfig_sets rfl rfl reserved rfl range writes fields binds)
  case reads =>
    rintro _ rfl ready reserved rfl range reads en pulse words
    rw [exec_tmcRefConfig]
    exact mailbox_done tag ready (by decide) rfl (cmdTmcRefConfig_reads rfl rfl reserved rfl range reads en pulse words)
  case candidate =>
    rintro rfl ready reserved range candidate keeps
    rw [exec_tmcStatus]
    exact mailbox_done tag ready (by decide) rfl (cmdTmcStatus_candidate rfl reserved range candidate keeps)
  case dpll =>
    rintro rfl ready reserved range dpll
    rw [exec_tmcStatus]
    exact mailbox_done tag ready (by decide) rfl (cmdTmcStatus_dpll rfl reserved range dpll)
  case dpllHistory =>
    rintro r _ rest rfl ready reserved kind range age asks most rfl found
    rw [exec_tmcHistory]
    exact mailbox_done tag ready (by decide) rfl (cmdTmcHistory_dpll rfl reserved age asks kind range most found)
  case candHistory =>
    rintro r _ rest rfl ready reserved kind range age asks most rfl found
    rw [exec_tmcHistory]
    exact mailbox_done tag ready (by decide) rfl (cmdTmcHistory_candidate rfl reserved age asks kind range most found)
  case noHistory =>
    rintro rfl ready reserved kind range age asks most noDpll noCandidate
    rw [exec_tmcHistory]
    exact mailbox_done tag ready (by decide) rfl (cmdTmcHistory_none rfl reserved age asks rfl kind range most noDpll noCandidate)

section SelectBody

variable {c : Ctx} {req : List Word} {p : State} {d op : Nat} (denied : c.denied = false) (gate : c.gate = false)
  (dpll : fld (wd req 0) 1 0 = d) (reserved : resBad req [(0, 3, 2), (0, 31, 14)] = false) (is : fld (wd req 0) 7 4 = op)

include denied gate dpll reserved is

/-- OP 1 of TMC_SELECT past its status table (R318). -/
theorem cmdTmcSelect_configures (configures : op = 1) (unnamed : fld (wd req 0) 13 8 = 0) (fields : dpllBad p d req = false) :
    cmdTmcSelect c req p = (.done .ok [], dpllConfig d ((List.range 4).map (fun i => wd req (i + 1))) p) := by
  subst configures
  unfold cmdTmcSelect
  simp only [dpll, is]
  refine (ladder_passes p ?_).trans rfl
  simp [reserved, unnamed, fields, denied, gate]

/-- OP 2 to 5 of TMC_SELECT past its status table: only the forcing of OP 2 names a candidate (R299, R318). -/
theorem cmdTmcSelect_forces (first : 2 ≤ op) (last : op ≤ 5) (range : fld (wd req 0) 13 8 ≤ 41)
    (named : op = 2 ∨ fld (wd req 0) 13 8 = 0) (words : wordsBad req 1 4 = false) :
    cmdTmcSelect c req p = (.done .ok [], dpllForce d op (fld (wd req 0) 13 8) p) := by
  unfold cmdTmcSelect
  simp only [dpll, is]
  refine (ladder_passes p ?table).trans ?effect
  case table =>
    have target : (if op = 2 then decide (41 < fld (wd req 0) 13 8) else fld (wd req 0) 13 8 != 0) = false := by
      split
      · exact decide_eq_false (Nat.not_lt.2 range)
      · simpa using named.resolve_left ‹_›
    have given : op ≠ 0 := by omega
    have known : ¬ 7 < op := by omega
    have notConfig : op ≠ 1 := by omega
    have notOcxo : op ≠ 7 := by omega
    simp [target, reserved, given, known, notConfig, notOcxo, words, denied, gate]
  case effect => interval_cases op <;> rfl

/-- OP 6 of TMC_SELECT past its status table (R318). -/
theorem cmdTmcSelect_reads (reads : op = 6) (unnamed : fld (wd req 0) 13 8 = 0) (words : wordsBad req 1 4 = false) :
    cmdTmcSelect c req p = (.done .ok (w32 ((wd (dpllOf p d).cfg 0).toNat + 64 * p.tmc.ocxoCfg) ::
      (List.range 3).map (fun i => wd (dpllOf p d).cfg (i + 1))), p) := by
  subst reads
  unfold cmdTmcSelect
  simp only [dpll, is]
  refine (ladder_passes p ?_).trans rfl
  simp [reserved, unnamed, words, denied, gate]

/-- OP 7 of TMC_SELECT past its status table: a new OCXO_IN starts to qualify (R289, R318). -/
theorem cmdTmcSelect_setsOcxo (sets : op = 7) (unnamed : fld (wd req 0) 13 8 = 0) (fields : resBad req [(1, 5, 0), (1, 31, 8)] = false)
    (known : fld (wd req 1) 7 6 ≠ 3) (words : wordsBad req 2 3 = false) :
    cmdTmcSelect c req p = (.done .ok [], if p.tmc.ocxoCfg = fld (wd req 1) 7 6 then p
      else { ocxoLost p with
        tmc.ocxoCfg := fld (wd req 1) 7 6, tmc.ocxoSince := if fld (wd req 1) 7 6 = 0 then none else some p.now }) := by
  subst sets
  unfold cmdTmcSelect
  simp only [dpll, is]
  refine (ladder_passes p ?_).trans rfl
  simp [reserved, unnamed, fields, known, words, denied, gate]

end SelectBody

/-- The DCO word that OP 1 or OP 2 of a TMC_DCO_STEER asks for: the one given, or that added to the present one (R319). -/
def dcoAsked (req : List Word) (d : Nat) (p : State) : Int :=
  sx 40 ((wd req 1).toNat + 4294967296 * fld (wd req 2) 7 0) + (if fld (wd req 0) 7 4 = 2 then (dpllOf p d).dco else 0)

theorem dcoAsked_eq (req : List Word) (d : Nat) (p : State) :
    (if fld (wd req 0) 7 4 = 2 then (dpllOf p d).dco + sx 40 ((wd req 1).toNat + 4294967296 * fld (wd req 2) 7 0)
      else sx 40 ((wd req 1).toNat + 4294967296 * fld (wd req 2) 7 0)) = dcoAsked req d p := by
  unfold dcoAsked
  split <;> omega

section SteerBody

variable {c : Ctx} {req : List Word} {p : State} {d : Nat} (denied : c.denied = false) (gate : c.gate = false)
  (dpll : fld (wd req 0) 1 0 = d) (reserved : resBad req [(0, 3, 2), (0, 31, 8), (2, 31, 8)] = false)

include denied gate dpll reserved

/-- OP 1 and OP 2 of TMC_DCO_STEER past its status table: the DPLL's mode is DCO, and the word stays within its range (R307, R319). -/
theorem cmdTmcDcoSteer_sets (mode : (dpllOf p d).st = .dco) (is : fld (wd req 0) 7 4 = 1 ∨ fld (wd req 0) 7 4 = 2)
    (most : dcoAsked req d p ≤ dcoMax) (least : -dcoMax ≤ dcoAsked req d p) :
    cmdTmcDcoSteer c req p = (.done .ok [], modDpll d (fun x => { x with dco := dcoAsked req d p }) p) := by
  have given : fld (wd req 0) 7 4 ≠ 0 := by omega
  have known : ¬ 3 < fld (wd req 0) 7 4 := by omega
  have word : fld (wd req 0) 7 4 ≠ 3 := by omega
  unfold cmdTmcDcoSteer
  simp only [dpll, dcoAsked_eq]
  refine (ladder_passes p ?_).trans (if_neg word)
  simp [reserved, given, known, word, Int.not_lt.2 most, Int.not_lt.2 least, mode, denied, gate]

/-- OP 3 of TMC_DCO_STEER past its status table (R307, R319). -/
theorem cmdTmcDcoSteer_spreads (is : fld (wd req 0) 7 4 = 3) (word : wd req 2 = 0) (runs : (dpllOf p d).st ≠ .freeRun)
    (holds : (dpllOf p d).st ≠ .holdover) : cmdTmcDcoSteer c req p = (.done .ok [], phaseAdj d (sx 32 (wd req 1).toNat) p) := by
  unfold cmdTmcDcoSteer
  simp only [dpll, is]
  refine (ladder_passes p ?_).trans rfl
  simp [reserved, word, runs, holds, denied, gate]

end SteerBody

section OutputBody

variable {c : Ctx} {req : List Word} {p : State} {n : Nat} (denied : c.denied = false) (gate : c.gate = false)
  (output : fld (wd req 0) 4 0 = n) (reserved : fld (wd req 0) 31 13 = 0) (range : n ≤ 19)

include denied gate output reserved range

/-- TMC_OUTPUT_CONFIG with READ = 0 past its status table (R320). -/
theorem cmdTmcOutputConfig_sets (writes : bitOf (wd req 0) 12 = false) (format : fld (wd req 0) 9 8 ≠ 3) (squelch : fld (wd req 0) 11 10 ≠ 3)
    (fields : resBad req [(1, 31, 30), (2, 31, 20), (4, 31, 16), (5, 15, 1)] = false)
    (kind : (if n < 16 then clkBad req else pulseBad req) = false) :
    cmdTmcOutputConfig c req p = (.done .ok [], outApply n ((List.range 6).map (fun i => wd req i)) p) := by
  unfold cmdTmcOutputConfig
  simp only [output, writes]
  refine (ladder_passes p ?_).trans rfl
  simp only [kind]
  simp [reserved, range, format, squelch, fields, denied, gate]

/-- TMC_OUTPUT_CONFIG with READ = 1 past its status table: its other fields are not looked at (R320, log 28). -/
theorem cmdTmcOutputConfig_reads (reads : bitOf (wd req 0) 12 = true) (words : wordsBad req 1 5 = false) :
    cmdTmcOutputConfig c req p = (.done .ok (w32 ((wd (outOf p n).words 0).toNat / 32 * 32 + n) ::
      (List.range 5).map (fun i => wd (outOf p n).words (i + 1))), p) := by
  unfold cmdTmcOutputConfig
  simp only [output, reads]
  refine (ladder_passes p ?_).trans rfl
  simp [reserved, range, words, denied, gate]

end OutputBody

/-- Settles O21: each OP passes its status table, and the mailbox answers what the body leaves. -/
theorem timingControlsComplete : Obligations.TimingControlsComplete := by
  intro m tag req s p
  refine ⟨?configures, ?forces, ?reads, ?ocxo, ?word, ?spread, ?output, ?outputRead⟩
  case configures =>
    rintro _ rfl ready rfl reserved op unnamed fields
    rw [exec_tmcSelect]
    exact mailbox_done tag ready (by decide) rfl (cmdTmcSelect_configures rfl rfl rfl reserved op rfl unnamed fields)
  case forces =>
    rintro _ _ rfl ready rfl reserved rfl first last range named words
    rw [exec_tmcSelect]
    exact mailbox_done tag ready (by decide) rfl (cmdTmcSelect_forces rfl rfl rfl reserved rfl first last range named words)
  case reads =>
    rintro _ _ rfl ready rfl reserved op unnamed words rfl
    rw [exec_tmcSelect]
    exact mailbox_done tag ready (by decide) rfl (cmdTmcSelect_reads rfl rfl rfl reserved op rfl unnamed words)
  case ocxo =>
    rintro _ _ rfl ready rfl reserved op unnamed fields rfl known words
    rw [exec_tmcSelect]
    exact mailbox_done tag ready (by decide) rfl (cmdTmcSelect_setsOcxo rfl rfl rfl reserved op rfl unnamed fields known words)
  case word =>
    rintro _ _ rfl ready rfl reserved mode rfl op most least
    rw [exec_tmcDcoSteer]
    exact mailbox_done tag ready (by decide) rfl (cmdTmcDcoSteer_sets rfl rfl rfl reserved mode op most least)
  case spread =>
    rintro _ rfl ready rfl reserved op word runs holds
    rw [exec_tmcDcoSteer]
    exact mailbox_done tag ready (by decide) rfl (cmdTmcDcoSteer_spreads rfl rfl rfl reserved op word runs holds)
  case output =>
    rintro _ rfl ready rfl reserved range writes format squelch fields kind
    rw [exec_tmcOutputConfig]
    exact mailbox_done tag ready (by decide) rfl (cmdTmcOutputConfig_sets rfl rfl rfl reserved range writes format squelch fields kind)
  case outputRead =>
    rintro _ rfl ready rfl reserved range reads words
    rw [exec_tmcOutputConfig]
    exact mailbox_done tag ready (by decide) rfl (cmdTmcOutputConfig_reads rfl rfl rfl reserved range reads words)

end Sys2Proof.Machine
end

section
/-! PROOFS of the statements on timing events and on the idle step (O40, O48): an event whose condition holds acts on the state, and from that
each clause. -/

namespace Sys2Proof.Machine

/-- A timer that started at d, n ns ago or more, has run for n ns. -/
theorem ranFor_of_le {t : Option Nat} {d n : Nat} {s : State} (since : t = some d) (past : d + n ≤ s.now) : ranFor t n s = true := by
  simp [ranFor, since, past]

/-- The state in which a written time is taken at its crossing: the second closes where a pulse is due, and no time waits (R309). -/
def atCrossing (s : State) : State := { (if pulseDue s then secondPulse s else s) with tmc.waitingTime := none }

/-- A crossing with no time waiting changes nothing (R309, log 15). -/
theorem execWholeSecondCrossing_idle {s : State} (nothing : s.tmc.waitingTime = none) : execWholeSecondCrossing s = .next s := by
  rw [execWholeSecondCrossing, nothing]

section Crossing

variable {s : State} {v : Nat} (waits : s.tmc.waitingTime = some v) (runs : tmcRuns s = true)
  (crosses : pulseDue s = true ∨ devNs s % 1000000000 ≤ 5)

include waits runs crosses

/-- A written time is taken at the whole-second crossing, unless it is the time already (R309). -/
theorem execWholeSecondCrossing_crosses :
    execWholeSecondCrossing s = .next (settle (finishWaiting (fun k => k == .timeSet) .ok []
      (if devSec (atCrossing s) * 1000000000 = v then atCrossing s
       else stepTime (v * 2 ^ 48 + (atCrossing s).tmc.dt.toNat % (1000000000 * 2 ^ 48)) (atCrossing s)))) := by
  rw [execWholeSecondCrossing, waits]
  exact if_pos (by simpa [runs] using crosses)

/-- Another time than the present one: device time steps to it, its sub-second phase kept (R309). -/
theorem execWholeSecondCrossing_steps (other : devSec (atCrossing s) * 1000000000 ≠ v) :
    execWholeSecondCrossing s = .next (settle (finishWaiting (fun k => k == .timeSet) .ok []
      (stepTime (v * 2 ^ 48 + (atCrossing s).tmc.dt.toNat % (1000000000 * 2 ^ 48)) (atCrossing s)))) := by
  rw [execWholeSecondCrossing_crosses waits runs crosses, if_neg other]

/-- The time that it is already: the command completes without a step (R309). -/
theorem execWholeSecondCrossing_stays (same : devSec (atCrossing s) * 1000000000 = v) :
    execWholeSecondCrossing s = .next (settle (finishWaiting (fun k => k == .timeSet) .ok [] (atCrossing s))) := by
  rw [execWholeSecondCrossing_crosses waits runs crosses, if_pos same]

end Crossing

/-- An output that is held low restarts at its new setting (R313). -/
theorem execClkoutRestart_held {s : State} {n : Fin 20} {t : Nat} (held : (outOf s n.val).restartUntil = some t) :
    execClkoutRestart n s =
      .next (gateSettle (modOut n.val (fun o => { o with restartUntil := none, run := o.words, turn := none }) s)) :=
  nextIf_holds (by rw [held]; rfl)

section CandidateEvents

variable {s : State} {x : Fin 42}

/-- An enabled candidate with activity loses it (R290). -/
theorem execCandidateActivityLoss_active (on : candOn (candOf s x.val) = true) (active : (candOf s x.val).activity = true) :
    execCandidateActivityLoss x s =
      .next (settle (candFault x.val 1 (modCand x.val (fun x => { x with activity := false, actLost := true }) s))) :=
  settledIf_holds (by rw [on, active]; rfl)

/-- A sample that departs by more than PJ_THR is a phase jump (R292). -/
theorem execCandidatePhaseJump_departs {phase : Int} (on : candOn (candOf s x.val) = true) (threshold : cPjThr (candOf s x.val) ≠ 0)
    (departs : 65536 * cPjThr (candOf s x.val) < departure s x.val phase) :
    execCandidatePhaseJump x phase s = .next (settle (candFault x.val 3 s)) :=
  settledIf_holds (by simp [on, threshold, departs])

/-- A candidate whose wait is over, with activity and within ACCEPT, qualifies (R293). -/
theorem execCandidateWaitExpiry_qualifies {t : Nat} (waiting : (candOf s x.val).st = .waiting) (timer : (candOf s x.val).timerUntil = some t)
    (past : t ≤ s.now) (active : (candOf s x.val).activity = true) (within : (candOf s x.val).off1.natAbs ≤ cAccept (candOf s x.val)) :
    execCandidateWaitExpiry x s =
      .next (settle (evtRef x.val 4 (modCand x.val (fun x => { x with st := .qualified, timerUntil := none, timerLeft := 0 }) s))) :=
  settledIf_holds (by simp [waiting, due_of_le timer past, active, within])

end CandidateEvents

section DpllEvents

variable {s : State} {d : Fin 4} {t : Nat}

/-- A DPLL within its lock criteria for 2 s locks (R299). -/
theorem execDpllLockDetect_held (locking : (dpllOf s d.val).st = .locking) (valid : (dpllOf s d.val).valid = true)
    (since : (dpllOf s d.val).lockSince = some t) (past : t + 2000000000 ≤ s.now) :
    execDpllLockDetect d s = .next (settle (enterState d.val .locked s)) :=
  settledIf_holds (by simp [locking, valid, ranFor_of_le since past])

/-- A DPLL outside its lock criteria for 1 s has lost lock (R299). -/
theorem execDpllLockLoss_held (locked : (dpllOf s d.val).st = .locked) (valid : (dpllOf s d.val).valid = true)
    (since : (dpllOf s d.val).lossSince = some t) (past : t + 1000000000 ≤ s.now) :
    execDpllLockLoss d s = .next (settle (enterState d.val .locking s)) :=
  settledIf_holds (by simp [locked, valid, ranFor_of_le since past])

/-- A PHASE_ADJ spread that has run its time ends (R307). -/
theorem execPhaseAdjSpreadEnd_over {r : Spread} (spread : (dpllOf s d.val).spread = some r) (past : r.start + r.len ≤ s.now) :
    execPhaseAdjSpreadEnd d s = .next (dcoSettle (modDpll d.val (fun x => { x with spread := none }) s)) := by
  simp [execPhaseAdjSpreadEnd, spread, past]

end DpllEvents

section Ocxo

variable {s : State} (configured : s.tmc.ocxoCfg ≠ 0)

include configured

/-- The OCXO qualifies after 60 s (R289). -/
theorem execOcxoQualify_waited {t : Nat} (inactive : s.tmc.ocxoActive = false) (since : s.tmc.ocxoSince = some t)
    (past : t + 60000000000 ≤ s.now) :
    execOcxoQualify s = .next (raise 0x0904 clsState 0 0 1 0 0 0 { s with tmc.ocxoActive := true }) :=
  nextIf_holds (by simp [configured, inactive, ranFor_of_le since past])

/-- A configured OCXO that is lost starts to qualify again (R289). -/
theorem execOcxoDisqualify_configured : execOcxoDisqualify s = .next { ocxoLost s with tmc.ocxoSince := some s.now } :=
  congrArg Host.Outcome.next (if_neg configured)

end Ocxo

/-- Settles O40: under each clause's premises the event's condition holds; the pulses, the second boundary, the switch completion, the loops,
the fronts and the fades act in every state. -/
theorem timingEventsComplete : Obligations.TimingEventsComplete := by
  intro s
  refine ⟨?nothingWaits, ?steps, ?stays, ?reference, ?restart, ?pulse, ?boundary, ?activity, ?jump, ?qualifies, ?lock, ?loss, ?switch, ?ocxo,
    ?ocxoLost, ?loop, ?front, ?fade, ?spread⟩
  case nothingWaits => exact execWholeSecondCrossing_idle
  case steps =>
    rintro v _ waits runs crosses rfl other
    exact execWholeSecondCrossing_steps waits runs crosses other
  case stays =>
    rintro v _ waits runs crosses rfl same
    exact execWholeSecondCrossing_stays waits runs crosses same
  case reference => exact fun x sub => rfl
  case restart => exact fun n t held => execClkoutRestart_held held
  case pulse => exact fun k => rfl
  case boundary => exact fun l => rfl
  case activity => exact fun x on active => execCandidateActivityLoss_active on active
  case jump => exact fun x phase on threshold departs => execCandidatePhaseJump_departs on threshold departs
  case qualifies => exact fun x t waiting timer past active within => execCandidateWaitExpiry_qualifies waiting timer past active within
  case lock => exact fun d t locking valid since past => execDpllLockDetect_held locking valid since past
  case loss => exact fun d t locked valid since past => execDpllLockLoss_held locked valid since past
  case switch => exact fun d phi => rfl
  case ocxo => exact fun t configured inactive since past => execOcxoQualify_waited configured inactive since past
  case ocxoLost => exact execOcxoDisqualify_configured
  case loop => exact fun d sub => rfl
  case front => exact fun l => rfl
  case fade => exact fun x => rfl
  case spread => exact fun d r spread past => execPhaseAdjSpreadEnd_over spread past

/-- A step on an empty queue is one tick of the clock (log 1). -/
theorem step_idle {s : State} (empty : s.pending = []) : step s = .next (tick s) := by
  rw [step, empty]

/-- Before the TMC has left reset a tick passes 5 ns and nothing else (R308). -/
theorem tick_held {s : State} (held : tmcRuns s = false) : tick s = { s with now := s.now + 5 } := by
  rw [tick, held]
  rfl

/-- A tick of a running TMC: device time and the time since reset advance by the step of the clock (R308). -/
theorem tick_running {s : State} (runs : tmcRuns s = true) :
    tick s = { s with now := s.now + 5, tmc.dt := BitVec.ofInt 112 (s.tmc.dt.toNat + dtStep s), tmc.lapse := s.tmc.lapse + (dtStep s).toNat } :=
  if_pos runs

/-- Settles O48: a step on an empty queue is a tick, and the advance that it names is the clock's. -/
theorem idleStepIsOneCycle : Obligations.IdleStepIsOneCycle := by
  rintro s _ empty rfl
  rw [step_idle empty]
  exact ⟨fun held => congrArg Host.Outcome.next (tick_held held), fun runs => congrArg Host.Outcome.next (tick_running runs)⟩

end Sys2Proof.Machine
end

section
/-! PROOFS of the statements on the Temper filters (O22, O23): what each body answers once its status table lets a request pass, and from that
the whole command. -/

namespace Sys2Proof.Machine

theorem exec_temperConfig (m : Mbx) (tag : Byte) (req : List Word) (s : State) :
    exec (.temperConfig m tag req) s = viaMailbox 0x0A01 m tag req s := rfl

theorem exec_temperBankLoad (m : Mbx) (tag : Byte) (req : List Word) (s : State) :
    exec (.temperBankLoad m tag req) s = viaMailbox 0x0A02 m tag req s := rfl

theorem exec_temperBankSwap (m : Mbx) (tag : Byte) (req : List Word) (s : State) :
    exec (.temperBankSwap m tag req) s = viaMailbox 0x0A03 m tag req s := rfl

theorem exec_temperStatus (m : Mbx) (tag : Byte) (req : List Word) (s : State) :
    exec (.temperStatus m tag req) s = viaMailbox 0x0A04 m tag req s := rfl

section TemperConfigBody

variable {c : Ctx} {req : List Word} {p : State} {op d n : Nat} (denied : c.denied = false) (gate : c.gate = false)
  (reserved : fld (wd req 0) 31 12 = 0) (is : fld (wd req 0) 3 0 = op) (dpll : fld (wd req 0) 5 4 = d) (candidate : fld (wd req 0) 11 6 = n)

include denied gate reserved is dpll candidate

/-- OP 1 of TEMPER_CONFIG past its status table: R and D wait for the next front-sample instant (R332, R344, R347). -/
theorem cmdTemperConfig_setsRates (sets : op = 1) (noDpll : d = 0) (noCandidate : n = 0) (rates : temperRatesBad p req = false) :
    cmdTemperConfig c req p = (.done .ok [], { p with tmc.rateDue := some (temperR req, temperD req) }) := by
  subst sets
  unfold cmdTemperConfig
  simp only [is, dpll, candidate]
  refine (ladder_passes p ?_).trans rfl
  simp [reserved, noDpll, noCandidate, rates, denied, gate]

/-- OP 2 of TEMPER_CONFIG past its status table (R332, R347). -/
theorem cmdTemperConfig_setsRho (sets : op = 2) (noCandidate : n = 0) (rho : temperRhoBad p d req = false) :
    cmdTemperConfig c req p = (.done .ok [], modDpll d (fun x => { x with rho := temperRho req }) p) := by
  subst sets
  unfold cmdTemperConfig
  simp only [is, dpll, candidate]
  refine (ladder_passes p ?_).trans rfl
  simp [reserved, noCandidate, rho, denied, gate]

/-- OP 3 of TEMPER_CONFIG past its status table: the front's reset waits for the next front-sample instant (R344, R347). -/
theorem cmdTemperConfig_resets (resets : op = 3) (noDpll : d = 0) (range : n ≤ 41) (words : wordsBad req 1 3 = false) :
    cmdTemperConfig c req p = (.done .ok [], modCand n (fun x => { x with front := { x.front with resetDue := true } }) p) := by
  subst resets
  unfold cmdTemperConfig
  simp only [is, dpll, candidate]
  refine (ladder_passes p ?_).trans rfl
  simp [reserved, noDpll, range, words, denied, gate]

/-- OP 4 of TEMPER_CONFIG past its status table (R347). -/
theorem cmdTemperConfig_reads (reads : op = 4) (noCandidate : n = 0) (words : wordsBad req 1 3 = false) :
    cmdTemperConfig c req p = (.done .ok (w32 (cfgR p + 65536 * cfgD p) :: rhoWords (dpllOf p d).rho), p) := by
  subst reads
  unfold cmdTemperConfig
  simp only [is, dpll, candidate]
  refine (ladder_passes p ?_).trans rfl
  simp [reserved, noCandidate, words, denied, gate]

end TemperConfigBody

/-- The words that TEMPER_STATUS answers for a DPLL (R348). -/
def temperDpllWords (p : State) (x : Dpll) : List Word :=
  w32 ((candUse x).getD 63 + 64 * b2n x.valid + 128 * b2n x.linear) :: rhoWords x.rho ++
    [w32 (updateRate p.tmc.cicR p.tmc.firD x.rho), w32 (bwEff p x), x.heldCnt]

/-- The samples that a fade has still to pass (R348). -/
def fadeLeft (f : Front) : Nat := match f.fade with | some e => e.len - e.done | none => 0

/-- The words that TEMPER_STATUS answers for a candidate (R348). -/
def temperCandWords (p : State) (x : Candidate) : List Word :=
  [w32 (b2n x.front.active + 2 * b2n x.front.fade.isSome + 4 * b2n x.front.pend.isSome + 8 * b2n (frontValid x) + 16 * b2n x.pulse +
      32 * b2n x.front.bankA.typ + 64 * b2n x.front.bankB.typ + 128 * b2n (decide (511 ≤ x.front.staged.length))),
    w32 (fadeLeft x.front + 65536 * x.front.pend.getD 0), w32 x.front.bankA.gd, w32 x.front.bankB.gd,
    w32 (bankCrc x.front.bankA), w32 (bankCrc x.front.bankB), w32 (gdTotal p x)]

/-- TEMPER_STATUS past its status table: its lowest bit tells a DPLL from a candidate (R348). -/
theorem cmdTemperStatus_passes {c : Ctx} {req : List Word} {p : State} (gate : c.gate = false)
    (reserved : resBad req [(0, 1, 1), (0, 31, 10)] = false) (range : fld (wd req 0) 7 2 ≤ 41) :
    cmdTemperStatus c req p =
      (.done .ok (if bitOf (wd req 0) 0 then temperDpllWords p (dpllOf p (fld (wd req 0) 9 8))
        else temperCandWords p (candOf p (fld (wd req 0) 7 2))), p) := by
  unfold cmdTemperStatus
  refine (ladder_passes p ?table).trans ?effect
  case table => simp [reserved, range, gate]
  case effect => cases bitOf (wd req 0) 0 <;> rfl

/-- Settles O22: each OP and each form of TEMPER_STATUS passes its status table, and the mailbox answers what the body leaves. -/
theorem temperConfigCompletes : Obligations.TemperConfigCompletes := by
  intro m tag req s p
  refine ⟨?rates, ?rho, ?resets, ?reads, ?dpll, ?candidate⟩
  case rates =>
    rintro rfl ready reserved op noDpll noCandidate rates
    rw [exec_temperConfig]
    exact mailbox_done tag ready (by decide) rfl (cmdTemperConfig_setsRates rfl rfl reserved op noDpll noCandidate rfl rfl rfl rates)
  case rho =>
    rintro _ rfl ready reserved op rfl noCandidate rho
    rw [exec_temperConfig]
    exact mailbox_done tag ready (by decide) rfl (cmdTemperConfig_setsRho rfl rfl reserved op rfl noCandidate rfl rfl rho)
  case resets =>
    rintro _ rfl ready reserved op rfl noDpll range words
    rw [exec_temperConfig]
    exact mailbox_done tag ready (by decide) rfl (cmdTemperConfig_resets rfl rfl reserved op noDpll rfl rfl rfl range words)
  case reads =>
    rintro _ rfl ready reserved op rfl noCandidate words
    rw [exec_temperConfig]
    exact mailbox_done tag ready (by decide) rfl (cmdTemperConfig_reads rfl rfl reserved op rfl noCandidate rfl rfl words)
  case dpll =>
    rintro _ rfl ready reserved range dpll rfl
    rw [exec_temperStatus]
    exact mailbox_done tag ready (by decide) rfl ((cmdTemperStatus_passes rfl reserved range).trans (by rw [if_pos dpll]; rfl))
  case candidate =>
    rintro _ rfl ready reserved range candidate rfl
    rw [exec_temperStatus]
    exact mailbox_done tag ready (by decide) rfl ((cmdTemperStatus_passes rfl reserved range).trans (by rw [candidate]; rfl))

section BankLoadBody

variable {c : Ctx} {req : List Word} {p : State} {n op first cnt : Nat} (denied : c.denied = false) (gate : c.gate = false)
  (candidate : fld (wd req 0) 5 0 = n) (reserved : resBad req [(0, 7, 6), (0, 15, 12), (0, 31, 23), (1, 31, 17), (2, 31, 17)] = false)
  (range : n ≤ 41) (filters : (candOf p n).pulse = false) (begins : fld (wd req 1) 8 0 = first) (count : fld (wd req 1) 16 9 = cnt)
  (is : fld (wd req 0) 9 8 = op)

include denied gate candidate reserved range filters begins count is

section Segment

variable {t : Table Int} (tops : (List.range cnt).any (fun i => fld (wd req (3 + i)) 31 24 != 0) = false) (loads : op = 1)
  (unnamed : fld (wd req 0) 22 16 = 0) (start : first ≤ 510) (most : cnt ≤ 250) (last : first + cnt ≤ 511)
  (staged : segStaged first cnt req (candOf p n).front.staged = t)

include tops loads unnamed start most last staged

/-- OP 1 of TEMPER_BANK_LOAD without COMMIT past its status table: the segment is staged (R339). -/
theorem cmdTemperBankLoad_stages (keeps : bitOf (wd req 0) 10 = false) (untyped : bitOf (wd req 0) 11 = false)
    (delay : fld (wd req 2) 16 0 = 0) :
    cmdTemperBankLoad c req p = (.done .ok [], modCand n (fun x => { x with front := { x.front with staged := t } }) p) := by
  subst loads
  unfold cmdTemperBankLoad
  simp only [candidate, begins, count, is, staged, keeps]
  refine (ladder_passes p ?_).trans rfl
  simp [reserved, range, filters, tops, unnamed, start, most, last, untyped, delay, denied, gate]

/-- OP 1 of TEMPER_BANK_LOAD with COMMIT past its status table: the whole record meets the bank's rules, GD goes with TYPE alone, and no fade
runs or waits (R337, R339, R342). -/
theorem cmdTemperBankLoad_commits (commits : bitOf (wd req 0) 10 = true)
    (delay : fld (wd req 2) 16 0 = 0 ↔ bitOf (wd req 0) 11 = false) (delayMost : fld (wd req 2) 16 0 ≤ 130560) (full : 511 ≤ t.length)
    (meets : bankOk (stagedCoefs t) (bitOf (wd req 0) 11) (fld (wd req 2) 16 0) = true) (unfaded : (candOf p n).front.fade = none)
    (unasked : (candOf p n).front.pend = none) :
    cmdTemperBankLoad c req p = (.done .ok [], modCand n (fun x => { x with
      front := putInactive { factory := false, coef := stagedCoefs t, typ := bitOf (wd req 0) 11, gd := fld (wd req 2) 16 0 }
        { x.front with staged := [] } }) p) := by
  subst loads
  have delayBad : (if bitOf (wd req 0) 11 then decide (fld (wd req 2) 16 0 = 0) || decide (130560 < fld (wd req 2) 16 0)
      else fld (wd req 2) 16 0 != 0) = false := by
    cases typ : bitOf (wd req 0) 11 <;> simp_all
  unfold cmdTemperBankLoad
  simp only [candidate, begins, count, is, staged, commits]
  refine (ladder_passes p ?_).trans rfl
  simp [reserved, range, filters, tops, unnamed, start, most, last, delayBad, full, meets, unfaded, unasked, denied, gate]

end Segment

/-- OP 2 of TEMPER_BANK_LOAD past its status table: a bank is copied while no fade runs or waits (R339, R342). -/
theorem cmdTemperBankLoad_copies (copies : op = 2) (noFirst : first = 0) (noCount : cnt = 0) (keeps : bitOf (wd req 0) 10 = false)
    (untyped : bitOf (wd req 0) 11 = false) (delay : fld (wd req 2) 16 0 = 0) (source : fld (wd req 0) 21 16 ≤ 41)
    (unfaded : (candOf p n).front.fade = none) (unasked : (candOf p n).front.pend = none) :
    cmdTemperBankLoad c req p = (.done .ok [], modCand n (fun x => { x with
      front := putInactive (frontBank (candOf p (fld (wd req 0) 21 16)).front (bitOf (wd req 0) 22)) x.front }) p) := by
  subst copies
  unfold cmdTemperBankLoad
  simp only [candidate, begins, count, is, keeps]
  refine (ladder_passes p ?_).trans rfl
  simp [reserved, range, filters, noFirst, noCount, untyped, delay, source, unfaded, unasked, denied, gate]

end BankLoadBody

/-- TEMPER_BANK_SWAP past its status table: OP 1 asks for a fade, OP 2 withdraws the one that waits (R341, R343). -/
theorem cmdTemperBankSwap_passes {c : Ctx} {req : List Word} {p : State} {n : Nat} (denied : c.denied = false) (gate : c.gate = false)
    (candidate : fld (wd req 0) 5 0 = n) (reserved : resBad req [(0, 7, 6), (0, 31, 10), (1, 31, 16)] = false) (range : n ≤ 41)
    (filters : (candOf p n).pulse = false) (is : fld (wd req 0) 9 8 = 1 ∨ (fld (wd req 0) 9 8 = 2 ∧ fld (wd req 1) 15 0 = 0)) :
    cmdTemperBankSwap c req p = (.done .ok [], modCand n (fun x => { x with
      front := if fld (wd req 0) 9 8 = 1 then swapRequest (fld (wd req 1) 15 0) x.front else { x.front with pend := none } }) p) := by
  unfold cmdTemperBankSwap
  simp only [candidate]
  refine (ladder_passes p ?_).trans rfl
  rcases is with asks | ⟨withdraws, noLength⟩
  · simp [reserved, range, filters, asks, denied, gate]
  · simp [reserved, range, filters, withdraws, noLength, denied, gate]

/-- Settles O23: each OP passes its status table, and the mailbox answers what the body leaves. -/
theorem temperBanksComplete : Obligations.TemperBanksComplete := by
  intro m tag req s p
  refine ⟨?stages, ?commits, ?copies, ?swap⟩
  case stages =>
    rintro _ _ _ _ rfl ready rfl reserved range filters tops rfl rfl op unnamed start most last rfl keeps untyped delay
    rw [exec_temperBankLoad]
    exact mailbox_done tag ready (by decide) rfl
      (cmdTemperBankLoad_stages rfl rfl rfl reserved range filters rfl rfl op tops rfl unnamed start most last rfl keeps untyped delay)
  case commits =>
    rintro _ _ _ _ rfl ready rfl reserved range filters tops rfl rfl op unnamed start most last rfl commits delay delayMost full meets
      unfaded unasked
    rw [exec_temperBankLoad]
    exact mailbox_done tag ready (by decide) rfl
      (cmdTemperBankLoad_commits rfl rfl rfl reserved range filters rfl rfl op tops rfl unnamed start most last rfl commits delay delayMost
        full meets unfaded unasked)
  case copies =>
    rintro _ rfl ready rfl reserved range filters _ op noFirst noCount keeps untyped delay source unfaded unasked
    rw [exec_temperBankLoad]
    exact mailbox_done tag ready (by decide) rfl
      (cmdTemperBankLoad_copies rfl rfl rfl reserved range filters rfl rfl op rfl noFirst noCount keeps untyped delay source unfaded
        unasked)
  case swap =>
    rintro _ rfl ready rfl reserved range filters is
    rw [exec_temperBankSwap]
    exact mailbox_done tag ready (by decide) rfl (cmdTemperBankSwap_passes rfl rfl rfl reserved range filters is)

end Sys2Proof.Machine
end

section
/-! PROOFS of the statement on staging (O46): a mailbox command goes through its mailbox, said once for all of them, and what a taken one does
on the ACTIVE twin of a pair. -/

namespace Sys2Proof.Machine

/-- A mailbox command is its words sent and its bell rung (R416), and its code is one of 16 bits. -/
theorem exec_mailCommand {i : Instr} {code : Nat} {m : Mbx} {tag : Byte} {req : List Word} (s : State)
    (mail : mailCommand i = some (code, m, tag, req)) : exec i s = viaMailbox code m tag req s ∧ code < 65536 := by
  cases i <;> cases mail <;> exact ⟨rfl, by decide⟩

section Completes

variable {i : Instr} {code : Nat} {m : Mbx} {tag : Byte} {req : List Word} {s t : State} {f : Body}
  (mail : mailCommand i = some (code, m, tag, req)) (body : bodyOf code = some f) (ready : s.ready code m req)

include mail body ready

/-- A mailbox command whose body completes with OK. -/
theorem exec_completes {ws : List Word} (runs : f { mbx := some m.val } req (s.posted code m tag req) = (.done .ok ws, t)) :
    exec i s = .next (t.answered code m req ws) := by
  obtain ⟨sent, short⟩ := exec_mailCommand s mail
  rw [sent, mailbox_done tag ready short body runs]

/-- A mailbox command whose body waits for the hardware. -/
theorem exec_waits {k : WaitKind} (runs : f { mbx := some m.val } req (s.posted code m tag req) = (.waits k, t)) :
    exec i s = .next (settle { journalAdd code req t with
      host.waiting := (journalAdd code req t).host.waiting ++ [{ mbx := some m.val, kind := k }] }) := by
  obtain ⟨sent, short⟩ := exec_mailCommand s mail
  rw [sent, mailbox_waits tag ready short body runs]

/-- A mailbox command whose body answers DEFERRED. -/
theorem exec_defers (runs : f { mbx := some m.val } req (s.posted code m tag req) = (.done .deferred [], t)) :
    exec i s = .next (settle (respond m.val .deferred [] (journalAdd code req t))) := by
  obtain ⟨sent, short⟩ := exec_mailCommand s mail
  rw [sent, mailbox_deferred tag ready short body runs]

/-- A mailbox command that its status table refuses changes its mailbox alone. -/
theorem exec_refuses {st : Status} (refused : (Reply.done st []).accepted = false)
    (runs : f { mbx := some m.val } req (s.posted code m tag req) = (.done st [], s.posted code m tag req)) :
    exec i s = .next (settle (respond m.val st [] (s.posted code m tag req))) := by
  obtain ⟨sent, short⟩ := exec_mailCommand s mail
  rw [sent, viaMailbox_taken tag ready.totakes, serve_ready tag ready short body, runs]
  simp only [refused]
  rfl

end Completes

/-- A pair-wide command taken on the ACTIVE twin of a pair (R367, R368). -/
theorem serve_staged {code : Nat} {m : Mbx} {req : List Word} {s : State} (tag : Byte) {f : Body} (taken : s.takes code m req)
    (short : code < 65536) (body : bodyOf code = some f) (paired : s.twin.paired = true) (active : s.twin.role = .active)
    (wide : pairWide code req = true) :
    serve m.val (s.posted code m tag req) =
      (let p := s.posted code m tag req
       let r := f { mbx := some m.val } req (shadowOf s.twin.staging p)
       if stagingFull s.twin then respond m.val .busy [] p
       else respond m.val (stagedReply r.1).1 (stagedReply r.1).2
         (if r.1.accepted then { p with twin.staging := s.twin.staging ++ [{ code := code, req := req }] } else p)) := by
  have permitted : (s.twin.paired && s.twin.role != .active && (pairWide code req || pairControl code req)) = false := by
    simp [active]
  have stages : (s.twin.paired && s.twin.role == .active && pairWide code req) = true := by simp [paired, active, wide]
  rw [serve_taken tag taken short body]
  simp only [permitted, stages, Bool.true_and, if_true]

/-- Settles O46: the command is taken, and staged where the staging area has room. -/
theorem pairWideStagedOnActive : Obligations.PairWideStagedOnActive := by
  rintro i s _ code m tag req f _ mail taken paired active wide body rfl rfl
  obtain ⟨sent, short⟩ := exec_mailCommand s mail
  rw [sent, viaMailbox_taken tag taken, serve_staged tag taken short body paired active wide]

end Sys2Proof.Machine
end

section
/-! PROOFS of the statements on the machine and on the fatal latch (O47, O51, O52, O54 to O57): what a step or a command can be, said once, and
from that what each leaves; the supply (R399) is what Kept leaves out. -/

namespace Sys2Proof.Machine

/-- Settles O47: a step takes the command in front of the queue. -/
theorem stepRunsFrontCommand : Obligations.StepRunsFrontCommand := by
  intro c r s front
  rw [step, front]

/-- The crossing of a whole second answers a next state, whether a time waits or not (R309). -/
theorem execWholeSecondCrossing_answers (s : State) : ∃ t, execWholeSecondCrossing s = .next t := by
  rw [execWholeSecondCrossing]
  split
  · exact ⟨_, rfl⟩
  · split
    · exact ⟨_, rfl⟩
    · exact ⟨_, rfl⟩

/-- Settles O51: a mailbox command, and every event but the crossing of a whole second, is a next state whatever the state. -/
theorem everyCommandAnswers : Obligations.EveryCommandAnswers := by
  intro c s
  cases c
  case wholeSecondCrossing => exact execWholeSecondCrossing_answers s
  all_goals exact ⟨_, rfl⟩

/-- The device after the removal of every supply (R399). -/
def supplyRemoved (s : State) : State := { coldState s with pins.railsOk := false, fault := {} }

theorem exec_supplyRemoval (s : State) : exec .supplyRemoval s = .next (supplyRemoved s) := rfl

/-- The rails return where they were off (R383). -/
theorem exec_supplyPowerUp_off {s : State} (off : s.pins.railsOk = false) :
    exec .supplyPowerUp s = .next { s with pins.railsOk := true, fault.tickBase := s.now } := by
  rw [exec, execSupplyPowerUp, off]
  rfl

/-- With the rails up there is nothing to return. -/
theorem exec_supplyPowerUp_on {s : State} (on : s.pins.railsOk = true) : exec .supplyPowerUp s = .next s := by
  rw [exec, execSupplyPowerUp, on]
  rfl

/-- Settles O55. -/
theorem supplyRemovalClearsLatch : Obligations.SupplyRemovalClearsLatch :=
  fun s => ⟨exec_supplyRemoval s, exec_supplyPowerUp_off⟩

/-- What a command can do: it removes the supplies, it restarts the tick counter as the rails return, or it keeps what Kept says. -/
theorem exec_cases {c : Instr} {s t : State} (h : exec c s = .next t) :
    (c = .supplyRemoval ∧ t = supplyRemoved s) ∨
      (s.pins.railsOk = false ∧ t = { s with pins.railsOk := true, fault.tickBase := s.now }) ∨ Kept s t := by
  by_cases removal : c = .supplyRemoval
  · subst removal
    rw [exec_supplyRemoval] at h
    injection h with h
    exact .inl ⟨rfl, h.symm⟩
  by_cases powerUp : c = .supplyPowerUp
  · subst powerUp
    cases rails : s.pins.railsOk
    case false =>
      rw [exec_supplyPowerUp_off rails] at h
      injection h with h
      exact .inr (.inl ⟨rfl, h.symm⟩)
    case true =>
      rw [exec_supplyPowerUp_on rails] at h
      injection h with h
      exact .inr (.inr (h ▸ Kept.refl s))
  · exact .inr (.inr (exec_kept c s t h removal powerUp))

/-- Settles O52: the removal and the return of the supply leave the queue and the time as well. -/
theorem commandsKeepQueueAndTime : Obligations.CommandsKeepQueueAndTime := by
  intro c s t h
  rcases exec_cases h with ⟨-, rfl⟩ | ⟨-, rfl⟩ | kept
  · exact ⟨rfl, rfl⟩
  · exact ⟨rfl, rfl⟩
  · exact ⟨kept.pending, kept.now⟩

/-- What FatalLatchHolds says of one step: the latch, once set, stays, and with the rails up the tick counter goes on (R399). -/
def KeepsLatch (s t : State) : Prop :=
  (s.fault.latch.isSome = true → t.fault.latch = s.fault.latch) ∧ (s.pins.railsOk = true → t.fault.tickBase = s.fault.tickBase)

theorem Kept.keepsLatch {s t : State} (h : Kept s t) : KeepsLatch s t := ⟨h.latch, fun _ => h.ticks⟩

/-- No command but the removal of the supplies clears the latch or restarts the tick counter of a device with its rails up. -/
theorem exec_keepsLatch {c : Instr} {s t : State} (h : exec c s = .next t) (stays : c ≠ .supplyRemoval) : KeepsLatch s t := by
  rcases exec_cases h with ⟨removal, -⟩ | ⟨off, rfl⟩ | kept
  · exact absurd removal stays
  · exact ⟨fun _ => rfl, fun on => by rw [off] at on; nomatch on⟩
  · exact kept.keepsLatch

/-- A step is an idle one, or the command in front. -/
theorem step_cases {s t : State} (h : step s = .next t) :
    t = tick s ∨ ∃ c r, s.pending = c :: r ∧ exec c { s with pending := r } = .next t := by
  unfold step at h
  split at h
  case h_1 =>
    injection h with idle
    exact .inl idle.symm
  case h_2 c r front => exact .inr ⟨c, r, front, h⟩

/-- Settles O54: an idle step moves the time alone, and no other command than the removal touches the latch or, with the rails up, the ticks. -/
theorem fatalLatchHolds : Obligations.FatalLatchHolds := by
  intro s t h noRemoval
  rcases step_cases h with rfl | ⟨c, r, front, run⟩
  · exact (tick_kept s).keepsLatch
  · have kept := exec_keepsLatch run fun removal => noRemoval r (removal ▸ front)
    exact kept

/-- What FusesHold says of one step: the anti-rollback counter does not fall, no key's revocation changes, no retirement is taken back. -/
def KeepsFuses (s t : State) : Prop :=
  s.fw.counter ≤ t.fw.counter ∧ t.fw.revoked = s.fw.revoked ∧ (∀ k, s.boot.retired.getLsbD k = true → t.boot.retired.getLsbD k = true)

theorem Kept.keepsFuses {s t : State} (h : Kept s t) : KeepsFuses s t := ⟨h.counter, h.revoked, h.retired⟩

/-- The fuses and the flash survive the removal of the supplies, and its return. -/
theorem exec_keepsFuses {c : Instr} {s t : State} (h : exec c s = .next t) : KeepsFuses s t := by
  rcases exec_cases h with ⟨-, rfl⟩ | ⟨-, rfl⟩ | kept
  · exact ⟨Nat.le_refl _, rfl, fun _ retired => retired⟩
  · exact ⟨Nat.le_refl _, rfl, fun _ retired => retired⟩
  · exact kept.keepsFuses

/-- Settles O56: an idle step moves the time alone, and every command keeps the fuses. -/
theorem fusesHold : Obligations.FusesHold := by
  intro s t h
  rcases step_cases h with rfl | ⟨c, r, -, run⟩
  · exact (tick_kept s).keepsFuses
  · have kept := exec_keepsFuses run
    exact kept

/-- A fatal latch that is set stays set over what every operation keeps. -/
theorem Kept.fatalSet {s t : State} (h : Kept s t) (latched : fatalSet s = true) : fatalSet t = true := by
  unfold Machine.fatalSet at *
  rw [h.latch latched]
  exact latched

/-- The fatal latch is set, whether it was before or not; what follows keeps it (R397, R398). -/
theorem fatalLatch_sets (a : Nat) (s : State) : fatalSet (fatalLatch a s) = true := by
  unfold fatalLatch
  extract_lets marked _ latched pulsed out q _ domains finished
  split
  case isTrue already => exact already
  case isFalse =>
    have sets : Machine.fatalSet latched = true := rfl
    have pulse : Kept latched pulsed := setReason_kept 8 a (faultPulse_kept (.refl _))
    have twin : Kept latched out := twinOut_kept 7 pulse
    have off : Kept latched domains :=
      foldS_kept (twin.trans ((Kept.set rfl rfl rfl rfl rfl rfl).2 (.refl out))) fun d _ => domainOut_kept d .isoFatal (.refl _)
    have done : Kept latched finished := foldS_kept off fun e _ => finishDomain_kept e.1 (.refl _)
    exact (fatalState_kept done).fatalSet sets

/-- A source of group 19 has no injection, so that its event is classified as it stands (R397). -/
theorem sourceEvent_fatal {a : Nat} {s : State} (group : srcGroup a = some 19) (runs : fcRuns s = true) :
    sourceEvent a .real s = fatalLatch a s := by
  simp [sourceEvent, runs, group, classify]

/-- FAULT_INJECT of a source of group 16 and above (R397, R404). -/
theorem cmdFaultInject_uninjectable {c : Ctx} {req : List Word} {p : State} {g : Nat} (group : srcGroup (fld (wd req 0) 11 0) = some g)
    (upper : 16 ≤ g) : cmdFaultInject c req p = (.done .invalid [], p) := by
  simp [cmdFaultInject, group, upper]

/-- Settles O57: an event of group 19 meets no mask and no injection on its way to the latch, which what follows keeps; FAULT_INJECT refuses
the source. -/
theorem latchSourcesAreFatal : Obligations.LatchSourcesAreFatal := by
  intro a s group
  refine ⟨fun t runs h => ?latches, fun m tag req ready source => ?refused⟩
  case latches =>
    have event : exec (.faultSourceEvent a .real) s = .next (settle (fatalLatch a.val s)) :=
      congrArg nextSettled (sourceEvent_fatal group runs)
    have kept : Kept (fatalLatch a.val s) (settle (fatalLatch a.val s)) := settle_kept (.refl _)
    rw [← Host.Outcome.next.inj (event.symm.trans h)]
    exact kept.fatalSet (fatalLatch_sets a.val s)
  case refused =>
    exact exec_refuses rfl rfl ready rfl (cmdFaultInject_uninjectable (source ▸ group) (by decide))

end Sys2Proof.Machine
end

section
/-! PROOFS of the frame of the signal-path mailbox commands (O44): Sys2Proof/Laws/Untouched.lean says of every body that it touches nothing
beyond the signal and the host interface; posting the command, recording it and answering it do not either. -/

namespace Sys2Proof.Machine

/-- Posting a command touches the host interface alone. -/
theorem posted_still {code : Nat} {m : Mbx} {req : List Word} {s : State} (tag : Byte) (taken : s.takes code m req) :
    Untouched s (s.posted code m tag req) := by
  rw [s.posted_eq tag taken]
  exact (Untouched.set rfl).2 (.refl s)

/-- A command that runs at once leaves what its body leaves, whatever its status. -/
theorem serve_still {code : Nat} {m : Mbx} {req : List Word} {s : State} (tag : Byte) {f : Body} (ready : s.ready code m req)
    (short : code < 65536) (body : bodyOf code = some f) (still : ∀ c r p, Untouched p (f c r p).2) :
    Untouched s (serve m.val (s.posted code m tag req)) := by
  rw [serve_ready tag ready short body]
  have ran := (posted_still tag ready.totakes).trans (still { mbx := some m.val } req (s.posted code m tag req))
  dsimp only
  split
  · exact respond_still _ _ _ ((journalAdd_still code req ran).ite ran)
  · exact (Untouched.set rfl).2 ((journalAdd_still code req ran).ite ran)

/-- A signal-path mailbox command has a body, and that leaves what an Untouched operation leaves. -/
theorem signalCommand_still {i : Instr} {code : Nat} {m : Mbx} {req : List Word} (signal : signalCommand i = some (code, m, req)) :
    ∃ tag f, mailCommand i = some (code, m, tag, req) ∧ bodyOf code = some f ∧ ∀ c r p, Untouched p (f c r p).2 := by
  cases i <;> cases signal
  case sysInfo.refl tag => exact ⟨tag, _, rfl, rfl, fun c req p => cmdSysInfo_still c req (.refl p)⟩
  case sysEventMask.refl tag => exact ⟨tag, _, rfl, rfl, fun c req p => cmdSysEventMask_still c req (.refl p)⟩
  case sysViolationRead.refl tag => exact ⟨tag, _, rfl, rfl, fun c req p => cmdSysViolationRead_still c req (.refl p)⟩
  case sysContinue.refl tag => exact ⟨tag, _, rfl, rfl, fun c req p => cmdSysContinue_still c req (.refl p)⟩
  case portCreate.refl tag => exact ⟨tag, _, rfl, rfl, fun c req p => cmdPortCreate_still c req (.refl p)⟩
  case portStatus.refl tag => exact ⟨tag, _, rfl, rfl, fun c req p => cmdPortStatus_still c req (.refl p)⟩
  case alignConfig.refl tag => exact ⟨tag, _, rfl, rfl, fun c req p => cmdAlignConfig_still c req (.refl p)⟩
  case ohWrite.refl tag => exact ⟨tag, _, rfl, rfl, fun c req p => cmdOhWrite_still c req (.refl p)⟩
  case ttiSet.refl tag => exact ⟨tag, _, rfl, rfl, fun c req p => cmdTtiSet_still c req (.refl p)⟩
  case ttiRead.refl tag => exact ⟨tag, _, rfl, rfl, fun c req p => cmdTtiRead_still c req (.refl p)⟩
  case defectRead.refl tag => exact ⟨tag, _, rfl, rfl, fun c req p => cmdDefectRead_still c req (.refl p)⟩
  case defectConfig.refl tag => exact ⟨tag, _, rfl, rfl, fun c req p => cmdDefectConfig_still c req (.refl p)⟩
  case pmRead.refl tag => exact ⟨tag, _, rfl, rfl, fun c req p => cmdPmRead_still c req (.refl p)⟩
  case pmHistory.refl tag => exact ⟨tag, _, rfl, rfl, fun c req p => cmdPmHistory_still c req (.refl p)⟩
  case chanCreate.refl tag => exact ⟨tag, _, rfl, rfl, fun c req p => cmdChanCreate_still c req (.refl p)⟩
  case chanModify.refl tag => exact ⟨tag, _, rfl, rfl, fun c req p => cmdChanModify_still c req (.refl p)⟩
  case xcConnect.refl tag => exact ⟨tag, _, rfl, rfl, fun c req p => cmdXcConnect_still c req (.refl p)⟩
  case xcDisconnect.refl tag => exact ⟨tag, _, rfl, rfl, fun c req p => cmdXcDisconnect_still c req (.refl p)⟩
  case braidCreate.refl tag => exact ⟨tag, _, rfl, rfl, fun c req p => cmdBraidCreate_still c req (.refl p)⟩
  case braidMemberAdd.refl tag => exact ⟨tag, _, rfl, rfl, fun c req p => cmdBraidMemberAdd_still c req (.refl p)⟩
  case braidMemberRemove.refl tag => exact ⟨tag, _, rfl, rfl, fun c req p => cmdBraidMemberRemove_still c req (.refl p)⟩
  case braidStatus.refl tag => exact ⟨tag, _, rfl, rfl, fun c req p => cmdBraidStatus_still c req (.refl p)⟩
  case queueConfig.refl tag => exact ⟨tag, _, rfl, rfl, fun c req p => cmdQueueConfig_still c req (.refl p)⟩
  case queueCount.refl tag => exact ⟨tag, _, rfl, rfl, fun c req p => cmdQueueCount_still c req (.refl p)⟩
  case queueFlush.refl tag => exact ⟨tag, _, rfl, rfl, fun c req p => cmdQueueFlush_still c req (.refl p)⟩
  case queueScan.refl tag => exact ⟨tag, _, rfl, rfl, fun c req p => cmdQueueScan_still c req (.refl p)⟩
  case poolStatus.refl tag => exact ⟨tag, _, rfl, rfl, fun c req p => cmdPoolStatus_still c req (.refl p)⟩
  case protGroupCreate.refl tag => exact ⟨tag, _, rfl, rfl, fun c req p => cmdProtGroupCreate_still c req (.refl p)⟩
  case protCommand.refl tag => exact ⟨tag, _, rfl, rfl, fun c req p => cmdProtCommand_still c req (.refl p)⟩
  case weltCreate.refl tag => exact ⟨tag, _, rfl, rfl, fun c req p => cmdWeltCreate_still c req (.refl p)⟩
  case weltStatus.refl tag => exact ⟨tag, _, rfl, rfl, fun c req p => cmdWeltStatus_still c req (.refl p)⟩
  case tmcSelect.refl tag => exact ⟨tag, _, rfl, rfl, fun c req p => cmdTmcSelect_still c req (.refl p)⟩
  case tmcStatus.refl tag => exact ⟨tag, _, rfl, rfl, fun c req p => cmdTmcStatus_still c req (.refl p)⟩
  case tmcDcoSteer.refl tag => exact ⟨tag, _, rfl, rfl, fun c req p => cmdTmcDcoSteer_still c req (.refl p)⟩
  case tmcOutputConfig.refl tag => exact ⟨tag, _, rfl, rfl, fun c req p => cmdTmcOutputConfig_still c req (.refl p)⟩
  case temperConfig.refl tag => exact ⟨tag, _, rfl, rfl, fun c req p => cmdTemperConfig_still c req (.refl p)⟩
  case temperBankLoad.refl tag => exact ⟨tag, _, rfl, rfl, fun c req p => cmdTemperBankLoad_still c req (.refl p)⟩
  case temperBankSwap.refl tag => exact ⟨tag, _, rfl, rfl, fun c req p => cmdTemperBankSwap_still c req (.refl p)⟩
  case temperStatus.refl tag => exact ⟨tag, _, rfl, rfl, fun c req p => cmdTemperStatus_still c req (.refl p)⟩
  case twinConfig.refl tag => exact ⟨tag, _, rfl, rfl, fun c req p => cmdTwinConfig_still c req (.refl p)⟩
  case twinStatus.refl tag => exact ⟨tag, _, rfl, rfl, fun c req p => cmdTwinStatus_still c req (.refl p)⟩
  case twinSwitch.refl tag => exact ⟨tag, _, rfl, rfl, fun c req p => cmdTwinSwitch_still c req (.refl p)⟩
  case twinCommit.refl tag => exact ⟨tag, _, rfl, rfl, fun c req p => cmdTwinCommit_still c req (.refl p)⟩
  case faultRead.refl tag => exact ⟨tag, _, rfl, rfl, fun c req p => cmdFaultRead_still c req (.refl p)⟩
  case fwStage.refl tag => exact ⟨tag, _, rfl, rfl, fun c req p => cmdFwStage_still c req (.refl p)⟩
  case fwActivate.refl tag => exact ⟨tag, _, rfl, rfl, fun c req p => cmdFwActivate_still c req (.refl p)⟩
  case fwStatus.refl tag => exact ⟨tag, _, rfl, rfl, fun c req p => cmdFwStatus_still c req (.refl p)⟩
  case logRead.refl tag => exact ⟨tag, _, rfl, rfl, fun c req p => cmdLogRead_still c req (.refl p)⟩
  case laneStatus.refl tag => exact ⟨tag, _, rfl, rfl, fun c req p => cmdLaneStatus_still c req (.refl p)⟩
  case ohRead.refl tag => exact ⟨tag, _, rfl, rfl, fun c req p => cmdOhRead_still c req (.refl p)⟩
  case protStatus.refl tag => exact ⟨tag, _, rfl, rfl, fun c req p => cmdProtStatus_still c req (.refl p)⟩
  case tmcRefConfig.refl tag => exact ⟨tag, _, rfl, rfl, fun c req p => cmdTmcRefConfig_still c req (.refl p)⟩
  case tmcHistory.refl tag => exact ⟨tag, _, rfl, rfl, fun c req p => cmdTmcHistory_still c req (.refl p)⟩

/-- Settles O44: the command is sent and taken, its body and what follows leave the frame. -/
theorem signalCommandFrame : Obligations.SignalCommandFrame := by
  intro i s t code m req signal ready h
  obtain ⟨tag, f, mail, body, still⟩ := signalCommand_still signal
  obtain ⟨sent, short⟩ := exec_mailCommand s mail
  rw [sent, viaMailbox_taken tag ready.totakes] at h
  rw [← Host.Outcome.next.inj h]
  exact settle_still (serve_still tag ready short body still)

end Sys2Proof.Machine
end

section
/-! PROOFS of the statements on the twin's commands (O24, O25): what each body answers once its status table lets a request pass, and from that
the whole command. -/

namespace Sys2Proof.Machine

/-- A field of a word that is 0. -/
@[simp] theorem fld_zero (hi lo : Nat) : fld 0#32 hi lo = 0 := by simp [fld]

/-- What TWIN_CONFIG OP 1 sets (R374): to the pair of a standby belongs a new resynchronisation. -/
def twinConfigured (req : List Word) (again : Bool) (p : State) : State :=
  { p with
    twin.paired := bitOf (wd req 0) 4, twin.follow := bitOf (wd req 0) 5, twin.claimUnsync := bitOf (wd req 0) 6
    twin.resynced := p.twin.resynced && bitOf (wd req 0) 4 && !again
    twin.resyncing := p.twin.resyncing && bitOf (wd req 0) 4 && !again }

/-- Whether the partner of a standby that is made PAIRED says that it is PAIRED itself. -/
def pairsAgain (req : List Word) (p : State) : Bool :=
  bitOf (wd req 0) 4 && p.twin.role == .standby && (match p.twin.partner with | some h => h.paired | none => false)

/-- Port n with HOMING hom; 0 is a dual-homed port (R374). -/
def portHomed (n hom : Nat) (p : State) : State :=
  { p with twin.homing := if hom = 0 then tdel p.twin.homing n else tset p.twin.homing n hom }

/-- The words of TWIN_CONFIG OP 3 (R374). -/
def twinConfigWords (p : State) : List Word :=
  w32 (3 + 16 * b2n p.twin.paired + 32 * b2n p.twin.follow + 64 * b2n p.twin.claimUnsync) :: (List.range 16).map (homingWord p)

section ConfigBody

variable {c : Ctx} {req : List Word} {p : State} (denied : c.denied = false) (gate : c.gate = false) (low : fld (wd req 0) 31 7 = 0)

include denied gate low

/-- OP 1 of TWIN_CONFIG past its status table: PAIRED goes on where the strap does not conflict, and off where nothing is staged. -/
theorem cmdTwinConfig_sets (op : fld (wd req 0) 3 0 = 1) (word : wd req 1 = 0)
    (allowed : if bitOf (wd req 0) 4 then p.twin.strapConflict = false else p.twin.staging = []) :
    cmdTwinConfig c req p = (.done .ok [], claimCheck (twinConfigured req (pairsAgain req p) p)) := by
  unfold cmdTwinConfig
  simp only [op, word]
  refine (ladder_passes p ?_).trans rfl
  cases pair : bitOf (wd req 0) 4
  case false =>
    rw [pair] at allowed
    have unstaged : p.twin.staging = [] := allowed
    simp [low, denied, gate, unstaged]
  case true =>
    rw [pair] at allowed
    have free : p.twin.strapConflict = false := allowed
    simp [low, denied, gate, free]

/-- OP 2 of TWIN_CONFIG past its status table: the port does not exist yet, and the cross-feed has room for what is single-homed (R373). -/
theorem cmdTwinConfig_homes (high : fld (wd req 1) 31 10 = 0) (op : fld (wd req 0) 3 0 = 2)
    (flags : fld (wd req 0) 6 4 = 0) (homing : fld (wd req 1) 9 8 ≠ 3)
    (unmade : thas p.port (fld (wd req 1) 7 0) = false) (room : fld (wd req 1) 9 8 = 0 ∨ xfeedLoad p ≤ 1600000000) :
    cmdTwinConfig c req p = (.done .ok [], portHomed (fld (wd req 1) 7 0) (fld (wd req 1) 9 8) p) := by
  unfold cmdTwinConfig
  simp only [op]
  refine (ladder_passes p ?_).trans rfl
  rcases room with dual | fits
  · simp [low, high, denied, gate, flags, unmade, dual]
  · simp [low, high, denied, gate, flags, homing, unmade, Nat.not_lt.2 fits]

/-- OP 3 of TWIN_CONFIG past its status table. -/
theorem cmdTwinConfig_reads (op : fld (wd req 0) 3 0 = 3) (flags : fld (wd req 0) 6 4 = 0) (word : wd req 1 = 0) :
    cmdTwinConfig c req p = (.done .ok (twinConfigWords p), p) := by
  unfold cmdTwinConfig
  simp only [op, word]
  refine (ladder_passes p ?_).trans rfl
  simp [low, denied, gate, flags]

end ConfigBody

/-- The words of TWIN_STATUS (R375). -/
def twinStatusWords (p : State) : List Word :=
  let t := p.twin
  [w32 (roleCode t.role + 8 * b2n p.pins.strap + 16 * b2n t.paired + 32 * t.partnerSt + 128 * b2n t.linkUp + 256 * b2n t.vhbOk +
      512 * b2n t.hbxOk + 1024 * b2n t.arbAsserted + 2048 * b2n t.arbDrive + 4096 * b2n t.ready + 8192 * b2n t.histSync +
      16384 * b2n t.arbFault + 32768 * b2n t.strapConflict), t.txn, w32 t.staging.length] ++ nsWords t.roleTime ++
    [t.switchovers, t.hbLost, t.resyncs, w32 (xfeedLoad p / 10000), satWord t.timeOffset]

/-- TWIN_STATUS has no operand that could be refused. -/
theorem cmdTwinStatus_answers {c : Ctx} {req : List Word} {p : State} (gate : c.gate = false) :
    cmdTwinStatus c req p = (.done .ok (twinStatusWords p), p) := by
  unfold cmdTwinStatus
  refine (ladder_passes p ?_).trans rfl
  simp [gate]

/-- Settles O24: each OP passes its status table, and the mailbox answers what the body leaves. -/
theorem twinSettingsComplete : Obligations.TwinSettingsComplete := by
  intro m tag req s p
  refine ⟨?sets, ?homes, ?reads, ?status⟩
  case sets =>
    rintro _ _ rfl ready low - op word rfl allowed rfl
    exact exec_completes rfl rfl ready (cmdTwinConfig_sets rfl rfl low op word allowed)
  case homes =>
    rintro rfl ready low high op flags homing unmade room
    exact exec_completes rfl rfl ready (cmdTwinConfig_homes rfl rfl low high op flags homing unmade room)
  case reads =>
    rintro rfl ready low - op flags word
    exact exec_completes rfl rfl ready (cmdTwinConfig_reads rfl rfl low op flags word)
  case status =>
    rintro _ rfl ready rfl
    exact exec_completes rfl rfl ready (cmdTwinStatus_answers rfl)

section SwitchBody

variable {c : Ctx} {req : List Word} {p : State} (gate : c.gate = false) (high : fld (wd req 0) 31 4 = 0) (runs : p.twin.run = true)

include gate high runs

/-- OP 1 of TWIN_SWITCH past its status table: the partner is there to take over (R363). -/
theorem cmdTwinSwitch_handsOver (op : fld (wd req 0) 3 0 = 1) (active : p.twin.role = .active) (link : p.twin.linkUp = true)
    (ready : p.twin.partnerSt = 2) :
    cmdTwinSwitch c req p = (.waits (.switch 1),
      setRole .handover 3 { p with twin.handoverAt := some (devFine p + 100000 * 65536), twin.seenActive := false }) := by
  unfold cmdTwinSwitch
  simp only [op]
  refine (ladder_passes p ?_).trans rfl
  simp [gate, high, runs, active, link, ready]

/-- OP 2 of TWIN_SWITCH past its status table: with the link down the line alone can tell (R365). -/
theorem cmdTwinSwitch_yields (op : fld (wd req 0) 3 0 = 2) (active : p.twin.role = .active) (link : p.twin.linkUp = false) :
    cmdTwinSwitch c req p = (.waits (.switch 2), setRole .yield 4 { p with twin.yieldUntil := some (p.now + 1000000) }) := by
  unfold cmdTwinSwitch
  simp only [op]
  refine (ladder_passes p ?_).trans rfl
  simp [gate, high, runs, active, link]

/-- OP 3 of TWIN_SWITCH past its status table: the claim of a partner that is long silent is taken (R365, R376). -/
theorem cmdTwinSwitch_claims (op : fld (wd req 0) 3 0 = 3) (standby : p.twin.role = .standby) (lost : lostLong p = true)
    (asserted : p.twin.arbAsserted = true) : cmdTwinSwitch c req p = (.done .ok [], setRole .active 5 p) := by
  unfold cmdTwinSwitch
  simp only [op]
  refine (ladder_passes p ?_).trans rfl
  simp [gate, high, runs, standby, lost, asserted]

/-- OP 4 of TWIN_SWITCH past its status table: OUT is left where the fatal latch is clear (R376). -/
theorem cmdTwinSwitch_leavesOut (op : fld (wd req 0) 3 0 = 4) (out : p.twin.role = .out) (unlatched : fatalSet p = false) :
    cmdTwinSwitch c req p = (.done .ok [], claimCheck (setRole .startup 9 p)) := by
  unfold cmdTwinSwitch
  simp only [op]
  refine (ladder_passes p ?_).trans rfl
  simp [gate, high, runs, out, unlatched]

end SwitchBody

section CommitBody

variable {c : Ctx} {req : List Word} {p : State} (denied : c.denied = false) (gate : c.gate = false) (high : fld (wd req 0) 31 4 = 0)

include denied gate high

/-- OP 1 of TWIN_COMMIT past its status table: the staged commands go out as one transaction (R368). -/
theorem cmdTwinCommit_sends (op : fld (wd req 0) 3 0 = 1) (paired : p.twin.paired = true) (link : p.twin.linkUp = true)
    (ready : p.twin.partnerSt = 2) (idle : p.twin.commit = .none) :
    cmdTwinCommit c req p = (.waits .commit, sendFrames 0x11 1 { p with
      twin.commit := .prepared (p.now + 2000000 + 10000 * p.twin.staging.length), twin.commitLen := p.twin.staging.length }) := by
  unfold cmdTwinCommit
  simp only [op]
  refine (ladder_passes p ?_).trans rfl
  simp [denied, gate, high, paired, link, ready, idle]

/-- What TWIN_COMMIT OP 2 keeps of the staging area: a transaction under way (log 31). -/
def unstaged (p : State) : State := { p with twin.staging := p.twin.staging.take p.twin.commitLen }

/-- OP 2 of TWIN_COMMIT past its status table. -/
theorem cmdTwinCommit_discards (op : fld (wd req 0) 3 0 = 2) (paired : p.twin.paired = true) :
    cmdTwinCommit c req p = (.done .ok (commitWords (unstaged p)), unstaged p) := by
  unfold cmdTwinCommit
  simp only [op]
  refine (ladder_passes p ?_).trans rfl
  simp [denied, gate, high, paired]

/-- OP 3 of TWIN_COMMIT past its status table. -/
theorem cmdTwinCommit_reads (op : fld (wd req 0) 3 0 = 3) : cmdTwinCommit c req p = (.done .ok (commitWords p), p) := by
  unfold cmdTwinCommit
  simp only [op]
  refine (ladder_passes p ?_).trans rfl
  simp [denied, gate, high]

end CommitBody

/-- Settles O25: each OP passes its status table, and the mailbox answers what the body leaves or holds the command until its end. -/
theorem twinActionsComplete : Obligations.TwinActionsComplete := by
  intro m tag req s p
  refine ⟨?handsOver, ?yields, ?claims, ?leavesOut, ?sends, ?discards, ?reads⟩
  case handsOver =>
    rintro rfl ready high runs op active link partner
    exact exec_waits rfl rfl ready (cmdTwinSwitch_handsOver rfl high runs op active link partner)
  case yields =>
    rintro rfl ready high runs op active link
    exact exec_waits rfl rfl ready (cmdTwinSwitch_yields rfl high runs op active link)
  case claims =>
    rintro rfl ready high runs op standby lost asserted
    exact exec_completes rfl rfl ready (cmdTwinSwitch_claims rfl high runs op standby lost asserted)
  case leavesOut =>
    rintro rfl ready high runs op out unlatched
    exact exec_completes rfl rfl ready (cmdTwinSwitch_leavesOut rfl high runs op out unlatched)
  case sends =>
    rintro rfl ready high op paired link partner idle
    exact exec_waits rfl rfl ready (cmdTwinCommit_sends rfl rfl high op paired link partner idle)
  case discards =>
    rintro _ rfl ready high op paired rfl
    exact exec_completes rfl rfl ready (cmdTwinCommit_discards rfl rfl high op paired)
  case reads =>
    rintro rfl ready high op
    exact exec_completes rfl rfl ready (cmdTwinCommit_reads rfl rfl high op)

end Sys2Proof.Machine
end

section
/-! PROOFS of the statements on the fault collector's commands (O26, O27): what each body answers once its status table lets a request pass,
and from that the whole command. -/

namespace Sys2Proof.Machine

section FaultReadBody

variable {c : Ctx} {req : List Word} {p : State} (gate : c.gate = false) (high : fld (wd req 0) 31 18 = 0)

include gate high

/-- OP 1 of FAULT_READ past its status table (R401). -/
theorem cmdFaultRead_source (op : fld (wd req 0) 3 0 = 1) (exists_ : (srcGroup (fld (wd req 0) 15 4)).isSome = true) :
    cmdFaultRead c req p = (.done .ok (sourceWords p (fld (wd req 0) 15 4)), p) := by
  unfold cmdFaultRead
  simp only [op]
  refine (ladder_passes p ?_).trans rfl
  simp [gate, high, exists_]

/-- Whether FAULT_READ OP 2 shows a source (R401). -/
def sourceShown (p : State) (a : Nat) : Bool :=
  (srcGroup a).isSome && (srcState p a != .idle || (srcOf p a).path || (srcOf p a).silent)

/-- The words of FAULT_READ OP 2 for block b: a bit for each of its 1,024 addresses (R401). -/
def blockWords (p : State) (b : Nat) : List Word :=
  w32 b :: (List.range 32).map (fun j =>
    w32 (((List.range 32).map (fun i => if sourceShown p (1024 * b + 32 * j + i) then 2 ^ i else 0)).foldl (· + ·) 0))

/-- OP 2 of FAULT_READ past its status table (R401). -/
theorem cmdFaultRead_block (op : fld (wd req 0) 3 0 = 2) :
    cmdFaultRead c req p = (.done .ok (blockWords p (fld (wd req 0) 17 16)), p) := by
  unfold cmdFaultRead
  simp only [op]
  refine (ladder_passes p ?_).trans rfl
  simp [gate, high]

/-- The words of FAULT_READ OP 3: the latch with its source and tick, the reasons, FAULT_N and the tick now (R401). -/
def latchWords (p : State) : List Word :=
  let l := p.fault.latch.getD (0, 0)
  [w32 (b2n (fatalSet p) + 16 * l.1), w32 l.2, w32 (l.2 / 2 ^ 32), w32 (reasonSet p.fault.reasons),
    w32 (b2n (faultLow p) + 2 * b2n p.fault.faultAssert), w32 (tickNow p), w32 (tickNow p / 2 ^ 32)]

/-- OP 3 of FAULT_READ past its status table (R401). -/
theorem cmdFaultRead_latch (op : fld (wd req 0) 3 0 = 3) : cmdFaultRead c req p = (.done .ok (latchWords p), p) := by
  unfold cmdFaultRead
  simp only [op]
  refine (ladder_passes p ?_).trans rfl
  simp [gate, high]

end FaultReadBody

/-- Whether a source is one that FAULT_CLEAR leaves: ISOLATED or FATAL (R402). -/
def stuck (p : State) (a : Nat) : Bool := srcState p a == .isolated || srcState p a == .fatal

/-- FAULT_CLEAR past its status table: a group's sources, or a single one that is neither ISOLATED nor FATAL (R402). -/
theorem cmdFaultClear_clears {c : Ctx} {req : List Word} {p : State} {a g : Nat} (gate : c.gate = false) (high : fld (wd req 0) 31 13 = 0)
    (source : fld (wd req 0) 11 0 = a) (group : srcGroup a = some g)
    (clears : bitOf (wd req 0) 12 = true ∨ (srcState p a ≠ .isolated ∧ srcState p a ≠ .fatal)) :
    cmdFaultClear c req p =
      (let l := if bitOf (wd req 0) 12 then groupSources g else [a]
       (.done .ok [w32 (b2n (l.any (fun a => (srcOf (allDue p) a).acted && !(stuck p a))))],
         foldS l (fun a s => if stuck s a then s else clearSrc a s) (allDue p))) := by
  unfold cmdFaultClear
  simp only [source, group]
  refine (ladder_passes p ?_).trans rfl
  rcases clears with whole | ⟨notIsolated, notFatal⟩
  · simp [gate, high, whole]
  · simp [gate, high, notIsolated, notFatal]

/-- The reasons that FAULT_PIN OP 2 clears: those of its mask that no fault holds (R405). -/
def reasonsCleared (req : List Word) (p : State) : State :=
  foldS p.fault.reasons (fun e s => if bitOf (wd req 1) e.1 && reasonClears s e.1 e.2 then clearReason e.1 e.2 s else s) p

/-- What FAULT_PIN leaves: FAULT_N asserted or not, reasons cleared, or reason 11 set (R405). -/
def faultPinned (req : List Word) (p : State) : State :=
  match fld (wd req 0) 3 0 with
  | 1 => { p with fault.faultAssert := bitOf (wd req 0) 4 }
  | 2 => reasonsCleared req p
  | 3 => setReason 11 0 p
  | _ => p

/-- FAULT_PIN past its status table (R405). -/
theorem cmdFaultPin_answers {c : Ctx} {req : List Word} {p : State} (gate : c.gate = false) (high : fld (wd req 0) 31 5 = 0)
    (word : fld (wd req 1) 31 16 = 0) (least : 1 ≤ fld (wd req 0) 3 0) (most : fld (wd req 0) 3 0 ≤ 4) :
    cmdFaultPin c req p = (.done .ok [w32 (reasonSet (faultPinned req p).fault.reasons)], faultPinned req p) := by
  have op : fld (wd req 0) 3 0 = 1 ∨ fld (wd req 0) 3 0 = 2 ∨ fld (wd req 0) 3 0 = 3 ∨ fld (wd req 0) 3 0 = 4 := by omega
  unfold cmdFaultPin faultPinned
  rcases op with op | op | op | op
  all_goals
    simp only [op]
    refine (ladder_passes p ?_).trans rfl
    simp [gate, high, word]

/-- Settles O26: each OP passes its status table, and the mailbox answers what the body leaves. -/
theorem faultReadsComplete : Obligations.FaultReadsComplete := by
  intro m tag req s p
  refine ⟨?source, ?block, ?latch, ?clears, ?pin⟩
  case source =>
    rintro _ rfl ready high op rfl exists_
    exact exec_completes rfl rfl ready (cmdFaultRead_source rfl high op exists_)
  case block =>
    rintro _ rfl ready high op rfl
    exact exec_completes rfl rfl ready (cmdFaultRead_block rfl high op)
  case latch =>
    rintro _ rfl ready high op rfl
    exact exec_completes rfl rfl ready (cmdFaultRead_latch rfl high op)
  case clears =>
    rintro _ g _ _ rfl ready high rfl group clears rfl rfl
    exact exec_completes rfl rfl ready (cmdFaultClear_clears rfl high rfl group clears)
  case pin =>
    rintro _ rfl ready high word least most rfl
    exact exec_completes rfl rfl ready (cmdFaultPin_answers rfl high word least most)

/-- The policy that FAULT_POLICY words set (R403). -/
def policyAsked (req : List Word) : Policy :=
  { cls := fld (wd req 1) 1 0, n := fld (wd req 1) 15 8, w := fld (wd req 2) 21 0, grace := fld (wd req 3) 19 0
    action := fld (wd req 1) 18 16, twinFirst := bitOf (wd req 1) 19 }

/-- A group's policy set: it counts from the next tick on (R382). -/
def policyChanged (g : Nat) (new : Policy) (p : State) : State :=
  { p with fault.policy := tset p.fault.policy g { old := policyOf p g, new := new, from_ := tickNow p + 1, gen := policyGen p g + 1 } }

/-- What a FAULT_POLICY may set: fields in range, and an ACTION that the group allows (R382, R403). -/
structure PolicyFits (req : List Word) (g : Nat) : Prop where
  reserved : resBad req [(1, 7, 2), (1, 31, 20), (2, 31, 22), (3, 31, 20)] = false
  cls : fld (wd req 1) 1 0 ≠ 3
  count : fld (wd req 1) 15 8 ≠ 0
  action : actionOk g (fld (wd req 1) 18 16) = true
  window : fld (wd req 2) 21 0 ≠ 0
  windowMost : fld (wd req 2) 21 0 ≤ 3600000
  grace : fld (wd req 3) 19 0 ≠ 0
  graceMost : fld (wd req 3) 19 0 ≤ 1000000

section PolicyBody

variable {c : Ctx} {req : List Word} {p : State} {g : Nat} (gate : c.gate = false)
  (reserved : resBad req [(0, 7, 5), (0, 31, 12)] = false) (group : fld (wd req 0) 4 0 = g) (range : g ≤ 18)

include gate reserved group range

/-- OP 1 of FAULT_POLICY past its status table. -/
theorem cmdFaultPolicy_sets (op : fld (wd req 0) 11 8 = 1) (fits : PolicyFits req g) :
    cmdFaultPolicy c req p = (.done .ok [], policyChanged g (policyAsked req) p) := by
  unfold cmdFaultPolicy
  simp only [op, group]
  refine (ladder_passes p ?_).trans rfl
  simp [gate, reserved, Nat.not_lt.2 range, fits.reserved, fits.cls, fits.count, fits.action, fits.window, Nat.not_lt.2 fits.windowMost,
    fits.grace, Nat.not_lt.2 fits.graceMost]

/-- OP 2 of FAULT_POLICY past its status table: the policy set last, in effect or not (log 32). -/
theorem cmdFaultPolicy_reads (op : fld (wd req 0) 11 8 = 2) (words : wordsBad req 1 3 = false) :
    cmdFaultPolicy c req p =
      (let x := policySet p g
       (.done .ok [w32 (x.cls + 256 * x.n + 65536 * x.action + 524288 * b2n x.twinFirst), w32 x.w, w32 x.grace], p)) := by
  unfold cmdFaultPolicy
  simp only [op, group]
  refine (ladder_passes p ?_).trans rfl
  simp [gate, reserved, Nat.not_lt.2 range, words]

end PolicyBody

/-- The injection that FAULT_INJECT words queue (R404). -/
def injectAsked (req : List Word) (p : State) : State :=
  { p with
    fault.injectSeq := p.fault.injectSeq + 1
    fault.inject := p.fault.inject ++ [{ id := p.fault.injectSeq, addr := fld (wd req 0) 11 0, mode := fld (wd req 0) 13 12
                                         classify := bitOf (wd req 0) 14, left := fld (wd req 1) 7 0, until_ := p.now + 1000000 }] }

/-- FAULT_INJECT past its status table: MODE 2 takes a count of 1, and the source is in service and unmasked (R395, R404). -/
theorem cmdFaultInject_queues {c : Ctx} {req : List Word} {p : State} {a g : Nat} (gate : c.gate = false) (high : fld (wd req 0) 31 15 = 0)
    (word : fld (wd req 1) 31 8 = 0) (source : fld (wd req 0) 11 0 = a)
    (mode : fld (wd req 0) 13 12 = 1 ∨ (fld (wd req 0) 13 12 = 2 ∧ fld (wd req 1) 7 0 = 1)) (count : fld (wd req 1) 7 0 ≠ 0)
    (group : srcGroup a = some g) (lower : g < 16) (unmasked : srcMasked p a = false) (notIsolated : srcState p a ≠ .isolated)
    (notFatal : srcState p a ≠ .fatal) (rails : (srcOf p a).railsEqual = false) :
    cmdFaultInject c req p = (.waits (.inject p.fault.injectSeq), injectAsked req p) := by
  subst source
  unfold cmdFaultInject
  refine (ladder_passes p ?_).trans rfl
  rcases mode with check | ⟨path, one⟩
  · simp [gate, high, word, check, count, group, Nat.not_le.2 lower, unmasked, notIsolated, notFatal, rails]
  · simp [gate, high, word, path, one, group, Nat.not_le.2 lower, unmasked, notIsolated, notFatal, rails]

/-- Settles O27: each OP passes its status table, and the mailbox answers what the body leaves or holds the injection until its checks. -/
theorem faultSettingsComplete : Obligations.FaultSettingsComplete := by
  intro m tag req s p
  refine ⟨?sets, ?reads, ?injects⟩
  case sets =>
    rintro _ rfl ready reserved rfl range op words cls count action window windowMost grace graceMost
    exact exec_completes rfl rfl ready
      (cmdFaultPolicy_sets rfl reserved rfl range op ⟨words, cls, count, action, window, windowMost, grace, graceMost⟩)
  case reads =>
    rintro _ _ rfl ready reserved rfl range op words rfl
    exact exec_completes rfl rfl ready (cmdFaultPolicy_reads rfl reserved rfl range op words)
  case injects =>
    rintro _ g rfl ready high word rfl mode count group lower unmasked notIsolated notFatal rails
    exact exec_waits rfl rfl ready
      (cmdFaultInject_queues rfl high word rfl mode count group lower unmasked notIsolated notFatal rails)

end Sys2Proof.Machine
end

section
/-! PROOFS of the statements on the firmware's commands (O30, O31, O58): what each body answers once its status table lets a request pass, and
from that the whole command; what writing the boot record makes of it. -/

namespace Sys2Proof.Machine

section StageBody

variable {c : Ctx} {req : List Word} {p : State} (gate : c.gate = false) (high : fld (wd req 0) 31 4 = 0)
  (confirmed : p.fw.confirmed = true) (settled : p.fw.activation = none)

include gate high confirmed settled

/-- OP 1 of FW_STAGE past its status table: no erase and no check is in hand (R429). -/
theorem cmdFwStage_erases (op : fld (wd req 0) 3 0 = 1) (one : req.length = 1) (erased : p.fw.erasing = false)
    (checked : p.fw.checking = false) :
    cmdFwStage c req p = (.done .deferred [], { modSlot (stageSlot p) (fun _ => {}) p with fw.erasing := true }) := by
  unfold cmdFwStage
  simp only [op]
  refine (ladder_passes p ?_).trans rfl
  simp [gate, high, confirmed, settled, one, erased, checked]

/-- The data words of an FW_STAGE OP 2, written into slot k (R429). -/
def slotStaged (k : Nat) (req : List Word) (p : State) : State :=
  { modSlot k (fun x => { x with data := slotWrite (wd req 1).toNat (req.drop 2) x.data, staged := 2 }) p with fw.wrote := true }

/-- OP 2 of FW_STAGE past its status table: whole words within a slot that is erased or being erased (R429). -/
theorem cmdFwStage_writes (op : fld (wd req 0) 3 0 = 2) (least : 3 ≤ req.length) (most : req.length ≤ 255)
    (aligned : (wd req 1).toNat % 4 = 0) (within : (wd req 1).toNat + 4 * (req.length - 2) ≤ slotSize)
    (erased : (slotOf p.fw (stageSlot p)).staged ≠ 0 ∨ p.fw.erasing = true) :
    cmdFwStage c req p = (.done .ok [], slotStaged (stageSlot p) req p) := by
  unfold cmdFwStage
  simp only [op]
  refine (ladder_passes p ?_).trans rfl
  rcases erased with staged | erasing
  · simp [gate, high, confirmed, settled, Nat.not_lt.2 least, Nat.not_lt.2 most, aligned, Nat.not_lt.2 within, staged]
  · simp [gate, high, confirmed, settled, Nat.not_lt.2 least, Nat.not_lt.2 most, aligned, Nat.not_lt.2 within, erasing]

/-- OP 3 of FW_STAGE past its status table (R429). -/
theorem cmdFwStage_checks (op : fld (wd req 0) 3 0 = 3) (one : req.length = 1) (erased : p.fw.erasing = false)
    (checked : p.fw.checking = false) (staged : (slotOf p.fw (stageSlot p)).staged ≠ 0) :
    cmdFwStage c req p = (.done .deferred [], { p with fw.checking := true, fw.wrote := false }) := by
  unfold cmdFwStage
  simp only [op]
  refine (ladder_passes p ?_).trans rfl
  simp [gate, high, confirmed, settled, one, erased, checked, staged]

end StageBody

/-- Settles O30: each OP passes its status table, and the mailbox answers what the body leaves. -/
theorem firmwareStagingCompletes : Obligations.FirmwareStagingCompletes := by
  intro m tag req s p
  refine ⟨?erases, ?writes, ?checks⟩
  case erases =>
    rintro _ rfl ready high confirmed settled rfl op one erased checked
    exact exec_defers rfl rfl ready (cmdFwStage_erases rfl high confirmed settled op one erased checked)
  case writes =>
    rintro _ rfl ready high confirmed settled rfl op least most aligned within erased
    exact exec_completes rfl rfl ready (cmdFwStage_writes rfl high confirmed settled op least most aligned within erased)
  case checks =>
    rintro _ rfl ready high confirmed settled rfl op one erased checked staged
    exact exec_defers rfl rfl ready (cmdFwStage_checks rfl high confirmed settled op one erased checked staged)

section ActivateBody

variable {c : Ctx} {req : List Word} {p : State} (gate : c.gate = false) (high : fld (wd req 0) 31 4 = 0) (settled : p.fw.activation = none)

include gate high settled

/-- The activation that FW_ACTIVATE starts: the MP restarts for it (R431). -/
def activating (op : Nat) (p : State) : State :=
  { p with fw.activation := some { op := op, prev := p.fw.slot, at_ := p.now }, fw.restartAt := some p.now }

/-- OP 1 of FW_ACTIVATE past its status table: a staged image that the running release may start without a hit (R431). -/
theorem cmdFwActivate_starts (op : fld (wd req 0) 3 0 = 1) (staged : (slotOf p.fw (stageSlot p)).staged = 3)
    (hitless : hitlessOk p (slotHdr (slotOf p.fw (stageSlot p))) = true) :
    cmdFwActivate c req p = (.done .deferred [], activating 1 p) := by
  unfold cmdFwActivate
  simp only [op]
  refine (ladder_passes p ?_).trans rfl
  simp [gate, high, settled, staged, hitless]

/-- OP 2 of FW_ACTIVATE past its status table, whatever the image's HITLESS_FROM (R432). -/
theorem cmdFwActivate_selects (op : fld (wd req 0) 3 0 = 2) (staged : (slotOf p.fw (stageSlot p)).staged = 3) :
    cmdFwActivate c req p = (.done .ok [], { p with fw := bootWrite (stageSlot p) false p.fw }) := by
  unfold cmdFwActivate
  simp only [op]
  refine (ladder_passes p ?_).trans rfl
  simp [gate, high, settled, staged]

/-- The running image confirmed: the boot record names it, and the anti-rollback counter rises to its version (R433). -/
def imageConfirmed (p : State) : State :=
  { p with fw := { bootWrite p.fw.slot true p.fw with confirmed := true, counter := max p.fw.counter p.fw.running.svn } }

/-- OP 3 of FW_ACTIVATE past its status table. -/
theorem cmdFwActivate_confirms (op : fld (wd req 0) 3 0 = 3) : cmdFwActivate c req p = (.done .ok [], imageConfirmed p) := by
  unfold cmdFwActivate
  simp only [op]
  refine (ladder_passes p ?_).trans rfl
  simp [gate, high, settled]

/-- OP 4 of FW_ACTIVATE past its status table: the other slot holds a valid image (R431). -/
theorem cmdFwActivate_returns (op : fld (wd req 0) 3 0 = 4) (valid : imageCheck p.fw (slotOf p.fw (stageSlot p)) = 0)
    (hitless : hitlessOk p (slotHdr (slotOf p.fw (stageSlot p))) = true) :
    cmdFwActivate c req p = (.done .deferred [], activating 4 p) := by
  unfold cmdFwActivate
  simp only [op]
  refine (ladder_passes p ?_).trans rfl
  simp [gate, high, settled, valid, hitless]

end ActivateBody

/-- The words of FW_STATUS (R436). -/
def fwStatusWords (p : State) : List Word :=
  [w32 (p.fw.state + 16 * p.fw.slot + 32 * b2n p.fw.confirmed + 64 * (slotOf p.fw (stageSlot p)).staged + 256 * p.fw.counter +
      16384 * p.fw.revoked),
    slotWord p 0, slotWord p 1, w32 p.fw.lastResult]

/-- FW_STATUS has no operand that could be refused. -/
theorem cmdFwStatus_answers {c : Ctx} {req : List Word} {p : State} (gate : c.gate = false) :
    cmdFwStatus c req p = (.done .ok (fwStatusWords p), p) := by
  unfold cmdFwStatus
  refine (ladder_passes p ?_).trans rfl
  simp [gate]

/-- The log entries that LOG_READ answers: from a sequence number on, at most as many as asked for (R437). -/
def logAsked (req : List Word) (p : State) : List LogEntry :=
  (p.fw.log.filter (fun e => decide ((wd req 0).toNat ≤ e.seq))).take (fld (wd req 1) 4 0)

/-- LOG_READ past its status table. -/
theorem cmdLogRead_answers {c : Ctx} {req : List Word} {p : State} (gate : c.gate = false) (high : fld (wd req 1) 31 5 = 0)
    (some_ : fld (wd req 1) 4 0 ≠ 0) :
    cmdLogRead c req p = (.done .ok (w32 (logAsked req p).length :: (logAsked req p).flatMap logWords), p) := by
  unfold cmdLogRead
  refine (ladder_passes p ?_).trans rfl
  simp [gate, high, some_]

/-- Settles O31: each OP passes its status table, and the mailbox answers what the body leaves. -/
theorem firmwareActivationCompletes : Obligations.FirmwareActivationCompletes := by
  intro m tag req s p
  refine ⟨?starts, ?selects, ?confirms, ?returns, ?status, ?log⟩
  case starts =>
    rintro _ rfl ready high settled rfl op staged hitless
    exact exec_defers rfl rfl ready (cmdFwActivate_starts rfl high settled op staged hitless)
  case selects =>
    rintro _ rfl ready high settled rfl op staged
    exact exec_completes rfl rfl ready (cmdFwActivate_selects rfl high settled op staged)
  case confirms =>
    rintro _ rfl ready high settled rfl op
    exact exec_completes rfl rfl ready (cmdFwActivate_confirms rfl high settled op)
  case returns =>
    rintro _ rfl ready high settled rfl op valid hitless
    exact exec_defers rfl rfl ready (cmdFwActivate_returns rfl high settled op valid hitless)
  case status =>
    rintro _ rfl ready rfl
    exact exec_completes rfl rfl ready (cmdFwStatus_answers rfl)
  case log =>
    rintro _ rfl ready high some_ rfl
    exact exec_completes rfl rfl ready (cmdLogRead_answers rfl high some_)

/-- Writing the boot record changes its two copies alone (R430). -/
theorem bootWrite_eq (k : Nat) (confirmed : Bool) (f : Firmware) :
    bootWrite k confirmed f = { f with rec0 := (bootWrite k confirmed f).rec0, rec1 := (bootWrite k confirmed f).rec1 } := by
  unfold bootWrite
  dsimp only
  split
  · split <;> rfl
  · rfl
  · rfl
  · rfl

/-- The boot record reads as it was written: the copy written is the newer one (R428, R430). -/
theorem bootRec_bootWrite (k : Nat) (confirmed : Bool) (f : Firmware) :
    (bootRec (bootWrite k confirmed f)).map (fun r => (r.active, r.confirmed)) = some (k, confirmed) := by
  unfold bootWrite
  dsimp only
  cases copy0 : f.rec0 with
  | none =>
    cases copy1 : f.rec1 with
    | none => simp [bootRec, copy0, copy1]
    | some b => simp [bootRec, copy0, copy1]
  | some a =>
    cases copy1 : f.rec1 with
    | none => simp [bootRec, copy0, copy1]
    | some b =>
      by_cases newer : a.seq < b.seq
      · simp [bootRec, copy0, copy1, newer]
      · simp [bootRec, copy0, copy1, newer]

/-- Settles O58: OP 2 writes the boot record, which changes its copies alone and then names the staged slot, unconfirmed. -/
theorem nextStartSelected : Obligations.NextStartSelected := by
  rintro m tag req s _ _ rfl ready high op settled rfl staged
  have selects := exec_completes (i := .fwActivate m tag req) rfl rfl ready (cmdFwActivate_selects rfl high settled op staged)
  have written := bootWrite_eq (stageSlot (s.posted 0x0E02 m tag req)) false (s.posted 0x0E02 m tag req).fw
  have names := bootRec_bootWrite (stageSlot (s.posted 0x0E02 m tag req)) false (s.posted 0x0E02 m tag req).fw
  rw [written] at selects names
  exact ⟨_, _, selects, names⟩

end Sys2Proof.Machine
end

section
/-! PROOFS of the statements on the system's reads and on ports (O1, O4): what each body answers once its status table lets a request pass, and
from that the whole command. -/

namespace Sys2Proof.Machine

/-- The words of SYS_INFO (R442). -/
def sysInfoWords (p : State) : List Word :=
  [0x00A15120, fwState p, Config.uniqueId.setWidth 32, (Config.uniqueId >>> 32).setWidth 32, w32 (700 + Config.coreMvAbove700 % 101),
    w32 (b2n p.pins.strap + 2 * ((List.range 64).filter (fun k => pcRetired p k)).length + 256 * b2n (fatalSet p)),
    p.boot.boots, w32 ((p.now - p.boot.porstAt) / 1000000000)]

/-- SYS_INFO is refused in no state. -/
theorem cmdSysInfo_answers (c : Ctx) (req : List Word) (p : State) : cmdSysInfo c req p = (.done .ok (sysInfoWords p), p) := rfl

section EventMaskBody

variable {c : Ctx} {req : List Word} {p : State} {code : Nat} (gate : c.gate = false) (high : fld (wd req 0) 31 20 = 0)
  (names : fld (wd req 0) 15 0 = code) (exists_ : eventCodes.contains code = true)

include gate high names exists_

/-- The other codes that are masked. -/
def maskedBut (code : Nat) (p : State) : List Nat := p.host.evMasked.filter (· != code)

/-- OP 1 of SYS_EVENT_MASK past its status table: the code is masked, and reads back so (R445). -/
theorem cmdSysEventMask_masks (op : fld (wd req 0) 19 16 = 1) (maskable : unmaskable.contains code = false) :
    cmdSysEventMask c req p = (.done .ok [1], { p with host.evMasked := maskedBut code p ++ [code] }) := by
  have reads : (maskedBut code p ++ [code]).contains code = true := by simp
  unfold cmdSysEventMask
  simp only [op, names]
  refine (ladder_passes p ?_).trans ?_
  · simp [gate, high, exists_, maskable, -List.contains_eq_mem]
  · change okWith [w32 (b2n ((maskedBut code p ++ [code]).contains code))] _ = _
    rw [reads]
    rfl

/-- OP 2 of SYS_EVENT_MASK past its status table: the code is masked no longer (R445). -/
theorem cmdSysEventMask_unmasks (op : fld (wd req 0) 19 16 = 2) :
    cmdSysEventMask c req p = (.done .ok [0], { p with host.evMasked := maskedBut code p }) := by
  have reads : (maskedBut code p).contains code = false := by simp [maskedBut]
  unfold cmdSysEventMask
  simp only [op, names]
  refine (ladder_passes p ?_).trans ?_
  · simpa [gate, high] using exists_
  · change okWith [w32 (b2n ((maskedBut code p).contains code))] _ = _
    rw [reads]
    rfl

/-- OP 3 of SYS_EVENT_MASK past its status table (R445). -/
theorem cmdSysEventMask_reads (op : fld (wd req 0) 19 16 = 3) :
    cmdSysEventMask c req p = (.done .ok [w32 (b2n (p.host.evMasked.contains code))], p) := by
  unfold cmdSysEventMask
  simp only [op, names]
  refine (ladder_passes p ?_).trans rfl
  simpa [gate, high] using exists_

end EventMaskBody

/-- The words of the violation log, oldest first (R423, R437). -/
def violationWords (p : State) : List Word :=
  w32 (p.host.violLog.length + 65536 * p.host.violDisplaced) ::
    p.host.violLog.flatMap (fun v => [w32 v.off, violInfo (some v) 1] ++ nsWords v.ns)

/-- SYS_VIOLATION_READ has no operand that could be refused. -/
theorem cmdSysViolationRead_empties {c : Ctx} {req : List Word} {p : State} (gate : c.gate = false) :
    cmdSysViolationRead c req p = (.done .ok (violationWords p), { p with host.violLog := [], host.violDisplaced := 0 }) := by
  unfold cmdSysViolationRead
  refine (ladder_passes p ?_).trans rfl
  simp [gate]

/-- SYS_CONTINUE past its status table: a PART beyond the last one asked for, of a held response that reaches it (R441). -/
theorem cmdSysContinue_answers {c : Ctx} {req : List Word} {p : State} {m part : Nat} {h : HeldResp} (gate : c.gate = false)
    (mailbox : c.mbx = some m) (high : fld (wd req 0) 31 24 = 0) (asks : fld (wd req 0) 23 16 = part)
    (held : (mbxOf p m).held = some h) (code : h.code = fld (wd req 0) 15 0) (ascends : h.last < part)
    (reaches : 255 * part < h.words.length) :
    cmdSysContinue c req p = (.done .ok ((h.words.drop (255 * part)).take 255), partAsked m part p) := by
  have found : heldPart p m (fld (wd req 0) 15 0) part = (h.words.drop (255 * part), h.last) := by simp [heldPart, held, code]
  have later : part ≠ 0 := by omega
  unfold cmdSysContinue
  simp only [mailbox, asks, Option.getD_some, found]
  refine (ladder_passes p ?_).trans (if_pos ascends)
  simp [gate, high, later, reaches]

/-- Settles O1: each form passes its status table, and the mailbox answers what the body leaves. -/
theorem systemCommandsComplete : Obligations.SystemCommandsComplete := by
  intro m tag req s
  refine ⟨?info, ?mask, ?violations, ?continues⟩
  case info =>
    rintro _ rfl ready
    exact exec_completes rfl rfl ready (cmdSysInfo_answers _ _ _)
  case mask =>
    rintro _ rfl ready high exists_
    refine ⟨fun op maskable => ?masks, fun op => ?unmasks, fun op => ?reads⟩
    case masks => exact exec_completes rfl rfl ready (cmdSysEventMask_masks rfl high rfl exists_ op maskable)
    case unmasks => exact exec_completes rfl rfl ready (cmdSysEventMask_unmasks rfl high rfl exists_ op)
    case reads => exact exec_completes rfl rfl ready (cmdSysEventMask_reads rfl high rfl exists_ op)
  case violations =>
    rintro _ rfl ready
    exact exec_completes rfl rfl ready (cmdSysViolationRead_empties rfl)
  case continues =>
    rintro _ h rfl ready high held code ascends reaches
    exact exec_completes rfl rfl ready (cmdSysContinue_answers rfl rfl high rfl held code ascends reaches)

/-- A port made of its words: its section contexts are new, its lanes start, and its monitoring points open (R67, R68). -/
def portMade (n : Nat) (q : Port) (p : State) : State :=
  monCreate (portPoints n q) (foldS (portLanes n q) laneStart
    { p with port := tset p.port n q, oh := (portOh n q).foldl (fun t k => tset t k {}) p.oh })

/-- PORT_CREATE past its status table: fields in range, in a slice that is on, of lanes that no port has (R67, R68). -/
theorem cmdPortCreate_makes {c : Ctx} {req : List Word} {p : State} {n : Nat} (denied : c.denied = false) (gate : c.gate = false)
    (names : fld (wd req 0) 7 0 = n) (fields : portBad n req = false) (up : domUp p (n / 8) = true)
    (free : ∀ k ∈ portLanes n (portOfWords p.now req), portOfLane p k = none) :
    cmdPortCreate c req p = (.done .ok [], portMade n (portOfWords p.now req) p) := by
  unfold cmdPortCreate
  simp only [names]
  refine (ladder_passes p ?_).trans rfl
  simpa [denied, gate, fields, up] using free

/-- PORT_DELETE past its status table: the port exists and nothing refers to it (R69). -/
theorem cmdPortDelete_removes {c : Ctx} {req : List Word} {p : State} {n : Nat} {q : Port} (denied : c.denied = false) (gate : c.gate = false)
    (names : fld (wd req 0) 7 0 = n) (high : fld (wd req 0) 31 8 = 0) (port : portAt p n = some q) (unused : portUsed p n = false) :
    cmdPortDelete c req p = (.done .ok [], portRemove n q p) := by
  unfold cmdPortDelete
  simp only [names, port]
  refine (ladder_passes p ?_).trans rfl
  simp [denied, gate, high, thas_of_tget? port, unused]

/-- The words of PORT_STATUS for alignment process i (R448). -/
def portStatusWords (n : Nat) (q : Port) (i : Nat) (p : State) : List Word :=
  [w32 (portState p n q)] ++ (List.range 8).map (fun j => w32 (if j < q.width then laneSkew n q j else 0)) ++
    (List.range 4).map (fun j => if q.proto = 3 then llmWord q j else 0) ++
    [(procOf q i).oofEvents, (procOf q i).realign, (procOf q i).imitation, (procOf q i).slotFull, (procOf q i).oomEvents,
      q.skewFail, q.acqTime]

/-- PORT_STATUS past its status table: a process that the port has, in a slice that is on (R448). -/
theorem cmdPortStatus_answers {c : Ctx} {req : List Word} {p : State} {n i : Nat} {q : Port} (gate : c.gate = false)
    (names : fld (wd req 0) 7 0 = n) (process : fld (wd req 0) 13 8 = i) (high : fld (wd req 0) 31 14 = 0) (range : i ≤ 48)
    (port : portAt p n = some q) (has : (procList q).contains i = true) (up : domUp p (n / 8) = true) :
    cmdPortStatus c req p = (.done .ok (portStatusWords n q i p), p) := by
  unfold cmdPortStatus
  simp only [names, process, port]
  refine (ladder_passes p ?_).trans rfl
  simpa [gate, high, Nat.not_lt.2 range, up] using has

/-- Settles O4: each command passes its status table, and the mailbox answers what the body leaves. -/
theorem portCommandsComplete : Obligations.PortCommandsComplete := by
  rintro m tag req s p _ rfl
  refine ⟨?makes, ?removes, ?status⟩
  case makes =>
    rintro _ rfl rfl ready fields up free
    exact exec_completes rfl rfl ready (cmdPortCreate_makes rfl rfl rfl fields up free)
  case removes =>
    rintro q rfl ready high port unused
    exact exec_completes rfl rfl ready (cmdPortDelete_removes rfl rfl rfl high port unused)
  case status =>
    rintro q _ rfl ready high rfl range port has up
    exact exec_completes rfl rfl ready (cmdPortStatus_answers rfl rfl rfl high range port has up)

end Sys2Proof.Machine
end

section
/-! PROOFS of the statements on test commands (O28, O29): what each body answers once its status table lets a request pass, and from that the
whole command. -/

namespace Sys2Proof.Machine

section PrbsBodies

variable {c : Ctx} {req : List Word} {p : State} {t id : Nat} (gate : c.gate = false) (target : fld (wd req 0) 2 0 = t)
  (number : fld (wd req 0) 21 8 = id) (range : prbsTargetOk t id = true) (found : prbsFound p t id = true) (ready : prbsReady p t id = true)

include gate target number range found ready

/-- The checker and generator of a target, as PRBS_CONFIG words set them: a checker that is configured starts its counts anew (R449). -/
def prbsAsked (v : Word) (old : Prbs) : Prbs :=
  if bitOf v 1 then { gen := bitOf v 0, chk := true, pattern := fld v 5 2, inv := bitOf v 6 }
  else { old with gen := bitOf v 0, chk := false, lock := false, pattern := fld v 5 2, inv := bitOf v 6 }

/-- PRBS_CONFIG past its status table: no generator on an egress and no checker on an ingress channel, a pattern that the target allows, and at
most 16 channel tests of each kind on a slice (R449, R453). -/
theorem cmdPrbsConfig_sets (reserved : resBad req [(0, 7, 3), (0, 31, 22), (1, 31, 7)] = false)
    (noGen : t = 5 → bitOf (wd req 1) 0 = false) (noChk : t = 4 → bitOf (wd req 1) 1 = false)
    (allowed : bitOf (wd req 1) 0 = true ∨ bitOf (wd req 1) 1 = true ∨ fld (wd req 1) 5 2 ≠ 0 →
      patternAllowed p t id (fld (wd req 1) 5 2) = true)
    (room : 4 ≤ t → bitOf (wd req 1) 0 = true ∨ bitOf (wd req 1) 1 = true → prbsUsed p t id < 16) :
    cmdPrbsConfig c req p = (.done .ok [], { p with
      test.prbs := tset p.test.prbs (prbsKey t id) (prbsAsked (wd req 1) (tget p.test.prbs {} (prbsKey t id))) }) := by
  unfold cmdPrbsConfig
  simp only [target, number]
  refine (ladder_passes p ?_).trans rfl
  have fields : (if bitOf (wd req 1) 0 || bitOf (wd req 1) 1 || fld (wd req 1) 5 2 != 0 then
      !(patternAllowed p t id (fld (wd req 1) 5 2)) else false) = false := by
    split
    case isTrue set => simp [allowed (by simpa [or_assoc] using set)]
    case isFalse => rfl
  have spare : (decide (4 ≤ t) && (bitOf (wd req 1) 0 || bitOf (wd req 1) 1) && decide (16 ≤ prbsUsed p t id)) = false := by
    by_cases channel : 4 ≤ t
    · by_cases runs : bitOf (wd req 1) 0 = true ∨ bitOf (wd req 1) 1 = true
      · simp [Nat.not_le.2 (room channel runs)]
      · simp [not_or.1 runs]
    · simp [channel]
  simp only [List.forall_mem_cons, fields, spare, reserved, range, found, ready, gate]
  simpa using ⟨noGen, noChk⟩

/-- The words of PRBS_READ (R449). -/
def prbsWords (x : Prbs) : List Word :=
  [w32 (b2n x.lock + 2 * b2n x.lost), w32 x.errored.toNat, w32 (x.errored.toNat / 2 ^ 32), w32 x.compared.toNat,
    w32 (x.compared.toNat / 2 ^ 32), x.losses]

/-- What PRBS_READ leaves: with CLEAR the counts start over (R449). -/
def prbsCleared (req : List Word) (key : Nat) (p : State) : State :=
  if bitOf (wd req 1) 0 then
    { p with test.prbs := tupd p.test.prbs key (fun x => { x with lost := false, errored := 0, compared := 0, losses := 0 }) }
  else p

/-- PRBS_READ past its status table. -/
theorem cmdPrbsRead_answers (reserved : resBad req [(0, 7, 3), (0, 31, 22), (1, 31, 1)] = false) :
    cmdPrbsRead c req p = (.done .ok (prbsWords (tget p.test.prbs {} (prbsKey t id))), prbsCleared req (prbsKey t id) p) := by
  unfold cmdPrbsRead
  simp only [target, number]
  refine (ladder_passes p ?_).trans rfl
  simp [gate, reserved, range, found, ready]

end PrbsBodies

/-- Lane k looped back in a MODE; 0 opens it (R450). -/
def laneLoopedBack (k mode : Nat) (p : State) : State :=
  { p with test.loop := if mode = 0 then tdel p.test.loop k else tset p.test.loop k mode }

/-- What a change of loopback does to a lane in TRACK: it acquires again, and the hunters of a line lane start over (R485). -/
def loopReacquires (k : Nat) (u : State) : State :=
  if (laneOf u k).st = .track then (if k < 256 then huntLane k (laneAcquire k u) else laneAcquire k u) else u

/-- LOOPBACK_SET past its status table: a lane whose domain is on, and a Varric lane of a twin that is not PAIRED alone (R450, R484). -/
theorem cmdLoopbackSet_loops {c : Ctx} {req : List Word} {p : State} {k mode : Nat} (gate : c.gate = false) (low : fld (wd req 0) 7 3 = 0)
    (high : fld (wd req 0) 31 20 = 0) (least : 1 ≤ fld (wd req 0) 2 0) (most : fld (wd req 0) 2 0 ≤ 3)
    (varric : fld (wd req 0) 2 0 = 3 → fld (wd req 0) 15 8 ≤ 7 ∧ p.twin.paired = false)
    (lane : kindLane (fld (wd req 0) 2 0) (fld (wd req 0) 15 8) = k) (is : fld (wd req 0) 19 16 = mode) (range : mode ≤ 2)
    (up : domUp p (laneDomain k) = true) :
    cmdLoopbackSet c req p = (.done .ok [], if tget p.test.loop 0 k = mode then p else loopReacquires k (laneLoopedBack k mode p)) := by
  have named : fld (wd req 0) 2 0 ≠ 0 := by omega
  unfold cmdLoopbackSet
  simp only [lane, is]
  refine (ladder_passes p ?_).trans ?effect
  · by_cases third : fld (wd req 0) 2 0 = 3
    · obtain ⟨few, unpaired⟩ := varric third
      simp [gate, low, high, third, Nat.not_lt.2 few, unpaired, Nat.not_lt.2 range, up]
    · simp [gate, low, high, named, Nat.not_lt.2 most, third, Nat.not_lt.2 range, up]
  case effect =>
    unfold loopReacquires laneLoopedBack
    by_cases same : tget p.test.loop 0 k = mode
    · simp [same, okNone]
    · simp [same, okNone]

/-- Settles O28: each command passes its status table, and the mailbox answers what the body leaves. -/
theorem patternCommandsComplete : Obligations.PatternCommandsComplete := by
  intro m tag req s p
  refine ⟨?config, ?read, ?loopback⟩
  case config =>
    rintro _ _ _ _ _ rfl ready reserved rfl rfl range found carries rfl noGen noChk allowed room rfl rfl
    exact exec_completes rfl rfl ready (cmdPrbsConfig_sets rfl rfl rfl range found carries reserved noGen noChk allowed room)
  case read =>
    rintro _ _ _ rfl ready reserved rfl rfl range found carries rfl
    exact exec_completes rfl rfl ready (cmdPrbsRead_answers rfl rfl rfl range found carries reserved)
  case loopback =>
    rintro _ _ rfl ready low high least most varric rfl range up rfl
    exact exec_completes rfl rfl ready (cmdLoopbackSet_loops rfl low high least most varric rfl rfl range up)

section BistBody

variable {c : Ctx} {req : List Word} {p : State} {i : Nat} (gate : c.gate = false) (low : fld (wd req 0) 7 4 = 0)
  (high : fld (wd req 0) 31 14 = 0) (index : fld (wd req 0) 13 8 = i) (idle : p.test.bist = none)

include gate low high index idle

/-- BIST_RUN of a pseudo-channel past its status table: one that is retired, or a deep path that nothing uses (R451). -/
theorem cmdBistRun_channel (target : fld (wd req 0) 3 0 = 1) (up : domUp p (32 + i / 32) = true)
    (unused : pcRetired p i = true ∨ deepUse p = false) :
    cmdBistRun c req p = (.done .deferred [], { p with test.bist := some { target := 1, index := i } }) := by
  unfold cmdBistRun
  simp only [target, index]
  refine (ladder_passes p ?_).trans rfl
  rcases unused with retired | shallow
  · simp [gate, low, high, up, retired, idle]
  · simp [gate, low, high, up, shallow, idle]

/-- BIST_RUN of a slice past its status table: a slice that is on and has no port (R451). -/
theorem cmdBistRun_slice (target : fld (wd req 0) 3 0 = 2) (range : i ≤ 31) (up : domUp p i = true)
    (unused : p.port.any (fun e => e.1 / 8 == i) = false) :
    cmdBistRun c req p = (.done .deferred [], { p with test.bist := some { target := 2, index := i } }) := by
  unfold cmdBistRun
  simp only [target, index]
  refine (ladder_passes p ?_).trans rfl
  simpa [gate, low, high, Nat.not_lt.2 range, up, idle] using unused

end BistBody

section EyeScanBody

variable {c : Ctx} {req : List Word} {p : State} {k : Nat} (gate : c.gate = false) (low : fld (wd req 0) 7 2 = 0)
  (high : fld (wd req 0) 31 20 = 0) (least : 1 ≤ fld (wd req 0) 1 0) (varric : fld (wd req 0) 1 0 = 3 → fld (wd req 0) 15 8 ≤ 7)
  (lane : kindLane (fld (wd req 0) 1 0) (fld (wd req 0) 15 8) = k) (up : domUp p (laneDomain k) = true)

include gate low high least varric lane up

/-- OP 1 of EYE_SCAN past its status table: a lane in TRACK without a scan in hand, and fewer than eight run (R452, R486). -/
theorem cmdEyeScan_starts (op : fld (wd req 0) 19 16 = 1) (fields : eyeBad p k (wd req 1) = false) (track : (laneOf p k).st = .track)
    (few : (p.test.scans.filter (fun e => e.2.running)).length < 8) (idle : ∀ x, tget? p.test.scans k = some x → x.running = false) :
    cmdEyeScan c req p = (.done .deferred [], { p with test.scans := tset p.test.scans k { running := true, setup := wd req 1 } }) := by
  have named : fld (wd req 0) 1 0 ≠ 0 := by omega
  unfold cmdEyeScan
  simp only [lane, op]
  refine (ladder_passes p ?_).trans rfl
  cases scan : tget? p.test.scans k with
  | none => simpa [gate, low, high, named, up, fields, track, Nat.not_le.2 few] using varric
  | some x => simpa [gate, low, high, named, up, fields, track, Nat.not_le.2 few, idle x scan] using varric

/-- The words of a scan that is done: its setup and its points, two to a word (R452). -/
def eyeScanWords (x : Scan) : List Word :=
  x.setup :: (List.range ((x.points.length + 1) / 2)).map (fun i => w32 (x.points.getD (2 * i) 0 + 65536 * x.points.getD (2 * i + 1) 0))

/-- OP 2 of EYE_SCAN past its status table: a scan of the lane is done (R452). -/
theorem cmdEyeScan_reads {x : Scan} (op : fld (wd req 0) 19 16 = 2) (word : wd req 1 = 0) (scan : tget? p.test.scans k = some x)
    (done : x.done = true) : cmdEyeScan c req p = (.done .ok (eyeScanWords x), p) := by
  have named : fld (wd req 0) 1 0 ≠ 0 := by omega
  unfold cmdEyeScan
  simp only [lane, op, scan]
  refine (ladder_passes p ?_).trans rfl
  simpa [gate, low, high, named, up, word, done] using varric

end EyeScanBody

/-- Settles O29: each command passes its status table, and the mailbox answers what the body leaves. -/
theorem selfTestCommandsComplete : Obligations.SelfTestCommandsComplete := by
  intro m tag req s p
  refine ⟨?channel, ?slice, ?scan, ?points⟩
  case channel =>
    rintro _ rfl ready low high rfl idle target up unused
    exact exec_defers rfl rfl ready (cmdBistRun_channel rfl low high rfl idle target up unused)
  case slice =>
    rintro _ rfl ready low high rfl idle target range up unused
    exact exec_defers rfl rfl ready (cmdBistRun_slice rfl low high rfl idle target range up unused)
  case scan =>
    rintro _ rfl ready low high least varric rfl up op fields track few idle
    exact exec_defers rfl rfl ready (cmdEyeScan_starts rfl low high least varric rfl up op fields track few idle)
  case points =>
    rintro _ x rfl ready low high least varric rfl up op word scan done
    exact exec_completes rfl rfl ready (cmdEyeScan_reads rfl low high least varric rfl up op word scan done)

end Sys2Proof.Machine
end

section
/-! PROOFS of the statement on host events (O32): what one write or read of BAR0 does, address range by address range, and from that each
clause. -/

namespace Sys2Proof.Machine

/-- A posted write answered on the bus. -/
def written (s : State) : State := { s with host.busOut := .written }

theorem busWrite_down {s : State} (down : endpointUp s = false) (off : Nat) (v : Word) (be : Nat) : busWrite off v be s = s := by
  simp [busWrite, down]

theorem busRead_down {s : State} (down : endpointUp s = false) (off be : Nat) : busRead off be s = s := by
  simp [busRead, down]

/-- Changes that leave a state leave it one after another. -/
theorem foldS_fixed {α : Type} (l : List α) {f : α → State → State} {s : State} (fixed : ∀ a, f a s = s) : foldS l f s = s := by
  induction l with
  | nil => rfl
  | cons a l ih => exact (congrArg (foldS l f) (fixed a)).trans ih

theorem busReads_down {s : State} (down : endpointUp s = false) (off : Nat) (bes : List Nat) : busReads off bes s = s := by
  rw [busReads, down]
  exact foldS_fixed _ fun e => busRead_down down _ _

/-- With the endpoint down no host access has an effect (R410, R459). -/
theorem exec_hostAccess_down {i : Instr} {s : State} (access : hostAccess i = true) (down : endpointUp s = false) : exec i s = .next s := by
  cases i <;> cases access
  case violInfoRead => exact congrArg Host.Outcome.next (busRead_down down _ _)
  case unimplementedRead => exact congrArg Host.Outcome.next (busReads_down down _ _)
  all_goals exact congrArg Host.Outcome.next (busWrite_down down _ _ _)

/-- ENABLE set in a word of EVT_RING_BASE_LO. -/
theorem bitOf_or_one (v : Word) : bitOf (v ||| 1) 0 = true := by
  simp [bitOf, BitVec.toNat_or, Nat.or_mod_two_eq_one]

/-- ENABLE clear in a word of EVT_RING_BASE_LO. -/
theorem bitOf_and_not_one (v : Word) : bitOf (v &&& ~~~1) 0 = false := by
  simp [bitOf]

/-- ENABLE is no part of the ring's address (R419). -/
theorem page_or_one (v : Word) : (v ||| 1).toNat / 4096 = v.toNat / 4096 := by
  have bits : (v ||| 1) >>> 12 = v >>> 12 := by
    ext i
    simp
  simpa [Nat.shiftRight_eq_div_pow] using congrArg BitVec.toNat bits

/-- A bit cleared and set again is a bit set. -/
theorem and_not_one_or_one (v : Word) : (v &&& ~~~1) ||| 1 = v ||| 1 := by
  refine BitVec.eq_of_getLsbD_eq fun i range => ?_
  rw [BitVec.getLsbD_or, BitVec.getLsbD_and, BitVec.getLsbD_not, BitVec.getLsbD_or]
  cases bit : (1 : Word).getLsbD i
  · simp [range]
  · simp

theorem page_and_not_one (v : Word) : (v &&& ~~~1).toNat / 4096 = v.toNat / 4096 := by
  rw [← page_or_one, and_not_one_or_one, page_or_one]

/-- ENABLE reads back in bit 0 (R419). -/
theorem bitOf_ringBaseLo (s : State) : bitOf (ringBaseLo s) 0 = s.host.ringEnable := by
  rw [bitOf, ringBaseLo, w32_toNat]
  cases s.host.ringEnable
  case false => simpa [b2n] using (by omega : s.host.ringLo.toNat / 4096 * 4096 % 4294967296 % 2 = 0)
  case true => simpa [b2n] using (by omega : (s.host.ringLo.toNat / 4096 * 4096 + 1) % 4294967296 % 2 = 1)

section RingBase

variable {s : State} {lo : Word} (hi : Word)

/-- ENABLE cleared: the ring is disabled (R419). -/
theorem ringBase_disables (off : bitOf lo 0 = false) :
    ringBase lo hi s = { s with
      host.ringLo := w32 (lo.toNat / 4096 * 4096), host.ringHi := hi, host.ringEnable := false, host.ringOld := none } := by
  simp [ringBase, off]

/-- ENABLE from 0 to 1: HEAD and TAIL start at 0 (R419). -/
theorem ringBase_enables (on : bitOf lo 0 = true) (was : s.host.ringEnable = false) :
    ringBase lo hi s = { s with
      host.ringLo := w32 (lo.toNat / 4096 * 4096), host.ringHi := hi, host.ringEnable := true, host.ringHead := 0, host.ringTail := 0
      host.ringOld := none, host.ringWild := false } := by
  simp [ringBase, on, was]

/-- The address in force written again under ENABLE (R419). -/
theorem ringBase_keeps (on : bitOf lo 0 = true) (was : s.host.ringEnable = true) (address : s.host.ringLo = w32 (lo.toNat / 4096 * 4096)) :
    ringBase lo s.host.ringHi s = s := by
  have enabled : { s with host.ringEnable := true } = s := by rw [← was]
  simpa [ringBase, on, was, ← address] using enabled

end RingBase

section BusWrite

variable {s : State} (up : endpointUp s = true)

include up

theorem busWrite_unimplemented {off : Nat} (v : Word) (be : Nat) (none : barImpl (off / 4 * 4) = false) :
    busWrite off v be s = violation (off / 4 * 4) 2 0 be (written s) := by
  simp [busWrite, up, none, written]

/-- A write in the mailbox area (R413, R423). -/
theorem busWrite_mailbox {off : Nat} (v : Word) (be : Nat) (area : 0x10000 ≤ off / 4 * 4) :
    busWrite off v be s =
      (let m := barMbx (off / 4 * 4)
       let o := off / 4 * 4 % 0x1000
       if (mbxOf s m).st = .busy then violation (off / 4 * 4) 3 m be (written s)
       else if o < 0x400 then modMbx m (fun x => { x with req := tset x.req (o / 4) (mergeBytes (tget x.req 0 (o / 4)) v be) }) (written s)
       else written s) := by
  have implemented : barImpl (off / 4 * 4) = true := by simp [barImpl, area]
  have same : mbxOf { s with host.busOut := .written } (barMbx (off / 4 * 4)) = mbxOf s (barMbx (off / 4 * 4)) := rfl
  simp [busWrite, up, implemented, area, same, written]

/-- A write of word i of the MSI-X table: of a vector control word bit 0 alone (R409, R413). -/
theorem busWrite_msix {off i : Nat} (v : Word) (be : Nat) (place : off / 4 * 4 = 0x1000 + 4 * i) (range : i < 68) :
    busWrite off v be s =
      (let w := mergeBytes (tget s.host.msixTable (if i % 4 = 3 then 1 else 0) i) v be
       msixFlush { written s with host.msixTable := tset s.host.msixTable i (if i % 4 = 3 then w &&& 1 else w) }) := by
  have implemented : barImpl (0x1000 + 4 * i) = true := by simp [barImpl]; omega
  have below : ¬ 0x10000 ≤ 0x1000 + 4 * i := by omega
  have inside : 0x1000 + 4 * i < 0x1110 := by omega
  simp [busWrite, up, place, implemented, below, inside, written]

theorem busWrite_doorbell (v : Word) : busWrite 0x100 v 15 s = ringBells v (written s) := by
  simp [busWrite, up, barImpl, written]

theorem busWrite_baseLo (v : Word) : busWrite 0x200 v 15 s = ringBase v s.host.ringHi (written s) := by
  simp [busWrite, up, barImpl, written]

theorem busWrite_baseHi {off : Nat} (v : Word) (be : Nat) (place : off / 4 * 4 = 0x204) :
    busWrite off v be s = ringBase (ringBaseLo s) (mergeBytes s.host.ringHi v be) (written s) := by
  simp [busWrite, up, place, barImpl, written, ringBaseLo]

theorem busWrite_head (v : Word) (be : Nat) :
    busWrite 0x208 v be s = ringHead (BitVec.ofNat 12 (mergeBytes (w32 s.host.ringHead.toNat) v be).toNat) (written s) := by
  simp [busWrite, up, barImpl, written]

/-- The registers that are read alone, and the pending bits (R411, R413). -/
def readOnly : List Nat := [0x0, 0x4, 0x8, 0x104, 0x20C, 0x300, 0x304, 0x1800, 0x1804]

theorem busWrite_readOnly {off : Nat} (v : Word) (be : Nat) (place : off / 4 * 4 ∈ readOnly) : busWrite off v be s = written s := by
  simp only [readOnly, List.mem_cons, List.not_mem_nil, or_false] at place
  rcases place with place | place | place | place | place | place | place | place | place
  all_goals simp [busWrite, up, place, barImpl, written]

theorem busRead_violInfo :
    busRead 0x304 15 s = { s with
      host.busOut := .read (violInfo s.host.violFirst s.host.violCount), host.violFirst := none, host.violCount := 0 } := by
  simp [busRead, up, barImpl, earlyRead, barWord]

theorem busReads_refused {off : Nat} {bes : List Nat} (refused : unimplOf off bes ≠ []) : busReads off bes s = readRefused off bes s := by
  simp [busReads, up, refused]

omit up in
theorem busReads_each {off : Nat} {bes : List Nat} (all : unimplOf off bes = []) :
    busReads off bes s = foldS bes.zipIdx (fun e => busRead (off + 4 * e.2) e.1) s := by
  simp [busReads, all]

end BusWrite

section Delivery

variable {s : State} (opened : ringOpen s = true)

include opened

/-- Nothing was discarded: the oldest record held goes (R421). -/
theorem deliver_oldest {r : EvRec} {rest : List EvRec} (held : s.host.evHeld = r :: rest) (kept : s.host.evDiscarded = 0) :
    deliver s = ringPut r { s with host.evHeld := rest } := by
  simp [deliver, opened, kept, held]

/-- Room has returned: the overflow record goes first (R421). -/
theorem deliver_overflow (discarded : s.host.evDiscarded ≠ 0) (room : 2 * overflowHeld s < overflowCap s) :
    deliver s = ringPut { code := 0x0101, cls := clsSystem, kind := 0, num := 0, ns := devNs s, d4 := w32 s.host.evDiscarded }
      { s with host.evDiscarded := 0 } := by
  simp [deliver, opened, discarded, room]

omit opened in
/-- No room, or nothing to deliver. -/
theorem deliver_nothing (nothing : ringOpen s = false ∨ (s.host.evHeld = [] ∧ s.host.evDiscarded = 0)) : deliver s = s := by
  rcases nothing with closed | ⟨empty, kept⟩
  · simp [deliver, closed]
  · simp [deliver, empty, kept]

end Delivery

/-- The 10 µs of vector 0 are over (R420). -/
theorem execMsixVector0HoldoffEnd_over {s : State} {i : Nat} (due : s.host.vec0Due = true) (sent : s.host.vec0At = some i)
    (past : i + 10000 ≤ s.now) : execMsixVector0HoldoffEnd s = .next (msixSend 0 { s with host.vec0Due := false }) :=
  nextIf_holds (by simp [due, sent, past])

/-- The 1 ms between two reports of violations is over (R423, R455). -/
theorem execBusViolationEventTimer_over {s : State} {v : Viol} (first_ : s.host.violEvtFirst = some v)
    (past : ∀ i, s.host.violEvtAt = some i → i + 1000000 ≤ s.now) :
    execBusViolationEventTimer s = .next (raise 0x0102 clsSystem (if v.typ = 3 then 14 else 0) (if v.typ = 3 then v.mbx else 0)
      s.host.violSinceEvt v.off (v.typ + 4 * v.mbx + 65536 * v.be) 0
      { s with host.violSinceEvt := 0, host.violEvtFirst := none, host.violEvtAt := some s.now }) := by
  rw [execBusViolationEventTimer, first_]
  refine congrArg Host.Outcome.next (if_neg ?_)
  cases last : s.host.violEvtAt with
  | none => simp
  | some i => simpa using past i last

/-- The oldest bell is taken (R417). -/
theorem takeOne_takes {s : State} {m : Nat} {rest : List Nat} (bells : s.host.bells = m :: rest) (serves : canServe s = true) :
    takeOne s = settle (serve m { s with host.bells := rest }) := by
  simp [takeOne, bells, serves]

/-- No bell waits, or the firmware does not serve (R418). -/
theorem takeOne_waits {s : State} (waits : s.host.bells = [] ∨ canServe s = false) : takeOne s = s := by
  rcases waits with quiet | closed
  · simp [takeOne, quiet]
  · unfold takeOne
    split
    · rfl
    · simp [closed]

/-- Settles O32: each access falls in its range of BAR0, and each timer is over where its clause says so. -/
theorem hostEventsComplete : Obligations.HostEventsComplete := by
  rintro s _ rfl
  refine ⟨fun i access down => exec_hostAccess_down access down, fun up => ?bar, ?oldest, ?overflow, ?nothing, ?vector, ?violations, ?takes,
    ?waits⟩
  case bar =>
    refine ⟨?doorbell, ?enables, ?keeps, ?disables, ?head, ?info, ?refused, ?each, ?unimplemented, ?busy, ?request, ?msix, ?baseHi, ?readOnly⟩
    case doorbell => exact fun v => congrArg Host.Outcome.next (busWrite_doorbell up v)
    case enables =>
      intro v was
      have base := (busWrite_baseLo up (v ||| 1)).trans (ringBase_enables s.host.ringHi (bitOf_or_one v) was)
      rw [page_or_one] at base
      exact congrArg Host.Outcome.next base
    case keeps =>
      intro v was address
      rw [← page_or_one] at address
      exact congrArg Host.Outcome.next ((busWrite_baseLo up (v ||| 1)).trans (ringBase_keeps (bitOf_or_one v) was address))
    case disables =>
      intro v
      have base := (busWrite_baseLo up (v &&& ~~~1)).trans (ringBase_disables s.host.ringHi (bitOf_and_not_one v))
      rw [page_and_not_one] at base
      exact congrArg Host.Outcome.next base
    case head => exact fun v be => congrArg Host.Outcome.next (busWrite_head up v be.toNat)
    case info => exact congrArg Host.Outcome.next (busRead_violInfo up)
    case refused =>
      rintro off bes _ rfl refused
      exact congrArg Host.Outcome.next (busReads_refused up refused)
    case each => exact fun off bes all => congrArg Host.Outcome.next (busReads_each all)
    case unimplemented => exact fun off v be none => congrArg Host.Outcome.next (busWrite_unimplemented up v be.toNat none)
    case busy =>
      rintro off v be _ area rfl busy
      exact congrArg Host.Outcome.next ((busWrite_mailbox up v be.toNat area).trans (if_pos busy))
    case request =>
      rintro off v be _ _ area rfl free rfl
      exact congrArg Host.Outcome.next ((busWrite_mailbox up v be.toNat area).trans (if_neg free))
    case msix =>
      rintro off v be i _ place range rfl
      exact congrArg Host.Outcome.next (busWrite_msix up v be.toNat place range)
    case baseHi =>
      intro off v be place was
      have enable : bitOf (ringBaseLo s) 0 = false := (bitOf_ringBaseLo s).trans was
      rw [enable]
      exact congrArg Host.Outcome.next ((busWrite_baseHi up v be.toNat place).trans (ringBase_disables _ enable))
    case readOnly => exact fun off v be place => congrArg Host.Outcome.next (busWrite_readOnly up v be.toNat place)
  case oldest => exact fun r rest opened held kept => congrArg Host.Outcome.next (deliver_oldest opened held kept)
  case overflow => exact fun opened discarded room => congrArg Host.Outcome.next (deliver_overflow opened discarded room)
  case nothing => exact fun nothing => congrArg Host.Outcome.next (deliver_nothing nothing)
  case vector => exact fun i due sent past => execMsixVector0HoldoffEnd_over due sent past
  case violations => exact fun v first_ past => execBusViolationEventTimer_over first_ past
  case takes => exact fun m rest bells serves => congrArg Host.Outcome.next (takeOne_takes bells serves)
  case waits => exact fun waits => congrArg Host.Outcome.next (takeOne_waits waits)

end Sys2Proof.Machine
end

section
/-! PROOFS of the statement on the events of the fault collector and of the firmware (O42): an event whose condition holds acts on the state,
and from that each clause. -/

namespace Sys2Proof.Machine

section SourceEvents

variable {s : State} {a : Nat} (runs : fcRuns s = true)

include runs

/-- A check without an injection shows a real error alone (R386, R395). -/
theorem sourceEvent_real (uninjected : injecting s a 1 = none) : sourceEvent a .real s = classify a s := by
  simp [sourceEvent, runs, uninjected]

/-- An injected check shows the injection (R395, R404). -/
theorem sourceEvent_injected {i : Inject} (injected : injecting s a 1 = some i) (group : srcGroup a ≠ some 19) :
    sourceEvent a .inj s = injectDone (if i.classify then classify a (injectCount i 1 0 0 s) else injectCount i 1 0 0 s) := by
  simp [sourceEvent, runs, injected, group]

/-- Rails that come to be equal are a path fault (R384). -/
theorem pathFault_raises (up : srcUp s a = true) (exists_ : (srcGroup a).isSome = true) (apart : (srcOf s a).railsEqual = false)
    (uninjected : injecting s a 2 = none) :
    pathFault a s = raisePath a (modSrc a (fun x => { x with railsEqual := true, path := true }) s) := by
  have named : (srcGroup a).isNone = false := by rw [← Option.not_isSome, exists_]; rfl
  simp [pathFault, runs, up, named, apart, uninjected]

end SourceEvents

/-- The windows of group g that are over restart at 0 (R385). -/
def windowsEnded (g : Nat) (s : State) : State :=
  { s with fault.src := s.fault.src.map (fun (e : Nat × Src) =>
      (e.1, if srcGroup e.1 = some g ∧ e.2.winKey ≠ winKeyNow s g then { e.2 with win := 0 } else e.2)) }

theorem execFaultWindowEnd_eq (g : Fin 20) (s : State) : execFaultWindowEnd g s = .next (windowsEnded g.val s) := by
  simp [execFaultWindowEnd, windowsEnded]

/-- What is due is carried out, unless nothing of this source is or the fatal latch is set (R390, R398). -/
theorem graceExpiry_eq (a : Nat) (s : State) :
    graceExpiry a s = if (sourceDue s a).isEmpty || fatalSet s then s else runDue (4 * s.fault.src.length) s := by
  rw [graceExpiry, allDue]
  cases (sourceDue s a).isEmpty <;> rfl

/-- The timer that is due first expires first (R390). -/
theorem runDue_step {s : State} {n b k : Nat} (first_ : nextDue s = some (b, k)) : runDue (n + 1) s = runDue n (timerExpiry b k s) := by
  conv_lhs => rw [runDue.eq_def, first_]

section Exercise

variable {s : State} {a : Nat} (seen : Option CheckObs) (runs : mpRuns s = true)

include runs

/-- The exercise of a source at its time: a check that shows nothing is tried once more (R396). -/
theorem exercise_due (past : (srcOf s a).exerciseAt ≤ s.now) (exercised : exerciseSkips s a = false) :
    exercise a seen s =
      (let r := exerciseCheck a seen (modSrc a (fun x => { x with exerciseAt := s.now + 10000000000 }) s)
       if r.1 then r.2 else modSrc a (fun x => { x with retryAt := some (s.now + 1000000) }) r.2) := by
  simp [exercise, runs, Nat.not_lt.2 past, exercised]

/-- The second check: a source that shows nothing again is silent (R396). -/
theorem exerciseAgain_due {i : Nat} (retry : (srcOf s a).retryAt = some i) (past : i ≤ s.now)
    (exercised : exerciseSkips (modSrc a (fun x => { x with retryAt := none }) s) a = false) :
    exerciseAgain a seen s =
      (let r := exerciseCheck a seen (modSrc a (fun x => { x with retryAt := none }) s)
       if r.1 then r.2 else raiseSilent a (modSrc a (fun x => { x with silent := true }) r.2)) := by
  simp [exerciseAgain, runs, due_of_le retry past, exercised]

end Exercise

/-- A real error in an exercised check: an ECC checker shows both, any other neither (R395). -/
theorem exerciseCheck_real {o : CheckObs} (a : Nat) (s : State) (real : o ≠ .inj) :
    exerciseCheck a (some o) s = if checkerKind a = .ecc
      then (true, classify a (modSrc a (fun x => { x with inj := x.inj + 1, realInj := x.realInj + 1 }) s))
      else (false, modSrc a (fun x => { x with missed := x.missed + 1 }) s) := by
  cases o
  case inj => exact absurd rfl real
  all_goals simp [exerciseCheck]

section FirmwareEvents

variable {s : State}

/-- The erase of the staged slot ends (R429). -/
theorem execFwEraseDone_erasing (ok : Bool) (erasing : s.fw.erasing = true) :
    execFwEraseDone ok s = .next (evtFw 0x11 { modSlot (stageSlot s) (fun x => { x with staged := if ok then max 1 x.staged else 0 }) s with
      fw.erasing := false, fw.lastResult := if ok then 0 else 6 }) := by
  simp [execFwEraseDone, erasing]

/-- The check of the staged slot ends, and finds it valid and unwritten since (R429). -/
theorem execFwCheckDone_valid (checking : s.fw.checking = true) (unwritten : s.fw.wrote = false)
    (valid : imageCheck s.fw (slotOf s.fw (stageSlot s)) = 0) :
    execFwCheckDone s = .next (evtFw 0x13 { modSlot (stageSlot s) (fun x => { x with staged := 3 }) s with
      fw.checking := false, fw.lastResult := 0 }) := by
  simp [execFwCheckDone, checking, unwritten, valid]

/-- The check of the staged slot finds a fault (R427, R429). -/
theorem execFwCheckDone_invalid (checking : s.fw.checking = true) (invalid : imageCheck s.fw (slotOf s.fw (stageSlot s)) ≠ 0) :
    execFwCheckDone s = .next (evtFw 0x13 { s with
      fw.checking := false, fw.lastResult := imageCheck s.fw (slotOf s.fw (stageSlot s)) }) := by
  simp [execFwCheckDone, checking, invalid]

variable {x : Activation} (activation : s.fw.activation = some x) (restarting : s.fw.state = 2)

include activation restarting

/-- The image of an activation as the one that runs, unconfirmed (R431). -/
def imageAdopted (k : Nat) (s : State) : State :=
  { s with fw.running := slotHdr (slotOf s.fw k), fw.slot := k, fw.confirmed := false, fw.activation := none, fw.lastResult := 0 }

/-- The new image runs with the running configuration (R431). -/
theorem activationReady_valid (valid : imageCheck s.fw (slotOf s.fw (1 - x.prev)) = 0) :
    activationReady s = evtFw (0x20 + x.op) (mpBack (modSlot 0 (fun x => { x with staged := 0 })
      (modSlot 1 (fun x => { x with staged := 0 }) (imageAdopted (1 - x.prev) s)))) := by
  simp [activationReady, activation, restarting, valid, imageAdopted]

/-- The image is invalid, or not READY after 1.8 s: the previous one runs again (R431). -/
theorem execActivationFallback_falls (falls : imageCheck s.fw (slotOf s.fw (1 - x.prev)) ≠ 0 ∨ x.at_ + 1800000000 ≤ s.now) :
    execActivationFallback s = .next (evtFw (0x20 + x.op) { s with fw := { bootWrite x.prev true s.fw with
      confirmed := true, activation := none
      lastResult := if imageCheck s.fw (slotOf s.fw (1 - x.prev)) = 0 then 7 else imageCheck s.fw (slotOf s.fw (1 - x.prev)) } }) := by
  rw [execActivationFallback, activation]
  exact nextIf_holds (by simpa [restarting] using falls)

end FirmwareEvents

/-- Settles O42: under each clause's premises the event's condition holds. -/
theorem faultEventsComplete : Obligations.FaultEventsComplete := by
  intro s a
  refine ⟨?real, ?injected, ?path, ?recovery, ?window, ?grace, ?runDue, ?twinFirst, ?armed, ?mask, ?pulse, ?exercise, ?retry, ?nothing, ?inj,
    ?both, ?timeout, ?erase, ?valid, ?invalid, ?ready, ?fallback, ?compaction⟩
  case real => exact fun runs uninjected => congrArg nextSettled (sourceEvent_real runs uninjected)
  case injected =>
    rintro i _ runs injected group rfl
    exact congrArg nextSettled (sourceEvent_injected runs injected group)
  case path =>
    exact fun runs up exists_ apart uninjected => congrArg nextSettled (pathFault_raises runs up exists_ apart uninjected)
  case recovery => rfl
  case window => exact fun g => execFaultWindowEnd_eq g s
  case grace =>
    rintro _ rfl
    exact ⟨congrArg nextSettled (graceExpiry_eq a.val s), congrArg nextSettled (graceExpiry_eq a.val s)⟩
  case runDue => exact fun n b k first_ => runDue_step first_
  case twinFirst => rfl
  case armed => exact fun t until_ past => nextIf_holds (due_of_le until_ past)
  case mask => exact fun t until_ past => nextIf_holds (due_of_le until_ past)
  case pulse => exact fun t until_ past => nextIf_holds (due_of_le until_ past)
  case exercise =>
    rintro seen _ _ runs past exercised rfl rfl
    exact congrArg nextSettled (exercise_due seen runs past exercised)
  case retry =>
    rintro seen i _ _ runs retry past rfl exercised rfl
    exact congrArg nextSettled (exerciseAgain_due seen runs retry past exercised)
  case nothing => rfl
  case inj => rfl
  case both => exact fun o real => exerciseCheck_real a.val s real
  case timeout => rfl
  case erase =>
    rintro ok _ erasing rfl
    exact execFwEraseDone_erasing ok erasing
  case valid =>
    rintro _ checking rfl unwritten valid
    exact execFwCheckDone_valid checking unwritten valid
  case invalid =>
    rintro _ _ checking rfl rfl invalid
    exact execFwCheckDone_invalid checking invalid
  case ready =>
    rintro x _ _ activation restarting rfl valid rfl
    exact congrArg (fun u => nextSettled (mirrorResume u)) (activationReady_valid activation restarting valid)
  case fallback =>
    rintro x _ activation restarting rfl falls
    exact execActivationFallback_falls activation restarting falls
  case compaction => exact fun runs => nextIf_holds runs

end Sys2Proof.Machine
end

section
/-! PROOFS of the statement on the events of the twin (O41): an event whose condition holds acts on the state, and from that each clause. -/

namespace Sys2Proof.Machine

section Heartbeats

variable {s : State} (runs : s.twin.run = true)

include runs

/-- A heartbeat is due (R356). -/
theorem execHeartbeatTimer_due (out : s.twin.role ≠ .out) (yield : s.twin.role ≠ .yield) (past : s.twin.hbNextAt ≤ s.now) :
    execHeartbeatTimer s = .next (sendHeartbeat s) :=
  nextIf_holds (by simp [runs, out, yield, past])

/-- An edge of HBX_IN: the path is there, and was or was not (R357). -/
theorem execHbxEdge_seen :
    execHbxEdge s =
      (let t := heartbeatSeen { s with twin.hbxOk := true, twin.hbxAt := some s.now }
       .next (settle (if s.twin.hbxOk then t else evtPartner 2 t))) :=
  settledIf_holds runs

/-- 50 µs without a heartbeat on the Varric link (R357). -/
theorem execVarricHeartbeatLoss_over {t : Nat} (ok : s.twin.vhbOk = true) (last : s.twin.vhbAt = some t) (past : t + 50000 ≤ s.now) :
    execVarricHeartbeatLoss s = .next (settle (heartbeatLost { s with twin.vhbOk := false })) :=
  settledIf_holds (by simp [runs, ok, ranFor_of_le last past])

/-- 50 µs without an edge of HBX_IN (R357). -/
theorem execHbxHeartbeatLoss_over {t : Nat} (ok : s.twin.hbxOk = true) (last : s.twin.hbxAt = some t) (past : t + 50000 ≤ s.now) :
    execHbxHeartbeatLoss s = .next (settle (heartbeatLost { s with twin.hbxOk := false })) :=
  settledIf_holds (by simp [runs, ok, ranFor_of_le last past])

end Heartbeats

section Claim

variable {s : State} (runs : s.twin.run = true)

include runs

/-- The claim line is released (R358, R365). -/
theorem execArbClaimReleased_runs :
    execArbClaimReleased s =
      (let t := { s with twin.arbAsserted := false }
       .next (settle (arbFaultStep (arbOpen t) (claimCheck (lostTimer t))))) :=
  congrArg nextSettled (if_pos runs)

/-- The state in which a role meets the claim line asserted: the line and ARB_FAULT are read (R365). -/
def claimSeen (s : State) : State :=
  let t := { s with twin.arbAsserted := true }
  arbFaultStep (t.twin.arbFault && bothLost t) (lostTimer t)

/-- What each role makes of the claim line asserted (R354, R358, R365). -/
def claimMet (u : State) : State :=
  match u.twin.role with
  | .startup => setRole .standby 11 u
  | .claimWait => setRole .standby 11 u
  | .yield => finishWaiting isSwitch .ok [] (setRole .standby 4 u)
  | .active => { u with twin.activeN := u.twin.arbDrive }
  | .handover => { u with twin.activeN := u.twin.arbDrive }
  | _ => u

theorem execArbClaimAsserted_runs : execArbClaimAsserted s = .next (settle (claimMet (claimSeen s))) :=
  congrArg nextSettled (if_neg (by simp [runs]))

omit runs in
/-- The partner's claim comes before this twin's own (R358). -/
theorem claimMet_standby {u : State} (role : u.twin.role = .startup ∨ u.twin.role = .claimWait) : claimMet u = setRole .standby 11 u := by
  rcases role with startup | wait
  · simp [claimMet, startup]
  · simp [claimMet, wait]

omit runs in
/-- The partner takes the claim that this twin yields (R365). -/
theorem claimMet_yield {u : State} (role : u.twin.role = .yield) :
    claimMet u = finishWaiting isSwitch .ok [] (setRole .standby 4 u) := by
  simp [claimMet, role]

section ClaimDelay

variable {t : Nat} (role : s.twin.role = .claimWait) (until_ : s.twin.claimUntil = some t) (past : t ≤ s.now)

include role until_ past

theorem execClaimDelayExpiry_over :
    execClaimDelayExpiry s = .next (settle
      (if s.twin.arbAsserted then setRole .standby 11 s else setRole .active (if s.twin.claimFromStandby then 1 else 2) s)) :=
  settledIf_holds (by simp [runs, role, due_of_le until_ past])

/-- The line stayed released for the claim delay: this twin claims (R358). -/
theorem execClaimDelayExpiry_claims (released : s.twin.arbAsserted = false) :
    execClaimDelayExpiry s = .next (settle (setRole .active (if s.twin.claimFromStandby then 1 else 2) s)) := by
  rw [execClaimDelayExpiry_over runs role until_ past, released]
  rfl

/-- The partner's claim is there (R358). -/
theorem execClaimDelayExpiry_yields (asserted : s.twin.arbAsserted = true) :
    execClaimDelayExpiry s = .next (settle (setRole .standby 11 s)) := by
  rw [execClaimDelayExpiry_over runs role until_ past, asserted]
  rfl

end ClaimDelay

/-- The standby that acknowledged a handover takes the role at its instant (R363). -/
theorem execHandoverAtReached_takes {t : Nat} {h : Heartbeat} (accepted : s.twin.accepted = some t) (standby : s.twin.role = .standby)
    (past : t ≤ devFine s) (sent : s.twin.hbSent = some h) (ack : h.ack = true) :
    execHandoverAtReached s = .next (settle (sendHeartbeat (setRole .active 3 s))) := by
  simp only [execHandoverAtReached, accepted, sent, ack]
  exact settledIf_holds (by simp [runs, standby, past])

section Release

variable {t : Nat} (handover : s.twin.handoverAt = some t) (role : s.twin.role = .handover) (past : t + 9000 * 65536 ≤ devFine s)

include handover role past

theorem execHandoverRelease_over :
    execHandoverRelease s = .next (settle
      (if s.twin.seenActive then finishWaiting isSwitch .ok [] (setRole .standby 3 s)
       else finishWaiting isSwitch .timeout [] (setRole .active 3 s))) := by
  have elapsed : (s.twin.run && s.twin.role == .handover && decide (t + 9000 * 65536 ≤ devFine s)) = true := by
    rw [runs, role, decide_eq_true past]
    rfl
  rw [execHandoverRelease, handover]
  exact settledIf_holds elapsed

/-- The partner was seen ACTIVE: the claim is released (R363). -/
theorem execHandoverRelease_seen (seen : s.twin.seenActive = true) :
    execHandoverRelease s = .next (settle (finishWaiting isSwitch .ok [] (setRole .standby 3 s))) := by
  rw [execHandoverRelease_over runs handover role past, seen]
  rfl

/-- The partner was not seen ACTIVE: this twin goes on (R363). -/
theorem execHandoverRelease_unseen (unseen : s.twin.seenActive = false) :
    execHandoverRelease s = .next (settle (finishWaiting isSwitch .timeout [] (setRole .active 3 s))) := by
  rw [execHandoverRelease_over runs handover role past, unseen]
  rfl

end Release

/-- The time of a yield is over (R365). -/
theorem execYieldTimeout_over {t : Nat} (role : s.twin.role = .yield) (until_ : s.twin.yieldUntil = some t) (past : t ≤ s.now) :
    execYieldTimeout s = .next (settle (if s.twin.arbAsserted then finishWaiting isSwitch .ok [] (setRole .standby 4 s)
      else finishWaiting isSwitch .timeout [] (setRole .active 4 s))) :=
  settledIf_holds (by simp [runs, role, due_of_le until_ past])

/-- The claim of a partner that is long silent is a fault of arbitration (R365). -/
theorem execArbFaultTimer_over (standby : s.twin.role = .standby) (lost : lostLong s = true) (asserted : s.twin.arbAsserted = true) :
    execArbFaultTimer s = .next (settle (arbFaultStep true s)) :=
  settledIf_holds (by simp [runs, standby, lost, asserted])

/-- All Varric lanes carry a signal (R355). -/
theorem execVarricLinkUp_comes (down : s.twin.linkUp = false) (lanes : varricLanes s = true) :
    execVarricLinkUp s = .next (settle (evtPartner 1 { fedLanes false s with twin.linkUp := true })) :=
  settledIf_holds (by simp [runs, down, lanes])

end Claim

section Link

variable {s : State} (link : s.twin.linkUp = true)

include link

/-- The link goes down (R355, R365). -/
theorem linkDown_goes :
    linkDown s =
      (let t := fedLanes true s
       evtPartner 1 { t with
         twin.linkUp := false, twin.resynced := false, twin.resyncing := false, twin.histSync := false, twin.aligned := false
         twin.rxTxn := if t.twin.rxApply.isSome then t.twin.rxTxn else [], twin.rxPrepared := false, twin.hbTimes := []
         twin.partnerSt := if bothLost t then 0 else 1 }) := by
  rw [linkDown]
  exact if_neg (by simp [link])

/-- Cross-fed content of a single-homed port whose slice is on (R29, R373). -/
theorem execXfeedFrameRx_fed {p : Fin 256} (x : Xfeed) (port : thas s.port p.val = true) (homed : homingOf s p.val ≠ 0)
    (up : domUp s (p.val / 8) = true) :
    execXfeedFrameRx p x s =
      (let t := { s with twin.xfed := tset s.twin.xfed p.val x.bytes }
       .next (settle (if portFed t p.val then
           foldS (x.found.filter (fun a => rootPort t treeDepth (chKey false a.ch.val) == some p.val))
             (fun a => chanToFabric (chKey false a.ch.val) a.bytes a.eop a.bad) t
         else t))) :=
  settledIf_holds (by simp [link, port, homed, up])

end Link

/-- An arrival from the partner is acted on or held. -/
theorem exec_mirrorArrival {i : Instr} {f : MirrorFrame} (s : State) (arrival : mirrorArrival i = some f) :
    exec i s = .next (settle (mirrorIn f s)) := by
  cases i <;> cases arrival <;> rfl

/-- It is held while the MP is not running (R17, R20). -/
theorem mirrorIn_held (f : MirrorFrame) {s : State} (stopped : mpRuns s = false) :
    mirrorIn f s = { s with twin.mirrorHeld := s.twin.mirrorHeld ++ [f] } := by
  rw [mirrorIn, stopped]
  rfl

/-- It is acted on while the MP runs. -/
theorem exec_mirrorStep {i : Instr} {f : MirrorFrame} {s t : State} (runs : mpRuns s = true) (arrival : mirrorArrival i = some f)
    (step : mirrorStep f s = t) : exec i s = .next (settle t) := by
  rw [exec_mirrorArrival s arrival, mirrorIn, runs, ← step]
  rfl

section Commit

variable {s : State}

section Prepared

variable {dl : Nat} (commit : s.twin.commit = .prepared dl) (inTime : s.now ≤ dl)

include commit inTime

/-- PREPARED in time: COMMIT goes out with its instant (R368). -/
theorem preparedRx_ok :
    preparedRx true s = sendFrames 0x11 1 { s with twin.commit := .ack ((devNs s + 500000 + 99999) / 100000 * 100000) } := by
  simp [preparedRx, commit, inTime]

/-- The partner refuses the transaction (R368). -/
theorem preparedRx_refused :
    preparedRx false s =
      finishWaiting (· == .commit) .wrongState [] (evtPartner 5 { s with twin.commit := .none, twin.commitLen := 0 }) := by
  simp [preparedRx, commit, inTime]

end Prepared

/-- COMMIT_ACK more than 100 µs before its instant (R368). -/
theorem commitAckRx_inTime {t : Nat} (commit : s.twin.commit = .ack t) (inTime : devNs s + 100000 < t) :
    commitAckRx s = { s with twin.commit := .apply t } := by
  simp [commitAckRx, commit, inTime]

section Timeout

variable (runs : mpRuns s = true)

include runs

/-- PREPARED did not come in time (R369). -/
theorem execTwinCommitTimeout_prepared {dl : Nat} (commit : s.twin.commit = .prepared dl) (late : dl < s.now) :
    execTwinCommitTimeout s =
      .next (settle (finishWaiting (· == .commit) .timeout [] { s with twin.commit := .none, twin.commitLen := 0 })) := by
  simp only [execTwinCommitTimeout, commit]
  exact settledIf_holds (by simp [runs, late])

/-- COMMIT_ACK did not come in time (R369). -/
theorem execTwinCommitTimeout_ack {t : Nat} (commit : s.twin.commit = .ack t) (late : t ≤ devNs s + 100000) :
    execTwinCommitTimeout s =
      .next (settle (finishWaiting (· == .commit) .timeout [] { s with twin.commit := .none, twin.commitLen := 0 })) := by
  simp only [execTwinCommitTimeout, commit]
  exact settledIf_holds (by simp [runs, late])

end Timeout

/-- COMMIT of a transaction that the standby has prepared (R368). -/
theorem commitRx_prepared (t : Nat) (runs : s.twin.run = true) (link : s.twin.linkUp = true) (standby : s.twin.role = .standby)
    (prepared : s.twin.rxPrepared = true) :
    commitRx t s = sendFrames 0x11 1 { s with twin.rxPrepared := false, twin.rxApply := some t } := by
  simp [commitRx, runs, link, standby, prepared]

end Commit

/-- The copying of bins leaves the twin's records. -/
theorem pmCopies_twin (bins : List PmCopy) (s : State) : (bins.foldl pmCopy s).twin = s.twin := by
  induction bins generalizing s with
  | nil => rfl
  | cons b bins ih => exact (ih (pmCopy s b)).trans rfl

/-- The current bins follow the configuration on the standby, which is then synchronised (R380). -/
theorem resyncReady_standby {s : State} (bins : List PmCopy) (resyncing : s.twin.resyncing = true) (standby : s.twin.role = .standby) :
    resyncReady bins s = evtPartner 4 { bins.foldl pmCopy s with twin.resyncing := false, twin.resynced := true } := by
  simp [resyncReady, resyncing, standby, pmCopies_twin]

/-- The history that the standby still lacks (R380). -/
theorem histSynced_standby {s : State} {n : Nat} (pm : List PmHistCopy) (tim : List TimingCopy) (link : s.twin.linkUp = true)
    (paired : s.twin.paired = true) (started : s.twin.resyncAt = some n) (lacks : s.twin.histSync = false)
    (standby : s.twin.role = .standby) :
    histSynced pm tim s =
      evtPartner 4 { tim.foldl timingCopy (pm.foldl pmHistCopy s) with twin.histSync := true, twin.resyncAt := none } := by
  simp [histSynced, link, paired, started, lacks, standby]

/-- The commands of a transaction as a staging area holds them. -/
def txnStaged (cmds : List TxnCmd) : List Staged := cmds.map (fun e => { code := e.code.toNat, req := e.req })

/-- Whether the standby's own configuration accepts a transaction (R368). -/
def txnAccepted (l : List Staged) (s : State) : Bool :=
  (l.foldl (fun (a : Bool × State) e => let r := txnBody e a.2; (a.1 && r.1, r.2)) (true, s)).1

section Transaction

variable {s : State} {n : Word} {cmds : List TxnCmd} (runs : s.twin.run = true) (link : s.twin.linkUp = true)
  (paired : s.twin.paired = true) (standby : s.twin.role = .standby)

include runs link paired standby

/-- A transaction that is not the next one, or that comes before an acknowledged one has applied (R368). -/
theorem transactionRx_mismatch (mismatch : n ≠ s.twin.txn + 1 ∨ s.twin.rxApply.isSome = true) :
    transactionRx n cmds s =
      (let t := sendFrames 0x11 1 s
       evtPartner 5 { t with
         twin.resynced := false, twin.rxTxn := if t.twin.rxApply.isSome then t.twin.rxTxn else [], twin.rxPrepared := false }) := by
  have refused : ¬ (n == s.twin.txn + 1 && s.twin.rxApply.isNone && txnAccepted (txnStaged cmds) s) = true := by
    rcases mismatch with other | open_
    · rw [beq_eq_false_iff_ne.2 other, Bool.false_and, Bool.false_and]
      exact Bool.false_ne_true
    · rw [← Option.not_isSome, open_, Bool.not_true, Bool.and_false, Bool.false_and]
      exact Bool.false_ne_true
  rw [transactionRx, if_pos (by simp [runs, link, paired, standby])]
  exact if_neg refused

/-- The next transaction, which the standby's configuration accepts (R368). -/
theorem transactionRx_accepted (next : n = s.twin.txn + 1) (none_ : s.twin.rxApply = none) (accepted : txnAccepted (txnStaged cmds) s = true) :
    transactionRx n cmds s = { sendFrames 0x11 1 s with twin.rxTxn := txnStaged cmds, twin.rxTxnNum := n, twin.rxPrepared := true } := by
  have ok : (n == s.twin.txn + 1 && s.twin.rxApply.isNone && txnAccepted (txnStaged cmds) s) = true := by
    rw [beq_iff_eq.2 next, none_, accepted]
    rfl
  rw [transactionRx, if_pos (by simp [runs, link, paired, standby])]
  exact if_pos ok

end Transaction

section Apply

variable {s : State} (runs : mpRuns s = true)

include runs

/-- T_apply on the twin that sent the transaction (R368). -/
theorem execTApplyReached_active {t : Nat} (commit : s.twin.commit = .apply t) (past : t ≤ devNs s)
    (alone : (applyActive t s).twin.rxApply = none) : execTApplyReached s = .next (settle (applyActive t s)) := by
  simp [execTApplyReached, runs, commit, past, alone, nextSettled]

/-- T_apply on the standby (R368). -/
theorem execTApplyReached_standby {t : Nat} (other : ∀ x, s.twin.commit ≠ .apply x) (applies : s.twin.rxApply = some t)
    (past : t ≤ devNs s) : execTApplyReached s = .next (settle (applyStandby t s)) := by
  cases commit : s.twin.commit
  case apply x => exact absurd commit (other x)
  all_goals simp [execTApplyReached, runs, commit, applies, past, nextSettled]

end Apply

section Resync

variable {s t : State} (l : List TxnCmd) (runs : s.twin.run = true)

include runs

/-- The standby takes the configuration, without local settings (R380). -/
theorem resyncStart_standby (due : resyncDue s = true)
    (applied : t = resyncApply ((l.map (fun e => ({ code := e.code.toNat, req := e.req } : JEntry))).filter (fun e => !(localEntry e))) s) :
    resyncStart l s =
      { t with twin.resyncing := true, twin.resyncs := t.twin.resyncs + 1, twin.resyncAt := some t.now, twin.histSync := false } := by
  simp only [resyncStart, runs, due, applied, Bool.and_self, if_true]

/-- The active twin sends it (R380). -/
theorem resyncStart_active (notHere : resyncDue s = false) (due : resyncDueActive s = true) (sent : t = sendFrames 0x11 1 s) :
    resyncStart l s =
      { t with twin.resyncing := true, twin.resyncs := t.twin.resyncs + 1, twin.resyncAt := some t.now, twin.histSync := false } := by
  simp only [resyncStart, runs, notHere, due, sent, Bool.and_self, Bool.and_false, Bool.false_eq_true, if_true, if_false]

end Resync

/-- Settles O41: under each clause's premises the event's condition holds, and what arrives from the partner is acted on or held. -/
theorem twinEventsComplete : Obligations.TwinEventsComplete := by
  intro s
  refine ⟨?timer, ?rx, ?edge, ?vhb, ?hbx, ?released, ?claimed, ?yielded, ?claims, ?yields, ?handover, ?seen, ?unseen, ?yieldOver, ?arbFault,
    ?linkUp, ?linkDown, ?xfeed, ?held, ?prepared, ?refused, ?ack, ?latePrepared, ?lateAck, ?commit, ?decision, ?snapshot, ?ready, ?history,
    ?mismatch, ?transaction, ?applyActive, ?applyStandby, ?resyncStandby, ?resyncActive⟩
  case timer => exact fun runs out yield past => execHeartbeatTimer_due runs out yield past
  case rx => exact fun h => rfl
  case edge =>
    rintro _ runs rfl
    exact execHbxEdge_seen runs
  case vhb => exact fun t runs ok last past => execVarricHeartbeatLoss_over runs ok last past
  case hbx => exact fun t runs ok last past => execHbxHeartbeatLoss_over runs ok last past
  case released =>
    rintro _ runs rfl
    exact execArbClaimReleased_runs runs
  case claimed =>
    rintro _ _ runs rfl rfl role
    exact (execArbClaimAsserted_runs runs).trans (congrArg nextSettled (claimMet_standby role))
  case yielded =>
    rintro _ _ runs rfl rfl role
    exact (execArbClaimAsserted_runs runs).trans (congrArg nextSettled (claimMet_yield role))
  case claims => exact fun t runs role until_ past released => execClaimDelayExpiry_claims runs role until_ past released
  case yields => exact fun t runs role until_ past asserted => execClaimDelayExpiry_yields runs role until_ past asserted
  case handover => exact fun t h runs accepted standby past sent ack => execHandoverAtReached_takes runs accepted standby past sent ack
  case seen => exact fun t runs handover role past seen => execHandoverRelease_seen runs handover role past seen
  case unseen => exact fun t runs handover role past unseen => execHandoverRelease_unseen runs handover role past unseen
  case yieldOver => exact fun t runs role until_ past => execYieldTimeout_over runs role until_ past
  case arbFault => exact fun runs standby lost asserted => execArbFaultTimer_over runs standby lost asserted
  case linkUp => exact fun runs down lanes => execVarricLinkUp_comes runs down lanes
  case linkDown =>
    rintro _ link rfl
    exact congrArg nextSettled (linkDown_goes link)
  case xfeed =>
    rintro p x _ link port homed up rfl
    exact execXfeedFrameRx_fed link x port homed up
  case held =>
    intro i f arrival stopped
    rw [exec_mirrorArrival s arrival, mirrorIn_held f stopped]
  case prepared => exact fun dl runs commit inTime => exec_mirrorStep runs rfl (preparedRx_ok commit inTime)
  case refused => exact fun dl runs commit inTime => exec_mirrorStep runs rfl (preparedRx_refused commit inTime)
  case ack => exact fun t runs commit inTime => exec_mirrorStep runs rfl (commitAckRx_inTime commit inTime)
  case latePrepared => exact fun dl runs commit late => execTwinCommitTimeout_prepared runs commit late
  case lateAck => exact fun t runs commit late => execTwinCommitTimeout_ack runs commit late
  case commit => exact fun t mp runs link standby prepared => exec_mirrorStep mp rfl (commitRx_prepared t runs link standby prepared)
  case decision => exact fun dec runs follows => exec_mirrorStep runs rfl (if_pos follows)
  case snapshot => exact fun a j runs follows point => exec_mirrorStep runs rfl (if_pos (by rw [follows, point]; rfl))
  case ready =>
    rintro bins _ runs resyncing standby rfl
    exact exec_mirrorStep runs rfl (resyncReady_standby bins resyncing standby)
  case history =>
    exact fun pm tim n runs link paired started lacks standby =>
      exec_mirrorStep runs rfl (histSynced_standby pm tim link paired started lacks standby)
  case mismatch =>
    rintro n cmds _ mp runs link paired standby mismatch rfl
    exact exec_mirrorStep mp rfl (transactionRx_mismatch runs link paired standby mismatch)
  case transaction =>
    rintro n cmds _ _ mp runs link paired standby next none_ rfl accepted rfl
    exact exec_mirrorStep mp rfl (transactionRx_accepted runs link paired standby next none_ accepted)
  case applyActive => exact fun t runs commit past alone => execTApplyReached_active runs commit past alone
  case applyStandby => exact fun t runs other applies past => execTApplyReached_standby runs other applies past
  case resyncStandby => exact fun l t mp runs due applied => exec_mirrorStep mp rfl (resyncStart_standby l runs due applied)
  case resyncActive => exact fun l t mp runs notHere due sent => exec_mirrorStep mp rfl (resyncStart_active l runs notHere due sent)

end Sys2Proof.Machine
end

section
/-! PROOFS of the statement on the events of start-up, resets and power domains (O33): an event whose condition holds acts on the state, and
from that each clause. -/

namespace Sys2Proof.Machine

section Phases

variable {s : State}

/-- PORST_N is released on a device with its rails up (R460). -/
theorem execPorstNRelease_up (strap : Bool) (rails : s.pins.railsOk = true) (low : s.pins.porstN = false) :
    execPorstNRelease strap s =
      .next { s with pins.porstN := true, pins.strap := strap, boot.phase := .always, boot.porstAt := s.now, boot.imageAt := s.now } :=
  nextIf_holds (by simp [rails, low])

/-- The FC and the TMC run, and the endpoint is enabled (R462). -/
theorem execStartupPhase1End_always (phase : s.boot.phase = .always) :
    execStartupPhase1End s = .next (temperReset { s with
      boot.phase := .image, boot.endpoint := true, fault.corrTick := tickNow s, fault.corrNs := 0
      pm.secStart := 0, pm.secAt := s.now, tmc.secAt := s.now * 65536 }) :=
  nextIf_holds (by simp [phase])

section Image

/-- The log and the result of the last operation are no part of an image's check (R427). -/
theorem imageCheck_logAdd (cause : LogCause) (arg result k : Nat) (s : State) :
    imageCheck (logAdd cause arg { s with fw.lastResult := result }).fw (slotOf (logAdd cause arg { s with fw.lastResult := result }).fw k) =
      imageCheck s.fw (slotOf s.fw k) := rfl

variable {r : BootRec} (phase : s.boot.phase = .image) (recorded : bootRec s.fw = some r)

include phase recorded

/-- The image of the boot record runs (R428). -/
theorem execStartupPhase2End_runs (good : imageCheck s.fw (slotOf s.fw r.active) = 0) :
    execStartupPhase2End s = .next (runImage r.active r.confirmed s) := by
  simp only [execStartupPhase2End, phase, beq_self_eq_true, if_true, recorded, good]

variable (bad : imageCheck s.fw (slotOf s.fw r.active) ≠ 0)

include bad

/-- The other slot's image runs (R428). -/
theorem execStartupPhase2End_fallsBack (good : imageCheck s.fw (slotOf s.fw (1 - r.active)) = 0) :
    execStartupPhase2End s =
      .next (fallBack (1 - r.active) (logAdd .image r.active { s with fw.lastResult := imageCheck s.fw (slotOf s.fw r.active) })) := by
  simp only [execStartupPhase2End, phase, beq_self_eq_true, if_true, recorded, if_neg bad, imageCheck_logAdd, good]

/-- Neither image runs (R428). -/
theorem execStartupPhase2End_recovers (badToo : imageCheck s.fw (slotOf s.fw (1 - r.active)) ≠ 0) :
    execStartupPhase2End s =
      .next { logAdd .image r.active { s with fw.lastResult := imageCheck s.fw (slotOf s.fw r.active) } with
        boot.phase := .finished, fw.state := 4 } := by
  simp only [execStartupPhase2End, phase, beq_self_eq_true, if_true, recorded, if_neg bad, imageCheck_logAdd, badToo, if_false]

end Image

/-- Domain d without power under the fatal latch (R466). -/
def domainFatal (d : Nat) (s : State) : State :=
  srcsIsolate d (modDom d (fun x => { x with st := if x.st == .on then .isoFatal else x.st }) s)

/-- The boot is counted, and the recorded domains are taken up, one isolated under the fatal latch as on (R462). -/
theorem execStartupPhase3End_domains (phase : s.boot.phase = .firmware) (clear : s.fault.latch = none) :
    execStartupPhase3End s =
      .next { foldS (List.range 36) (fun d s =>
          let s := modDom d (fun x => { x with st := if x.st == .isoFatal then .on else x.st }) s
          if (domOf s d).st == .on then s else srcsIsolate d s) { s with boot.boots := s.boot.boots + 1 } with boot.phase := .domains } := by
  simp only [execStartupPhase3End, phase, beq_self_eq_true, if_true, clear]

/-- With the fatal latch set no domain is powered (R466). -/
theorem execStartupPhase3End_fatal {a n : Nat} (phase : s.boot.phase = .firmware) (latched : s.fault.latch = some (a, n)) :
    execStartupPhase3End s =
      .next (modSrc a (fun x => { x with st := .fatal })
        (let t := foldS (List.range 36) domainFatal { s with boot.boots := s.boot.boots + 1 }
         { t with
           boot.phase := .finished, fw.state := 3
           fault.reasons := if t.fault.reasons.contains (8, a) then t.fault.reasons else t.fault.reasons ++ [(8, a)] })) := by
  simp only [execStartupPhase3End, phase, beq_self_eq_true, if_true, latched]
  rfl

/-- The domains recorded ON are up (R462). -/
theorem execStartupPhase4End_domains (phase : s.boot.phase = .domains) :
    execStartupPhase4End s =
      .next { foldS (List.range 36) (fun d s => if (domOf s d).st == .on then modDom d (fun x => { x with up := true }) s else s) s with
        boot.phase := .memLanes, boot.memDone := false, boot.lanesDone := false } :=
  nextIf_holds (by simp [phase])

/-- The memory is trained (R462, R463). -/
theorem execStartupPhase5aEnd_trains (pcs : BitVec 64) (stackBits : BitVec 2) (phase : s.boot.phase = .memLanes)
    (open_ : s.boot.memDone = false) : execStartupPhase5aEnd pcs stackBits s = .next (phase5a pcs stackBits s) :=
  nextIf_holds (by simp [phase, open_])

/-- The lanes are trained (R462, R464). -/
theorem execStartupPhase5bEnd_trains (failed : List LaneId) (phase : s.boot.phase = .memLanes) (open_ : s.boot.lanesDone = false) :
    execStartupPhase5bEnd failed s = .next (phase5b (failed.map laneKey) s) :=
  nextIf_holds (by simp [phase, open_])

/-- The journal is replayed (R465). -/
theorem execStartupPhase6End_config (phase : s.boot.phase = .config) :
    execStartupPhase6End s =
      .next (settle (reasonsAgain { replayJournal s.fw.journal (budgetSettle s) with boot.phase := .release })) :=
  settledIf_holds (by simp [phase])

/-- FW_STATE is READY (R462). -/
theorem execStartupPhase7End_release {t : State} (phase : s.boot.phase = .release) (ready : t = { s with boot.phase := .finished, fw.state := 1 }) :
    execStartupPhase7End s = .next (settle (if domUp t 35 then twinStart t else t)) := by
  subst ready
  exact settledIf_holds (by simp [phase])

/-- 8 s without READY, the other slot runs (R428). -/
theorem execBootReadyTimeout_fallsBack {k : Nat} (other : k = 1 - s.fw.slot) (starting : s.fw.state = 0)
    (phase : s.boot.phase = .firmware ∨ s.boot.phase = .domains ∨ s.boot.phase = .memLanes ∨ s.boot.phase = .config ∨ s.boot.phase = .release)
    (past : s.boot.imageAt + 8000000000 ≤ s.now) (first_ : s.boot.fellBack = false) (good : imageCheck s.fw (slotOf s.fw k) = 0) :
    execBootReadyTimeout s = .next (logAdd .image k (fallBack k { startOver s with fw.lastResult := 7 })) := by
  subst other
  have on : (s.boot.phase != .held && s.boot.phase != .always && s.boot.phase != .image && s.boot.phase != .finished) = true := by
    rcases phase with h | h | h | h | h <;> rw [h] <;> rfl
  have elapsed : decide (s.boot.imageAt + 8000000000 ≤ s.now) = true := decide_eq_true past
  exact nextIf_holds (by simp only [starting, on, elapsed, first_, good, beq_self_eq_true, Bool.and_self, Bool.not_false])

end Phases

section DomainEnds

variable {s : State} {d : Nat}

section SwitchesOpen

variable {dest : DomState} (opens : (domOf s d).sw = some (.out dest))

include opens

/-- A domain without a half of the memory is out of service (R468). -/
theorem switchesOpen_plain (plain : ¬ (32 ≤ d ∧ d < 34)) {t : State}
    (left : t = finishDomain d (modDom d (fun _ => { st := dest, up := false, sw := none }) s)) :
    switchesOpen d s = nextSwitch (t.power.queue.length + 1) t := by
  have cond : (decide (32 ≤ d) && decide (d < 34)) = false := by simpa using plain
  simp only [switchesOpen, opens, cond, Bool.false_eq_true, if_false, left]

/-- A half of the memory is out of service, with its content; off by command, its pseudo-channels leave S (R249, R468). -/
theorem switchesOpen_half (half : 32 ≤ d ∧ d < 34) {leave : State → State} {t : State}
    (leaves : leave = modDom d (fun _ => { st := dest, up := false, sw := none }))
    (left : t = finishDomain d (renewCopies (dropContent (fun p => 32 + p / 32 == d)
      (if dest = .offCmd then leaveS (halfPcs (d - 32)) false s leave else leave s)))) :
    switchesOpen d s = nextSwitch (t.power.queue.length + 1) t := by
  have cond : (decide (32 ≤ d) && decide (d < 34)) = true := by simpa using half
  simp only [switchesOpen, opens, cond, if_true, beq_iff_eq, left, leaves]

end SwitchesOpen

section BringUp

variable (rises : (domOf s d).sw = some .into)

include rises

/-- A domain is back (R469). -/
theorem bringUp_plain (plain : ¬ (32 ≤ d ∧ d < 34 ∧ (domOf s d).st = .offCmd)) {t : State} (back : t = finishDomain d (reportOn d s)) :
    bringUp d s = nextSwitch (t.power.queue.length + 1) t := by
  have cond : (decide (32 ≤ d) && decide (d < 34) && (domOf s d).st == .offCmd) = false := by simpa [and_assoc] using plain
  simp only [bringUp, rises, beq_self_eq_true, if_true, cond, Bool.false_eq_true, if_false, back]

/-- A half of the memory that was off by command is back, with its cells free (R469, R471). -/
theorem bringUp_half (half : 32 ≤ d ∧ d < 34 ∧ (domOf s d).st = .offCmd) {t : State}
    (back : t = finishDomain d (budgetResume (reportOn d (halfReturn (d - 32) s)))) :
    bringUp d s = nextSwitch (t.power.queue.length + 1) t := by
  have cond : (decide (32 ≤ d) && decide (d < 34) && (domOf s d).st == .offCmd) = true := by simpa [and_assoc] using half
  simp only [bringUp, rises, beq_self_eq_true, if_true, cond, back]

end BringUp

/-- A block's reset ends at its time (R474). -/
theorem execBlockResetEnd_over (b : Fin 8) (i : Fin 256)
    (elapsed : s.resets.any (fun r => r.blk == b.val && r.idx == i.val && decide (r.until_ ≤ s.now)) = true) :
    execBlockResetEnd b i s =
      .next (settle (finishWaiting (· == .resetBlock b.val i.val) .ok []
        (resetAfter b.val i.val { s with resets := s.resets.filter (fun r => !(r.blk == b.val && r.idx == i.val)) }))) :=
  settledIf_holds elapsed

/-- The MP is back (R20). -/
theorem execMpRestartComplete_back (restarting : s.fw.state = 2) (alone : s.fw.activation = none) :
    execMpRestartComplete s = .next (settle (mirrorResume (mpBack s))) :=
  settledIf_holds (by simp [restarting, alone])

end DomainEnds

/-- The evaluation of the pseudo-channels that left S ends: their queues are flushed, and what waited goes on (R249). -/
theorem retireEvaluate_ends {s : State} {l : List Nat} (some_ : s.pool.retiring ≠ []) (left : l = s.pool.retiring.map (·.pc)) :
    retireEvaluate s =
      (let t := renewCopies (foldS (s.pool.q.map (·.1)) (fun n u =>
         match queueAt u n with
         | some q => (match retireHit u q.chain with | some r => flushRetired n r u | none => u)
         | none => u) s)
       let t := budgetSettle (dropContent (fun p => l.contains p) { t with pool.retiring := [] })
       takeDeferred (t.fault.defer.length + 1) t) := by
  subst left
  rw [retireEvaluate]
  exact if_neg (by simpa using some_)

/-- Settles O33: under each clause's premises the event's condition holds. -/
theorem startupEventsComplete : Obligations.StartupEventsComplete := by
  intro s
  refine ⟨?porst, ?released, ?perst, ?perstReleased, ?always, ?runs, ?fallsBack, ?recovers, ?domains, ?fatal, ?up, ?memory, ?lanes, ?config,
    ?ready, ?timeout, ?opensPlain, ?opensHalf, ?risesPlain, ?risesHalf, ?reset, ?restart, ?retirement⟩
  case porst => rfl
  case released => exact fun strap rails low => execPorstNRelease_up strap rails low
  case perst =>
    rintro _ rfl
    rfl
  case perstReleased => rfl
  case always => exact fun phase => execStartupPhase1End_always phase
  case runs => exact fun r phase recorded good => execStartupPhase2End_runs phase recorded good
  case fallsBack => exact fun r phase recorded bad good => execStartupPhase2End_fallsBack phase recorded bad good
  case recovers => exact fun r phase recorded bad badToo => execStartupPhase2End_recovers phase recorded bad badToo
  case domains => exact fun phase clear => execStartupPhase3End_domains phase clear
  case fatal => exact fun a n phase latched => execStartupPhase3End_fatal phase latched
  case up => exact fun phase => execStartupPhase4End_domains phase
  case memory => exact fun pcs stackBits phase open_ => execStartupPhase5aEnd_trains pcs stackBits phase open_
  case lanes => exact fun failed phase open_ => execStartupPhase5bEnd_trains failed phase open_
  case config => exact fun phase => execStartupPhase6End_config phase
  case ready => exact fun t phase ready => execStartupPhase7End_release phase ready
  case timeout => exact fun k other starting phase past first_ good => execBootReadyTimeout_fallsBack other starting phase past first_ good
  case opensPlain =>
    rintro d dest _ opens plain rfl
    exact congrArg nextSettled (switchesOpen_plain opens plain rfl)
  case opensHalf =>
    intro d dest leave t opens half leaves left
    exact congrArg nextSettled (switchesOpen_half opens half leaves (left s))
  case risesPlain => exact fun d t rises plain back => congrArg nextSettled (bringUp_plain rises plain back)
  case risesHalf => exact fun d t rises half back => congrArg nextSettled (bringUp_half rises half back)
  case reset => exact fun b i elapsed => execBlockResetEnd_over b i elapsed
  case restart => exact fun restarting alone => execMpRestartComplete_back restarting alone
  case retirement => exact fun l some_ left => congrArg nextSettled (retireEvaluate_ends some_ left)

end Sys2Proof.Machine
end
